-- ==== Sys2Proof/Word.lean ====
section
/-! DEFINITION. The word and byte types of the module's packets and registers (R3, R4) and their plainest arithmetic. -/
set_option autoImplicit false

namespace Sys2Proof

/-- A 32-bit packet or register word (R4: little-endian; bit 0 is the least significant bit). -/
abbrev Word := BitVec 32

/-- One byte. -/
abbrev Byte := BitVec 8

/-- The word that holds a natural number modulo 2^32. -/
def wordOf (n : Nat) : Word := BitVec.ofNat 32 n

/-- The word that holds an integer in two's complement. -/
def wordOfInt (i : Int) : Word := BitVec.ofInt 32 i

/-- The byte that holds a natural number modulo 2^8. -/
def byteOf (n : Nat) : Byte := BitVec.ofNat 8 n

/-- Nanoseconds of one second (R3). -/
def nsPerSec : Nat := 1000000000

end Sys2Proof
end

