-- ==== Sys2Proof/Machine/CoreTypes.lean ====
section
/-! DEFINITION. Plain-data types shared by the whole machine: index tables, members of the family (chapter 00),
status codes (R52), packets held in the module (R29-R60), queue pairs (chapter 03) and what leaves the module. -/
set_option autoImplicit false

namespace Sys2Proof.Machine

/-- A table indexed by number: pairs of index and value, indexes strictly rising. An index not listed holds the
table's initial value, which the reader of the table names. -/
abbrev Tab (α : Type) := List (Nat × α)

/-- The members of the family (chapter 00, Family parameters). -/
inductive Member
  | pvs7008 | pvs7032 | pvs7128
  deriving DecidableEq, Repr

/-- The status codes of R52. -/
inductive Status
  | ok | accepted | badOpcode | badLength | lengthExceeds | badParam | range
  | busy | late | notReady | state | denied | auth | rollback | binding
  | noResource | overflow | markLost | stopped | fault | standby
  deriving DecidableEq, Repr

/-- Where the responses and completions of a network command go (R58, R326): key index, source address (32-bit IPv4 or
128-bit IPv6), UDP port, whether the source is an IPv6 one, and the source MAC and VID of the frame. -/
structure NetSrc where
  key : Nat
  addr : Nat
  port : Nat
  ip6 : Bool
  mac : Nat := 0
  vid : Nat := 1
  deriving DecidableEq, Repr

/-- A command packet as the module holds it after reception (R29-R37): its header fields, where it came from, its
acceptance timestamp, and the number that identifies it on its queue. It is also the handle by which its response
or completion is sent. -/
structure Req where
  /-- opcode of word 0 [31:20] -/
  op : Nat
  /-- queue: 0-15 = QP, 16 = network queue (R60) -/
  q : Nat
  /-- how often the queue pair had been emptied by R74 when the packet came -/
  epoch : Nat
  tag : Word
  ev : Bool
  at_ : Bool
  nr : Bool
  ch : Bool
  /-- LENGTH of word 0 [15:0] -/
  len : Nat
  /-- execute-at time, ns of device time (words 2-3 when AT = 1) -/
  execAt : Nat
  /-- the parameter words from P+0 on -/
  params : List Word
  /-- acceptance timestamp (R37), ns of device time -/
  stamp : Nat
  /-- number of the packet on its queue, in order of reception -/
  pid : Nat
  /-- host job that runs this packet (R315), if any -/
  job : Option Nat
  /-- source of a network command (R58) -/
  net : Option NetSrc
  /-- the action ran late (R44) -/
  late : Bool
  /-- answered ST_ACCEPTED: its end is a completion event (R43) -/
  accepted : Bool
  /-- its action takes effect at the next input snapshot (R17), whose time its completion carries (R55) -/
  eff : Bool
  deriving DecidableEq, Repr

/-- A packet whose end is still to come but which nobody issued: the handle of work the module began itself. -/
def Req.none : Req :=
  { op := 0, q := 17, epoch := 0, tag := 0, ev := false, at_ := false, nr := true, ch := false, len := 2,
    execAt := 0, params := [], stamp := 0, pid := 0, job := Option.none, net := Option.none, late := false,
    accepted := false, eff := false }

/-- A chained command that waits (R34): the number of the packet it waits on, and that packet's final status once it
is known (`some true` = ST_OK). -/
structure Waiter where
  req : Req
  pred : Nat
  outcome : Option Bool
  deriving DecidableEq, Repr

/-- The chain of a queue (R34, R36): the number of the last packet that is no stop, its final status once known, and
the commands that wait, oldest first (at most 32, R35). -/
structure Chain where
  nextPid : Nat
  lastPid : Nat
  lastOk : Option Bool
  waiters : List Waiter
  deriving DecidableEq, Repr

def Chain.init : Chain := { nextPid := 1, lastPid := 0, lastOk := some true, waiters := [] }

/-- An item of the command FIFO in the order written (R66, R67, R69): an entry of one to four words (how many it was
written with, and those the interpreter has not read yet), a doorbell boundary, or the place of a word dropped beyond
the credit limit. -/
inductive FifoItem
  | entry (n : Nat) (ws : List Word)
  | bell
  | cut
  deriving DecidableEq, Repr

/-- Why the interpreter discards words up to the next doorbell boundary (R48, R69). -/
inductive Purge
  /-- R48: the offending header, the word that followed it once read, the words discarded so far -/
  | exceeds (header : Word) (next : Option Word) (count : Nat)
  /-- R69: the rest after a credit violation -/
  | credit
  deriving DecidableEq, Repr

/-- A word on the event side with its READ_PORT marks (R70). -/
structure EvWord where
  word : Word
  sop : Bool
  eop : Bool
  deriving DecidableEq, Repr

/-- One watermark's sticky figures (R77). -/
structure Mark where
  flag : Bool
  peak : Nat
  xcnt : Nat
  deriving DecidableEq, Repr

/-- The W1C flags of QUE_STAT that carry an occurrence counter (R76), in bit order. -/
inductive QueFlag
  | credViol | wrFmt | rdFmt | evtDrop | strandDisc | ptrFault
  deriving DecidableEq, Repr

/-- The ten counters of GET_COUNTERS SET 0 (R83), in word order. -/
structure QueCounters where
  wordsTaken : Nat
  accepted : Nat
  badLength : Nat
  exceeds : Nat
  purged : Nat
  strandDisc : Nat
  credViol : Nat
  disabledWrites : Nat
  evtDrops : Nat
  ptrFaults : Nat
  deriving DecidableEq, Repr

def QueCounters.zero : QueCounters :=
  { wordsTaken := 0, accepted := 0, badLength := 0, exceeds := 0, purged := 0, strandDisc := 0, credViol := 0,
    disabledWrites := 0, evtDrops := 0, ptrFaults := 0 }

/-- The command side of a queue pair (R65-R69). -/
structure CmdSide where
  /-- entries and boundaries visible to the interpreter -/
  vis : List FifoItem
  /-- full entries and marks written since the last doorbell -/
  inv : List FifoItem
  /-- the words of the entry being filled -/
  open_ : List Word
  /-- words of the packet the interpreter has begun -/
  part : List Word
  purge : Option Purge
  /-- a write was dropped: the words up to the next doorbell are discarded (R69) -/
  dropping : Bool
  /-- a command held for room on the event side (R71) -/
  held : Option Req
  credLimit : Word
  wordsTaken : Word
  /-- time since power-on at which the strand timer last started, while it runs (R68) -/
  strandAt : Option Nat
  wm : Mark
  deriving DecidableEq, Repr

def CmdSide.init : CmdSide :=
  { vis := [], inv := [], open_ := [], part := [], purge := none, dropping := false, held := none,
    credLimit := 1024, wordsTaken := 0, strandAt := none, wm := { flag := false, peak := 0, xcnt := 0 } }

/-- The event side of a queue pair (R70-R73). -/
structure EvtSide where
  words : List EvWord
  /-- responses and completion events that wait for room, in order (R71) -/
  waiting : List (List Word)
  evseq : Word
  wm : Mark
  /-- packets counted towards the next setting of INT_STAT (R73) -/
  coalCount : Nat
  /-- time since power-on at which the coalescing timer started -/
  coalAt : Option Nat
  deriving DecidableEq, Repr

def EvtSide.init : EvtSide :=
  { words := [], waiting := [], evseq := 0, wm := { flag := false, peak := 0, xcnt := 0 }, coalCount := 0,
    coalAt := none }

/-- A queue pair QP[k] (chapter 03): its registers and both sides. -/
structure Queue where
  en : Bool
  /-- CTRL.MODE: push mode -/
  push : Bool
  /-- CTRL.STRAND, 10 us units -/
  strand : Nat
  cmd : CmdSide
  evt : EvtSide
  /-- STAT bits 0-5 -/
  credViol : Bool
  wrFmt : Bool
  rdFmt : Bool
  evtDrop : Bool
  strandDisc : Bool
  ptrFault : Bool
  faulted : Bool
  /-- occurrence counters of STAT bits 0-5, bit order -/
  occ : List Nat
  wmCmdCfg : Nat
  wmEvtCfg : Nat
  coalCfgCount : Nat
  coalCfgTime : Nat
  ringBase : Nat
  ringLog2 : Nat
  ringHead : Nat
  ringTail : Nat
  wbAddr : Nat
  /-- times the pair was emptied by R74 -/
  epoch : Nat
  cnt : QueCounters
  deriving DecidableEq, Repr

def Queue.init : Queue :=
  { en := false, push := false, strand := 100, cmd := CmdSide.init, evt := EvtSide.init, credViol := false,
    wrFmt := false, rdFmt := false, evtDrop := false, strandDisc := false, ptrFault := false, faulted := false,
    occ := [0, 0, 0, 0, 0, 0], wmCmdCfg := 768, wmEvtCfg := 3072, coalCfgCount := 1, coalCfgTime := 0,
    ringBase := 0, ringLog2 := 12, ringHead := 0, ringTail := 0, wbAddr := 0, epoch := 0,
    cnt := QueCounters.zero }

/-- One entry of the MSI-X table (BAR0 0x6000). -/
structure MsixEntry where
  addr : Nat
  data : Word
  masked : Bool
  deriving DecidableEq, Repr

def MsixEntry.init : MsixEntry := { addr := 0, data := 0, masked := true }

/-- The replay window and the module's own sequence of one management key (R57, R58, R432). -/
structure MgmtKey where
  key : Option Nat
  highest : Nat
  /-- SEQ values below the highest that were seen, within the 64-entry window -/
  seen : List Nat
  ownSeq : Nat
  deriving DecidableEq, Repr

def MgmtKey.init : MgmtKey := { key := none, highest := 0, seen := [], ownSeq := 1 }

/-- The six security counters of GET_COUNTERS SET 1 (R83), in word order. -/
structure SecCounters where
  dropLength : Nat
  dropFormat : Nat
  dropMac : Nat
  replays : Nat
  accepted : Nat
  denied : Nat
  deriving DecidableEq, Repr

/-- The PCI Express figures of GET_COUNTERS SET 2 (R62, R83). -/
structure PcieCounters where
  width : Nat
  gen : Nat
  ce : Nat
  ue : Nat
  replays : Nat
  retrains : Nat
  malformed : Nat
  deriving DecidableEq, Repr

/-- One region descriptor of an access table (chapter 19). -/
structure AclDesc where
  base : Nat
  limit : Nat
  perm : Nat
  valid : Bool
  lock : Bool
  deriving DecidableEq, Repr

def AclDesc.init : AclDesc := { base := 0, limit := 0, perm := 0, valid := false, lock := false }

/-- A record of the event recorder (chapter 16): header fields, payload bytes, and its byte offset in the ring. -/
structure Rec where
  truncated : Bool
  host : Bool
  timeRaw : Bool
  audit : Bool
  code : Nat
  seq : Nat
  opTime : Nat
  cycles : Nat
  payload : List Byte
  offset : Nat
  /-- an uncorrectable error lies in it: its CRC fails (R433) -/
  crcBad : Bool
  deriving DecidableEq, Repr

/-- An event staged for recording (R379, R380): everything of the record that is fixed at its happening. -/
structure Staged where
  code : Nat
  host : Bool
  timeRaw : Bool
  payload : List Byte
  deriving DecidableEq, Repr

/-- One ring of the recorder (R373, R376): the records held, oldest first, the sequence of the last record committed,
and the offset at which the next record goes. -/
structure Ring where
  recs : List Rec
  lastSeq : Nat
  writeOff : Nat
  deriving DecidableEq, Repr

def Ring.init : Ring := { recs := [], lastSeq := 0, writeOff := 0 }

/-- A recorder mark (R383): its class, the sequence of the next record to read, and whether REC_MARK or a read has
placed it on a record that is still held. -/
structure RMark where
  audit : Bool
  seq : Nat
  valid : Bool
  deriving DecidableEq, Repr

/-- An audit snapshot (R385): open or ended, its range, and the next sequence to return. -/
structure Snap where
  open_ : Bool
  ended : Bool
  first : Nat
  last : Nat
  next : Nat
  deriving DecidableEq, Repr

def Snap.init : Snap := { open_ := false, ended := false, first := 0, last := 0, next := 0 }

/-- The count of records not written of one code and cause (R379, R381, R382). -/
structure Suppressed where
  code : Nat
  cause : Nat
  count : Nat
  deriving DecidableEq, Repr

/-- The record that the recorder is writing (R378): its class, its contents (formed at its end where it is
EV_AUDIT_OVERFLOW), and the time since power-on at which the writing began. -/
structure Writing where
  audit : Bool
  overflow : Bool
  entry : Staged
  since : Nat
  deriving DecidableEq, Repr

/-- The event recorder (chapter 16). -/
structure Recorder where
  audit : Ring
  diag : Ring
  /-- staging FIFOs, oldest first: at most 16 audit and 64 diagnostic entries -/
  audFifo : List Staged
  diagFifo : List Staged
  /-- audit events whose job waits for room in the audit FIFO, each with the time since power-on from which (R380) -/
  audWait : List (Staged × Nat)
  writing : Option Writing
  /-- EV_REC_SUPPRESSED records that wait for the record in progress, and the second last summarised (R382) -/
  summary : List Staged
  summedAt : Nat
  /-- audit events lost: number, first and last code, device time of the first loss (R380) -/
  lost : Nat
  lostFirst : Nat
  lostLast : Nat
  lostTime : Nat
  /-- audit records staged before the first loss and not yet committed -/
  lostAfter : Nat
  /-- LIMITs set by REC_CFG; other codes have the reset LIMIT (R381) -/
  limits : Tab Nat
  /-- occurrences of each code in the present second (R381) -/
  perSec : Tab Nat
  perSecOf : Nat
  suppressed : List Suppressed
  marks : List RMark
  snaps : List Snap
  /-- operating time in 1/4096 h and the count of nanoseconds towards the next unit (R375) -/
  opTime : Nat
  opFrac : Nat
  cycles : Nat
  audOverflows : Nat
  deriving DecidableEq, Repr

def Recorder.init : Recorder :=
  { audit := Ring.init, diag := Ring.init, audFifo := [], diagFifo := [], audWait := [], writing := none, summary := [], summedAt := 0,
    lost := 0, lostFirst := 0,
    lostLast := 0, lostTime := 0, lostAfter := 0, limits := [], perSec := [], perSecOf := 0, suppressed := [],
    marks := List.replicate 8 { audit := false, seq := 1, valid := true }, snaps := List.replicate 4 Snap.init,
    opTime := 0, opFrac := 0, cycles := 0, audOverflows := 0 }

/-- The configuration session (R430-R432): the key, the challenge or open session, and the failed proofs. -/
structure CfgSession where
  key : Option Nat
  /-- 0 none, 1 challenged, 2 open -/
  phase : Nat
  owner : Nat
  master : Nat
  session : Nat
  nonce : Nat
  /-- time since power-on at which the nonce was drawn -/
  nonceAt : Nat
  lastUse : Nat
  /-- times since power-on of the failed proofs of the last 60 s -/
  fails : List Nat
  /-- time since power-on until which OP 1 and OP 2 are refused -/
  lockedUntil : Nat
  deriving DecidableEq, Repr

def CfgSession.init : CfgSession :=
  { key := none, phase := 0, owner := 0, master := 0, session := 0, nonce := 0, nonceAt := 0, lastUse := 0,
    fails := [], lockedUntil := 0 }

/-- A denial counted for a master and target in the present second (R429). -/
structure Denial where
  master : Nat
  target : Nat
  access : Nat
  offset : Nat
  /-- denials after the first in this second -/
  more : Nat
  deriving DecidableEq, Repr

/-- The ECC figures of one memory (R433, HEALTH_GET section 1). -/
structure EccMem where
  ce : Nat
  ue : Nat
  /-- times (ns since power-on) and rows of the corrected errors of the last 24 h -/
  recent : List (Nat × Nat)
  sparesUsed : Nat
  rowsLost : Nat
  scrubEnd : Nat
  deriving DecidableEq, Repr

def EccMem.init : EccMem := { ce := 0, ue := 0, recent := [], sparesUsed := 0, rowsLost := 0, scrubEnd := 0 }

/-- One pool of spare units (R434): units in service lost without replacement, spares already used or failed. -/
structure Pool where
  /-- spares not yet used and not marked failed -/
  spares : Nat
  /-- spares marked failed by a test but still in the pool's numbering -/
  failed : Nat
  lost : Nat
  deriving DecidableEq, Repr

/-- Margin re-planning (R435, R436). -/
structure Margins where
  sC : Nat
  sS : Nat
  vcore : Nat
  guardReplan : Nat
  solveMhz : Nat
  /-- f to take force at a whole second, and that second -/
  solvePending : Option (Nat × Nat)
  ageingMeas : Int
  /-- the least AGEING that re-planning allows, ppt per day -/
  ageing : Nat
  replans : Nat
  cause : Nat
  replanAt : Nat
  exhausted : Bool
  replanned : Bool
  deriving DecidableEq, Repr

/-- Health monitors (chapter 19, chapter 20). -/
structure Health where
  mems : Tab EccMem
  /-- spare lanes per cluster 0-3 -/
  lanePools : List Pool
  chanPool : Pool
  margins : Margins
  /-- causes of re-planning that wait (1 a quarantine, 2 a spare failure), and the hour of operating time last planned for -/
  replanDue : List Nat
  replanHour : Nat
  lidTemp : Int
  lidTempMax : Int
  vin : Nat
  ueSeen : Bool
  spareFailed : Bool
  /-- a self-test that runs: its command and MASK -/
  selftest : Option (Req × Nat)
  selftestAt : Nat
  thermWarn : Bool
  /-- time since power-on at which the lid left its range (R457) -/
  tempOutSince : Option Nat
  /-- the lid temperature holds ICODE 5 -/
  tempFault : Bool
  fTherm : Nat
  throttleAt : Nat
  deriving DecidableEq, Repr

end Sys2Proof.Machine
end

