-- ==== Sys2Proof/Machine/GnssTypes.lean ====
section
/-! DEFINITION. The state of GNSS signal processing (chapter 04) and of navigation data, corrections and antenna
integrity (chapter 05). -/
set_option autoImplicit false

namespace Sys2Proof.Machine

/-- A notch filter (R88): MODE 0 off, 1 fixed, 2 adaptive; width 10 kHz; offset Hz; the locked offset. -/
structure Notch where
  mode : Nat
  width : Nat
  freq : Int
  locked : Option Int
  deriving DecidableEq, Repr

def Notch.init : Notch := { mode := 0, width := 1, freq := 0, locked := none }

/-- A band chain (R86, R87): settings, present gain (0.5 dB), samples still to be blanked, and the figures of the
milliseconds of the last second, newest first: samples at full scale, blanked, taken. -/
structure Chain4 where
  en : Bool
  agcFixed : Bool
  gain : Nat
  agcTarget : Nat
  blankEn : Bool
  blankThr : Nat
  blankHold : Nat
  gainNow : Nat
  blankLeft : Nat
  figures : List (Nat × Nat × Nat)
  notches : Tab Notch
  deriving DecidableEq, Repr

def Chain4.init : Chain4 :=
  { en := true, agcFixed := false, gain := 0, agcTarget := 24, blankEn := true, blankThr := 45, blankHold := 10,
    gainNow := 0, blankLeft := 0, figures := [], notches := [] }

/-- A figure per million samples over the last second. -/
def ppm (sel : Nat × Nat × Nat → Nat) (l : List (Nat × Nat × Nat)) : Nat :=
  (l.map sel).sum * 1000000 / max 1 (l.map (fun p => p.2.2)).sum

def Chain4.clipPpm (c : Chain4) : Nat := ppm (fun p => p.1) c.figures

def Chain4.blankPpm (c : Chain4) : Nat := ppm (fun p => p.2.1) c.figures

/-- Loop bandwidths of a signal (R100): 0.01 Hz, 0.1 Hz, 0.1 Hz. -/
structure LoopBw where
  dll : Nat
  pll : Nat
  fll : Nat
  deriving DecidableEq, Repr

def LoopBw.init : LoopBw := { dll := 50, pll := 150, fll := 100 }

/-- Channel states, codes 0-6 (R97). -/
inductive ChanState
  | idle | acq | pullIn | track | reacq | disabled | retired
  deriving DecidableEq, Repr

/-- A complex correlator value: in-phase and quadrature sums of 1 ms. -/
structure Cplx where
  i : Int
  q : Int
  deriving DecidableEq, Repr

/-- One 1 ms dump of a channel's five correlators (R93). -/
structure Dump where
  early : Cplx
  prompt : Cplx
  late : Cplx
  veryEarly : Cplx
  veryLate : Cplx
  deriving DecidableEq, Repr

/-- One correlator channel (R93-R99, R103). -/
structure Channel where
  state : ChanState
  ant : Bool
  sig : Nat
  k : Nat
  svid : Nat
  pinned : Bool
  /-- INTEG code set (0 automatic) and in force (1-5) -/
  integ : Nat
  integNow : Nat
  spacing : Nat
  monSpacing : Nat
  doppler : Int
  cn0 : Nat
  halfUnres : Bool
  halfApplied : Bool
  lockTime : Nat
  /-- dumps of this lock, newest first, at most 40; cos 2 delta-phi of its last 20; symmetry and ratio of its last 1,000,
  2^-15 -/
  dumps : List Dump
  cosines : List Int
  monitors : List (Int × Int)
  slipCount : Nat
  /-- a slip since the last 20 Hz epoch, since the last host-rate epoch -/
  slip20 : Bool
  slipHost : Bool
  /-- consecutive milliseconds for which the conditions of the transition table held; time since power-on at which
  the present search state was entered -/
  goodMs : Nat
  badMs : Nat
  weakMs : Nat
  searchSince : Nat
  /-- code phase of the hand-off, 2^-16 chip (R90) -/
  codePhase : Nat
  /-- a Doppler hint or prediction for the search -/
  predicted : Option Int
  /-- once bits are synchronised: dumps since the last bit edge, the edge's own counted -/
  sinceEdge : Option Nat
  /-- device time since which the polarity of this lock's data has been known -/
  polarityAt : Option Nat
  deriving DecidableEq, Repr

def Channel.init : Channel :=
  { state := .idle, ant := false, sig := 0, k := 0, svid := 0, pinned := false, integ := 0, integNow := 1,
    spacing := 8, monSpacing := 64, doppler := 0, cn0 := 0, halfUnres := false, halfApplied := false,
    lockTime := 0, dumps := [], cosines := [], monitors := [], slipCount := 0, slip20 := false, slipHost := false,
    goodMs := 0, badMs := 0, weakMs := 0, searchSince := 0, codePhase := 0, predicted := none, sinceEdge := none,
    polarityAt := none }

/-- Mean of a list of figures, 0 of none. -/
def meanInt (l : List Int) : Int := if l.isEmpty then 0 else (2 * l.sum + l.length) / (2 * (l.length : Int))

/-- The lock indicator (R97) and the monitor figures (R94) as averaged. -/
def Channel.lockInd (c : Channel) : Int := meanInt c.cosines

def Channel.monSym (c : Channel) : Int := meanInt (c.monitors.map (fun p => p.1))

def Channel.monRatio (c : Channel) : Int := meanInt (c.monitors.map (fun p => p.2))

/-- A signal of the signal codes table (R89): chip rate and nominal carrier in Hz (the carrier of GLONASS at k = 0),
default E-L spacing in 1/64 chip, whether the tracked component carries data, band, and system (0 GPS, 1 GLONASS,
2 Galileo, 3 BeiDou, 4 QZSS, 5 SBAS). Carrier frequencies: PRESUMED, from the public interface documents. -/
structure SigInfo where
  chip : Nat
  carrier : Nat
  spacing : Nat
  data : Bool
  band : Nat
  sys : Nat
  deriving DecidableEq, Repr

/-- The signal codes table (R89). -/
def sigInfo (sig : Nat) : SigInfo :=
  let i := fun (chip carrier spacing : Nat) (data : Bool) (band sys : Nat) =>
    ({ chip := chip, carrier := carrier, spacing := spacing, data := data, band := band, sys := sys } : SigInfo)
  match sig with
  | 0 => i 1023000 1575420000 8 true 0 0
  | 1 => i 1023000 1575420000 16 false 0 0
  | 2 => i 1023000 1227600000 8 false 1 0
  | 3 => i 10230000 1176450000 32 false 2 0
  | 4 => i 511000 1602000000 8 true 0 1
  | 5 => i 511000 1246000000 8 true 1 1
  | 6 => i 1023000 1575420000 16 false 0 2
  | 7 => i 10230000 1176450000 32 false 2 2
  | 8 => i 10230000 1207140000 32 false 2 2
  | 9 => i 5115000 1278750000 32 false 3 2
  | 10 => i 2046000 1561098000 8 true 0 3
  | 11 => i 1023000 1575420000 16 false 0 3
  | 12 => i 10230000 1176450000 32 false 2 3
  | 13 => i 10230000 1268520000 32 true 3 3
  | 14 => i 1023000 1575420000 8 true 0 4
  | 15 => i 1023000 1575420000 16 false 0 4
  | 16 => i 1023000 1227600000 8 false 1 4
  | 17 => i 10230000 1176450000 32 false 2 4
  | 18 => i 5115000 1278750000 32 true 3 4
  | 19 => i 1023000 1575420000 8 true 0 5
  | _ => i 10230000 1176450000 32 false 2 5

/-- A channel holds a lock (PULL_IN or TRACK). -/
def chanLocked (st : ChanState) : Bool := decide (st = .pullIn) || decide (st = .track)

/-- A channel is in use: assigned to a signal. -/
def chanUsed (st : ChanState) : Bool := chanLocked st || decide (st = .acq) || decide (st = .reacq)

/-- The satellites that channels track, each once. -/
def satsOf (t : Tab Channel) : List (Nat × Nat) :=
  t.foldl (fun l p =>
    let k := ((sigInfo p.2.sig).sys, p.2.svid)
    if chanLocked p.2.state && !l.contains k then l ++ [k] else l) []

/-- States of the antenna bias (R85), codes 0-3. -/
inductive BiasState
  | off | ok | open_ | short
  deriving DecidableEq, Repr

/-- One antenna input (R85). -/
structure Antenna where
  biasEn : Bool
  cableDelay : Int
  bias : BiasState
  current : Nat
  voltage : Nat
  /-- time since power-on at which the bias was last switched on -/
  onSince : Nat
  /-- switched off by SHORT: time since power-on of the next retry, and retries made -/
  retryAt : Option Nat
  retries : Nat
  deriving DecidableEq, Repr

def Antenna.init : Antenna :=
  { biasEn := true, cableDelay := 0, bias := .off, current := 0, voltage := 0, onSince := 0, retryAt := none, retries := 0 }

/-- An inter-system offset (R105): MODE, value ps, sigma 10 ps, VALID, seconds without two satellites, the filter's
state (600 times the estimate), and the value of the system's navigation message. -/
structure Isb where
  mode : Nat
  fixed : Int
  value : Int
  sigma : Nat
  valid : Bool
  age : Nat
  filter : Int
  broadcast : Option Int
  deriving DecidableEq, Repr

def Isb.init : Isb :=
  { mode := 0, fixed := 0, value := 0, sigma := 0, valid := false, age := 0, filter := 0, broadcast := none }

/-- An observation record (chapter 04, 8 words). -/
structure Obs where
  channel : Nat
  sig : Nat
  ant : Bool
  svid : Nat
  k : Nat
  pr : Nat
  prValid : Bool
  phValid : Bool
  halfUnres : Bool
  halfApplied : Bool
  slip : Bool
  belowMask : Bool
  excluded : Bool
  slipCount : Nat
  phase : Int
  doppler : Int
  cn0 : Nat
  monSym : Int
  lockTime : Nat
  deriving DecidableEq, Repr

/-- A point in the frame of the ARP, mm, ECEF. -/
abbrev Ecef := Int × Int × Int

/-- A record with the place of its satellite at transmission, as its navigation data give it; none where the module holds
none. -/
structure SatObs where
  rec_ : Obs
  sat : Option Ecef
  deriving DecidableEq, Repr

/-- A measurement epoch (R101, R115): device time, clock figures, records in channel order. -/
structure ObsEpoch where
  time : Nat
  clkBias : Int
  clkDrift : Int
  recs : List Obs
  deriving DecidableEq, Repr

/-- Survey-in or baseline survey in progress (R108, R110). -/
structure Survey where
  req : Req
  minDur : Nat
  accLimit : Nat
  pcoUp : Nat
  elapsed : Nat
  /-- sums of the solution's coordinates in mm and the number of epochs -/
  sumX : Int
  sumY : Int
  sumZ : Int
  count : Nat
  /-- sum of the squares of the solutions' sigmas, mm^2 -/
  sumVar : Nat
  /-- baseline survey: epochs with a fixed solution -/
  good : Nat
  deriving DecidableEq, Repr

/-- An observation subscription (R115). -/
structure ObsSub where
  antMask : Nat
  sysMask : Nat
  tag : Word
  deriving DecidableEq, Repr

/-- The antenna reference point (R107). -/
structure Arp where
  x : Int
  y : Int
  z : Int
  sigma : Nat
  surveyed : Bool
  deriving DecidableEq, Repr

/-- Actions of GNSS commands that take effect at the next millisecond boundary (R112). -/
inductive GnssAct
  | general (sigEn obsRate mask : Nat)
  | chainSet (ant : Bool) (band : Nat) (c : Chain4)
  | notchSet (ant : Bool) (band idx : Nat) (n : Notch)
  | bandwidth (sig : Nat) (b : LoopBw)
  | release (chan : Nat)
  | pin (chan : Nat) (ant : Bool) (sig k integ svid spacing mon : Nat) (hint : Option Int)
  | disable (chan : Nat)
  | adjust (chan integ spacing mon : Nat)
  | arpSet (a : Option Arp)
  | surveyIn (s : Survey)
  | baseline (s : Survey)
  | antenna (ant : Bool) (en : Bool) (delay : Int)
  | isb (sys mode : Nat) (value : Int)
  | obsSub (q : Nat) (sub : Option ObsSub)
  | navSub (q : Nat) (on : Bool) (sysMask : Nat) (failed : Bool) (unitMask : Nat) (tag : Word)
  deriving DecidableEq, Repr

/-- A code observation of the module's own solution (R105): the system and satellite, the code or ionosphere-free
combination in 2^-6 mm with the system's offset removed where it is applied, the satellite's place. -/
structure PvtCode where
  sys : Nat
  svid : Nat
  pr : Int
  sat : Ecef
  deriving DecidableEq, Repr

/-- What the module's own solution goes by: its codes, the systems whose offset is a state of the solution, the
ephemerides, and the ARP. -/
structure PvtIn where
  codes : List PvtCode
  estimated : List Nat
  ephemeris : List (Nat × Nat × Nat × List Nat)
  arp : Option Ecef
  deriving DecidableEq, Repr

/-- What it gives: the position and its sigma, mm; the clock offset, ps, and its drift, ps/s; per estimated system the
offset, ps, and its sigma, 10 ps. -/
structure PvtOut where
  pos : Ecef
  sigma : Nat
  clkBias : Int
  clkDrift : Int
  offset : Nat → Int
  offsetSigma : Nat → Nat
  deriving Inhabited

/-- GNSS signal processing. -/
structure Gnss where
  sigEn : Nat
  obsRate : Nat
  mask : Nat
  /-- chains by 4 * ant + band: settings last written are in force after the queued actions -/
  chains : Tab Chain4
  bws : Tab LoopBw
  antennas : List Antenna
  channels : Tab Channel
  /-- signals deferred for 60 s after a failed search: ant, sig, svid, k, time since power-on -/
  deferred : List (Bool × Nat × Nat × Nat × Nat)
  isbs : Tab Isb
  arp : Option Arp
  arpPending : Option Arp
  survey : Option Survey
  baseline : Option Survey
  /-- baseline vector of ANT_B, mm, and sigma 0.1 mm; state 0 NONE, 2 SURVEYED, 3 FAILED -/
  blE : Int
  blN : Int
  blU : Int
  blSigma : Nat
  blState : Nat
  blReq : Option Req
  elapsed : Nat
  epochs : List ObsEpoch
  subs : Tab ObsSub
  clkBias : Int
  clkDrift : Int
  /-- the last solution's position, and the ANT_A and ANT_B records of the last 50 ms epoch -/
  pos : Option Ecef
  ownRecs : List SatObs
  /-- device times of the last millisecond evaluated, measurement epoch, notch search, assignment and solution -/
  lastMs : Nat
  lastEpoch : Nat
  lastNotch : Nat
  lastAssign : Nat
  lastPvt : Nat
  /-- satellites used by the last solution -/
  pvtSats : Nat
  spares : Nat
  /-- ephemerides and almanac units stored in MRAM, by SIG, SVID and UNIT -/
  ephemeris : List (Nat × Nat × Nat × List Nat)
  acts : List GnssAct
  deriving DecidableEq, Repr

def Gnss.init (spares : Nat) : Gnss :=
  { sigEn := 0x1FFFFF, obsRate := 1, mask := 10, chains := [], bws := [], antennas := [Antenna.init, Antenna.init],
    channels := [], deferred := [], isbs := [], arp := none, arpPending := none, survey := none, baseline := none,
    blE := 0, blN := 0, blU := 0, blSigma := 0, blState := 0, blReq := none, elapsed := 0, epochs := [], subs := [],
    clkBias := 0, clkDrift := 0, pos := none, ownRecs := [], lastMs := 0, lastEpoch := 0, lastNotch := 0, lastAssign := 0, lastPvt := 0,
    pvtSats := 0, spares := spares, ephemeris := [], acts := [] }

/-- A navigation subscription (R118) and the queue pair's counts. -/
structure NavSub where
  on : Bool
  sysMask : Nat
  failed : Bool
  unitMask : Nat
  tag : Word
  delivered : Nat
  discarded : Nat
  deriving DecidableEq, Repr

def NavSub.init : NavSub :=
  { on := false, sysMask := 0, failed := false, unitMask := 0, tag := 0, delivered := 0, discarded := 0 }

/-- Settings of a correction stream (CORR_STREAM_CFG section 0). -/
structure StreamCfg where
  en : Bool
  baud : Nat
  msmType : Nat
  msmRate : Nat
  sysMask : Nat
  elevMask : Nat
  station : Nat
  arpPeriod : Nat
  arpMsg : Nat
  descPeriod : Nat
  descMsg : Nat
  biasPeriod : Nat
  rhMask : Nat
  antHeight : Nat
  deriving DecidableEq, Repr

def StreamCfg.init : StreamCfg :=
  { en := false, baud := 4, msmType := 2, msmRate := 0, sysMask := 31, elevMask := 0, station := 0, arpPeriod := 10,
    arpMsg := 1, descPeriod := 30, descMsg := 2, biasPeriod := 10, rhMask := 0, antHeight := 0 }

/-- STREAM 2 at reset: BAUD must be 0. -/
def StreamCfg.init2 : StreamCfg := { StreamCfg.init with baud := 0 }

/-- STATE of a stream, codes 0-3. -/
inductive StreamState
  | off | waitArp | run | paused
  deriving DecidableEq, Repr

/-- A correction stream. -/
structure Stream where
  cfgSet : StreamCfg
  cfg : StreamCfg
  state : StreamState
  /-- bytes waiting in the UART FIFO, at most 8 KiB -/
  fifo : List Byte
  messages : Nat
  bytes : Nat
  dropped : Nat
  sats : Nat
  cells : Nat
  lastLatency : Nat
  maxLatency : Nat
  /-- stationary messages owed: ARP, descriptor, biases -/
  oweArp : Bool
  oweDesc : Bool
  oweBias : Bool
  /-- epochs whose first byte has not yet left: bytes ahead of it, and the epoch's device time -/
  latencyFrom : List (Nat × Nat)
  deriving DecidableEq, Repr

def Stream.init (k : Nat) : Stream :=
  { cfgSet := if k = 2 then StreamCfg.init2 else StreamCfg.init, cfg := if k = 2 then StreamCfg.init2 else StreamCfg.init,
    state := .off, fifo := [], messages := 0, bytes := 0, dropped := 0, sats := 0, cells := 0, lastLatency := 0,
    maxLatency := 0, oweArp := false, oweDesc := false, oweBias := false, latencyFrom := [] }

/-- A shared descriptor (CORR_STREAM_CFG section 1). -/
structure Descr where
  len : Nat
  setup : Nat
  text : List Byte
  deriving DecidableEq, Repr

def Descr.init : Descr := { len := 0, setup := 0, text := [] }

/-- GNSS_INTEGRITY_CFG settings. -/
structure IntegCfg where
  action : Nat
  ddEn : Bool
  resThr : Nat
  spoofFrac : Nat
  alarmEpochs : Nat
  inflate : Nat
  powerDelta : Nat
  sqmThr : Nat
  clkJump : Nat
  deriving DecidableEq, Repr

def IntegCfg.init : IntegCfg :=
  { action := 1, ddEn := true, resThr := 15, spoofFrac := 40, alarmEpochs := 3, inflate := 4, powerDelta := 12,
    sqmThr := 3277, clkJump := 10 }

/-- A satellite's integrity record (R126): system, SVID, consecutive failures, exclusion and the epoch since which
it has passed while excluded. -/
structure SatInteg where
  sys : Nat
  svid : Nat
  fails : Nat
  excluded : Bool
  passSince : Option Nat
  deriving DecidableEq, Repr

/-- Navigation data, corrections and antenna integrity. -/
structure Corr where
  navSubs : Tab NavSub
  pass : Nat
  corrected : Nat
  fail : Nat
  streams : Tab Stream
  descrs : Tab Descr
  cfgSet : IntegCfg
  cfg : IntegCfg
  level : Nat
  indicators : Nat
  sats : List SatInteg
  tested : Nat
  /-- computed levels of past epochs within 60 s, newest first: epoch time and level -/
  history : List (Nat × Nat)
  spoofRun : Nat
  coincRun : Nat
  /-- time since power-on until which the CLK indicator holds, and since which the C/N0s have been flat -/
  clkUntil : Nat
  flatSince : Option Nat
  /-- gains of the ANT_A chains at whole seconds at level 0, of the last 24 h, newest first: second and gain -/
  gains : Tab (List (Nat × Nat))
  /-- level acting on the governors and the RSE since the last snapshot -/
  levelSnap : Nat
  /-- parts of STREAM 2 that wait for the next snapshot: epoch and messages -/
  corrOut : List (Nat × List (List Byte))
  deriving DecidableEq, Repr

def Corr.init : Corr :=
  { navSubs := [], pass := 0, corrected := 0, fail := 0, streams := [], descrs := [], cfgSet := IntegCfg.init,
    cfg := IntegCfg.init, level := 0, indicators := 0, sats := [], tested := 0, history := [], spoofRun := 0,
    coincRun := 0, clkUntil := 0, flatSince := none, gains := [], levelSnap := 0, corrOut := [] }

end Sys2Proof.Machine

namespace Sys2Proof.Config

open Sys2Proof.Machine

/-- The module's own solution (R105): the specification names what it goes by and not its arithmetic. -/
opaque pvt : PvtIn → PvtOut

/-- The solution of the carrier ambiguities between the antennas (R110): the ANT_B baseline in ENU, mm, that the records of
an epoch give; none while the ambiguities are not resolved. -/
opaque baselineFix : List SatObs → Option (Int × Int × Int)

end Sys2Proof.Config
end

