-- ==== Sys2Proof/Machine/LinkTypes.lean ====
section
/-! DEFINITION. The state of the Uzoza robot link (chapter 07): per-robot keys, sessions, windows and telemetry,
the downlink counter, and the frames assembled and held for release. -/
set_option autoImplicit false

namespace Sys2Proof.Machine

/-- STATE of a robot's session (SEC_ROBOT_KEY response word 3). -/
inductive SessState
  | noKey | keyed | joining | active
  deriving DecidableEq, Repr

/-- Where a robot is reached (R168, robot table of chapter 14). -/
structure RobotAddr where
  port : Nat
  mac : Nat
  ip : Nat
  ip6 : Bool
  udp : Nat
  vid : Nat
  deriving DecidableEq, Repr

def RobotAddr.init : RobotAddr := { port := 0, mac := 0, ip := 0, ip6 := false, udp := 0, vid := 0 }

/-- A replay window (R177, R178): the highest number accepted and those seen among the 64 below it. -/
structure Window where
  highest : Nat
  seen : List Nat
  deriving DecidableEq, Repr

def Window.init : Window := { highest := 0, seen := [] }

/-- The fields of a TELEM payload (R187). -/
structure Telem where
  tSample : Nat
  stream : Nat
  mode : Nat
  sync : Bool
  permit : Bool
  braking : Bool
  stopped : Bool
  goLost : Bool
  starved : Bool
  lateSp : Bool
  fault : Bool
  stepDone : Nat
  queued : Nat
  speed : Int
  odo : Nat
  ptpOffset : Int
  faults : Nat
  stopBad : Nat
  deriving DecidableEq, Repr

def Telem.init : Telem :=
  { tSample := 0, stream := 0, mode := 0, sync := false, permit := false, braking := false, stopped := false,
    goLost := false, starved := false, lateSp := false, fault := false, stepDone := 0, queued := 0, speed := 0,
    odo := 0, ptpOffset := 0, faults := 0, stopBad := 0 }

/-- A rekey in progress (R182). -/
structure Rekey where
  /-- time since power-on at which it began -/
  since : Nat
  /-- the rekey JOIN was answered: the new epoch's key is also accepted -/
  newKey : Option Nat
  newEpoch : Nat
  /-- SEQ of the rekey JOIN that came and acts at the next snapshot -/
  joinSeq : Option Nat
  /-- the completing ACK came and acts at the next snapshot -/
  acked : Bool
  deriving DecidableEq, Repr

/-- One robot of the link. -/
structure Link where
  rootKey : Option Nat
  sess : SessState
  keyEpoch : Nat
  key : Nat
  /-- the epoch given to the last session since boot; 0 before the first -/
  lastEpoch : Nat
  /-- time since power-on at which the present epoch began; downlink tags made under its key -/
  epochAt : Nat
  epochDown : Nat
  rekey : Option Rekey
  /-- a rekey asked for and not yet started -/
  rekeyDue : Bool
  /-- time since power-on at which REKEY_H counts from again after an abandoned rekey -/
  rekeyFrom : Nat
  window : Window
  /-- the robot-table entry, and as it stood at the last input snapshot (R327, R328) -/
  addr : Option RobotAddr
  addrSnap : Option RobotAddr
  corrWanted : Bool
  qDepth : Nat
  proto : Nat
  robotFw : Nat
  framesIn : Nat
  authFail : Nat
  replay : Nat
  /-- frames that failed check 9 (R176) -/
  badKind : Nat
  dups : Nat
  roams : Nat
  lastJoin : Nat
  /-- time since power-on of the last JOIN answered (R181) and of the last valid uplink frame (R183) -/
  joinAt : Option Nat
  lastValid : Nat
  /-- the session's ACK came and makes it ACTIVE at the next snapshot (R181) -/
  ackPending : Bool
  /-- the latest TELEM of the present session at the last snapshot, its tick; and the one that came since -/
  telem : Option Telem
  telemTick : Nat
  telemIn : Option Telem
  /-- frames released and not acknowledged: SEQ and release time (R188) -/
  unacked : List (Nat × Nat)
  /-- largest ack latency of the acknowledgements since the last snapshot, ns -/
  ackMax : Nat
  /-- time since power-on of the last RESV, and its content -/
  resvAt : Nat
  resvSent : Option (List Nat)
  /-- contact edges already taken, newest first: T_EDGE and contact (R187) -/
  edges : List (Nat × Nat)
  /-- the session ended, or the GO permission lapsed, since the last snapshot (R252) -/
  ended : Bool
  deriving DecidableEq, Repr

def Link.init : Link :=
  { rootKey := none, sess := .noKey, keyEpoch := 0, key := 0, lastEpoch := 0, epochAt := 0,
    epochDown := 0, rekey := none, rekeyDue := false, rekeyFrom := 0, window := Window.init, addr := none,
    addrSnap := none, corrWanted := false, qDepth := 0, proto := 0, robotFw := 0, framesIn := 0, authFail := 0, replay := 0,
    badKind := 0, dups := 0, roams := 0, lastJoin := 0, joinAt := none, lastValid := 0, ackPending := false, telem := none,
    telemTick := 0, telemIn := none, unacked := [], ackMax := 0, resvAt := 0, resvSent := none, edges := [],
    ended := false }

/-- A set-point record of a SETPOINT frame (24 bytes). -/
structure SetPoint where
  step : Nat
  due : Nat
  e : Int
  n : Int
  speed : Nat
  heading : Nat
  sliver : Nat
  rest : Bool
  stretch : Bool
  homing : Bool
  last : Bool
  deriving DecidableEq, Repr

/-- The payload of a downlink frame, still unsigned (R465). -/
inductive FrameBody
  /-- GO beacon: tick, PERIOD, GO_TIMEOUT, and entries robot, GO, HELD in ascending robot; EXPIRY and GO_OFFSET are those
  of its release -/
  | go (tick period timeout : Nat) (entries : List (Nat × Bool × Bool))
  /-- SETPOINT: stream, START, FLUSH, FIRST_STEP, records -/
  | setpoint (stream : Nat) (start flush : Bool) (first : Nat) (pts : List SetPoint)
  /-- RESV: limit sliver, limit offset, entries sliver, reverse, until -/
  | resv (sliver offset : Nat) (entries : List (Nat × Bool × Nat))
  /-- TASK: slot, OP, host tag, node, action, earliest, latest, 32 data bytes -/
  | task (slot op tag node action earliest latest : Nat) (data : List Byte)
  /-- CORR: epoch, part, parts, RTCM bytes -/
  | corr (epoch part parts : Nat) (rtcm : List Byte)
  /-- KEY: REKEY flag, RESULT, M_NONCE, NEW_EPOCH -/
  | key (rekey : Bool) (result nonce epoch : Nat)
  deriving DecidableEq, Repr

/-- A frame held in egress staging (R13): its port, addressee (0xFF broadcast), tick, body; a refused JOIN's answer
carries the root key's use and its own destination. -/
structure Held where
  port : Nat
  robot : Nat
  tick : Nat
  body : FrameBody
  /-- destination and root-key signing of a KEY with RESULT 1 or 2 -/
  dest : Option RobotAddr
  deriving DecidableEq, Repr

/-- The UDP carriage of a frame (R168): IPv6 or IPv4, destination address, source and destination port. -/
structure UdpHead where
  ip6 : Bool
  ip : Nat
  srcPort : Nat
  dstPort : Nat
  deriving DecidableEq, Repr

/-- An encoded Uzoza frame in a port's egress queue: priority, VID of its tag (0 for none), EtherType, destination MAC, its
UDP carriage if it has one, and its bytes. -/
structure TxFrame where
  prio : Nat
  vid : Nat
  etherType : Nat
  mac : Nat
  udp : Option UdpHead
  bytes : List Byte
  deriving DecidableEq, Repr

/-- An uplink Uzoza frame at a port: how it came, and its bytes. -/
structure Uplink where
  port : Nat
  src : RobotAddr
  /-- destination address and port where it is carried over UDP; otherwise its EtherType is 0x88B5 -/
  udp : Option (Nat × Nat)
  bytes : List Byte
  deriving DecidableEq, Repr

/-- A JOIN that waits for the next input snapshot (R10). -/
structure JoinIn where
  frame : Uplink
  /-- time since power-on and device time of its ingress -/
  up : Nat
  now : Nat
  deriving DecidableEq, Repr

end Sys2Proof.Machine
end

