-- ==== Sys2Proof/Machine/TimeTypes.lean ====
section
/-! DEFINITION. The state of the timebase, the pulse interfaces and PTP (chapter 15), of the reference clock (R23)
and of the fleet tick (chapter 01). -/
set_option autoImplicit false

namespace Sys2Proof.Machine

/-- TIME_SOURCE_CFG settings (R345). -/
structure SrcCfg where
  list : List Nat
  revertive : Bool
  qualTime : Nat
  wtr : Nat
  bootWait : Nat
  deriving DecidableEq, Repr

def SrcCfg.init : SrcCfg := { list := [1, 2, 4, 0], revertive := true, qualTime := 10, wtr := 60, bootWait := 120 }

/-- One time source (R345): times since power-on since which its condition holds, and at which it qualified. -/
structure Source where
  heldSince : Option Nat
  qualAt : Option Nat
  theta : Int
  /-- sum and number of the offsets measured since the last evaluation (PTP sources) -/
  sum : Int
  count : Nat
  /-- disqualified by R368 until its condition is established anew -/
  barred : Bool
  deriving DecidableEq, Repr

def Source.init : Source := { heldSince := none, qualAt := none, theta := 0, sum := 0, count := 0, barred := false }

/-- SERVO_CFG section 0 settings. -/
structure ServoCfg where
  capture : Nat
  stepThr : Nat
  ride : Nat
  slewMax : Nat
  asymAuto : Bool
  asymStep : Nat
  asymMpd : Nat
  asymHold : Nat
  ageing : Nat
  deriving DecidableEq, Repr

def ServoCfg.init : ServoCfg :=
  { capture := 1000, stepThr := 10, ride := 1000, slewMax := 10, asymAuto := true, asymStep := 200, asymMpd := 100,
    asymHold := 300, ageing := 3000 }

/-- PPS_CFG settings. -/
structure PpsCfg where
  outMode : Nat
  inEn : Bool
  inPol : Bool
  outPol : Bool
  todFmt : Nat
  todRef : Bool
  baud : Nat
  outWidth : Nat
  outDelay : Int
  inDelay : Int
  deriving DecidableEq, Repr

def PpsCfg.init : PpsCfg :=
  { outMode := 1, inEn := false, inPol := true, outPol := true, todFmt := 1, todRef := false, baud := 1,
    outWidth := 10000, outDelay := 0, inDelay := 0 }

/-- A pulse of PPS_OUT (R360): the whole second it marks (none once a step has moved device time since), its leading edge
in ps of device time, its width in units of 10 us, and its polarity. -/
structure PpsPulse where
  second : Option Nat
  edge : Int
  width : Nat
  high : Bool
  deriving DecidableEq, Repr

/-- PTP_CFG section 0 settings. -/
structure PtpCfg where
  fleetDomain : Nat
  srcDomain : Nat
  prio1 : Nat
  prio2 : Nat
  logSync : Int
  logAnnounce : Nat
  logMinDreq : Int
  logPdreq : Int
  annTimeout : Nat
  deriving DecidableEq, Repr

def PtpCfg.init : PtpCfg :=
  { fleetDomain := 20, srcDomain := 0, prio1 := 128, prio2 := 128, logSync := -3, logAnnounce := 1,
    logMinDreq := -3, logPdreq := 0, annTimeout := 3 }

/-- PTP_CFG section 1 settings of one port, as a write leaves them. -/
structure PtpPortCfg where
  tcMode : Nat
  oneStep : Bool
  fleet : Bool
  src : Bool
  delayMech : Nat
  transport : Nat
  asym : Int
  deriving DecidableEq, Repr

/-- PTP_CFG section 1 settings in force and section 2 statistics of one port. -/
structure PtpPort where
  tcMode : Nat
  oneStep : Bool
  fleet : Bool
  src : Bool
  delayMech : Nat
  transport : Nat
  asym : Int
  syncSent : Nat
  syncRcvd : Nat
  reqs : Nat
  announces : Nat
  corrected : Nat
  mpd : Nat
  maxResidence : Nat
  /-- meanLinkDelay measured on the port (R364) -/
  linkDelay : Int
  deriving DecidableEq, Repr

/-- Reset settings of a port: FLEET on RH ports (0-7), SRC on BH[0] (8). -/
def PtpPort.init (port : Nat) : PtpPort :=
  { tcMode := 1, oneStep := false, fleet := port < 8, src := port == 8, delayMech := 0, transport := 0, asym := 0,
    syncSent := 0, syncRcvd := 0, reqs := 0, announces := 0, corrected := 0, mpd := 0, maxResidence := 0,
    linkDelay := 0 }

/-- A foreign master that the source instance hears on a BH port (R362): its data set and last Announce. -/
structure Master where
  port : Nat
  identity : Nat
  prio1 : Nat
  clockClass : Nat
  accuracy : Nat
  variance : Nat
  prio2 : Nat
  steps : Nat
  /-- time since power-on of the last Announce -/
  heardAt : Nat
  deriving DecidableEq, Repr

/-- The UDP part of a PTP message: its checksum, and the two-byte checksum-compensation suffix where it has one. -/
structure PtpUdp where
  checksum : Nat
  suffix : Option Nat
  deriving DecidableEq, Repr

/-- A PTP message in a frame, as far as a transparent clock looks into it (R364, R365): its message type, domain, source
port identity, sequence and twoStepFlag, its correctionField in 2^-16 ns, and its UDP part. -/
structure PtpFrame where
  kind : Nat
  domain : Nat
  identity : Nat
  seq : Nat
  twoStep : Bool
  corr : Int
  udp : Option PtpUdp
  deriving DecidableEq, Repr

/-- The correction of a two-step message that its Follow_Up or Pdelay_Resp_Follow_Up is to carry on a port (R364). -/
structure TcPending where
  kind : Nat
  domain : Nat
  identity : Nat
  seq : Nat
  corr : Int
  deriving DecidableEq, Repr

/-- A PPS-aligned command that waits for its whole second (R370). -/
structure PpsPending where
  req : Req
  second : Nat
  deriving DecidableEq, Repr

/-- The timebase (R341-R370, R462, R463). -/
structure Timebase where
  raw : Bool
  /-- a boot that has not yet entered NORMAL mode -/
  booting : Bool
  /-- time since power-on at which the wait of BOOT_WAIT began -/
  bootAt : Nat
  rawRate : Int
  /-- fraction of a nanosecond carried, in 10^-12 ns -/
  frac : Nat
  /-- TIME_SOURCE_CFG settings last written, and in force since the last servo evaluation -/
  srcSet : SrcCfg
  src : SrcCfg
  sources : Tab Source
  selected : Nat
  servoSet : ServoCfg
  servo : ServoCfg
  /-- servo laws 0-3 loads that act at the next evaluation are written to the law slots directly -/
  theta : Int
  /-- the part of TIME_SET adjustments not yet removed, ps (R463) -/
  thetaAdj : Int
  /-- law 0's output in the last 7 days spent on GNSS at TQ 0b11, newest first: time since power-on in s, and ppt -/
  trend : List (Nat × Int)
  /-- servo output in force: frequency and slew, ppt -/
  freq : Int
  slew : Int
  holdover : Bool
  holdSecs : Nat
  unc0 : Nat
  sigmaF : Nat
  unc : Nat
  /-- |theta| exceeded RIDE with spindles active and has not been found within it since -/
  ride : Bool
  asymSuspect : Bool
  asymPort : Nat
  asymAt : Nat
  /-- outputs of law 3 since it began, newest first -/
  asymHist : List Int
  asymReported : Bool
  /-- theta and mean path delay of the last seconds, newest first, and the times of the last jumps -/
  lastTheta : Option Int
  lastMpd : Option Int
  thetaJumpAt : Option Nat
  mpdJumpAt : Option Nat
  mpd : Nat
  pps : PpsCfg
  /-- the last pulse of PPS_OUT -/
  ppsPulse : Option PpsPulse
  /-- the last PPS_IN edge, its time, and the run of good edges -/
  ppsEdgeAt : Option Nat
  /-- the last edge (TOD_REF 0) or the last sentence (TOD_REF 1) still waits for its partner -/
  ppsOpen : Bool
  todSecond : Option Nat
  utcOffset : Int
  utcValid : Bool
  utcDecoded : Bool
  leap : Nat
  /-- TIME_FLAGS bits 0-3 and their occurrence counters -/
  flags : List Bool
  occ : List Nat
  /-- capture of TIME_SNAP_NS -/
  snap : Nat
  /-- PTP_CFG section 0 settings last written, and in force since the last servo evaluation -/
  ptpSet : PtpCfg
  ptp : PtpCfg
  ptpPorts : Tab PtpPort
  /-- PTP_CFG section 1 writes that take effect at the next servo evaluation, by port, oldest first -/
  ptpActs : List (Nat × PtpPortCfg)
  masters : List Master
  waiting : List PpsPending
  /-- second at which REF is selected afresh (REF_RETRY) -/
  refRetry : Option Nat
  /-- the whole second last evaluated by the servo -/
  evaluated : Nat
  /-- TQ last reported -/
  tqLast : Nat
  deriving DecidableEq, Repr

def Timebase.init : Timebase :=
  { raw := true, booting := true, bootAt := 0, rawRate := 0, frac := 0, srcSet := SrcCfg.init, src := SrcCfg.init, sources := [],
    selected := 0, servoSet := ServoCfg.init, servo := ServoCfg.init, theta := 0, thetaAdj := 0, trend := [], freq := 0,
    slew := 0, holdover := false, holdSecs := 0, unc0 := 0, sigmaF := 0, unc := 0xFFFFFFFF, ride := false,
    asymSuspect := false, asymPort := 0, asymAt := 0, asymHist := [], asymReported := false, lastTheta := none,
    lastMpd := none, thetaJumpAt := none, mpdJumpAt := none, mpd := 0, pps := PpsCfg.init, ppsPulse := none, ppsEdgeAt := none,
    ppsOpen := false, todSecond := none, utcOffset := 0, utcValid := false, utcDecoded := false, leap := 0,
    flags := [false, false, false, false], occ := [0, 0, 0, 0], snap := 0, ptpSet := PtpCfg.init, ptp := PtpCfg.init, ptpPorts := [], ptpActs := [],
    masters := [], waiting := [], refRetry := none, evaluated := 0, tqLast := 0 }

/-- Selection of REF (R23, R453). -/
structure RefClk where
  /-- EXT_REF_IN drives REF -/
  ext : Bool
  fallback : Bool
  /-- EXT_REF_IN carries a usable signal -/
  extPresent : Bool
  deriving DecidableEq, Repr

def RefClk.init : RefClk := { ext := false, fallback := false, extPresent := false }

/-- A SET_TICK that waits (R18): the boundary's device time at which it applies, and the values to take. -/
structure TickChange where
  /-- a whole second (period changes), or 0: the next boundary -/
  second : Nat
  period : Nat
  guard : Nat
  offset : Nat
  deriving DecidableEq, Repr

/-- The fleet tick (chapter 01). -/
structure Tick where
  /-- boundaries occur -/
  running : Bool
  /-- TICK_NUMBER has started since boot (R9) -/
  started : Bool
  number : Nat
  /-- ms, %, us in force -/
  period : Nat
  guardSet : Nat
  offset : Nat
  changes : List TickChange
  /-- device time of the boundary that opened the present tick, and of the next one -/
  boundary : Nat
  nextAt : Nat
  /-- phases of R12 finished in the present tick: 0 capture, 1 governors, 2 reservations, 3 stepping, 4 assembly -/
  phases : Nat
  completed : Bool
  overrun : Bool
  /-- ticks that had overrun in a row when the present one opened (R308) -/
  missed : Nat
  toggle : Bool
  /-- the GO emission point of the present tick has passed -/
  emitted : Bool
  /-- time since power-on at which the last tick completed -/
  lastCompleted : Option Nat
  /-- device time by which the present tick must complete, the guard before its end -/
  deadline : Nat
  deriving DecidableEq, Repr

def Tick.init : Tick :=
  { running := false, started := false, number := 0, period := 5, guardSet := 12, offset := 500, changes := [],
    boundary := 0, nextAt := 0, phases := 0, completed := true, overrun := false, missed := 0, toggle := false,
    emitted := true, lastCompleted := none, deadline := 0 }

/-- The FSP fields refreshed at the GO emission point (R79). -/
structure Fsp where
  discrepancy : Bool
  stopOut : Bool
  active : Bool
  tq : Nat
  toggle : Bool
  fwAlive : Bool
  feFault : Bool
  tick : Nat
  robotsGo : Nat
  robotsStopped : Nat
  roversFixed : Nat
  roversStale : Nat
  health : Nat
  sec : Nat
  stopCause : Nat
  deriving DecidableEq, Repr

def Fsp.init : Fsp :=
  { discrepancy := false, stopOut := false, active := false, tq := 0, toggle := false, fwAlive := false,
    feFault := false, tick := 0, robotsGo := 0, robotsStopped := 0, roversFixed := 0, roversStale := 0, health := 0,
    sec := 0, stopCause := 0 }

end Sys2Proof.Machine
end

