-- ==== Sys2Proof/Machine/NetTypes.lean ====
section
/-! DEFINITION. The state of the switch (chapter 14). -/
set_option autoImplicit false

namespace Sys2Proof.Machine

/-- NET_PORT_CFG section 0 settings. -/
structure PortCfg where
  en : Bool
  blocking : Bool
  learn : Bool
  mode : Nat
  accept : Nat
  uzEncap : Nat
  phyAddr : Nat
  mdioEn : Bool
  pvid : Nat
  uzVid : Nat
  maxFrame : Nat
  /-- 16 KiB -/
  bufCap : Nat
  floodLimit : Nat
  deriving DecidableEq, Repr

/-- Reset settings: enabled on RH[k] and BH[0]; UZ_ENCAP 3 on BH; BUF_CAP 256 KiB on RH, 1 MiB on BH. -/
def PortCfg.init (port : Nat) : PortCfg :=
  { en := decide (port ≤ 8), blocking := false, learn := true, mode := 0, accept := 0,
    uzEncap := if port < 8 then 0 else 3, phyAddr := 0, mdioEn := false, pvid := 1, uzVid := 0, maxFrame := 1522,
    bufCap := if port < 8 then 16 else 64, floodLimit := 10 }

/-- NET_QOS_CFG settings. -/
structure QosCfg where
  trust : Nat
  defPrio : Nat
  highOk : Bool
  pcpMap : List Nat
  dscpMap : List Nat
  deriving DecidableEq, Repr

def QosCfg.init : QosCfg :=
  { trust := 1, defPrio := 0, highOk := false, pcpMap := List.range 8,
    dscpMap := (List.range 64).map (fun d => d / 8) }

/-- A PTP message that the switch forwards: its ingress port and timestamp, and whether it is carried over IPv6. -/
structure TcMark where
  from_ : Nat
  at_ : Nat
  v6 : Bool
  msg : PtpFrame
  deriving DecidableEq, Repr

/-- Headers of a frame that the switch passes on, as it leaves (R323, R334): MAC addresses, tag (VID and PCP), and of an IP
packet its TTL or hop limit, and over IPv4 its header checksum. -/
structure FwdHead where
  dst : Nat
  src : Nat
  tag : Option (Nat × Nat)
  ttl : Option Nat
  checksum : Option Nat
  deriving DecidableEq, Repr

/-- A frame waiting at an egress port: priority, length in bytes, and its content when it is the module's own. -/
structure QFrame where
  prio : Nat
  len : Nat
  /-- an internal frame of priority 6 or 7 that lies in the port's reserve (R337) -/
  reserve : Bool
  own : Option TxFrame
  /-- headers of a frame that is passed on -/
  fwd : Option FwdHead
  /-- a PTP message that passes through (R364) -/
  tc : Option TcMark
  /-- device time from which it may be sent (R338), and at which it came to the head of the queue -/
  ready : Nat
  headAt : Nat
  deriving DecidableEq, Repr

/-- Statistics of a port (NET_PORT_CFG section 2 words 4-16). -/
structure PortStats where
  rxBytes : Nat
  txBytes : Nat
  rxFrames : Nat
  txFrames : Nat
  dropCap : Nat
  dropFilter : Nat
  fcsErr : Nat
  floodLimited : Nat
  uzWrong : Nat
  linkDiscard : Nat
  peakBuf : Nat
  deriving DecidableEq, Repr

def PortStats.zero : PortStats :=
  { rxBytes := 0, txBytes := 0, rxFrames := 0, txFrames := 0, dropCap := 0, dropFilter := 0, fcsErr := 0,
    floodLimited := 0, uzWrong := 0, linkDiscard := 0, peakBuf := 0 }

/-- A port of the switch. -/
structure Port where
  cfg : PortCfg
  qos : QosCfg
  link : Bool
  speed : Nat
  /-- in the order of sending; the first is in transmission -/
  queue : List QFrame
  stats : PortStats
  /-- corrections that wait for their second message (R364) -/
  tcPending : List TcPending
  /-- flooded bits admitted in the present millisecond, and that millisecond (R331) -/
  floodBits : Nat
  floodMs : Nat
  deriving DecidableEq, Repr

def Port.init (port : Nat) : Port :=
  { cfg := PortCfg.init port, qos := QosCfg.init, link := false, speed := 0, queue := [], stats := PortStats.zero,
    tcPending := [], floodBits := 0, floodMs := 0 }

/-- An interface IF[k] of the internal port. -/
structure Iface where
  en : Bool
  services : Nat
  v4Len : Nat
  v6Len : Nat
  vid : Nat
  mgmtPort : Nat
  v4 : Nat
  v6 : Nat
  /-- replies sent in the present second, and that second (R326) -/
  replies : Nat
  repliesSec : Nat
  deriving DecidableEq, Repr

def Iface.init (k : Nat) : Iface :=
  { en := k == 0, services := if k = 0 then 7 else 0, v4Len := 0, v6Len := 0, vid := 1, mgmtPort := 47010, v4 := 0,
    v6 := 0, replies := 0, repliesSec := 0 }

/-- A VLAN (R323). -/
structure Vlan where
  member : Nat
  untag : Nat
  routed : Bool
  learn : Bool
  deriving DecidableEq, Repr

/-- An entry of the MAC table (R329-R332). -/
structure FdbEntry where
  mac : Nat
  vid : Nat
  /-- way 0-3 of its bucket -/
  way : Nat
  static : Bool
  drop : Bool
  ports : Nat
  /-- ingress timestamp of the last hit, of the last move or the creation -/
  hitAt : Nat
  movedAt : Nat
  moves : Nat
  deriving DecidableEq, Repr

/-- A route (R333, R334). -/
structure RouteEntry where
  v6 : Bool
  len : Nat
  pfx : Nat
  vid : Nat
  mac : Nat
  deriving DecidableEq, Repr

/-- The switch. -/
structure Net where
  ports : Tab Port
  ifaces : Tab Iface
  vlans : Tab Vlan
  fdb : List FdbEntry
  learnFull : Nat
  moveConflicts : Nat
  routes : List RouteEntry
  ttlDrops : Nat
  noRoute : Nat
  nhMiss : Nat
  ageTime : Nat
  /-- 0.1 ms -/
  holdoff : Nat
  /-- settings loaded: the ports may carry frames (R339) -/
  loaded : Bool
  baseMac : Nat
  deriving DecidableEq, Repr

/-- VLAN 1 holds every port, untagged (R323): RH 0-7, BH 8-9, IP 15. -/
def Net.init (mac : Nat) : Net :=
  { ports := [], ifaces := [], vlans := [(1, { member := 0x83FF, untag := 0x83FF, routed := false, learn := true })],
    fdb := [], learnFull := 0, moveConflicts := 0, routes := [], ttlDrops := 0, noRoute := 0, nhMiss := 0,
    ageTime := 300, holdoff := 20, loaded := false, baseMac := mac }

end Sys2Proof.Machine
end

