-- ==== Sys2Proof/Machine/GovTypes.lean ====
section
/-! DEFINITION. The law slots of the Loop Engine and the governor state of each robot (chapter 11). -/
set_option autoImplicit false

namespace Sys2Proof.Machine

/-- A coefficient set of a law slot (R262). -/
structure CoefSet where
  kp : Int
  ki : Int
  kd : Int
  sp : Nat
  si : Nat
  sd : Nat
  uMin : Int
  uMax : Int
  iMin : Int
  iMax : Int
  rMax : Nat
  deriving DecidableEq, Repr

def CoefSet.zero : CoefSet :=
  { kp := 0, ki := 0, kd := 0, sp := 0, si := 0, sd := 0, uMin := 0, uMax := 0, iMin := 0, iMax := 0, rMax := 0 }

/-- A law slot (R262): two sets, the ACTIVE bit (true = set B), the running state and a pending swap. -/
structure Law where
  setA : CoefSet
  setB : CoefSet
  activeB : Bool
  /-- 48-bit integrator, 16 fraction bits -/
  i : Int
  uPrev : Int
  ePrev : Int
  swap : Bool
  deriving DecidableEq, Repr

def Law.zero : Law :=
  { setA := CoefSet.zero, setB := CoefSet.zero, activeB := false, i := 0, uPrev := 0, ePrev := 0, swap := false }

/-- States of the following-error supervisor (R276). -/
inductive FeState
  | ok | warn | fault
  deriving DecidableEq, Repr

/-- GOV_LIMITS, GOV_FE_CFG and GOV_CAP_SET settings of one robot. -/
structure GovCfg where
  cap : Nat
  sepTol : Nat
  bndTol : Nat
  qualLimit : Nat
  /-- 100 us -/
  linkLimit : Nat
  warn : Nat
  fault : Nat
  warnTime : Nat
  faultTime : Nat
  action : Nat
  deriving DecidableEq, Repr

def GovCfg.init : GovCfg :=
  { cap := 65535, sepTol := 100, bndTol := 0, qualLimit := 50, linkLimit := 100, warn := 300, fault := 1000,
    warnTime := 100, faultTime := 250, action := 1 }

/-- One robot's governors. -/
structure GovRobot where
  /-- settings last written, and in force since the last snapshot -/
  cfgSet : GovCfg
  cfg : GovCfg
  ceiling : Int
  winner : Nat
  outputs : List Int
  errors : List Int
  held : List Bool
  tracking : Bool
  fe : Int
  feState : FeState
  /-- time met so far by the condition of each timer, ns: WARN level (enter), FAULT level, clear run -/
  warnRun : Option Nat
  faultRun : Option Nat
  clearRun : Option Nat
  evalTick : Nat
  stale : Bool
  deriving DecidableEq, Repr

def GovRobot.init : GovRobot :=
  { cfgSet := GovCfg.init, cfg := GovCfg.init, ceiling := 0, winner := 0, outputs := [0, 0, 0, 0, 0],
    errors := [0, 0, 0, 0, 0], held := [false, false, false, false, false], tracking := false, fe := 0,
    feState := .ok, warnRun := none, faultRun := none, clearRun := none, evalTick := 0, stale := false }

/-- The Loop Engine (R266): law slots by number, and the robots' governors. -/
structure Gov where
  /-- law slots that differ from their reset contents -/
  laws : Tab Law
  robots : Tab GovRobot
  deriving DecidableEq, Repr

def Gov.init : Gov := { laws := [], robots := [] }

end Sys2Proof.Machine
end

