-- ==== Sys2Proof/Machine/RoverTypes.lean ====
section
/-! DEFINITION. The state of the Rover Solution Engine (chapter 06). -/
set_option autoImplicit false

namespace Sys2Proof.Machine

/-- ROVER_CFG settings of one slot. -/
structure RoverCfg where
  elevMask : Nat
  cn0Mask : Nat
  freqs : Nat
  holdEn : Bool
  gloAr : Bool
  ratioThr : Nat
  parMin : Nat
  staleAge : Nat
  aMax : Nat
  holdEpochs : Nat
  antHeight : Nat
  ionoBl : Nat
  epochWait : Nat
  gloBias1 : Int
  gloBias2 : Int
  deriving DecidableEq, Repr

def RoverCfg.init : RoverCfg :=
  { elevMask := 10, cn0Mask := 30, freqs := 2, holdEn := true, gloAr := false, ratioThr := 30, parMin := 8,
    staleAge := 150, aMax := 2000, holdEpochs := 10, antHeight := 0, ionoBl := 10, epochWait := 20, gloBias1 := 0,
    gloBias2 := 0 }

/-- A binding (R134). `rate` is the RATE code 0-4. -/
structure Binding where
  station : Nat
  rate : Nat
  phase : Nat
  maxAmb : Nat
  anyStation : Bool
  deriving DecidableEq, Repr

/-- A fix record (R151). Covariance terms in the order of words 17-22. -/
structure Fix where
  status : Nat
  extrap : Bool
  stale : Bool
  interp : Bool
  partialEpoch : Bool
  handover : Bool
  longBl : Bool
  enuValid : Bool
  velValid : Bool
  headingValid : Bool
  reason : Nat
  nSats : Nat
  epochTime : Nat
  pubTime : Nat
  x : Int
  y : Int
  z : Int
  e : Int
  n : Int
  u : Int
  ve : Int
  vn : Int
  vu : Int
  cov : List Int
  sigmaH : Nat
  sigmaVh : Nat
  heading : Nat
  nAmb : Nat
  nFixed : Nat
  ratio : Nat
  baseline : Nat
  pdop : Nat
  baseAge : Nat
  fixSeq : Nat
  deriving DecidableEq, Repr

/-- The record of a slot that has solved nothing (REASON NOT_YET). -/
def Fix.none : Fix :=
  { status := 0, extrap := false, stale := false, interp := false, partialEpoch := false, handover := false,
    longBl := false, enuValid := false, velValid := false, headingValid := false, reason := 0, nSats := 0,
    epochTime := 0, pubTime := 0, x := 0, y := 0, z := 0, e := 0, n := 0, u := 0, ve := 0, vn := 0, vu := 0,
    cov := [0, 0, 0, 0, 0, 0], sigmaH := 0, sigmaVh := 0, heading := 0, nAmb := 0, nFixed := 0, ratio := 0,
    baseline := 0, pdop := 0, baseAge := 0, fixSeq := 0 }

/-- A signal of a satellite in an MSM (R135, R136): system, satellite, signal ID of RTCM 10403.3, GLONASS frequency number
(k + 7) where the message gives it; pseudorange, 2^-6 mm; phase range, 2^-31 ms; phase-range rate, 0.1 mm/s; lock-time and
half-cycle indicators; C/N0, 0.01 dB-Hz. -/
structure RoverObs where
  sys : Nat
  svid : Nat
  id : Nat
  k : Option Nat
  pr : Option Int
  phase : Option Int
  rate : Option Int
  lock : Nat
  half : Bool
  cn0 : Nat
  deriving DecidableEq, Repr

/-- A rover epoch that is being assembled, is ready, or is being solved (R136-R141). -/
structure Epoch where
  time : Nat
  /-- systems heard -/
  systems : List Nat
  obs : List RoverObs
  /-- time since power-on of the first message; device times at which the last message came and at which the epoch closed -/
  firstAt : Nat
  lastAt : Nat
  closedAt : Nat
  isPartial : Bool
  /-- more than 1 s ahead of device time at its arrival -/
  future : Bool
  deriving DecidableEq, Repr

/-- The fourteen counters of ROVER_GET_STATS words 4-17. -/
structure RoverStats where
  solved : Nat
  offGrid : Nat
  tooOld : Nat
  duplicate : Nat
  station : Nat
  format : Nat
  other : Nat
  future : Nat
  partialEpochs : Nat
  slips : Nat
  fullResets : Nat
  fixedEpochs : Nat
  lastLatency : Nat
  maxLatency : Nat
  deriving DecidableEq, Repr

def RoverStats.zero : RoverStats :=
  { solved := 0, offGrid := 0, tooOld := 0, duplicate := 0, station := 0, format := 0, other := 0, future := 0,
    partialEpochs := 0, slips := 0, fullResets := 0, fixedEpochs := 0, lastLatency := 0, maxLatency := 0 }

/-- What a solve's base observations are (R139, R158): whether interpolated, BASE_AGE in ns, the last base epoch that they
rest on, and the ANT_A observations at the rover epoch's time. -/
structure BaseUse where
  interp : Bool
  age : Nat
  base : Nat
  recs : List SatObs
  deriving DecidableEq, Repr

/-- One double-difference ambiguity of the filter (R146-R149): its satellite and its carrier, by the code of the module's
signal on it, which names the system too; its value in 2^-16 cycle against the reference satellite of the carrier, and the
integer last found for it; whether it is fixed or held, the consecutive epochs for which its sigma has been small, and its
consecutive validated fixes. -/
structure Amb where
  svid : Nat
  sig : Nat
  value : Int
  int : Int
  fixed : Bool
  held : Bool
  age : Nat
  fixRun : Nat
  deriving DecidableEq, Repr

/-- The filter of a slot (state layout of one rover slot), in 2^-16 of its units: `core` is position E, N, U relative to the
ARP (mm), velocity (mm/s) and the GLONASS slope (mm per k); `cov` the covariance of `core` and then of the ambiguities;
`refs` the reference satellites by carrier. State 7 holds 0 and takes no part. -/
structure Filter where
  time : Nat
  core : List Int
  ambs : List Amb
  cov : List (List Int)
  refs : Tab Nat
  deriving DecidableEq, Repr

/-- One rover slot. -/
structure Rover where
  binding : Option Binding
  suspended : Bool
  cfg : RoverCfg
  /-- GLONASS biases known, mm (R137): of the rover's 1230 message, or of the last ROVER_CFG write; whether one was made -/
  biases : Option (Int × Int)
  cfgBiases : Bool
  open_ : Option Epoch
  ready : List Epoch
  solving : Option (Epoch × BaseUse)
  /-- device time of the last epoch closed, and of the slot of the last one taken -/
  lastClosed : Nat
  lastSlot : Nat
  /-- no base epoch came for 30 s since the last solved epoch (R158); base slips not yet taken up: time, satellite, signal -/
  gap : Bool
  baseSlips : List (Nat × Nat × Nat)
  /-- the observations of the last epoch taken, and its time -/
  lastObs : List RoverObs
  lastTime : Nat
  /-- time since power-on of the last message; 30 s of silence went before the present epoch -/
  lastHeard : Option Nat
  silent : Bool
  /-- records published: the latest and the one before it -/
  latest : Option Fix
  prior : Option Fix
  /-- the record the last tick took, carried to its T+0 (R153) -/
  tickFix : Option Fix
  sigmaExt : Nat
  fixSeq : Nat
  /-- position, velocity and covariance that the slot holds -/
  held : Fix
  filter : Option Filter
  /-- time since power-on since which the sigma of state 6 has been small -/
  gloSince : Option Nat
  /-- scopes of ROVER_RESET_AMB to act at the next solved epoch: SCOPE, SYS, SVID -/
  resets : List (Nat × Nat × Nat)
  /-- ambiguities are being re-based after a switch-over, and the epochs since; the first of them is to come -/
  handover : Bool
  rebase : Bool
  handoverEpochs : Nat
  /-- consecutive validation failures -/
  valFails : Nat
  /-- baseline thresholds of R161 latched: 30 km, 100 km -/
  far30 : Bool
  far100 : Bool
  stats : RoverStats
  deriving DecidableEq, Repr

def Rover.init : Rover :=
  { binding := none, suspended := false, cfg := RoverCfg.init, biases := none, cfgBiases := false, open_ := none,
    ready := [], solving := none, lastClosed := 0, lastSlot := 0, gap := false, baseSlips := [], lastObs := [], lastTime := 0,
    lastHeard := none, silent := false, latest := none,
    prior := none, tickFix := none, sigmaExt := 0x7FFFFFFF, fixSeq := 0, held := Fix.none,
    filter := none, gloSince := none, resets := [], handover := false, rebase := false, handoverEpochs := 0, valFails := 0,
    far30 := false, far100 := false, stats := RoverStats.zero }

/-- A queue pair's rover subscription (R166): decimation, robots, tag, and records counted per rover. -/
structure RoverSub where
  decim : Nat
  mask : Nat
  tag : Word
  counts : Tab Nat
  deriving DecidableEq, Repr

/-- A base epoch (R139): its device time and the ANT_A observations. -/
structure BaseEpoch where
  time : Nat
  recs : List SatObs
  deriving DecidableEq, Repr

/-- Commands that take effect at the next slot boundary (R164). -/
inductive RoverAct
  | bind (robot : Nat) (b : Binding)
  | unbind (robot : Nat)
  | cfg (robot : Nat) (c : RoverCfg)
  | sub (q : Nat) (x : RoverSub)
  | unsub (q : Nat)
  deriving DecidableEq, Repr

/-- The Rover Solution Engine. -/
structure Rse where
  rovers : Tab Rover
  /-- robot solved on each cluster 0-3 -/
  clusters : List (Option Nat)
  /-- lanes in service and SOLVE frequency in force -/
  lanes : Nat
  mhz : Nat
  subs : Tab RoverSub
  /-- the last 40 base epochs that the RSE goes by, and of the module's own ANT_A, newest first (R139, R163) -/
  bases : List BaseEpoch
  own : List BaseEpoch
  /-- the ARP in force of the base epochs, and the last one that positions referred to (R159) -/
  arp : Option Arp
  arpRef : Option Arp
  /-- LAST_LATENCY of the record published last by any rover -/
  lastLatency : Nat
  acts : List RoverAct
  deriving DecidableEq, Repr

def Rse.init (lanes : Nat) : Rse :=
  { rovers := [], clusters := [none, none, none, none], lanes := lanes, mhz := 1000, subs := [], bases := [], own := [],
    arp := none, arpRef := none, lastLatency := 0, acts := [] }

/-- A signal that a solve uses on both ends (R143): its carrier, the rover's observation, the base's at the same time, the
satellite's place, the sines of its elevation there (2^-30), and the variances of code and phase of rover and base together
(2^-8 mm^2). -/
structure DdSignal where
  sig : Nat
  rover : RoverObs
  base : Obs
  sat : Ecef
  sinRover : Int
  sinBase : Int
  varCode : Nat
  varPhase : Nat
  deriving DecidableEq, Repr

/-- What the float update of an epoch goes by (R143-R148): the predicted filter, the signals with the troposphere removed,
the ARP, the rover's GLONASS biases and the base's (mm), whether the ionosphere is removed by combination, the ambiguities
fed back with a sigma of 0.005 cycle (place, integer), and the wide-lane integers found (two places, integer). -/
structure FloatIn where
  filter : Filter
  signals : List DdSignal
  arp : Ecef
  roverBias : Option (Int × Int)
  baseBias : Int × Int
  longBl : Bool
  held : List (Nat × Int)
  wide : List (Nat × Nat × Int)
  deriving DecidableEq, Repr

/-- What an update gives: the states, the ambiguities' values and the covariance. -/
structure FloatOut where
  core : List Int
  values : List Int
  cov : List (List Int)
  deriving DecidableEq, Repr, Inhabited

/-- The code single-point solution of a rover epoch (R142, R161): clock offset in ns, position, PDOP in 0.01. -/
structure CodeOut where
  clock : Int
  pos : Ecef
  pdop : Nat
  deriving DecidableEq, Repr, Inhabited

end Sys2Proof.Machine

namespace Sys2Proof.Config

open Sys2Proof.Machine

/-- The code single-point solution (R142): of the rover's observations and the satellites' places. -/
opaque codeSolution : List RoverObs → List SatObs → Nat → CodeOut

/-- The float update (R146, R148): the specification names its observations, weights and process, not its arithmetic. -/
opaque floatUpdate : FloatIn → FloatOut

/-- The integer search (R148): of float values and their covariance, the best integers and the ratio of the second-best to
the best squared norm, in 0.01. -/
opaque integerSearch : List Int → List (List Int) → List Int × Nat

/-- The solution with ambiguities (by place in the filter) held at integers, and its DD phase residuals: RMS and largest,
mm (R148). -/
opaque fixedUpdate : FloatIn → FloatOut → List (Nat × Int) → FloatOut × Nat × Nat

/-- The variances of the states 0-6 that a filter starts with, 2^-16 of their units. -/
opaque startVariance : Nat → Int

/-- The standard-atmosphere zenith delay at a point (R145), 2^-6 mm. -/
opaque zenithDelay : Ecef → Nat

end Sys2Proof.Config
end

