-- ==== Sys2Proof/Machine/SpinTypes.lean ====
section
/-! DEFINITION. The state of the spindles, reference posts and yard pads (chapter 10). -/
set_option autoImplicit false

namespace Sys2Proof.Machine

/-- STATE of a spindle, in the order of its numbers 0-6. -/
inductive SpinState
  | idle | run | wait | stopping | hold | homing | manual
  deriving DecidableEq, Repr

/-- The speed profile of a robot (R236). -/
structure Profile where
  vStart : Nat
  vStop : Nat
  vKnee : Nat
  vMax : Nat
  a1 : Nat
  a2 : Nat
  d1 : Nat
  d2 : Nat
  q : Nat
  lead : Nat
  deriving DecidableEq, Repr

def Profile.init : Profile :=
  { vStart := 100, vStop := 100, vKnee := 500, vMax := 1000, a1 := 500, a2 := 300, d1 := 1000, d2 := 700, q := 50,
    lead := 3 }

/-- A step (R239): its number, due time, route distance, speed and exact squared speed; `ghost` marks the starting state
of a flush (R245) or of a transfer (R238), which is no step: its number is that of the step after it. While a spindle runs
in reverse, p is the route distance negated. -/
structure Step where
  num : Nat
  due : Nat
  p : Int
  v : Nat
  v2 : Nat
  stretched : Bool
  last : Bool
  ghost : Bool
  /-- of a flush's starting state: the speed and due time of the step that the motion led to before it (R243) -/
  toward : Option (Nat × Nat)
  deriving DecidableEq, Repr

/-- Phases of a homing (R257), numbers 0-5. -/
inductive HomePhase
  | none | approach | search | backoff | creep | settle
  deriving DecidableEq, Repr

/-- Why a homing's stream is being stopped: the contact was found, or the ceiling is 0 (R247, R257). -/
inductive HomeStop
  | none | found | ceiling
  deriving DecidableEq, Repr

/-- A homing in progress (R257): its command, post and speeds, the phase, the phase that SETTLE leads to, edge times. -/
structure Homing where
  req : Req
  post : Nat
  vSearch : Nat
  vCreep : Nat
  settleMs : Nat
  phase : HomePhase
  next : HomePhase
  /-- device time of the rest at which SETTLE counts from -/
  settleAt : Nat
  tSearch : Nat
  tCreep : Nat
  cmdAtEdge : Int
  fixAtEdge : Int
  /-- device time from which the contact's raw edges count towards CHATTER -/
  edgesFrom : Nat
  /-- BACKOFF: the contact qualified inactive -/
  cleared : Bool
  /-- why the stream is being stopped, and whether it has come to rest for that -/
  stop : HomeStop
  /-- the homing waits at rest for the ceiling to rise -/
  paused : Bool
  /-- route distances of the search start, of OFFSET + OVERRUN, and of BACKOFF's end -/
  startAt : Int
  endAt : Int
  backTo : Int
  deriving DecidableEq, Repr

/-- Results of a homing (POST_HOME RESULT). -/
inductive HomeResult
  | done | early | chatter | stuck | missed | stopped | held | manual | route
  deriving DecidableEq, Repr

/-- A reference post (R255). -/
structure Post where
  sliver : Nat
  rev : Bool
  yard : Bool
  input : Nat
  polarity : Bool
  offset : Nat
  searchDist : Nat
  overrun : Nat
  backoff : Nat
  triggerOfs : Int
  qualN : Nat
  chatK : Nat
  chatW : Nat
  deriving DecidableEq, Repr

/-- How a spindle in STOPPING is brought to rest, and what follows (R251, R252). -/
inductive StopKind
  | none
  /-- controlled stop: set-points lead to rest -/
  | controlled
  /-- immediate stop: rest is judged from TELEM -/
  | immediate
  deriving DecidableEq, Repr

/-- A change of a spindle that takes effect at the next snapshot (R17, R43). -/
inductive SpinAct
  /-- SPIN_PROFILE_SET: the profile as written -/
  | profile (robot : Nat) (p : Profile)
  /-- SPIN_START_AT or SPIN_MODE 0; from MANUAL -/
  | start (robot : Nat) (transfer : Bool)
  /-- SPIN_HOLD: OP -/
  | hold (robot op : Nat)
  | home (robot : Nat) (h : Homing)
  /-- SPIN_MODE 1 and 2 -/
  | manual (robot : Nat)
  | idle (robot : Nat)
  deriving DecidableEq, Repr

/-- A flush re-plan that the next stepping phase carries out (R245): a controlled stop, or a route change, with the number
of entries that R203 required. -/
inductive FlushKind
  | none | stop | route (must : Nat)
  deriving DecidableEq, Repr

/-- One spindle. -/
structure Spindle where
  state : SpinState
  /-- profile last written -/
  prof : Profile
  /-- profile as its last change took effect (R237): the next motion start begins with it -/
  due : Profile
  /-- values that the stream in progress uses; at rest, those that hold now -/
  live : Profile
  /-- D1 and D2 written lower and not yet applied (R249), 0 none; their test has failed; ACCEL_CLAMPED -/
  d1Pending : Nat
  d2Pending : Nat
  dTested : Bool
  clamped : Bool
  stream : Nat
  /-- STEP 0 is still to be produced: its due time, and whether it is a transfer from MANUAL (R238) -/
  starting : Option (Nat × Bool)
  /-- steps sent, and starting states of flushes, as far back as the commanded motion needs them, oldest first -/
  steps : List Step
  /-- the step last produced, and the one after it as it was last worked out -/
  cur : Option Step
  ahead : Option Step
  /-- commanded position before STEP 0 falls due -/
  base : Int
  stretch : Bool
  /-- TARGET_SHORT, and the target as R248 moved it -/
  short_ : Bool
  shortTarget : Option Int
  /-- the stop point of a controlled stop (R246) -/
  fixed : Option Int
  target : Int
  /-- commanded motion at the last snapshot (R243) -/
  cmdPos : Int
  cmdSpeed : Nat
  brakeDist : Nat
  stepsSent : Nat
  flushes : Nat
  /-- last homing result; 0xFF none -/
  lastResult : Nat
  /-- the cause with which WAIT was entered: 2 target, 3 ceiling -/
  waitCause : Nat
  stopKind : StopKind
  /-- state to enter at rest and the cause reported; the tick in which the stop was ordered -/
  after : SpinState
  afterCause : Nat
  orderedIn : Nat
  flush : FlushKind
  /-- consecutive TELEM frames with |SPEED| of at most 10 since the last stop, and one with STOPPED and not BRAKING -/
  slowTelem : Nat
  telemRest : Bool
  /-- the robot is taken to be at rest (R235), and since which device time -/
  atRest : Bool
  restAt : Nat
  homing : Option Homing
  /-- the stream runs backwards along the route -/
  reverse : Bool
  deriving DecidableEq, Repr

def Spindle.init : Spindle :=
  { state := .idle, prof := Profile.init, due := Profile.init, live := Profile.init, d1Pending := 0, d2Pending := 0,
    dTested := false, clamped := false, stream := 0, starting := none, steps := [], cur := none, ahead := none, base := 0,
    stretch := false, short_ := false, shortTarget := none, fixed := none, target := 0, cmdPos := 0, cmdSpeed := 0,
    brakeDist := 0, stepsSent := 0, flushes := 0, lastResult := 255, waitCause := 2, stopKind := .none, after := .idle,
    afterCause := 0, orderedIn := 0, flush := .none, slowTelem := 0, telemRest := false, atRest := true, restAt := 0,
    homing := none, reverse := false }

/-- A contact (R256): its level at the last sample, its raw edges (sample instant and new level, oldest first, the last
40), its qualified level, the edge time and qualification time of the last qualified change, and whether a TELEM carried 4
reports of it. -/
structure Contact where
  raw : Bool
  edges : List (Nat × Bool)
  qual : Bool
  edgeAt : Nat
  qualAt : Nat
  crowded : Bool
  deriving DecidableEq, Repr

def Contact.init : Contact := { raw := false, edges := [], qual := false, edgeAt := 0, qualAt := 0, crowded := false }

/-- A qualified contact change that waits for the next snapshot: yard input (owner 256) or robot contact, level, edge time
and qualification time. -/
structure QualEvent where
  owner : Nat
  contact : Nat
  level : Bool
  edgeAt : Nat
  qualAt : Nat
  deriving DecidableEq, Repr

/-- A yard output (R260): settings and present state. -/
structure YardOut where
  source : Nat
  level : Bool
  stopOff : Bool
  robot : Nat
  on : Bool
  deriving DecidableEq, Repr

def YardOut.init : YardOut := { source := 0, level := false, stopOff := true, robot := 0, on := false }

/-- The spindles, posts and yard pads. -/
structure Spin where
  spindles : Tab Spindle
  posts : Tab Post
  /-- yard inputs 0-15 (index) and robot contacts (256 + 16 r + c) -/
  contacts : Tab Contact
  quals : List QualEvent
  /-- yard outputs 0-7 -/
  yardOut : Tab YardOut
  /-- profile writes, motion starts and stops that apply at the next snapshot -/
  acts : List SpinAct
  /-- the yard outputs may be driven: SYS_STATE has read READY since the boot (R260) -/
  driven : Bool
  deriving DecidableEq, Repr

def Spin.init : Spin :=
  { spindles := [], posts := [], contacts := [], quals := [], yardOut := [], acts := [], driven := false }

end Sys2Proof.Machine
end

