-- ==== Sys2Proof/Machine/StopTypes.lean ====
section
/-! DEFINITION. The state of the stop chain (chapter 12): the latch, the controlled phase, per-robot stops, bursts,
the proof test and the settings of STOP_CFG. -/
set_option autoImplicit false

namespace Sys2Proof.Machine

/-- STOP_CFG words P+1 to P+3 (R298). -/
structure StopCfg where
  goTimeout : Nat
  partnerEn : Bool
  wdogTicks : Nat
  /-- 100 ms -/
  ctrlLimit : Nat
  /-- ms -/
  discTime : Nat
  resetMode : Nat
  resetIn : Nat
  resetInPol : Bool
  /-- h -/
  proofInterval : Nat
  autoProof : Bool
  deriving DecidableEq, Repr

/-- Reset values of the STOP_CFG table. -/
def StopCfg.init : StopCfg :=
  { goTimeout := 3, partnerEn := true, wdogTicks := 4, ctrlLimit := 100, discTime := 50, resetMode := 0,
    resetIn := 0, resetInPol := false, proofInterval := 24, autoProof := true }

/-- A STOP burst in progress (R172): the next BURST index, the entries it was built with, the stop time, cause and
tick of its frames. -/
structure Burst where
  next : Nat
  /-- time since power-on of the next frame -/
  nextAt : Nat
  /-- robots of the broadcast entries -/
  entries : List Nat
  stopTime : Nat
  cause : Nat
  tick : Nat
  deriving DecidableEq, Repr

/-- A per-robot stop (R288). -/
structure RobotStop where
  /-- in force: withholds GO -/
  inForce : Bool
  /-- requested controlled and not yet in force -/
  controlled : Bool
  /-- CATEGORY reported when it came in force: true = immediate -/
  immediate : Bool
  /-- STOP CAUSE: 4 following-error, 5 per-robot command -/
  cause : Nat
  /-- time since power-on at which the per-robot CTRL_LIMIT expires, while controlled -/
  deadline : Nat
  burst : Option Burst
  deriving DecidableEq, Repr

/-- A reset accepted or armed and waiting (R290-R292). -/
structure ResetReq where
  /-- none: an edge of the reset input in mode 1 -/
  req : Option Req
  /-- robot, or 0xFF for the fleet -/
  robot : Nat
  /-- 0 command, 1 yard input -/
  source : Nat
  deriving DecidableEq, Repr

/-- A proof test in progress (R294): its command, the parts left, results so far (0 not run, 1 pass, 2 fail,
3 aborted per part), latencies and the failed injection. -/
structure ProofRun where
  /-- none: an automatic test -/
  req : Option Req
  left : List Nat
  results : List Nat
  latX : Nat
  latY : Nat
  failInput : Nat
  /-- tick in whose guard the last part ran -/
  tick : Option Nat
  deriving DecidableEq, Repr

/-- One of the two identical channels and everything the stop block holds. -/
structure Stop where
  chanX : Bool
  chanY : Bool
  /-- STOP_CAUSE, CATEGORY (true = immediate) and ICODE held -/
  cause : Nat
  immediate : Bool
  icode : Nat
  /-- controlled phase: running, and the time since power-on at which CTRL_LIMIT expires -/
  controlled : Bool
  ctrlDeadline : Nat
  /-- device time of the last latch set -/
  stopTime : Nat
  /-- tick in progress when the latch set -/
  stopTick : Nat
  /-- causes 1-4 requested since the latch set (STOP_SEEN) -/
  seen : List Nat
  /-- firmware has yet to take up a latch set (R284): record and follow-up at the next snapshot -/
  followUp : Bool
  /-- pad levels -/
  estopA : Bool
  estopBN : Bool
  discrepancy : Bool
  /-- time since power-on since which the channels disagree; since which both are in their stop states -/
  disagreeSince : Option Nat
  bothStopSince : Option Nat
  burst : Option Burst
  /-- STOP_FLAGS bits 0-4 and their occurrence counters -/
  flags : List Bool
  occ : List Nat
  /-- per-robot stops, requested or in force -/
  robots : Tab RobotStop
  /-- ICODEs whose fault has not ceased -/
  faults : List Nat
  /-- the partner's request holds the set input (R296) -/
  partnerStop : Bool
  proofFailed : Bool
  /-- device-time seconds of the last full pass, and time since power-on of it -/
  lastPass : Nat
  lastPassUp : Option Nat
  proof : Option ProofRun
  /-- settings last written, and in force since the last snapshot -/
  cfgSet : StopCfg
  cfg : StopCfg
  /-- fleet resets armed in mode 2 and their time limits -/
  armed : List (Req × Nat)
  /-- resets that apply at the next snapshot -/
  resets : List ResetReq
  /-- watchdog (R464): armed, and time since power-on from which it counts -/
  wdogArmed : Bool
  wdogFrom : Nat
  deriving DecidableEq, Repr

/-- The stop block after power-on: the latch set by VIN rising with cause 4 and ICODE 0 (R281). -/
def Stop.init : Stop :=
  { chanX := true, chanY := true, cause := 4, immediate := true, icode := 0, controlled := false, ctrlDeadline := 0,
    stopTime := 0, stopTick := 0, seen := [], followUp := false, estopA := true, estopBN := false,
    discrepancy := false, disagreeSince := none, bothStopSince := none, burst := none,
    flags := [false, false, false, false, false], occ := [0, 0, 0, 0, 0], robots := [], faults := [0], partnerStop := false,
    proofFailed := false, lastPass := 0, lastPassUp := none, proof := none, cfgSet := StopCfg.init,
    cfg := StopCfg.init, armed := [], resets := [], wdogArmed := false, wdogFrom := 0 }

end Sys2Proof.Machine
end

