-- ==== Sys2Proof/Machine/SysTypes.lean ====
section
/-! DEFINITION. The state of the module's supply and boot (chapters 18, 20), of the update session and the images
(chapter 18), and of the Uzoza link as a whole (chapter 07). -/
set_option autoImplicit false

namespace Sys2Proof.Machine

/-- Supply phases (R447, R449). -/
inductive Power
  | off | running | poweringDown
  deriving DecidableEq, Repr

/-- SYS_STATE.STATE as firmware and BROM set it; RUN is READY with a spindle active. -/
inductive Boot
  | boot | init | ready | fault
  deriving DecidableEq, Repr

/-- The SYS block and the supply (chapters 03, 18, 20). -/
structure Sys where
  power : Power
  /-- EN pad; VIN has risen through VIN_ON and has not fallen through VIN_SUP since -/
  en : Bool
  vinOn : Bool
  /-- an EN rising edge came during a power-down (R447) -/
  heldRise : Bool
  /-- powered down at a junction overtemperature (R458), or to do so once the burst has ended -/
  junctionOff : Bool
  junctionStop : Bool
  /-- time since power-on at which the last power-down sequence began (R449) -/
  downAt : Nat
  /-- VIN_LOW and VIN_HIGH faults present (R445) -/
  vinLow : Bool
  vinHigh : Bool
  perstN : Bool
  /-- time since power-on at which PERST_N was last released -/
  perstAt : Nat
  /-- lanes and rate generation that the host's end of the link supports; 0 with no host (R62) -/
  hostLanes : Nat
  hostGen : Nat
  boot : Boot
  /-- SYS_STATE has read READY since the last boot -/
  everReady : Bool
  /-- BOOT_STAGE.STAGE -/
  stage : Nat
  /-- BOOT_RESULT fields -/
  bootResult : Nat
  bootFail : Nat
  bootMs : Nat
  /-- time since power-on at which the boot started -/
  bootFrom : Nat
  /-- a SOFT_RESET was answered and is to be carried out; it has been carried out and the configuration reloads (R82) -/
  softReq : Bool
  reloading : Bool
  /-- SYS_ERR bits 0-3 and their occurrence counters -/
  err : List Bool
  errOcc : List Nat
  scratch : Word
  resetResult : Nat
  /-- PFAULT_OUT asserts a fault (released) -/
  pfaultOut : Bool
  deriving DecidableEq, Repr

def Sys.init : Sys :=
  { power := .off, en := true, vinOn := false, heldRise := false, junctionOff := false, junctionStop := false, downAt := 0,
    vinLow := false, vinHigh := false, perstN := true, perstAt := 0, hostLanes := 0, hostGen := 0, boot := .boot, everReady := false, stage := 0,
    bootResult := 0, bootFail := 0, bootMs := 0, bootFrom := 0, softReq := false, reloading := false,
    err := [false, false, false, false], errOcc := [0, 0, 0, 0], scratch := 0, resetResult := 0, pfaultOut := true }

/-- A firmware bank (R26, Images): header and payload bytes as written, and whether the image passes its checks. -/
structure Bank where
  hdr : List Byte
  payload : List Byte
  valid : Bool
  deriving DecidableEq, Repr

/-- One copy of the activation record; `good` says whether its CRC verifies (R422). -/
structure ActRec where
  seq : Nat
  bankB : Bool
  prevB : Bool
  trial : Bool
  trialCount : Nat
  /-- operating time, 1/4096 h -/
  windowEnd : Nat
  svnFloor : Nat
  good : Bool
  deriving DecidableEq, Repr

def ActRec.init (seq : Nat) : ActRec :=
  { seq := seq, bankB := false, prevB := false, trial := false, trialCount := 0, windowEnd := 0, svnFloor := 0,
    good := true }

/-- Session states of R416, numbers 0-7. -/
inductive UpdState
  | idle | open_ | headerOk | verifying | verified | activating | trial | reverting
  deriving DecidableEq, Repr

/-- Images, the activation record and the update session. -/
structure Upd where
  bankA : Bank
  bankB : Bank
  /-- bank running: true = BANK_B -/
  runB : Bool
  recA : ActRec
  recB : ActRec
  /-- MEAS[0..7], 48 bytes each -/
  meas : List (List Byte)
  state : UpdState
  owner : Nat
  session : Nat
  /-- NEXT of R417 -/
  next : Nat
  /-- time since power-on of the owner's last UPD command -/
  lastUse : Nat
  verifyReq : Option Req
  activateReq : Option Req
  confirmS : Nat
  /-- R418 step 2 has ended, at this device time; the doff boundary is known -/
  recordAt : Option Nat
  attempts : Nat
  doffTick : Nat
  doffs : Nat
  /-- the previous generation still holds the other instruction bank (R421) -/
  prevHeld : Bool
  /-- the revert waits for a restart (R421) -/
  revertRestart : Bool
  revertCause : Nat
  /-- UPD_WINDOW -/
  window : Bool
  lifecycle : Nat
  deriving DecidableEq, Repr

/-- The Uzoza link as a whole: the downlink counter, the session settings, and the robots' sessions. -/
structure Uz where
  /-- next SEQ of the downlink counter (R177) -/
  seq : Nat
  /-- REKEY_H in h, SESSION_TIMEOUT in 100 ms, DUE_GRACE in us: last written, and in force -/
  rekeyH : Nat
  sessTimeout : Nat
  dueGrace : Nat
  robots : Tab Link
  /-- ingress frames discarded that name robot 0xFF or no robot of the member -/
  ffDiscards : Nat
  /-- egress staging (R13): frames of the last completed tick, in release order; frames that the present tick has
  assembled; and KEY and TASK frames that wait for the next assembly -/
  held : List Held
  staged : List Held
  waiting : List Held
  /-- the last beacons released, for R308 -/
  lastBeacons : List Held
  /-- robots granted GO in the last released beacons -/
  granted : List Nat
  /-- JOIN frames that wait for the next input snapshot, oldest first (R10) -/
  joins : List JoinIn
  deriving DecidableEq, Repr

def Uz.init : Uz :=
  { seq := 1, rekeyH := 24, sessTimeout := 20, dueGrace := 1000, robots := [], ffDiscards := 0, held := [], staged := [], waiting := [],
    lastBeacons := [], granted := [], joins := [] }

end Sys2Proof.Machine
end

