-- ==== Sys2Proof/Machine/TrackTypes.lean ====
section
/-! DEFINITION. The state of the track graph, the deckle, routes and reservations (chapter 08). -/
set_option autoImplicit false

namespace Sys2Proof.Machine

/-- A track node (R191), mm in the local frame. -/
structure Node where
  e : Int
  n : Int
  u : Int
  deriving DecidableEq, Repr

/-- A sliver and its attributes (R192). -/
structure Sliver where
  start : Nat
  end_ : Nat
  radius : Int
  width : Nat
  vmax : Nat
  dir : Nat
  classMask : Nat
  deriving DecidableEq, Repr

/-- A graph: defined nodes and slivers; lengths and conflict sets once it has been computed (R192-R195). -/
structure Graph where
  nodes : Tab Node
  slivers : Tab Sliver
  lens : Tab Nat
  conflicts : Tab (List Nat)
  clearance : Nat
  deriving DecidableEq, Repr

def Graph.empty : Graph := { nodes := [], slivers := [], lens := [], conflicts := [], clearance := 300 }

/-- A deckle polygon (R198). -/
structure Poly where
  keepOut : Bool
  en : Bool
  verts : List (Int × Int)
  deriving DecidableEq, Repr

/-- The robot profile (R204, ROUTE_SET OP 3). -/
structure RobotProfile where
  footFront : Nat
  footRear : Nat
  halfWidth : Nat
  trackClass : Nat
  autoReroute : Bool
  /-- 100 mm -/
  lookahead : Nat
  /-- 10 ms -/
  tGuard : Nat
  /-- 10 mm -/
  releaseMargin : Nat
  deriving DecidableEq, Repr

def RobotProfile.init : RobotProfile :=
  { footFront := 1000, footRear := 1000, halfWidth := 750, trackClass := 0, autoReroute := false,
    lookahead := 300, tGuard := 50, releaseMargin := 20 }

/-- The state of a route. ROUTE_STATE reads 1, WAITING, for a moving route whose robot waits on another, and 5 over any
of them for a robot off its track. -/
inductive RouteState
  | none | moving | done | reroute
  deriving DecidableEq, Repr

/-- A route (R202): slivers with REVERSE, END_OFFSET from the last sliver's START node, priority. -/
structure Route where
  entries : List (Nat × Bool)
  endOffset : Nat
  prio : Nat
  deriving DecidableEq, Repr

/-- A window (R206, R208). `idx` is the place of its sliver on the robot's route, while it has one. -/
structure RWindow where
  sliver : Nat
  rev : Bool
  idx : Option Nat
  from_ : Nat
  until_ : Nat
  entered : Bool
  live : Bool
  deriving DecidableEq, Repr

/-- One robot of the reservation unit. -/
structure TrackRobot where
  /-- profile last written, and in force since the last snapshot -/
  profSet : RobotProfile
  prof : RobotProfile
  route : Option Route
  routeId : Nat
  state : RouteState
  /-- OFF_TRACK (R205) -/
  off : Bool
  /-- progress x, mm; lateral offset in 2^-16 mm, and the limit WIDTH/2 - HALF_WIDTH it is held against, in the same
  unit (R205) -/
  x : Int
  lateral : Nat
  lateralMax : Int
  offCount : Nat
  /-- windows in route order -/
  windows : List RWindow
  /-- grant limit: place on the route and route distance; none without a live window (R210) -/
  limitIdx : Option Nat
  limitDist : Int
  sepIn : Int
  bndIn : Int
  waitSince : Nat
  /-- the last tick's requests ended with a failure -/
  failed : Bool
  /-- robots waited on by the last check -/
  waitsOn : List Nat
  /-- while the robot makes its diverged stop (R250): the old route, on which x is measured, the old distance of the new
  route's origin, and how many entries the routes have in common -/
  oldRoute : Option (Route × Int × Nat)
  deriving DecidableEq, Repr

def TrackRobot.init : TrackRobot :=
  { profSet := RobotProfile.init, prof := RobotProfile.init, route := none, routeId := 0, state := .none, off := false,
    x := 0, lateral := 0, lateralMax := 0, offCount := 0, windows := [], limitIdx := none, limitDist := 0, sepIn := 0,
    bndIn := -2147483647, waitSince := 0, failed := false, waitsOn := [], oldRoute := none }

/-- The origin of the local frame (R190). -/
structure Origin where
  lat : Int
  lon : Int
  height : Int
  deriving DecidableEq, Repr

/-- A graph commit in progress (R193, R197): its command, the clearance, when it began; once computed, the graph that
swaps in at the next snapshot and the results of its table. -/
structure Commit where
  /-- none: the recomputation after boot or SOFT_RESET -/
  req : Option Req
  clearance : Nat
  startUp : Nat
  computed : Option Graph
  duration : Nat
  deriving DecidableEq, Repr

/-- An action of the TRACK group that takes effect at the next snapshot (R17, R206). -/
inductive TrackAct
  /-- TRACK_ORIGIN OP 1 or 2 -/
  | origin (o : Option Origin)
  /-- a new deckle polygon, a deletion, or its enable bit -/
  | deckle (poly : Nat) (p : Option Poly)
  /-- RESV_RELEASE: robot, scope, sliver -/
  | release (robot scope sliver : Nat)
  /-- ROUTE_SET OP 1: robot, route -/
  | routeSet (robot : Nat) (r : Route)
  /-- ROUTE_SET OP 2 -/
  | routeClear (robot : Nat)
  /-- a route found by the distance engine for a deadlock victim (R215) -/
  | reroute (robot : Nat) (r : Route)
  deriving DecidableEq, Repr

/-- A deadlock found at the last check: its members and the stage already taken (R215). -/
structure Deadlock where
  members : List Nat
  stage : Nat
  deriving DecidableEq, Repr

/-- The track store and reservation unit. -/
structure Track where
  /-- origin last written, and in force since the last snapshot -/
  originSet : Option Origin
  origin : Option Origin
  active : Graph
  staged : Graph
  commitId : Nat
  commit : Option Commit
  /-- polygons as last written and as in force since the last snapshot -/
  deckleSet : Tab Poly
  deckle : Tab Poly
  blocked : List Nat
  robots : Tab TrackRobot
  acts : List TrackAct
  deadlocks : List Deadlock
  stage1 : Nat
  stage2 : Nat
  /-- victims for which the distance engine has been asked (R215) -/
  rerouteAsked : List Nat
  /-- the latch was set at the last snapshot: the next one after its reset applies R213 -/
  wasLatched : Bool
  /-- robots to which R213 has been applied under their present per-robot stop -/
  stopReleased : List Nat
  deriving DecidableEq, Repr

def Track.init : Track :=
  { originSet := none, origin := none, active := Graph.empty, staged := Graph.empty, commitId := 0, commit := none, deckleSet := [],
    deckle := [], blocked := [], robots := [], acts := [], deadlocks := [], stage1 := 0, stage2 := 0,
    rerouteAsked := [], wasLatched := true, stopReleased := [] }

end Sys2Proof.Machine
end

