-- ==== Sys2Proof/Machine/TaskTypes.lean ====
section
/-! DEFINITION. The state of task allotment (chapter 09) and of the job scheduler (chapter 13). -/
set_option autoImplicit false

namespace Sys2Proof.Machine

/-- STATE of a task slot, numbers 0-6. -/
inductive TaskState
  | free | open_ | proposed | assigned | active | reached | expired
  deriving DecidableEq, Repr

/-- The record of a task (TASK_POST P+0 to P+15). -/
structure TaskRec where
  prio : Nat
  pin : Nat
  hostTag : Nat
  node : Nat
  action : Nat
  reqCap : Nat
  /-- 100 ms -/
  service : Nat
  tEarliest : Nat
  tLatest : Nat
  data : List Byte
  deriving DecidableEq, Repr

def TaskRec.init : TaskRec :=
  { prio := 0, pin := 0, hostTag := 0, node := 0, action := 0, reqCap := 0, service := 0, tEarliest := 0,
    tLatest := 0, data := [] }

/-- A task slot. -/
structure TaskSlot where
  state : TaskState
  task : TaskRec
  /-- robot that holds it; 0xFF none -/
  robot : Nat
  /-- place in the robot's queue: order of assignment -/
  order : Nat
  /-- estimated arrival (R222) -/
  arrival : Nat
  /-- device time of the snapshot at which it was REACHED -/
  reachedAt : Nat
  /-- number of its posting: a slot freed and posted anew holds another task -/
  post : Nat
  deriving DecidableEq, Repr

def TaskSlot.init : TaskSlot :=
  { state := .free, task := TaskRec.init, robot := 255, order := 0, arrival := 0, reachedAt := 0, post := 0 }

/-- Global settings of ALLOT_CFG. -/
structure AllotCfg where
  /-- 10 ms -/
  period : Nat
  autoCommit : Bool
  autoStart : Bool
  autoClose : Bool
  eps : Nat
  valueBase : Nat
  prioStep : Nat
  maxBids : Nat
  ttl : Nat
  deriving DecidableEq, Repr

def AllotCfg.init : AllotCfg :=
  { period := 100, autoCommit := false, autoStart := false, autoClose := false, eps := 1, valueBase := 600,
    prioStep := 120, maxBids := 65536, ttl := 10 }

/-- Robot settings of ALLOT_CFG. -/
structure AllotRobot where
  cap : Nat
  en : Bool
  tasksMax : Nat
  deriving DecidableEq, Repr

def AllotRobot.init : AllotRobot := { cap := 1, en := false, tasksMax := 1 }

/-- One assignment of a round's result (ALLOT_GET entry), with the path of slivers and directions it rests on. -/
structure Assign where
  robot : Nat
  task : Nat
  /-- 0 proposed, 1 committed, 2 dropped -/
  outcome : Nat
  reason : Nat
  cost : Nat
  arrival : Nat
  path : List (Nat × Bool)
  /-- the path's slivers with their nodes, as they were at the round (R230 reason 4) -/
  laid : List (Sliver × Node × Node)
  /-- the number of the task's posting (R230 reason 1) -/
  post : Nat
  deriving DecidableEq, Repr

/-- A round's result (R225 and the round results table). -/
structure Round where
  id : Nat
  assigns : List Assign
  tasks : Nat
  robots : Nat
  skipped : Nat
  bids : Nat
  benefit : Nat
  duration : Nat
  truncated : Bool
  committed : Bool
  dropped : Nat
  roundsSkipped : Nat
  /-- time since power-on at which it ended (R227) -/
  endUp : Nat
  deriving DecidableEq, Repr

/-- A round that runs (R226): its command if one asked for it, whether its result commits at once, its start. -/
structure RoundRun where
  req : Option Req
  commit : Bool
  startUp : Nat
  /-- the result, which depends only on the start snapshot (R225) -/
  result : Round
  deriving DecidableEq, Repr

/-- A commit that is applied at the next snapshot (R230). -/
structure CommitReq where
  req : Option Req
  /-- ALLOT_COMMIT (true) or a round's own commit -/
  byCommand : Bool
  robots : List Nat
  deriving DecidableEq, Repr

/-- A task action that takes effect at the next snapshot (R17). -/
inductive TaskAct
  | post (slot : Nat) (r : TaskRec)
  | update (slot : Nat) (r : TaskRec)
  | cancel (slot : Nat)
  | close (slot : Nat)
  /-- a ROUTE_SET with OP 1 or 2 was accepted for the robot (R218) -/
  | overridden (robot : Nat)
  deriving DecidableEq, Repr

/-- Task allotment. -/
structure Task where
  slots : Tab TaskSlot
  nextOrder : Nat
  /-- tasks posted since boot -/
  posts : Nat
  /-- settings as last written, and in force since the last round's start -/
  cfgSet : AllotCfg
  cfg : AllotCfg
  robotsSet : Tab AllotRobot
  robots : Tab AllotRobot
  roundId : Nat
  run : Option RoundRun
  last : Option Round
  /-- the last round is a valid proposal since this time since power-on -/
  proposalAt : Option Nat
  roundsSkipped : Nat
  /-- ALLOT_RUN accepted: starts at the next snapshot -/
  runReq : Option (Req × Nat)
  /-- a periodic round starts at the next snapshot -/
  periodic : Bool
  /-- device time of the last multiple of PERIOD that was served (R226) -/
  periodAt : Nat
  commits : List CommitReq
  acts : List TaskAct
  /-- robots whose SERVICE has elapsed: their next route is built at the next snapshot (R218) -/
  serviceDone : List Nat
  /-- device time at which a robot's SERVICE at its last target has elapsed -/
  serviceUntil : Tab Nat
  /-- robots whose route was built from an allotted task -/
  taskRoutes : List Nat
  deriving DecidableEq, Repr

def Task.init : Task :=
  { slots := [], nextOrder := 0, posts := 0, cfgSet := AllotCfg.init, cfg := AllotCfg.init, robotsSet := [], robots := [],
    roundId := 0, run := none, last := none, proposalAt := none, roundsSkipped := 0, runReq := none,
    periodic := false, periodAt := 0, commits := [], acts := [], serviceDone := [], serviceUntil := [], taskRoutes := [] }

/-- Order class of a job (R301). -/
inductive JobClass
  | parallel
  | serial (key : Nat)
  deriving DecidableEq, Repr

/-- A job slot (R300). -/
structure JobSlot where
  counter : Nat
  ready : Bool
  running : Bool
  overlaps : Nat
  prio : Nat
  cls : JobClass
  /-- time since power-on at which it became ready -/
  readyAt : Nat
  succs : List Nat
  /-- planned duration in CORE cycles (R311) -/
  planned : Nat
  deriving DecidableEq, Repr

def JobSlot.init : JobSlot :=
  { counter := 0, ready := false, running := false, overlaps := 0, prio := 0, cls := .parallel, readyAt := 0,
    succs := [], planned := 0 }

/-- A tick core (R303, R311). -/
structure Core where
  quarantined : Bool
  /-- the job it runs, and since when; the job prefetched -/
  job : Option (Nat × Nat)
  prefetch : Option Nat
  jobsRun : Nat
  waitMax : Nat
  /-- mean wait of the jobs run in the last second, and the waits and their number in the present one, ns -/
  waitMean : Nat
  waitSum : Nat
  waitCount : Nat
  busy : Nat
  load : Nat
  /-- tick numbers of its overruns within the last 64 ticks -/
  overruns : List Nat
  ovrTotal : Nat
  revoked : Nat
  deriving DecidableEq, Repr

def Core.init : Core :=
  { quarantined := false, job := none, prefetch := none, jobsRun := 0, waitMax := 0, waitMean := 0, waitSum := 0, waitCount := 0, busy := 0,
    load := 0, overruns := [], ovrTotal := 0, revoked := 0 }

/-- Definition of a host job (SCHED_JOB_DEFINE P+1 to P+3 and its stored packet). -/
structure HostJobDef where
  trigger : Nat
  deps : Nat
  rearm : Bool
  stopOnFail : Bool
  eventCode : Nat
  periodTicks : Nat
  succMask : Nat
  packet : List Word
  /-- queue that defined it, and its network source -/
  queue : Nat
  epoch : Nat
  deriving DecidableEq, Repr

/-- A host job (R314). -/
structure HostJob where
  defn : Option HostJobDef
  armed : Bool
  ready : Bool
  running : Bool
  counter : Nat
  runs : Nat
  overlaps : Nat
  lastStatus : Word
  /-- snapshots until the next periodic decrement -/
  periodLeft : Nat
  readyAt : Nat
  /-- the final status and results of the run, until HOST_JOB_FINAL takes them -/
  result : Option (Word × List Word)
  deriving DecidableEq, Repr

def HostJob.init : HostJob :=
  { defn := none, armed := false, ready := false, running := false, counter := 0, runs := 0, overlaps := 0,
    lastStatus := 0, periodLeft := 0, readyAt := 0, result := none }

/-- The job scheduler (chapter 13): slots, cores, host jobs, creel and tick statistics. -/
structure Sched where
  slots : Tab JobSlot
  cores : Tab Core
  jobs : Tab HostJob
  /-- PEAK and longest wait (us) per priority since clear -/
  peaks : List Nat
  waits : List Nat
  load : Nat
  slackLast : Int
  slackMin : Option Int
  /-- slacks of the last 1,000 ticks, us -/
  slacks : List Int
  overruns : Nat
  carryBeacons : Nat
  /-- tick numbers of the overruns of the last 64 ticks -/
  ovrRecent : List Nat
  consec : Nat
  lastOverrun : Nat
  /-- command response times of the present second, us -/
  cmdTimes : List Nat
  cmdTyp : Nat
  cmdP99 : Nat
  /-- core time of priority 6 jobs and tick budget of the present second, ns (R305) -/
  prio6 : Nat
  budget : Nat
  deriving DecidableEq, Repr

def Sched.init : Sched :=
  { slots := [], cores := [], jobs := [], peaks := List.replicate 8 0, waits := List.replicate 8 0, load := 0,
    slackLast := 0, slackMin := none, slacks := [], overruns := 0, carryBeacons := 0, ovrRecent := [], consec := 0,
    lastOverrun := 0, cmdTimes := [], cmdTyp := 0, cmdP99 := 0, prio6 := 0, budget := 0 }

end Sys2Proof.Machine
end

