-- ==== Sys2Proof/Machine/PairTypes.lean ====
section
/-! DEFINITION. The state of the redundant pair (chapter 17), the mirror record, and what leaves the module. -/
set_option autoImplicit false

namespace Sys2Proof.Machine

/-- ROLE, numbers 0-3 (R391). -/
inductive Role
  | lone | standby | active | arbitrating
  deriving DecidableEq, Repr

/-- Settings of the switch and of time that both modules of a pair share (R394): the ports' settings, the pair interfaces
IF[0..2], VLANs, static MAC entries, routes and ageing, and the settings of the source list, the servo, the pulse
interfaces and PTP. -/
structure Shared where
  ports : List (Nat × PortCfg × QosCfg)
  ifaces : List (Nat × Iface)
  vlans : Tab Vlan
  statics : List FdbEntry
  routes : List RouteEntry
  ageTime : Nat
  holdoff : Nat
  src : SrcCfg
  servo : ServoCfg
  pps : PpsCfg
  ptp : PtpCfg
  ptpPorts : Tab PtpPort
  deriving DecidableEq, Repr

/-- The content of a MIRROR record (R394), and of a RESYNC transfer (R395): the tick and its settings, the stop chain,
the laws and supervisors, spindles, routes and windows, tasks, sessions with the egress staging, pending execute-at
commands, host jobs, rover slots, shared settings, and the format version and length. -/
structure MirrorData where
  /-- the sender's time since power-on, which the times of its timers count by -/
  up : Nat
  tick : Tick
  stop : Stop
  gov : Gov
  spin : Spin
  track : Track
  task : Task
  uz : Uz
  execs : List Req
  jobs : Tab HostJob
  rse : Rse
  shared : Shared
  major : Nat
  minor : Nat
  bytes : Nat
  /-- the rover slot digests it carries match the standby's own -/
  digestsMatch : Bool
  /-- the tick ends with a hand-over under PAIR_SWITCH (R406) -/
  handOver : Bool
  deriving DecidableEq, Repr

/-- The pair unit. -/
structure Pair where
  en : Bool
  prefer : Bool
  switchTicks : Nat
  auto : Bool
  mac : Nat
  role : Role
  laneUp : Bool
  /-- ACT_IN is active (R388); PFAULT_IN shows a fault -/
  actIn : Bool
  pfaultIn : Bool
  /-- time since power-on from which the present ACT_IN level holds -/
  actInAt : Nat
  synced : Bool
  partnerReady : Bool
  partnerRole : Nat
  /-- the partner's PREFER and PAIR_MAC, since the lane came up -/
  partnerCfg : Option (Bool × Nat)
  mirrorIncompat : Bool
  interlockFault : Bool
  lastMirror : Nat
  mirrorBytes : Nat
  /-- standby health word, bits [7:0] of PAIR_GET word 6 -/
  health : Nat
  partnerFw : Nat
  switches : Nat
  lastSwitch : Nat
  lastGap : Nat
  cover : Nat
  selftestFaults : Nat
  share : Nat
  mask : Nat
  selftestPass : Bool
  /-- the last MIRROR record received -/
  mirror : Option MirrorData
  /-- TICK_NUMBER of the last RELEASED record received -/
  released : Option Nat
  /-- sequence number expected in the next lane record, and given to the next one sent; a resync is under way -/
  laneSeq : Nat
  laneOut : Nat
  resync : Bool
  /-- PAIR_SWITCH commands accepted: they act at the completion of the tick (R406) -/
  switchReqs : List Req
  switchAfter : Nat
  /-- arbitration: the wait with ACT_IN inactive, ns, and the time since power-on at which it ends -/
  arbWait : Nat
  arbUntil : Nat
  /-- the active module's latch is clear and this standby's still has to clear (R296) -/
  resetOwed : Bool
  /-- dead time running since this time since power-on (R398); the record has been loaded -/
  deadFrom : Option Nat
  loaded : Bool
  takeoverCause : Nat
  /-- EV_PAIR_SWITCH to record at the first snapshot: cause, latched, last mirrored tick, gap, boundaries passed -/
  switchEvent : Option (Nat × Bool × Nat × Nat × Nat)
  deriving DecidableEq, Repr

/-- A lone module's pair unit at reset. -/
def Pair.init : Pair :=
  { en := false, prefer := false, switchTicks := 2, auto := true, mac := 0x000000000002, role := .lone,
    laneUp := false, actIn := false, pfaultIn := true, actInAt := 0, synced := false, partnerReady := false,
    partnerRole := 0, partnerCfg := none, mirrorIncompat := false, interlockFault := false, lastMirror := 0,
    mirrorBytes := 0, health := 0, partnerFw := 0, switches := 0, lastSwitch := 0, lastGap := 0,
    cover := 0, selftestFaults := 0, share := 20, mask := 0x7F, selftestPass := false, mirror := none,
    released := none, laneSeq := 0, laneOut := 0, resync := false, switchReqs := [], switchAfter := 0, arbWait := 0, arbUntil := 0, resetOwed := false,
    deadFrom := none, loaded := false, takeoverCause := 0, switchEvent := none }

/-- What left the module while the last command was carried out. -/
inductive Output
  /-- an MSI-X message of a vector (R64) -/
  | msix (vector : Nat)
  /-- a 64-bit value answered to a read of BAR0 or BAR2 (R63, R70) -/
  | readData (value : Nat)
  /-- words written to host memory at a byte address (R72) -/
  | hostWrite (addr : Nat) (words : List Word)
  /-- the tail written back to host memory (R72) -/
  | tailWrite (addr : Nat) (tail : Nat)
  /-- a management datagram: its destination and its payload bytes (R58) -/
  | datagram (dst : NetSrc) (payload : List Byte)
  /-- a MIRROR record on the Hexlux lane (R394) -/
  | mirror (m : MirrorData)
  /-- another Hexlux lane record by kind: 1 INPUT, 2 BASE, 3 RELEASED, 4 HEALTH, 5 RESYNC request, 6 stop symbol -/
  | lane (kind : Nat) (words : List Nat)
  /-- a frame sent on a port: its length in bytes, and its content where the module made it -/
  | frame (port len : Nat) (own : Option TxFrame)
  /-- the headers of a frame that is passed on, as it leaves by a port (R334) -/
  | forwarded (port : Nat) (h : FwdHead)
  /-- a byte on a correction UART C[stream] -/
  | uartC (stream : Nat) (b : Byte)
  /-- the time-of-day sentence sent on UART_T -/
  | tod (text : List Nat)
  /-- a pad driven to a level: pad number and level -/
  | pad (pad : Nat) (level : Bool)
  /-- a PTP message sent on a port in answer to one received: message type, sequence, time and logMessageInterval -/
  | ptp (port kind seq : Nat) (time interval : Int)
  /-- PTP messages of one type that an instance sends on a port in a second: the domain, the transport set, and how many -/
  | ptpSent (port kind domain transport count : Nat)
  /-- the PTP message of a frame that passes through, as it leaves by a port (R364, R365) -/
  | ptpPassed (port : Nat) (m : PtpFrame)
  /-- a PTP Announce message: port, domain, priority1, priority2, clockClass, clockAccuracy, timeSource, UTC offset and its
  validity, leap -/
  | announce (port domain prio1 prio2 cls accuracy source : Nat) (utc : Int) (utcValid : Bool) (leap : Nat)
  /-- an ARP, neighbour or ICMP message sent by the module's own interface: kind and words -/
  | netReply (port kind : Nat) (words : List Nat)
  deriving DecidableEq, Repr

end Sys2Proof.Machine
end

