-- ==== Sys2Proof/Machine/EventTypes.lean ====
section
/-! DEFINITION. The operands of the block's commands: the host command as it reaches the module, and what the outside
world and the module's free-running units bring with each event. -/
set_option autoImplicit false

namespace Sys2Proof.Machine

/-- A host command (rows 0-99 of the table): the queue it is sent on (0-15 a queue pair, 16 the network queue), the
flags, LENGTH and TAG of its header, its execute-at time when AT = 1, its parameter words from P+0 on, and the time
that has passed since the last event, ns. -/
structure Cmd where
  q : Nat
  ev : Bool
  at_ : Bool
  nr : Bool
  ch : Bool
  len : Nat
  tag : Word
  execAt : Nat
  params : List Word
  net : Option NetSrc
  dt : Nat
  deriving DecidableEq, Repr

/-- The W1C flag registers with occurrence counters (R76): SYS_ERR, QUE_STAT of a queue pair, INT_STAT, STOP_FLAGS,
TIME_FLAGS. -/
inductive FlagReg
  | sysErr | que (q : Nat) | int | stop | time
  deriving DecidableEq, Repr

/-- A queue pair at which something happens, and the pointer whose two copies are found to disagree at it, if one is
(R74). -/
structure PtrAt where
  q : Nat
  fault : Option Nat
  deriving DecidableEq, Repr

/-- What a register write brings (R63), and the pointer that it finds at fault. -/
structure BarWrite where
  value : Nat
  fault : Option Nat
  deriving DecidableEq, Repr

/-- The level of PERST_N, with the lanes and the generation that the host's end of the link supports (R62, R439). -/
structure PerstLevel where
  high : Bool
  lanes : Nat
  gen : Nat
  deriving DecidableEq, Repr

/-- One channel's correlator dump of a millisecond (R93) and what the signal shows in it: carrier to noise, a cycle slip,
the preamble's polarity where it is found (whether the phase is off by a half cycle), and whether the dump is known as the
first of a data bit. -/
structure ChanMeas where
  ch : Nat
  dump : Dump
  cn0 : Nat
  slip : Bool
  halfKnown : Option Bool
  bitEdge : Bool
  deriving DecidableEq, Repr

/-- A run of equal ADC samples: how many, and their I and Q values, -128 to 127. -/
structure SampleRun where
  n : Nat
  i : Int
  q : Int
  deriving DecidableEq, Repr

/-- The ADC samples of a band chain in a millisecond, in order (R86, R87). -/
structure AgcMeas where
  chain : Nat
  samples : List SampleRun
  deriving DecidableEq, Repr

/-- A narrowband component in a chain (R88): its offset from the chain's centre, Hz, and its height above the noise floor,
0.1 dB. -/
structure NotchTone where
  chain : Nat
  freq : Int
  level : Nat
  deriving DecidableEq, Repr

/-- A candidate of the assignment (R95): signal, number, FDMA channel, elevation in degrees by the almanac (none where no
almanac is held), predicted Doppler. -/
structure SkySat where
  ant : Bool
  sig : Nat
  svid : Nat
  k : Nat
  elev : Option Int
  doppler : Int
  /-- the Doppler is a prediction -/
  predicted : Bool
  deriving DecidableEq, Repr

/-- One channel's latched measurements at an epoch (R101): the pseudorange at the converters, 2^-6 mm, the carrier phase,
2^-16 cycle, and where the satellite was at transmission by the navigation data held. -/
structure ObsMeas where
  ch : Nat
  pr : Nat
  prValid : Bool
  phase : Int
  sat : Option Ecef
  deriving DecidableEq, Repr

/-- The signals that carry a unit (navigation units table). -/
def unitSignals (u : Nat) : List Nat :=
  [[0, 14], [2, 3], [1, 15], [1, 15], [4, 5], [6, 8], [7], [9], [10, 13], [11], [11], [12], [18], [19, 20]].getD u []

/-- A decoded navigation unit (R116, R117): CHECK 0 PASS, 1 CORRECTED, 2 FAIL; symbols corrected; the device time of
its first bit; its data words; whether it is ephemeris or almanac content; the UTC offset and the pending leap, and the
offset of its system from GPS time, ps, that it carries. -/
structure NavUnit where
  sig : Nat
  svid : Nat
  k : Nat
  unit : Nat
  check : Nat
  corrected : Nat
  tFirst : Nat
  words : List Word
  store : Bool
  utc : Option (Int × Nat)
  isb : Option Int
  deriving DecidableEq, Repr

/-- The IP header of a frame as the router reads it (R333): version 4 or 6, addresses, TTL, DSCP, the header checksum of
version 4, and whether the header is correct. -/
structure IpHdr where
  ver : Nat
  src : Nat
  dst : Nat
  ttl : Nat
  dscp : Nat
  checksum : Nat
  good : Bool
  deriving DecidableEq, Repr

/-- What a frame carries, as far as the switch looks into it (R325): an ARP request or a Neighbour Solicitation for an
address, an echo request, UDP to a port, a PTP message, an Uzoza frame without IP, or anything else. -/
inductive FrameKind
  | other
  | arpRequest (addr : Nat)
  | solicit (addr : Nat)
  | echo
  | udp (dstPort : Nat)
  | ptp (m : PtpFrame)
  | uzoza
  deriving DecidableEq, Repr

/-- An Ethernet frame at a port's ingress: its length in bytes counts the tag and the FCS. MAC and IP addresses are
numbers whose lowest byte is the first on the wire (R340). -/
structure EthFrame where
  port : Nat
  dst : Nat
  src : Nat
  /-- 802.1Q tag: VID and PCP -/
  tag : Option (Nat × Nat)
  etherType : Nat
  len : Nat
  fcsOk : Bool
  ip : Option IpHdr
  kind : FrameKind
  deriving DecidableEq, Repr

/-- A time-of-day sentence (R361): a ZDA sentence in UTC, or the module's own with TAI seconds, TAI - UTC and its flag. -/
structure TodText where
  zda : Bool
  seconds : Nat
  offset : Int
  locked : Bool
  checksumOk : Bool
  deriving DecidableEq, Repr

/-- A PTP message at a port (R362-R366). -/
structure PtpMsg where
  port : Nat
  domain : Nat
  kind : Nat
  identity : Nat
  seq : Nat
  master : Master
  theta : Int
  mpd : Nat
  deriving DecidableEq, Repr

/-- What an INPUT record forwards (R393). -/
inductive LaneInput
  | frame (f : Uplink) (stamp : Nat)
  | command (r : Req)
  | contact (e : QualEvent)
  deriving DecidableEq, Repr

/-- Where an uncorrectable error lies (R433): tick state, law slots, spindle state or stop block; a robot's solver slot; a
frame at an egress port; an instruction bank; in the MRAM a record, a copy of the activation record, or anything else. -/
inductive EccPlace
  | tickState | solver (robot : Nat) | packet (port ix : Nat) | instruction (executing : Bool)
  | mramRecord (audit : Bool) (seq : Nat) | mramAct (copyB : Bool) | other
  deriving DecidableEq, Repr

/-- A unit that fails in service, or a spare tried (R434): RSE lane of a cluster, channel, SRAM row (`cluster` its
memory, `place` what the row holds); whether the next spare proves good at the swap. -/
structure UnitFail where
  pool : Nat
  unit : Nat
  cluster : Nat
  place : EccPlace
  spareGood : Bool
  deriving DecidableEq, Repr

/-- PCI Express link errors (R62, R83). -/
inductive PcieErr
  | correctable | uncorrectable | replayTimeout | retrain (width gen : Nat) | malformed
  deriving DecidableEq, Repr

end Sys2Proof.Machine
end

