-- ==== Sys2Proof/Syntax.lean ====
section
/-! DEFINITION. The commands of the block: one constructor per row of the operation table. -/
set_option autoImplicit false

namespace Sys2Proof

open Sys2Proof.Machine

/-- The block's commands (rows 0-99 the host commands, rows 100-235 the port accesses and events). -/
inductive Instr
  /-- NOP (R61): Does nothing and answers ST_OK; with CH it acts as a fence and with AT as a timer. -/
  | nop (c : Cmd)
  /-- GET_INFO (R2): Returns the member's identity and every row of the family parameters table. -/
  | getInfo (c : Cmd)
  /-- GET_STATUS (R81): Returns the module state, time quality, tick counters and fleet summary. -/
  | getStatus (c : Cmd)
  /-- SET_TICK (R18): Changes the tick period at the next whole second, or the guard and GO offset at the next boundary. -/
  | setTick (c : Cmd)
  /-- SOFT_RESET (R82): Answers and then, within one tick, cancels pending commands, resets queues, restarts the cores and reloads the configuration. -/
  | softReset (c : Cmd)
  /-- GET_COUNTERS (R83): Reads, and optionally clears, the queue, security or PCI Express counter set. -/
  | getCounters (c : Cmd)
  /-- GNSS_CONFIG (R113): Reads or writes general, band chain, notch or loop bandwidth settings. -/
  | gnssConfig (c : Cmd)
  /-- GNSS_CHANNEL_SET (R96): Releases, pins, disables or adjusts one correlator channel. -/
  | gnssChannelSet (c : Cmd)
  /-- GNSS_GET_CHANNELS (R93): Returns the report of a range of channels. -/
  | gnssGetChannels (c : Cmd)
  /-- GNSS_SET_ANTENNA (R85): Sets or reads the antenna bias and the cable delay. -/
  | gnssSetAntenna (c : Cmd)
  /-- GNSS_NAV_SUBSCRIBE (R118): Reads the navigation counters, or subscribes or unsubscribes the queue pair to navigation units. -/
  | gnssNavSubscribe (c : Cmd)
  /-- GNSS_SET_ISB (R105): Sets or reads the inter-system offset mode and value of a system. -/
  | gnssSetIsb (c : Cmd)
  /-- GNSS_SURVEY (R109): Reads, fixes, surveys or clears the ARP, or surveys the ANT_B baseline. -/
  | gnssSurvey (c : Cmd)
  /-- GNSS_INTEGRITY_CFG (R130): Reads or writes the integrity monitor settings and reports the integrity level. -/
  | gnssIntegrityCfg (c : Cmd)
  /-- GNSS_GET_OBS (R115): Reads the observation records of a held epoch, or subscribes or unsubscribes to them. -/
  | gnssGetObs (c : Cmd)
  /-- CORR_STREAM_CFG (R124): Writes or reads the settings of a correction stream or a shared descriptor. -/
  | corrStreamCfg (c : Cmd)
  /-- CORR_GET_STATS (R124): Returns, and optionally clears, the statistics of a correction stream. -/
  | corrGetStats (c : Cmd)
  /-- ROVER_BIND (R165): Reads, binds or unbinds a rover slot within the solver budget. -/
  | roverBind (c : Cmd)
  /-- ROVER_CFG (R164): Writes or reads the solver settings of one rover slot or of every slot. -/
  | roverCfg (c : Cmd)
  /-- ROVER_GET_FIX (R153): Returns the latest published fix or the tick fix of a rover. -/
  | roverGetFix (c : Cmd)
  /-- ROVER_SUBSCRIBE (R166): Reads, sets or removes the queue pair's decimated rover fix subscription. -/
  | roverSubscribe (c : Cmd)
  /-- ROVER_RESET_AMB (R149): Re-enters a chosen scope of a rover's ambiguities, or restarts its filter, at its next solved epoch. -/
  | roverResetAmb (c : Cmd)
  /-- ROVER_GET_STATS (R157): Returns, and optionally clears, a rover slot's or the whole engine's counters and latencies. -/
  | roverGetStats (c : Cmd)
  /-- TRACK_ORIGIN (R191): Reads, sets or clears the track origin, clearing the graph and windows on a change. -/
  | trackOrigin (c : Cmd)
  /-- TRACK_LOAD_NODES (R193): Defines or deletes nodes in the staged graph. -/
  | trackLoadNodes (c : Cmd)
  /-- TRACK_LOAD_SLIVERS (R193): Defines or deletes slivers in the staged graph. -/
  | trackLoadSlivers (c : Cmd)
  /-- TRACK_COMMIT (R193): Starts the check and conflict-table computation that makes the staged graph active. -/
  | trackCommit (c : Cmd)
  /-- DECKLE_LOAD (R199): Reads, defines, deletes or enables a deckle polygon. -/
  | deckleLoad (c : Cmd)
  /-- RESV_GET (R212): Returns a robot's windows and grant, a sliver's windows, or a reservation summary. -/
  | resvGet (c : Cmd)
  /-- RESV_RELEASE (R206): Releases windows of a robot, and optionally its route, at the snapshot. -/
  | resvRelease (c : Cmd)
  /-- ROUTE_SET (R202): Reads, sets or clears a robot's route, or writes its robot profile. -/
  | routeSet (c : Cmd)
  /-- TASK_POST (R217): Posts, updates or reads a task slot. -/
  | taskPost (c : Cmd)
  /-- TASK_CANCEL (R218): Cancels an open or assigned task, or closes a reached or expired one. -/
  | taskCancel (c : Cmd)
  /-- ALLOT_CFG (R219): Writes or reads the global or per-robot allotment settings. -/
  | allotCfg (c : Cmd)
  /-- ALLOT_RUN (R226): Starts an allotment round that proposes or commits its result. -/
  | allotRun (c : Cmd)
  /-- ALLOT_GET (R225): Reads the assignments of the last round. -/
  | allotGet (c : Cmd)
  /-- ALLOT_COMMIT (R230): Commits the masked assignments of the valid proposal at a snapshot. -/
  | allotCommit (c : Cmd)
  /-- SPIN_PROFILE_SET (R237): Writes or reads a robot's speed profile. -/
  | spinProfileSet (c : Cmd)
  /-- SPIN_START_AT (R238): Opens a new motion stream for a robot. -/
  | spinStartAt (c : Cmd)
  /-- SPIN_HOLD (R251): Makes a controlled stop to HOLD or IDLE for one or every robot. -/
  | spinHold (c : Cmd)
  /-- SPIN_GET (R243): Returns a spindle's state, commanded motion and counters. -/
  | spinGet (c : Cmd)
  /-- POST_DEFINE (R255): Reads, defines or deletes a reference post. -/
  | postDefine (c : Cmd)
  /-- POST_HOME (R257): Starts a reference-post homing sequence as a motion start. -/
  | postHome (c : Cmd)
  /-- SPIN_MODE (R253): Transfers a spindle to automatic, manual or idle. -/
  | spinMode (c : Cmd)
  /-- YARD_OUT_SET (R260): Writes or reads the source and level of a yard output. -/
  | yardOutSet (c : Cmd)
  /-- GOV_COEF_LOAD (R280): Writes the inactive coefficient set of a governor law, or reads a set. -/
  | govCoefLoad (c : Cmd)
  /-- GOV_COEF_SWAP (R274): Marks named governor laws swap pending for the next applicable tick. -/
  | govCoefSwap (c : Cmd)
  /-- GOV_LIMITS (R268): Writes or reads a robot's SEP, BND, QUAL and LINK limits. -/
  | govLimits (c : Cmd)
  /-- GOV_FE_CFG (R276): Writes or reads a robot's following-error levels, times and action. -/
  | govFeCfg (c : Cmd)
  /-- GOV_GET (R269): Returns a robot's governor outputs and errors, or a law slot's contents. -/
  | govGet (c : Cmd)
  /-- GOV_CAP_SET (R268): Writes or reads a robot's CAP value. -/
  | govCapSet (c : Cmd)
  /-- STOP_FLEET (R287): Requests an immediate or controlled fleet stop at acceptance. -/
  | stopFleet (c : Cmd)
  /-- STOP_ROBOT (R288): Requests an immediate or controlled per-robot stop. -/
  | stopRobot (c : Cmd)
  /-- STOP_RESET (R290): Checks and schedules the reset of the fleet stop or of a per-robot stop. -/
  | stopReset (c : Cmd)
  /-- STOP_CFG (R298): Writes or reads the stop chain settings inside a configuration session. -/
  | stopCfg (c : Cmd)
  /-- STOP_GET (R297): Returns the stop chain state, causes, held robots and refusal bits. -/
  | stopGet (c : Cmd)
  /-- STOP_TEST (R294): Starts a proof test of the selected stop-path parts. -/
  | stopTest (c : Cmd)
  /-- NET_PORT_CFG (R340): Writes or reads a port or interface configuration, or reads port statistics. -/
  | netPortCfg (c : Cmd)
  /-- NET_VLAN (R323): Reads, sets or deletes a VLAN. -/
  | netVlan (c : Cmd)
  /-- NET_FDB_ADD (R330): Adds or deletes a static MAC entry, or flushes dynamic entries. -/
  | netFdbAdd (c : Cmd)
  /-- NET_FDB_GET (R327): Looks up or walks the MAC table, or reads the robot table. -/
  | netFdbGet (c : Cmd)
  /-- NET_ROUTE_ADD (R333): Adds or replaces an IPv4 or IPv6 route. -/
  | netRouteAdd (c : Cmd)
  /-- NET_ROUTE_DEL (R333): Deletes an IPv4 or IPv6 route. -/
  | netRouteDel (c : Cmd)
  /-- NET_AGE_CFG (R332): Writes or reads the ageing time and move hold-off. -/
  | netAgeCfg (c : Cmd)
  /-- NET_QOS_CFG (R335): Writes or reads a port's trust, default priority and priority maps. -/
  | netQosCfg (c : Cmd)
  /-- TIME_SOURCE_CFG (R345): Writes or reads the source list and qualification times, and may request a REF reselection. -/
  | timeSourceCfg (c : Cmd)
  /-- TIME_GET (R370): Returns device time, servo state, uncertainty and asymmetry estimate. -/
  | timeGet (c : Cmd)
  /-- TIME_SET (R354): Sets time, sets the UTC offset or adds a slewed adjustment at a whole second. -/
  | timeSet (c : Cmd)
  /-- PPS_CFG (R360): Writes or reads the PPS output, PPS input and time-of-day settings. -/
  | ppsCfg (c : Cmd)
  /-- PTP_CFG (R362): Writes or reads PTP instance or port settings, or reads PTP statistics. -/
  | ptpCfg (c : Cmd)
  /-- SERVO_CFG (R351): Writes servo limits, loads an inactive servo law set, or marks a swap. -/
  | servoCfg (c : Cmd)
  /-- TIME_MODE (R344): Changes between NORMAL and RAW mode at a whole second. -/
  | timeMode (c : Cmd)
  /-- REC_CFG (R381): Reads or sets an event code's recording limit, or returns recorder status. -/
  | recCfg (c : Cmd)
  /-- REC_READ (R383): Reads records from a mark or an audit snapshot. -/
  | recRead (c : Cmd)
  /-- REC_MARK (R383): Reads or positions a recorder mark. -/
  | recMark (c : Cmd)
  /-- REC_SNAPSHOT (R385): Reads, opens or closes an audit snapshot. -/
  | recSnapshot (c : Cmd)
  /-- REC_WRITE (R372): Writes a host record into the chosen class. -/
  | recWrite (c : Cmd)
  /-- REC_ERASE (R384): Empties a recorder ring, overtaking its marks. -/
  | recErase (c : Cmd)
  /-- PAIR_CFG (R405): Writes or reads the pair settings inside a configuration session. -/
  | pairCfg (c : Cmd)
  /-- PAIR_GET (R395): Returns the pair role, interlock state and standby health. -/
  | pairGet (c : Cmd)
  /-- PAIR_SWITCH (R406): Hands the active role to the partner at the completion of a tick. -/
  | pairSwitch (c : Cmd)
  /-- PAIR_SELFTEST_CFG (R402): Writes or reads the standby self-test share and mask. -/
  | pairSelftestCfg (c : Cmd)
  /-- UPD_OPEN (R416): Takes the update session and invalidates the staging bank. -/
  | updOpen (c : Cmd)
  /-- UPD_HEADER (R413): Checks and writes an image header into the staging bank. -/
  | updHeader (c : Cmd)
  /-- UPD_DATA (R417): Writes the next payload bytes in order. -/
  | updData (c : Cmd)
  /-- UPD_VERIFY (R417): Starts reading back and hashing the staging bank. -/
  | updVerify (c : Cmd)
  /-- UPD_ACTIVATE (R418): Opens the update window and prepares the doff or restart into the staged image. -/
  | updActivate (c : Cmd)
  /-- UPD_CONFIRM (R420): Confirms the trial image, raises SVN_FLOOR and ends the session. -/
  | updConfirm (c : Cmd)
  /-- UPD_ABORT (R421): Ends the session, or reverts a trial image. -/
  | updAbort (c : Cmd)
  /-- UPD_GET (R416): Returns the update session state and bank versions. -/
  | updGet (c : Cmd)
  /-- SEC_ATTEST (R423): Returns a signed attestation report, the public key or the certificate chain. -/
  | secAttest (c : Cmd)
  /-- SEC_ACL_GET (R426): Returns region descriptors of a target. -/
  | secAclGet (c : Cmd)
  /-- SEC_ACL_SET (R428): Writes, invalidates or restores region descriptors inside a session. -/
  | secAclSet (c : Cmd)
  /-- SEC_ROBOT_KEY (R189): Reads robot key state, loads or revokes a root key, rekeys, or configures sessions. -/
  | secRobotKey (c : Cmd)
  /-- SEC_CFG_SESSION (R430): Reads, challenges, opens or closes the configuration session, or loads or revokes keys. -/
  | secCfgSession (c : Cmd)
  /-- SCHED_GET (R305): Returns tick, creel or core statistics. -/
  | schedGet (c : Cmd)
  /-- SCHED_JOB_DEFINE (R318): Reads, defines, deletes, arms or disarms a host job. -/
  | schedJobDefine (c : Cmd)
  /-- HEALTH_GET (R433): Returns the health summary or a memory's ECC figures. -/
  | healthGet (c : Cmd)
  /-- SELFTEST_RUN (R434): Starts a self-test of the selected units and spares in idle core time. -/
  | selftestRun (c : Cmd)
  /-- MARGIN_GET (R436): Returns the margin re-planning state and measurements. -/
  | marginGet (c : Cmd)
  /-- WRITE_PORT_WRITE (R65): Takes a command word into the queue's command FIFO under the credit limit. -/
  | writePortWrite (q : Nat) (w : Word) (ok : Bool) (fault : (Option Nat)) (dt : Nat)
  /-- DOORBELL_WRITE (R67): Closes a partial entry, makes written words visible and marks a purge boundary. -/
  | doorbellWrite (p : PtrAt) (dt : Nat)
  /-- READ_PORT_READ (R70): Removes and returns one event-side word in pull mode. -/
  | readPortRead (q : Nat) (wide : Bool) (fault : (Option Nat)) (dt : Nat)
  /-- QUE_RESET (R75): Empties both sides of a queue pair, restarts its counts and clears FAULTED. -/
  | queReset (q : Nat) (dt : Nat)
  /-- W1C_FLAG_CLEAR (R76): Clears a flag unless the hardware sets it in the same cycle. -/
  | w1cFlagClear (reg : FlagReg) (bits : Nat) (setNow : Nat) (dt : Nat)
  /-- WATERMARK_FLAG_CLEAR (R77): Clears a watermark flag and resets PEAK and XCNT. -/
  | watermarkFlagClear (q : Nat) (evtSide : Bool) (crossing : (Option Nat)) (dt : Nat)
  /-- OCC_COUNTER_READ (R76): Returns and clears an occurrence counter. -/
  | occCounterRead (reg : FlagReg) (word : Nat) (again : Nat) (dt : Nat)
  /-- INT_STAT_CLEAR (R73): Clears an interrupt bit and restarts or fires the coalescing for its queue. -/
  | intStatClear (bits : Nat) (setNow : Nat) (dt : Nat)
  /-- SYS_RESET_WRITE (R81): Acts as SOFT_RESET from HOSTP when the key is 0x5AFE. -/
  | sysResetWrite (value : Nat) (dt : Nat)
  /-- TIME_SNAP_READ (R369): Captures device time and returns its nanoseconds, latching the seconds. -/
  | timeSnapRead (dt : Nat)
  /-- BAR_ACCESS_FAULT (R63): Ignores a malformed or unmapped BAR access and sets the error flag. -/
  | barAccessFault (fmt : Bool) (isRead : Bool) (dt : Nat)
  /-- REGISTER_WRITE (R63): Writes a register field that has no behaviour of its own. -/
  | registerWrite (off : Nat) (w : BarWrite) (dt : Nat)
  /-- STRAND_TIMEOUT (R68): Closes a partial entry and discards an incomplete packet when the strand timer expires. -/
  | strandTimeout (p : PtrAt)
  /-- COMMAND_TAKEN (R71): Accepts a held command once the event side has room for its longest response. -/
  | commandTaken (p : PtrAt) (dt : Nat)
  /-- COMPLETION_PLACED (R71): Places a waiting completion event once room appears. -/
  | completionPlaced (p : PtrAt)
  /-- PUSH_RING_WRITE (R72): Copies the next packet into the host ring once it has room and writes back the tail. -/
  | pushRingWrite (p : PtrAt)
  /-- COAL_TIMEOUT (R73): Sets the interrupt bit when the coalescing time has passed. -/
  | coalTimeout (q : Nat)
  /-- CHAIN_RELEASE (R34): Runs or fails a waiting chained command once its predecessor reaches its final status. -/
  | chainRelease (q : Nat) (dt : Nat)
  /-- EXEC_AT_DUE (R43): Executes a pending command when its execute-at time arrives. -/
  | execAtDue
  /-- PPS_ALIGNED_APPLY (R370): Applies an accepted TIME_SET, PPS_CFG or TIME_MODE at its whole second and places its completion. -/
  | ppsAlignedApply
  /-- MGMT_DATAGRAM (R56): Verifies a management datagram and passes its packet to the network queue. -/
  | mgmtDatagram (iface : Nat) (src : NetSrc) (payload : (List Byte)) (dt : Nat)
  /-- TICK_BOUNDARY (R10): Takes the input snapshot and starts the tick's phases. -/
  | tickBoundary (phases : Nat)
  /-- TICK_COMPLETE (R12): Completes the tick and hands its mirror record to the Hexlux lane. -/
  | tickComplete (dt : Nat)
  /-- TICK_DEADLINE (R307): Marks a tick not completed by its deadline as overrun and abandons it. -/
  | tickDeadline
  /-- GO_EMISSION (R13): Signs and releases the held frames, GO first, and refreshes the FSP and yard outputs. -/
  | goEmission
  /-- WATCHDOG_EXPIRE (R464): Sets the latch with ICODE 1 when no tick completes for WDOG_TICKS periods. -/
  | watchdogExpire
  /-- GNSS_MS_TICK (R16): Evaluates the tracking laws, AGC and channel transitions each millisecond. -/
  | gnssMsTick (chans : (List ChanMeas)) (agc : (List AgcMeas))
  /-- NOTCH_SEARCH (R88): Searches the passband and locks adaptive notches every 100 ms. -/
  | notchSearch (tones : (List NotchTone))
  /-- CHANNEL_ASSIGN (R95): Assigns automatic channels at each whole second. -/
  | channelAssign (sky : (List SkySat))
  /-- ACQ_SEARCH_DONE (R90): Hands a successful search's code phase and Doppler to its channel. -/
  | acqSearchDone (ch : Nat) (code : Nat) (doppler : Int) (dt : Nat)
  /-- ACQ_TIMEOUT (R97): Returns a channel to IDLE or ACQ after 10 s without success. -/
  | acqTimeout (ch : Nat)
  /-- BIAS_FAULT (R85): Classifies the antenna bias as OPEN or SHORT and switches it off on SHORT. -/
  | biasFault (ant : Bool) (short_ : Bool) (current : Nat) (voltage : Nat) (dt : Nat)
  /-- BIAS_RETRY (R85): Retries the bias after a SHORT. -/
  | biasRetry (ant : Bool) (current : Nat) (voltage : Nat)
  /-- MEAS_EPOCH (R101): Latches every channel's measurements and publishes the epoch. -/
  | measEpoch (obs : (List ObsMeas))
  /-- NAV_UNIT_DECODED (R116): Delivers and stores a decoded navigation unit. -/
  | navUnitDecoded (u : NavUnit) (dt : Nat)
  /-- PVT_SOLUTION (R105): Runs the module's position and time solution once per second. -/
  | pvtSolution (dt : Nat)
  /-- TELEM (R187): Verifies a robot's telemetry frame and takes its state and contacts. -/
  | telem (f : Uplink) (dt : Nat)
  /-- OBS (R136): Verifies an observation frame and assembles its MSM messages into a rover epoch. -/
  | obs (f : Uplink) (dt : Nat)
  /-- ACK (R188): Verifies an acknowledgement and measures ack latency. -/
  | ack (f : Uplink) (dt : Nat)
  /-- JOIN (R181): Verifies a join or rekey join and answers with a KEY frame. -/
  | join (f : Uplink) (dt : Nat)
  /-- SESSION_TIMEOUT (R183): Ends a session that sent no valid frame for SESSION_TIMEOUT. -/
  | sessionTimeout (r : Nat)
  /-- REKEY_DUE (R182): Starts a rekey when REKEY_H passes or a counter reaches 2^40. -/
  | rekeyDue (r : Nat) (dt : Nat)
  /-- REKEY_ABANDON (R182): Abandons a rekey not complete within 1 s. -/
  | rekeyAbandon (r : Nat)
  /-- STOP_BURST_FRAME (R172): Sends the next STOP frame of a burst every 1 ms. -/
  | stopBurstFrame (r : (Option Nat))
  /-- EPOCH_WAIT_EXPIRE (R136): Closes an open rover epoch as partial after EPOCH_WAIT. -/
  | epochWaitExpire (r : Nat)
  /-- ROVER_SOLVE_START (R131): A free cluster takes the ready rover epoch with the earliest ready time. -/
  | roverSolveStart (dt : Nat)
  /-- ROVER_FIX_PUBLISH (R151): Publishes a solved rover epoch's fix record. -/
  | roverFixPublish (cluster dt : Nat)
  /-- COMMIT_COMPUTE_DONE (R193): Ends a graph commit's computation, failing it or scheduling the swap. -/
  | commitComputeDone (dt : Nat)
  /-- REROUTE_RESULT (R215): Receives the distance engine's reroute for a deadlock victim. -/
  | rerouteResult (r : Nat) (routeId : Nat) (dt : Nat)
  /-- ALLOT_PERIOD (R226): Starts a periodic allotment round, or skips it if one runs. -/
  | allotPeriod
  /-- ALLOT_ROUND_END (R225): Ends an auction round and proposes or commits its result. -/
  | allotRoundEnd (dt : Nat)
  /-- PROPOSAL_LAPSE (R227): Returns the proposal's tasks to OPEN when PROPOSAL_TTL passes. -/
  | proposalLapse
  /-- TASK_SERVICE_ELAPSED (R218): Builds the route of the robot's next assigned task after SERVICE. -/
  | taskServiceElapsed (r : Nat)
  /-- CONTACT_QUALIFIED (R256): Qualifies a yard or robot contact change after QUAL_N equal samples. -/
  | contactQualified (owner : Nat) (contact : Nat) (samples : (List Bool)) (dt : Nat)
  /-- ESTOP_PAD_CHANGE (R282): Sets the latch when an E-stop pad enters its stop state. -/
  | estopPadChange (a : Bool) (level : Bool) (dt : Nat)
  /-- DISC_TIMEOUT (R283): Sets DISCREPANCY when the E-stop channels disagree for DISC_TIME. -/
  | discTimeout
  /-- PARTNER_STOP_SYMBOL (R296): Sets the latch with cause 3 on a stop symbol from the partner. -/
  | partnerStopSymbol (dt : Nat)
  /-- INTERNAL_FAULT (R281): Sets the latch or starts a controlled phase for an internal fault code. -/
  | internalFault (icode : Nat) (present : Bool) (dt : Nat)
  /-- CTRL_LIMIT_EXPIRE (R287): Sets the latch in hardware when the controlled phase timer expires. -/
  | ctrlLimitExpire
  /-- ROBOT_CTRL_LIMIT_EXPIRE (R288): Turns a per-robot controlled stop immediate when its timer expires. -/
  | robotCtrlLimitExpire (r : Nat)
  /-- PROOF_INTERVAL_DUE (R295): Starts an automatic proof test when PROOF_INTERVAL has passed. -/
  | proofIntervalDue
  /-- PROOF_TEST_PART (R294): Runs one proof-test part in a tick's guard. -/
  | proofTestPart (part : Nat) (pass : Bool) (lat : Nat) (fail : Nat)
  /-- RESET_INPUT_EDGE (R291): Completes or tries a fleet reset on a qualified reset-input edge. -/
  | resetInputEdge (dt : Nat)
  /-- RESET_ARM_TIMEOUT (R291): Disarms a mode 2 reset with no edge within 30 s. -/
  | resetArmTimeout
  /-- JOB_DISPATCH (R302): Dispatches the next ready job to a core that falls free. -/
  | jobDispatch (core : Nat) (dt : Nat)
  /-- JOB_COMPLETE (R300): Decrements successor counters when a job completes. -/
  | jobComplete (core : Nat) (dt : Nat)
  /-- JOB_REVOKE (R312): Revokes a job overrunning 8 times its plan and quarantines its core. -/
  | jobRevoke (core : Nat)
  /-- HOST_JOB_FINAL (R315): Places a host job's result and updates successors at its final status. -/
  | hostJobFinal (job : Nat) (dt : Nat)
  /-- ETH_FRAME_RX (R331): Timestamps, learns and forwards, routes or delivers an ingress frame. -/
  | ethFrameRx (f : EthFrame) (dt : Nat)
  /-- AGE_SCAN (R332): Visits MAC entries and deletes those aged out. -/
  | ageScan (dt : Nat)
  /-- LINK_POLL (R320): Reads PHY link status every 100 ms and reports changes. -/
  | linkPoll (links : (List (Nat × Option Nat))) (dt : Nat)
  /-- SERVO_SECOND (R348): Evaluates the time servo laws on the second's offset. -/
  | servoSecond (partner : Int)
  /-- SOURCE_QUALIFY (R345): Qualifies a time source after QUAL_TIME and selects it if due. -/
  | sourceQualify (code : Nat) (theta : Int) (dt : Nat)
  /-- WTR_EXPIRE (R345): Reverts to a higher source that has stayed qualified for WTR. -/
  | wtrExpire
  /-- SOURCE_LOST (R357): Drops a lost source and enters holdover if none qualifies. -/
  | sourceLost (code : Nat) (dt : Nat)
  /-- ASYM_HOLD_EXPIRE (R368): Disqualifies a suspect PTP source when ASYM_HOLD passes. -/
  | asymHoldExpire
  /-- ASYM_ESTIMATE_SETTLED (R368): Applies or reports the settled asymmetry estimate. -/
  | asymEstimateSettled
  /-- TIME_NORMAL_ENTRY (R343): Enters NORMAL mode at the whole second after a source qualifies at boot. -/
  | timeNormalEntry (theta : Int)
  /-- BOOT_WAIT_EXPIRE (R343): Enters NORMAL mode without a source when BOOT_WAIT passes. -/
  | bootWaitExpire
  /-- EXT_REF_LOSS (R23): Switches REF to the TCXO when EXT_REF_IN stops for 2 µs. -/
  | extRefLoss (dt : Nat)
  /-- REF_SELECT (R453): Selects REF afresh at boot, SOFT_RESET or a REF_RETRY second. -/
  | refSelect (usable : Bool)
  /-- PPS_IN_EDGE (R361): Timestamps a PPS_IN edge for the PPS source. -/
  | ppsInEdge (dt : Nat)
  /-- TOD_SENTENCE (R361): Parses a time-of-day sentence from UART_T. -/
  | todSentence (text : TodText) (dt : Nat)
  /-- PTP_MESSAGE_RX (R362): Processes a PTP message for the fleet or source instance. -/
  | ptpMessageRx (m : PtpMsg) (dt : Nat)
  /-- PTP_ANNOUNCE_TIMEOUT (R345): Loses a PTP source when its Announce messages time out. -/
  | ptpAnnounceTimeout (port : Nat) (identity : Nat)
  /-- RECORD_COMMIT (R377): Commits a staged record to its ring with the marker written last. -/
  | recordCommit (dt : Nat)
  /-- AUDIT_STAGE_TIMEOUT (R380): Counts an audit event lost after 100 µs without room. -/
  | auditStageTimeout (dt : Nat)
  /-- REC_SUPPRESS_SECOND (R382): Writes EV_REC_SUPPRESSED with the second's counts. -/
  | recSuppressSecond
  /-- ACT_IN_LOSS (R398): Starts a standby's takeover when ACT_IN ceases. -/
  | actInLoss (dt : Nat)
  /-- DEAD_TIME_EXPIRE (R398): Loads the last mirror record after the 8 µs dead time. -/
  | deadTimeExpire
  /-- TAKEOVER_COMPLETE (R401): Takes the ACTIVE role and resumes from the mirror record. -/
  | takeoverComplete (dt : Nat)
  /-- ACT_COLLISION (R390): Latches both modules with ICODE 7 when both are active over 8 µs. -/
  | actCollision (dt : Nat)
  /-- ARBITRATION_TIMEOUT (R391): Becomes ACTIVE when the arbitration wait ends with ACT_IN inactive. -/
  | arbitrationTimeout
  /-- SWITCH_TICKS_EXPIRE (R389): Drops the ACTIVE role in hardware after SWITCH_TICKS without a tick. -/
  | switchTicksExpire
  /-- MIRROR (R394): Receives a tick's mirror record on the standby. -/
  | mirror (seq : Nat) (m : MirrorData) (dt : Nat)
  /-- INPUT (R393): Receives a forwarded uplink frame, command or contact change on the standby. -/
  | input (seq : Nat) (x : LaneInput) (dt : Nat)
  /-- BASE (R162): Receives a forwarded base epoch and ARP on the standby. -/
  | base (seq : Nat) (b : BaseEpoch) (arp : (Option Arp)) (dt : Nat)
  /-- RELEASED (R401): Records on the standby which tick's frames were released. -/
  | released (seq : Nat) (tick : Nat) (dt : Nat)
  /-- HEALTH (R402): Receives the standby's health word on the active module. -/
  | health (seq : Nat) (word : Nat) (role : Nat) (ready : Bool) (fw : Nat) (dt : Nat)
  /-- LANE_ERROR (R393): Clears SYNCED and starts a resync on a CRC failure or sequence gap. -/
  | laneError (dt : Nat)
  /-- HEXLUX_LANE_CHANGE (R12): Handles the Hexlux lane going down or up. -/
  | hexluxLaneChange (up : Bool) (prefer : Bool) (mac : Nat) (dt : Nat)
  /-- RESYNC_COMPLETE (R395): Completes the full state transfer to the standby. -/
  | resyncComplete (m : MirrorData) (dt : Nat)
  /-- SELFTEST_CYCLE_DONE (R402): Ends a standby self-test cycle and retires faulty units. -/
  | selftestCycleDone (fail : Nat) (unit : Nat) (duration : Nat) (dt : Nat)
  /-- VIN_ON (R408): Starts a boot when VIN rises through VIN_ON with EN high. -/
  | vinOn (dt : Nat)
  /-- EN_RISE (R447): Starts a boot on an EN rising edge. -/
  | enRise (dt : Nat)
  /-- EN_FALL (R449): Starts the power-down sequence into standby. -/
  | enFall (dt : Nat)
  /-- VIN_SUP_FALL (R449): Powers down when VIN falls through VIN_SUP. -/
  | vinSupFall (dt : Nat)
  /-- VIN_LOW (R446): Sets the latch with ICODE 5, as a pair supply fault where it applies. -/
  | vinLow (mv : Nat) (dt : Nat)
  /-- VIN_HIGH (R446): Acts as VIN_LOW for an overvoltage. -/
  | vinHigh (mv : Nat) (dt : Nat)
  /-- VIN_FAULT_CEASE (R445): Ends the VIN fault after 100 ms within range. -/
  | vinFaultCease (high : Bool) (mv : Nat) (dt : Nat)
  /-- BOOT_READY (R410): Reaches SYS_STATE READY and ends boot, ceasing ICODE 0. -/
  | bootReady (dt : Nat)
  /-- UPD_IDLE_TIMEOUT (R416): Aborts an update session idle for 600 s. -/
  | updIdleTimeout
  /-- UPD_VERIFY_DONE (R417): Ends verification, passing to VERIFIED or back to HEADER_OK. -/
  | updVerifyDone (dt : Nat)
  /-- UPD_BANK_LOADED (R418): Writes the trial activation record and chooses the doff boundary once the bank is loaded. -/
  | updBankLoaded (dt : Nat)
  /-- DOFF (R418): Exports the handover block and lets the new firmware take over at the doff boundary. -/
  | doff (exported : Bool)
  /-- CONFIRM_WINDOW_EXPIRE (R421): Reverts an unconfirmed trial image when its window expires. -/
  | confirmWindowExpire
  /-- REVERT_RESTART (R421): Restarts into the previous image once the latch is set and no spindle is active. -/
  | revertRestart (dt : Nat)
  /-- CFG_SESSION_TIMEOUT (R431): Closes a configuration session idle for 300 s. -/
  | cfgSessionTimeout
  /-- SCRUB (R433): Scrubs memory words and corrects errors. -/
  | scrub (mem : Nat) (row : Nat) (corrected : Bool) (endPass : Bool) (dt : Nat)
  /-- ECC_UNCORRECTABLE (R433): Acts on an uncorrectable error according to where it lies. -/
  | eccUncorrectable (mem : Nat) (off : Nat) (place : EccPlace) (dt : Nat)
  /-- UNIT_FAILURE (R434): Swaps in a spare for a failed unit or retires it. -/
  | unitFailure (u : UnitFail) (dt : Nat)
  /-- MARGIN_REPLAN (R435): Re-plans supply, guard, SOLVE clock and holdover margins. -/
  | marginReplan (cause : Nat) (sC : Nat) (sS : Nat) (hour : Nat) (dt : Nat)
  /-- LID_TEMP_SAMPLE (R457): Samples lid temperature and warns or stops on its limits. -/
  | lidTempSample (temp : Int) (dt : Nat)
  /-- THROTTLE_STEP (R457): Steps f_therm by 50 MHz every 10 s. -/
  | throttleStep
  /-- JUNCTION_OVERTEMP (R458): Stops and powers down at a 125 °C junction. -/
  | junctionOvertemp (dt : Nat)
  /-- FW_ALIVE_TIMEOUT (R80): FSP FW_ALIVE drops to 0 when no tick has completed for 4 tick periods. -/
  | fwAliveTimeout
  /-- DISCREPANCY_CLEAR (R283): DISCREPANCY clears once both E-stop channels have been in their stop states together for 10 ms. -/
  | discrepancyClear
  /-- ACT_IN_ACTIVE (R391): An arbitrating module whose ACT_IN becomes active during its wait becomes STANDBY. -/
  | actInActive (dt : Nat)
  /-- PFAULT_IN_CHANGE (R398): A change of the partner fault pad records the takeover cause and raises INTERLOCK_FAULT while ACT_IN stays active. -/
  | pfaultInChange (fault : Bool) (dt : Nat)
  /-- PERST_N_CHANGE (R439): Assertion or release of PCI Express fundamental reset holds or frees the endpoint and starts its configuration readiness. -/
  | perstNChange (p : PerstLevel) (dt : Nat)
  /-- PCIE_LINK_ERROR (R62): A correctable or uncorrectable link error, replay timeout or retrain sets SYS_ERR flags, counters and interrupt source 22. -/
  | pcieLinkError (kind : PcieErr) (dt : Nat)
  /-- PORT_LINK_CHANGE (R320): A 1000BASE-X or 10GBASE-R port gains or loses its link, discards queued frames and sends EV_NET_LINK. -/
  | portLinkChange (port : Nat) (up : Bool) (speed : Nat) (dt : Nat)
  /-- EGRESS_FRAME_SENT (R337): A port finishes sending a frame, freeing its buffer share and letting the next queued frame go by priority. -/
  | egressFrameSent (port : Nat) (dt : Nat)
  /-- UART_C_BYTE_SENT (R122): A correction UART finishes a byte and drains its 8 KiB FIFO. -/
  | uartCByteSent (stream : Nat) (dt : Nat)
  /-- POWER_DOWN_END (R447): The power-down sequence ends with the core rails off and standby entered, and an EN rise held during it is acted on. -/
  | powerDownEnd
  /-- SOFT_RESET_READY (R82): After SOFT_RESET the configuration reload ends and SYS_STATE moves from INIT to READY. -/
  | softResetReady (dt : Nat)
  deriving DecidableEq, Repr

end Sys2Proof
end

