-- ==== Sys2Proof/Decode.lean ====
section
/-! DEFINITION. Decoding of table words: the operation table of the block gives no row any bits. -/
set_option autoImplicit false

namespace Sys2Proof

/-- No row of the operation table carries bits: commands reach the block as packets and events, so that no word of the
table's numbering spells one. -/
def decodeTableWord (_nbits _w : Nat) : Option Instr := none

end Sys2Proof
end

