-- ==== Sys2Proof/Machine/Crypto.lean ====
section
/-! DEFINITION. The cryptographic and checking functions the specification names: AES-128-CMAC (R57, R170, R180, R430),
SHA-384 (R409), CRC-32 of IEEE 802.3 (recorder, activation record), and CRC-24Q of RTCM frames (R137). -/
set_option autoImplicit false

namespace Sys2Proof.Machine

/-- The bytes of a number, least significant first (R4). -/
def leBytes (n : Nat) : Nat → List Byte
  | 0 => []
  | k + 1 => byteOf n :: leBytes (n / 256) k

/-- The bytes of a number, most significant first. -/
def beBytes (n k : Nat) : List Byte := (leBytes n k).reverse

/-- The number that bytes spell, least significant first. -/
def leNat : List Byte → Nat
  | [] => 0
  | b :: r => b.toNat + 256 * leNat r

/-- The number that bytes spell, most significant first. -/
def beNat (bs : List Byte) : Nat := leNat bs.reverse

/-- The 16 bytes of a 128-bit key as SEC_ROBOT_KEY and SEC_CFG_SESSION carry it: first byte in [7:0] of the first word. -/
def keyBytes (k : Nat) : List Byte := leBytes k 16

/-- Words as little-endian bytes (R4). -/
def wordBytes (ws : List Word) : List Byte := ws.flatMap (fun w => leBytes w.toNat 4)

/-- Bytes as little-endian words, padded with 0. -/
def bytesWords : List Byte → List Word
  | [] => []
  | [a] => [wordOf (leNat [a])]
  | [a, b] => [wordOf (leNat [a, b])]
  | [a, b, c] => [wordOf (leNat [a, b, c])]
  | a :: b :: c :: d :: r => wordOf (leNat [a, b, c, d]) :: bytesWords r

/-! ### AES-128 -/

def aesSbox0 : List Byte :=
  [0x63, 0x7c, 0x77, 0x7b, 0xf2, 0x6b, 0x6f, 0xc5, 0x30, 0x01, 0x67, 0x2b, 0xfe, 0xd7, 0xab, 0x76] ++
  [0xca, 0x82, 0xc9, 0x7d, 0xfa, 0x59, 0x47, 0xf0, 0xad, 0xd4, 0xa2, 0xaf, 0x9c, 0xa4, 0x72, 0xc0] ++
  [0xb7, 0xfd, 0x93, 0x26, 0x36, 0x3f, 0xf7, 0xcc, 0x34, 0xa5, 0xe5, 0xf1, 0x71, 0xd8, 0x31, 0x15] ++
  [0x04, 0xc7, 0x23, 0xc3, 0x18, 0x96, 0x05, 0x9a, 0x07, 0x12, 0x80, 0xe2, 0xeb, 0x27, 0xb2, 0x75]

def aesSbox1 : List Byte :=
  [0x09, 0x83, 0x2c, 0x1a, 0x1b, 0x6e, 0x5a, 0xa0, 0x52, 0x3b, 0xd6, 0xb3, 0x29, 0xe3, 0x2f, 0x84] ++
  [0x53, 0xd1, 0x00, 0xed, 0x20, 0xfc, 0xb1, 0x5b, 0x6a, 0xcb, 0xbe, 0x39, 0x4a, 0x4c, 0x58, 0xcf] ++
  [0xd0, 0xef, 0xaa, 0xfb, 0x43, 0x4d, 0x33, 0x85, 0x45, 0xf9, 0x02, 0x7f, 0x50, 0x3c, 0x9f, 0xa8] ++
  [0x51, 0xa3, 0x40, 0x8f, 0x92, 0x9d, 0x38, 0xf5, 0xbc, 0xb6, 0xda, 0x21, 0x10, 0xff, 0xf3, 0xd2]

def aesSbox2 : List Byte :=
  [0xcd, 0x0c, 0x13, 0xec, 0x5f, 0x97, 0x44, 0x17, 0xc4, 0xa7, 0x7e, 0x3d, 0x64, 0x5d, 0x19, 0x73] ++
  [0x60, 0x81, 0x4f, 0xdc, 0x22, 0x2a, 0x90, 0x88, 0x46, 0xee, 0xb8, 0x14, 0xde, 0x5e, 0x0b, 0xdb] ++
  [0xe0, 0x32, 0x3a, 0x0a, 0x49, 0x06, 0x24, 0x5c, 0xc2, 0xd3, 0xac, 0x62, 0x91, 0x95, 0xe4, 0x79] ++
  [0xe7, 0xc8, 0x37, 0x6d, 0x8d, 0xd5, 0x4e, 0xa9, 0x6c, 0x56, 0xf4, 0xea, 0x65, 0x7a, 0xae, 0x08]

def aesSbox3 : List Byte :=
  [0xba, 0x78, 0x25, 0x2e, 0x1c, 0xa6, 0xb4, 0xc6, 0xe8, 0xdd, 0x74, 0x1f, 0x4b, 0xbd, 0x8b, 0x8a] ++
  [0x70, 0x3e, 0xb5, 0x66, 0x48, 0x03, 0xf6, 0x0e, 0x61, 0x35, 0x57, 0xb9, 0x86, 0xc1, 0x1d, 0x9e] ++
  [0xe1, 0xf8, 0x98, 0x11, 0x69, 0xd9, 0x8e, 0x94, 0x9b, 0x1e, 0x87, 0xe9, 0xce, 0x55, 0x28, 0xdf] ++
  [0x8c, 0xa1, 0x89, 0x0d, 0xbf, 0xe6, 0x42, 0x68, 0x41, 0x99, 0x2d, 0x0f, 0xb0, 0x54, 0xbb, 0x16]

def aesSbox : Array Byte := (aesSbox0 ++ aesSbox1 ++ aesSbox2 ++ aesSbox3).toArray

def aesSub (b : Byte) : Byte := aesSbox.getD b.toNat 0

/-- Multiplication by x in the field of AES. -/
def aesX (b : Byte) : Byte := (b <<< 1) ^^^ (if b.getLsbD 7 then 0x1B else 0)

def xorBytes (a b : List Byte) : List Byte := List.zipWith (· ^^^ ·) a b

/-- The next round key from the last one and the round constant. -/
def aesNextKey (k : List Byte) (rcon : Byte) : List Byte :=
  let t := [aesSub (k.getD 13 0) ^^^ rcon, aesSub (k.getD 14 0), aesSub (k.getD 15 0), aesSub (k.getD 12 0)]
  let w0 := xorBytes (k.take 4) t
  let w1 := xorBytes ((k.drop 4).take 4) w0
  let w2 := xorBytes ((k.drop 8).take 4) w1
  let w3 := xorBytes (k.drop 12) w2
  w0 ++ w1 ++ w2 ++ w3

def aesShiftRows (s : List Byte) : List Byte :=
  [0, 5, 10, 15, 4, 9, 14, 3, 8, 13, 2, 7, 12, 1, 6, 11].map (fun i => s.getD i 0)

def aesMixColumn : List Byte → List Byte
  | [a, b, c, d] =>
    [aesX a ^^^ (aesX b ^^^ b) ^^^ c ^^^ d, a ^^^ aesX b ^^^ (aesX c ^^^ c) ^^^ d,
     a ^^^ b ^^^ aesX c ^^^ (aesX d ^^^ d), (aesX a ^^^ a) ^^^ b ^^^ c ^^^ aesX d]
  | s => s

def aesMixColumns (s : List Byte) : List Byte :=
  aesMixColumn (s.take 4) ++ aesMixColumn ((s.drop 4).take 4) ++ aesMixColumn ((s.drop 8).take 4) ++
    aesMixColumn (s.drop 12)

/-- The rounds that the round constants drive; the last one has no column mixing. -/
def aesRounds (s k : List Byte) : List Byte → List Byte
  | [] => s
  | [r] => xorBytes (aesShiftRows (s.map aesSub)) (aesNextKey k r)
  | r :: rs => aesRounds (xorBytes (aesMixColumns (aesShiftRows (s.map aesSub))) (aesNextKey k r)) (aesNextKey k r) rs

/-- AES-128 encryption of one block. -/
def aesEncrypt (key block : List Byte) : List Byte :=
  aesRounds (xorBytes block key) key [0x01, 0x02, 0x04, 0x08, 0x10, 0x20, 0x40, 0x80, 0x1B, 0x36]

/-- Doubling in the field of CMAC. -/
def cmacDouble (b : List Byte) : List Byte :=
  let n := beNat b
  let d := (2 * n) % 2 ^ 128
  beBytes (if n < 2 ^ 127 then d else d ^^^ 0x87) 16

/-- The chain over the blocks of a message; the last block is completed with the subkeys. -/
def cmacChain (key k1 k2 : List Byte) : Nat → List Byte → List Byte → List Byte
  | 0, x, _ => x
  | n + 1, x, m =>
    if m.length ≤ 16 then
      let last :=
        if m.length = 16 then xorBytes m k1
        else xorBytes (m ++ [0x80] ++ List.replicate (15 - m.length) 0) k2
      aesEncrypt key (xorBytes x last)
    else cmacChain key k1 k2 n (aesEncrypt key (xorBytes x (m.take 16))) (m.drop 16)

/-- AES-128-CMAC of a message: 16 bytes in output order. -/
def cmac (key msg : List Byte) : List Byte :=
  let k1 := cmacDouble (aesEncrypt key (List.replicate 16 0))
  cmacChain key k1 (cmacDouble k1) (msg.length / 16 + 1) (List.replicate 16 0) msg

/-- The truncated tag of n bytes. -/
def cmacTag (key msg : List Byte) (n : Nat) : List Byte := (cmac key msg).take n

/-! ### SHA-384 -/

def shaK0 : List (BitVec 64) :=
  [0x428a2f98d728ae22, 0x7137449123ef65cd, 0xb5c0fbcfec4d3b2f, 0xe9b5dba58189dbbc] ++
  [0x3956c25bf348b538, 0x59f111f1b605d019, 0x923f82a4af194f9b, 0xab1c5ed5da6d8118] ++
  [0xd807aa98a3030242, 0x12835b0145706fbe, 0x243185be4ee4b28c, 0x550c7dc3d5ffb4e2] ++
  [0x72be5d74f27b896f, 0x80deb1fe3b1696b1, 0x9bdc06a725c71235, 0xc19bf174cf692694] ++
  [0xe49b69c19ef14ad2, 0xefbe4786384f25e3, 0x0fc19dc68b8cd5b5, 0x240ca1cc77ac9c65]

def shaK1 : List (BitVec 64) :=
  [0x2de92c6f592b0275, 0x4a7484aa6ea6e483, 0x5cb0a9dcbd41fbd4, 0x76f988da831153b5] ++
  [0x983e5152ee66dfab, 0xa831c66d2db43210, 0xb00327c898fb213f, 0xbf597fc7beef0ee4] ++
  [0xc6e00bf33da88fc2, 0xd5a79147930aa725, 0x06ca6351e003826f, 0x142929670a0e6e70] ++
  [0x27b70a8546d22ffc, 0x2e1b21385c26c926, 0x4d2c6dfc5ac42aed, 0x53380d139d95b3df] ++
  [0x650a73548baf63de, 0x766a0abb3c77b2a8, 0x81c2c92e47edaee6, 0x92722c851482353b]

def shaK2 : List (BitVec 64) :=
  [0xa2bfe8a14cf10364, 0xa81a664bbc423001, 0xc24b8b70d0f89791, 0xc76c51a30654be30] ++
  [0xd192e819d6ef5218, 0xd69906245565a910, 0xf40e35855771202a, 0x106aa07032bbd1b8] ++
  [0x19a4c116b8d2d0c8, 0x1e376c085141ab53, 0x2748774cdf8eeb99, 0x34b0bcb5e19b48a8] ++
  [0x391c0cb3c5c95a63, 0x4ed8aa4ae3418acb, 0x5b9cca4f7763e373, 0x682e6ff3d6b2b8a3] ++
  [0x748f82ee5defb2fc, 0x78a5636f43172f60, 0x84c87814a1f0ab72, 0x8cc702081a6439ec]

def shaK3 : List (BitVec 64) :=
  [0x90befffa23631e28, 0xa4506cebde82bde9, 0xbef9a3f7b2c67915, 0xc67178f2e372532b] ++
  [0xca273eceea26619c, 0xd186b8c721c0c207, 0xeada7dd6cde0eb1e, 0xf57d4f7fee6ed178] ++
  [0x06f067aa72176fba, 0x0a637dc5a2c898a6, 0x113f9804bef90dae, 0x1b710b35131c471b] ++
  [0x28db77f523047d84, 0x32caab7b40c72493, 0x3c9ebe0a15c9bebc, 0x431d67c49c100d4c] ++
  [0x4cc5d4becb3e42b6, 0x597f299cfc657e2a, 0x5fcb6fab3ad6faec, 0x6c44198c4a475817]

def shaInit : List (BitVec 64) :=
  [0xcbbb9d5dc1059ed8, 0x629a292a367cd507, 0x9159015a3070dd17, 0x152fecd8f70e5939] ++
  [0x67332667ffc00b31, 0x8eb44a8768581511, 0xdb0c2e0d64f98fa7, 0x47b5481dbefa4fa4]

/-- The message schedule: the last sixteen words, newest first, extended by n words. -/
def shaSchedule : Nat → List (BitVec 64) → List (BitVec 64)
  | 0, w => w
  | n + 1, w =>
    let a := w.getD 1 0
    let b := w.getD 14 0
    let s1 := a.rotateRight 19 ^^^ a.rotateRight 61 ^^^ (a >>> 6)
    let s0 := b.rotateRight 1 ^^^ b.rotateRight 8 ^^^ (b >>> 7)
    shaSchedule n ((s1 + w.getD 6 0 + s0 + w.getD 15 0) :: w)

def shaRound (h : List (BitVec 64)) (kw : BitVec 64 × BitVec 64) : List (BitVec 64) :=
  match h with
  | [a, b, c, d, e, f, g, hh] =>
    let t1 := hh + (e.rotateRight 14 ^^^ e.rotateRight 18 ^^^ e.rotateRight 41) +
      ((e &&& f) ^^^ (~~~e &&& g)) + kw.1 + kw.2
    let t2 := (a.rotateRight 28 ^^^ a.rotateRight 34 ^^^ a.rotateRight 39) +
      ((a &&& b) ^^^ (a &&& c) ^^^ (b &&& c))
    [t1 + t2, a, b, c, d + t1, e, f, g]
  | h => h

/-- One 128-byte block. -/
def shaBlock (h : List (BitVec 64)) (block : List Byte) : List (BitVec 64) :=
  let w := (List.range 16).map (fun i => BitVec.ofNat 64 (beNat ((block.drop (8 * i)).take 8)))
  let ws := (shaSchedule 64 w.reverse).reverse
  List.zipWith (· + ·) h (((shaK0 ++ shaK1 ++ shaK2 ++ shaK3).zip ws).foldl shaRound h)

def shaBlocks : Nat → List (BitVec 64) → List Byte → List (BitVec 64)
  | 0, h, _ => h
  | n + 1, h, m => shaBlocks n (shaBlock h (m.take 128)) (m.drop 128)

/-- SHA-384: 48 bytes. -/
def sha384 (m : List Byte) : List Byte :=
  let pad := (240 - (m.length + 1) % 128) % 128
  let p := m ++ [0x80] ++ List.replicate pad 0 ++ beBytes (8 * m.length) 16
  ((shaBlocks (p.length / 128) shaInit p).take 6).flatMap (fun w => beBytes w.toNat 8)

/-- A measurement of data into a slot (R409). -/
def measure (slot data : List Byte) : List Byte := sha384 (slot ++ sha384 data)

/-! ### Cyclic redundancy checks -/

def crc32Bit (c : BitVec 32) : BitVec 32 := (c >>> 1) ^^^ (if c.getLsbD 0 then 0xEDB88320 else 0)

def iterate8 {α : Type} (f : α → α) (x : α) : α := f (f (f (f (f (f (f (f x)))))))

/-- CRC-32 (IEEE 802.3, reflected, initial value and final XOR 0xFFFF_FFFF). -/
def crc32 (bs : List Byte) : BitVec 32 :=
  ~~~(bs.foldl (fun c b => iterate8 crc32Bit (c ^^^ BitVec.ofNat 32 b.toNat)) 0xFFFFFFFF)

def crc24Bit (c : BitVec 24) : BitVec 24 := (c <<< 1) ^^^ (if c.getLsbD 23 then 0x864CFB else 0)

/-- CRC-24Q of an RTCM 3 frame. -/
def crc24q (bs : List Byte) : BitVec 24 :=
  bs.foldl (fun c b => iterate8 crc24Bit (c ^^^ BitVec.ofNat 24 (b.toNat * 65536))) 0

end Sys2Proof.Machine
end

