-- ==== Sys2Proof/Config.lean ====
section
/-! DEFINITION. What an implementation fixes and the specification leaves open: constants with no body, so that no proof
can see their value. A value that is drawn afresh is applied to the state's counter of free values. -/
set_option autoImplicit false

namespace Sys2Proof.Config

/-- SYS_ID.SILICON_REV ("per silicon", chapter 03). -/
opaque siliconRev : BitVec 8

/-- The vendor ID that Wandokor holds (R62). -/
opaque vendorId : BitVec 16

/-- UNIT_ID of the unit (chapter 03, GET_INFO). -/
opaque unitId : BitVec 64

/-- The base MAC address stored at production (R340). -/
opaque baseMac : BitVec 48

/-- Header and payload of the image shipped in BANK_A (R460). -/
opaque shippedHeader : List Byte
opaque shippedPayload : List Byte

/-- What the BROM measures into MEAS[0] and the configuration area it measures into MEAS[5] (R408), by boot. -/
opaque measuredState : Nat → List Byte

/-- The signature check of an image header under a vendor key (R413 check 2, R415): key number, signed bytes,
signature bytes. -/
opaque headerSigOk : Nat → List Byte → List Byte → Bool

/-- The attestation key's signature over a report's bytes (R423): 96 bytes r then s. -/
opaque attestSig : List Byte → BitVec 768

/-- The attestation public point (97 bytes) and the certificate chain: its length, at most 4,096, and its bytes. -/
opaque attestPub : BitVec 776
opaque certLen : Fin 4097
opaque certByte : Nat → Byte

/-- Nonces of the module's random source (R181, R430), by draw. -/
opaque freshNonce : Nat → BitVec 128

/-- The random delay of an arbitration after a collision (R391), in steps of 20 us, by draw. -/
opaque freshDelay : Nat → BitVec 8

/-- A value the specification leaves open, by draw; the width is that of the field it fills. -/
opaque freeWord : Nat → BitVec 32
opaque freeByte : Nat → BitVec 8
opaque freeInt : Nat → Int

/-- The data bits of a satellite or a cell in an RTCM 10403.3 observation message (chapter 05 names the standard and does
not give the layout): message number, part (0 satellite, 1 signal), and the fields of the record encoded. -/
opaque rtcmData : Nat → Nat → List Int → Nat

/-- The calibrated GLONASS code-phase biases of message 1230 (chapter 05): L1OF and L2OF. -/
opaque gloBias : Fin 2 → BitVec 16

/-- The factory-calibrated internal group delay of an antenna's band (R102), in 2^-6 mm of pseudorange. -/
opaque groupDelay : Bool → Nat → Int

/-- What a discriminator or an indicator gives where its quotient is 0 / 0 (no signal at all): 0 code, 1 phase, 2 frequency,
3 lock, 4 symmetry, 5 ratio. -/
opaque zeroSignal : Nat → Int

/-- The fixed hash of VID and MAC that indexes the MAC table (R329). -/
opaque fdbBucket : Nat → Nat → Fin 2048

/-- Whether the hash table of a prefix length has no room left in a prefix's bucket (NET_ROUTE_ADD, detail 2): family,
length, prefix, and the prefixes of that length held. -/
opaque routeBucketFull : Bool → Nat → Nat → List Nat → Bool

/-- MAJOR and MINOR of the mirror format that the firmware writes and reads, by its image's payload (R396). -/
opaque mirrorMajor : List Byte → Nat
opaque mirrorMinor : List Byte → Nat

end Sys2Proof.Config
end

