-- ==== Sys2Proof/Machine/State.lean ====
section
/-! DEFINITION. The state of the module, the reasons a step can stop, and the state after reset. -/
set_option autoImplicit false

namespace Sys2Proof.Machine

/-- The reasons the machine stops with a fault. Both are safe: the command cannot come about on the hardware. -/
inductive Fault
  /-- raised by a host command or a queue access whose operand names a queue the module does not have (safe) -/
  | noSuchQueue
  /-- raised by an event whose operand names a unit, pad or port that the module does not have (safe) -/
  | noSuchUnit
  deriving DecidableEq, Repr

/-- The reasons the machine refuses a command. -/
inductive Refusal
  /-- raised by an arm of `exec` whose command has no meaning in the model (safe) -/
  | notModelled (mnemonic : String)
  deriving DecidableEq, Repr

/-- The state of the block: what the specification gives the module, the queue of commands that wait, and what left
the module during the last command. -/
structure State where
  member : Member
  /-- commands that wait, first in first out -/
  pending : List Instr
  /-- device time, ns (R3) -/
  now : Nat
  /-- ns since the model's start, never stepped: the clock of every timer -/
  up : Nat
  /-- counter of free values drawn (the model's own) -/
  fresh : Nat
  /-- what left the module during the last command (the model's own) -/
  out : List Output
  sys : Sys
  queues : Tab Queue
  /-- network queue: its counters (R83 SET 0 INDEX 16) -/
  netCnt : QueCounters
  chains : Tab Chain
  /-- pending execute-at commands, in acceptance order (R42, R43) -/
  execs : List Req
  intStat : List Bool
  intEn : Word
  intOcc : List Nat
  msix : Tab MsixEntry
  msixPend : List Nat
  acl : Tab (List AclDesc)
  session : CfgSession
  mgmt : List MgmtKey
  secCnt : SecCounters
  pcie : PcieCounters
  denials : List Denial
  denialSec : Nat
  tick : Tick
  fsp : Fsp
  ref : RefClk
  time : Timebase
  gnss : Gnss
  corr : Corr
  rse : Rse
  uz : Uz
  track : Track
  task : Task
  spin : Spin
  gov : Gov
  stop : Stop
  sched : Sched
  net : Net
  rec_ : Recorder
  pair : Pair
  upd : Upd
  health : Health
  deriving DecidableEq, Repr

def Margins.init : Margins :=
  { sC := 0, sS := 0, vcore := 0, guardReplan := 0, solveMhz := 1000, solvePending := none, ageingMeas := 0, ageing := 0,
    replans := 0, cause := 0, replanAt := 0, exhausted := false, replanned := false }

def Health.init : Health :=
  { mems := [], lanePools := List.replicate 4 { spares := 4, failed := 0, lost := 0 },
    chanPool := { spares := 32, failed := 0, lost := 0 }, margins := Margins.init, replanDue := [], replanHour := 0, lidTemp := 0, lidTempMax := 0,
    vin := 0, ueSeen := false, spareFailed := false, selftest := none, selftestAt := 0, thermWarn := false,
    tempOutSince := none, tempFault := false, fTherm := 1000, throttleAt := 0 }

def Upd.init : Upd :=
  { bankA := { hdr := Config.shippedHeader, payload := Config.shippedPayload, valid := true },
    bankB := { hdr := [], payload := [], valid := false }, runB := false, recA := ActRec.init 1,
    recB := ActRec.init 0, meas := List.replicate 8 (List.replicate 48 0), state := .idle, owner := 0, session := 0,
    next := 0, lastUse := 0, verifyReq := none, activateReq := none, confirmS := 0, recordAt := none, attempts := 0,
    doffTick := 0, doffs := 0, prevHeld := false, revertRestart := false, revertCause := 0, window := false,
    lifecycle := 0 }

/-- The machine right after reset: unpowered, EN high, VIN absent, every register at its reset value. -/
def State.reset : State :=
  { member := .pvs7128, pending := [], now := 0, up := 0, fresh := 0, out := [], sys := Sys.init, queues := [],
    netCnt := QueCounters.zero, chains := [], execs := [], intStat := List.replicate 32 false, intEn := 0,
    intOcc := List.replicate 32 0, msix := [], msixPend := [], acl := [], session := CfgSession.init,
    mgmt := List.replicate 4 MgmtKey.init,
    secCnt := { dropLength := 0, dropFormat := 0, dropMac := 0, replays := 0, accepted := 0, denied := 0 },
    pcie := { width := 0, gen := 0, ce := 0, ue := 0, replays := 0, retrains := 0, malformed := 0 }, denials := [],
    denialSec := 0, tick := Tick.init, fsp := Fsp.init, ref := RefClk.init, time := Timebase.init,
    gnss := Gnss.init 32, corr := Corr.init, rse := Rse.init 96, uz := Uz.init, track := Track.init,
    task := Task.init, spin := Spin.init, gov := Gov.init, stop := Stop.init, sched := Sched.init,
    net := Net.init (BitVec.toNat Config.baseMac), rec_ := Recorder.init, pair := Pair.init, upd := Upd.init,
    health := Health.init }

end Sys2Proof.Machine
end

