-- ==== Sys2Proof/Machine/Operands.lean ====
section
/-! DEFINITION. Operand forms: the fields of parameter words, the checks that chapters share on them, and the counts of
the family parameters table. -/
set_option autoImplicit false

namespace Sys2Proof.Machine

/-! ### Index tables -/

/-- The value at an index of a table; an index that is not listed holds the given value. -/
def tabGet {α : Type} (t : Tab α) (i : Nat) (d : α) : α :=
  match t with
  | [] => d
  | (j, a) :: r => if i = j then a else if i < j then d else tabGet r i d

/-- The table with the value at an index replaced. -/
def tabSet {α : Type} (t : Tab α) (i : Nat) (a : α) : Tab α :=
  match t with
  | [] => [(i, a)]
  | (j, b) :: r => if i = j then (i, a) :: r else if i < j then (i, a) :: (j, b) :: r else (j, b) :: tabSet r i a

/-- The table without an index. -/
def tabDel {α : Type} (t : Tab α) (i : Nat) : Tab α := t.filter (fun p => !decide (p.1 = i))

/-- Is the index listed. -/
def tabHas {α : Type} (t : Tab α) (i : Nat) : Bool := t.any (fun p => decide (p.1 = i))

/-- The listed value at an index. -/
def tabFind {α : Type} (t : Tab α) (i : Nat) : Option α :=
  match t with
  | [] => none
  | (j, a) :: r => if i = j then some a else if i < j then none else tabFind r i

/-! ### Sorting -/

def insertInt (x : Int) : List Int → List Int
  | [] => [x]
  | y :: r => if x ≤ y then x :: y :: r else y :: insertInt x r

def sortInt (l : List Int) : List Int := l.foldr insertInt []

def insertNat (x : Nat) : List Nat → List Nat
  | [] => [x]
  | y :: r => if x ≤ y then x :: y :: r else y :: insertNat x r

def sortNat (l : List Nat) : List Nat := l.foldr insertNat []

/-! ### Fields of words -/

/-- Bits [hi:lo] of a word. -/
def fld (w : Word) (lo hi : Nat) : Nat := (w.toNat / 2 ^ lo) % 2 ^ (hi + 1 - lo)

def bitAt (w : Word) (i : Nat) : Bool := decide ((w.toNat / 2 ^ i) % 2 = 1)

/-- Bits [hi:lo] of a word as a signed number. -/
def sfld (w : Word) (lo hi : Nat) : Int :=
  let n := fld w lo hi
  if n < 2 ^ (hi - lo) then (n : Int) else (n : Int) - 2 ^ (hi + 1 - lo)

/-- Parameter word P+k. -/
def par (r : Req) (k : Nat) : Word := r.params.getD k 0

/-- The 64-bit value of P+k and P+k+1, low half first. -/
def par64 (r : Req) (k : Nat) : Nat := (par r k).toNat + 2 ^ 32 * (par r (k + 1)).toNat

def spar (r : Req) (k : Nat) : Int := (par r k).toInt

def spar64 (r : Req) (k : Nat) : Int := (BitVec.ofNat 64 (par64 r k)).toInt

/-- LENGTH as it would be without AT. -/
def lenNoAt (r : Req) : Nat := if r.at_ then r.len - 2 else r.len

/-- A word built from fields: value and the place of its lowest bit. -/
def wordOfFields (fs : List (Nat × Nat)) : Word := wordOf (fs.foldl (fun a p => a + (p.1 * 2 ^ p.2)) 0)

def natOfBool (b : Bool) : Nat := if b then 1 else 0

/-- The low and high words of a 64-bit value. -/
def words64 (n : Nat) : List Word := [wordOf n, wordOf (n / 2 ^ 32)]

def wordsInt64 (i : Int) : List Word := words64 (BitVec.ofInt 64 i).toNat

/-- Only the bits of the mask may be set. -/
def onlyBits (w : Word) (mask : Nat) : Bool := decide (w &&& ~~~(wordOf mask) = 0)

/-- The mask of bits [hi:lo]. -/
def bits (lo hi : Nat) : Nat := 2 ^ (hi + 1) - 2 ^ lo

/-- A value saturated at a bound. -/
def sat (n m : Nat) : Nat := min n m

/-- Ceiling of a quotient. -/
def ceilDiv (a b : Nat) : Nat := (a + b - 1) / b

/-- A value in a signed field of the given number of bits, as the number of its bit pattern. -/
def uint (bits : Nat) (i : Int) : Nat := (i % (2 ^ bits : Int)).toNat

/-! ### Outcomes of a command's checks and effect -/

/-- A failed check: status, DETAIL, and further result words where a chapter gives that status any (R29). -/
structure Fail where
  status : Status
  detail : Nat
  words : List Word
  deriving DecidableEq, Repr

/-- What a command answers: final status ST_OK with DETAIL and results, or a final status other than ST_OK that
nevertheless comes with an effect, or nothing yet (ST_ACCEPTED; its completion follows). -/
inductive Reply
  | ok (detail : Nat) (words : List Word)
  | done (status : Status) (detail : Nat) (words : List Word)
  | later (late : Bool)
  deriving DecidableEq, Repr

abbrev Res := Except Fail (State × Reply)

def failWith {α : Type} (st : Status) (d : Nat) : Except Fail α := .error { status := st, detail := d, words := [] }

/-- A check: the condition must hold, or the status results. -/
def need (c : Bool) (st : Status) (d : Nat) : Except Fail Unit := if c then .ok () else failWith st d

/-! ### Family parameters (R1, R2) -/

def nRobots : Member → Nat
  | .pvs7008 => 8 | .pvs7032 => 32 | .pvs7128 => 128
def nChannels : Member → Nat
  | .pvs7008 => 256 | .pvs7032 => 512 | .pvs7128 => 1024
def nAntennas : Member → Nat
  | .pvs7008 => 1 | .pvs7032 => 2 | .pvs7128 => 2
def nLanes : Member → Nat
  | .pvs7008 => 8 | .pvs7032 => 24 | .pvs7128 => 96
def nCores : Member → Nat
  | .pvs7008 => 4 | .pvs7032 => 8 | .pvs7128 => 16
def nJobSlots : Member → Nat
  | .pvs7008 => 64 | .pvs7032 => 128 | .pvs7128 => 256
def nLaws : Member → Nat
  | .pvs7008 => 768 | .pvs7032 => 1536 | .pvs7128 => 3072
def nBh : Member → Nat
  | .pvs7008 => 1 | .pvs7032 => 2 | .pvs7128 => 2
def nRh : Member → Nat
  | .pvs7008 => 2 | .pvs7032 => 4 | .pvs7128 => 8
def nNodes : Member → Nat
  | .pvs7008 => 2048 | .pvs7032 => 8192 | .pvs7128 => 16384
def nSlivers : Member → Nat
  | .pvs7008 => 4096 | .pvs7032 => 16384 | .pvs7128 => 32768
def nTasks : Member → Nat
  | .pvs7008 => 256 | .pvs7032 => 1024 | .pvs7128 => 2048
def powerMw : Member → Nat
  | .pvs7008 => 3100 | .pvs7032 => 5800 | .pvs7128 => 11000
/-- Host jobs (R299). -/
def nHostJobs : Member → Nat
  | .pvs7008 => 8 | .pvs7032 => 16 | .pvs7128 => 32
/-- SYS_ID.MEMBER. -/
def memberCode : Member → Nat
  | .pvs7008 => 0x7008 | .pvs7032 => 0x7032 | .pvs7128 => 0x7128

/-- Is the port present: 0-7 RH, 8-9 BH, 15 the internal port IP. -/
def portExists (m : Member) (p : Nat) : Bool :=
  decide (p < nRh m) || (decide (8 ≤ p) && decide (p < 8 + nBh m)) || decide (p = 15)

end Sys2Proof.Machine
end

