-- ==== Sys2Proof/Machine/Flags.lean ====
section
/-! DEFINITION. Flags and counters: the status codes, occurrence counters (R76), watermarks (R77), interrupt bits (R64),
and the queue flags. -/
set_option autoImplicit false

namespace Sys2Proof.Machine

/-- The numbers of R52. -/
def statusCode : Status → Nat
  | .ok => 0x0000 | .accepted => 0x0001 | .badOpcode => 0x0010 | .badLength => 0x0011 | .lengthExceeds => 0x0012
  | .badParam => 0x0013 | .range => 0x0014 | .busy => 0x0020 | .late => 0x0021 | .notReady => 0x0022
  | .state => 0x0023 | .denied => 0x0030 | .auth => 0x0031 | .rollback => 0x0032 | .binding => 0x0033
  | .noResource => 0x0040 | .overflow => 0x0041 | .markLost => 0x0042 | .stopped => 0x0050 | .fault => 0x0060
  | .standby => 0x0061

/-- Response word 2: STATUS in [31:16]; for ST_OK and ST_ACCEPTED LATE in [15] and DETAIL in [14:0], otherwise the
full 16-bit DETAIL. -/
def statusWord (st : Status) (late : Bool) (detail : Nat) : Word :=
  match st with
  | .ok | .accepted => wordOf (statusCode st * 65536 + natOfBool late * 32768 + detail % 32768)
  | _ => wordOf (statusCode st * 65536 + detail % 65536)

/-- One more occurrence in an 8-bit counter that saturates at 255 (R76). -/
def occInc (l : List Nat) (i : Nat) : List Nat := l.set i (min 255 (l.getD i 0 + 1))

/-- A list of flags as the number of their bits, bit 0 first. -/
def flagBits : List Bool → Nat
  | [] => 0
  | b :: r => natOfBool b + 2 * flagBits r

/-- The flags that remain after ones were written to some of them; a flag the hardware sets in the same cycle stays
(R76). -/
def w1c (fs : List Bool) (clear setNow : Nat) : List Bool :=
  (fs.zip (List.range fs.length)).map (fun p => (p.1 && !Nat.testBit clear p.2) || Nat.testBit setNow p.2)

/-- Four 8-bit counters as a register word, first in [7:0]. -/
def occWord (l : List Nat) : Nat := l.getD 0 0 + 256 * l.getD 1 0 + 65536 * l.getD 2 0 + 16777216 * l.getD 3 0

/-- The level of a side moved from `old` to `new` (R77). -/
def markLevel (m : Mark) (limit old new : Nat) : Mark :=
  if old < limit ∧ limit ≤ new then { flag := true, peak := max m.peak new, xcnt := min 255 (m.xcnt + 1) }
  else { m with peak := max m.peak new }

/-- Sets interrupt bit k: its occurrence is counted, and on a transition from 0 to 1 with INT_EN set the vector sends
one message, or is held pending while its table entry is masked (R64). Sources 23-31 never set. -/
def setInt (k : Nat) (s : State) : State :=
  if 23 ≤ k then s else
  let was := s.intStat.getD k false
  let s1 := { s with intStat := s.intStat.set k true, intOcc := occInc s.intOcc k }
  if !was && s.intEn.getLsbD k then
    if (tabGet s.msix k MsixEntry.init).masked then
      { s1 with msixPend := if s1.msixPend.contains k then s1.msixPend else k :: s1.msixPend }
    else { s1 with out := s1.out ++ [.msix k] }
  else s1

/-! ### The PCI Express link -/

/-- The widest link and the highest rate that both ends support (R62): up to two lanes, up to generation 3. -/
def trainLink (s : State) : State :=
  if s.sys.perstN then { s with pcie := { s.pcie with width := min 2 s.sys.hostLanes, gen := min 3 s.sys.hostGen } } else s

/-! ### Queues -/

def getQ (s : State) (q : Nat) : Queue := tabGet s.queues q Queue.init

def setQ (q : Nat) (x : Queue) (s : State) : State := { s with queues := tabSet s.queues q x }

def modQ (q : Nat) (f : Queue → Queue) (s : State) : State := setQ q (f (getQ s q)) s

/-- A queue pair is enabled while EN is 1 and FAULTED is 0 (R75). -/
def qEnabled (x : Queue) : Bool := x.en && !x.faulted

/-- STAT bits 0-5 of a queue pair, by number. -/
def queFlagNo : QueFlag → Nat
  | .credViol => 0 | .wrFmt => 1 | .rdFmt => 2 | .evtDrop => 3 | .strandDisc => 4 | .ptrFault => 5

def putQueFlag (f : QueFlag) (v : Bool) (x : Queue) : Queue :=
  match f with
  | .credViol => { x with credViol := v }
  | .wrFmt => { x with wrFmt := v }
  | .rdFmt => { x with rdFmt := v }
  | .evtDrop => { x with evtDrop := v }
  | .strandDisc => { x with strandDisc := v }
  | .ptrFault => { x with ptrFault := v }

/-- A flag of QUE_STAT is set: its occurrence is counted, and interrupt source 18 sets for CRED_VIOL, EVT_DROP and
PTR_FAULT (R64). -/
def setQueFlag (q : Nat) (f : QueFlag) (s : State) : State :=
  let s1 := modQ q (fun x => { putQueFlag f true x with occ := occInc x.occ (queFlagNo f) }) s
  match f with
  | .credViol | .evtDrop | .ptrFault => setInt 18 s1
  | _ => s1

/-- QUE_STAT as a number. -/
def queStat (x : Queue) : Nat :=
  flagBits [x.credViol, x.wrFmt, x.rdFmt, x.evtDrop, x.strandDisc, x.ptrFault, x.cmd.wm.flag, x.evt.wm.flag, x.faulted]

/-- A flag of SYS_ERR is set (R63, R76): interrupt source 22. -/
def setSysErr (i : Nat) (s : State) : State :=
  setInt 22 { s with sys := { s.sys with err := s.sys.err.set i true, errOcc := occInc s.sys.errOcc i } }

/-- A saturating 32-bit counter (R83). -/
def cnt32 (n : Nat) : Nat := min (n + 1) 0xFFFFFFFF

def addCnt32 (n k : Nat) : Nat := min (n + k) 0xFFFFFFFF

/-- Adds to a counter of GET_COUNTERS SET 0 of a queue (16 = the network queue). -/
def countQ (q : Nat) (f : QueCounters → QueCounters) (s : State) : State :=
  if q = 16 then { s with netCnt := f s.netCnt } else modQ q (fun x => { x with cnt := f x.cnt }) s

end Sys2Proof.Machine
end

