-- ==== Sys2Proof/Machine/Ops.lean ====
section
/-! DEFINITION. The named operations over the state that every command shares: the passing of time, the event side of
the queues, responses and completions, events and their recording, chains, and access tables. -/
set_option autoImplicit false

namespace Sys2Proof.Machine

/-! ### Time -/

/-- ns of 1/4096 h, the unit of operating time (R375). -/
def opUnit : Nat := 878906250

/-- The rate of device time against the reference clock, ppt: the RAW rate in RAW mode, otherwise the servo's frequency
and slew (R344, R349). -/
def timeRate (s : State) : Int := if s.time.raw then s.time.rawRate else s.time.freq + s.time.slew

/-- Tick boundaries occur: the timebase runs them, the firmware serves them, and the module is not a standby and does not
arbitrate (R9, roles table of chapter 17). -/
def ticking (s : State) : Bool :=
  s.tick.running && decide (s.sys.power = .running) && (decide (s.sys.boot = .ready) || decide (s.sys.boot = .init)) &&
    (decide (s.pair.role = .lone) || decide (s.pair.role = .active))

/-- The last whole second whose PPS_OUT edge falls by a device time: the edge comes OUT_DELAY before it (R360). -/
def edgeSecond (c : PpsCfg) (t : Nat) : Int := ((t : Int) * 1000 + c.outDelay) / 1000000000000

/-- PPS_OUT is driven: OUT_MODE 1 always, OUT_MODE 2 while TQ is 0b10 or 0b11 (R360). -/
def ppsDriven (t : Timebase) : Bool := decide (t.pps.outMode = 1) || (decide (t.pps.outMode = 2) && decide (2 ≤ t.tqLast))

/-- The pulse of PPS_OUT once device time has moved on from `old` to `now`: a leading edge that falls meanwhile begins one
(R360). -/
def pulseAt (t : Timebase) (old now : Nat) : Option PpsPulse :=
  let k := edgeSecond t.pps now
  if edgeSecond t.pps old < k ∧ ppsDriven t = true ∧ t.ppsPulse.bind (fun p => p.second) ≠ some k.toNat then
    some { second := some k.toNat, edge := k * 1000000000000 - t.pps.outDelay, width := t.pps.outWidth, high := t.pps.outPol }
  else t.ppsPulse

/-- Device time has moved on from `old`: PPS_OUT follows while the module is powered. -/
def passPps (old : Nat) (s : State) : State :=
  { s with time := { s.time with
      ppsPulse := if s.sys.power = .running then pulseAt s.time old s.now else s.time.ppsPulse } }

/-- Device time after dt ns of the reference clock, with the fraction carried in 10^-12 ns; while ticks run it does not
pass the next tick boundary, so that what comes ahead of the boundary is stamped no later than it (R10). -/
def passTime (dt : Nat) (s : State) : State :=
  let total : Int := (s.time.frac : Int) + (dt : Int) * (1000000000000 + timeRate s)
  let now' := s.now + (total / 1000000000000).toNat
  let now'' := if ticking s then max s.now (min now' s.tick.nextAt) else now'
  passPps s.now { s with now := now'', time := { s.time with frac := (total % 1000000000000).toNat } }

/-- Operating time advances while the module is out of standby (R375); it saturates at 2^40 - 1. -/
def passOpTime (dt : Nat) (s : State) : State :=
  if s.sys.power = .off then s
  else
    let f := s.rec_.opFrac + dt
    { s with rec_ := { s.rec_ with opTime := min (2 ^ 40 - 1) (s.rec_.opTime + f / opUnit), opFrac := f % opUnit } }

/-- dt ns pass. -/
def advance (dt : Nat) (s : State) : State := passOpTime dt (passTime dt { s with up := s.up + dt })

/-- A command begins: what left the module during the last one is past, and dt ns have gone by. -/
def begin_ (dt : Nat) (s : State) : State := advance dt { s with out := [] }

/-- A frame, a contact sample or a host command comes in (R10, R17): after the snapshot of a boundary it is stamped later
than the boundary, since one stamped at it would have been in the snapshot. -/
def beginInput (dt : Nat) (s : State) : State :=
  let s1 := begin_ dt s
  if ticking s1 && s1.tick.started && decide (s1.now = s1.tick.boundary) then
    passOpTime 1 (passPps s1.now { s1 with now := s1.now + 1, up := s1.up + 1 })
  else s1

/-- An event that the module times itself begins: time moves on to the given device time. -/
def beginAt (t : Nat) (s : State) : State :=
  let s1 := { s with out := [] }
  if t ≤ s.now then s1
  else passOpTime (t - s.now) (passPps s.now { s1 with now := t, up := s.up + (t - s.now) })

/-- An event that a timer of the module brings begins: time moves on to the given instant of the timers' clock. -/
def beginUp (t : Nat) (s : State) : State := if t ≤ s.up then begin_ 0 s else begin_ (t - s.up) s

/-- Device time can move on to t: no tick boundary lies before it. -/
def reaches (t : Nat) (s : State) : Bool := !(ticking s && decide (s.tick.nextAt < t))

/-- The module runs: it is powered, and firmware or the BROM serves it. -/
def powered (s : State) : Bool := decide (s.sys.power = .running)

/-- What leaves the module. -/
def emit (o : Output) (s : State) : State := { s with out := s.out ++ [o] }

/-- The active module sends a record on the Hexlux lane, numbered in sequence (R393). -/
def laneSend (kind : Nat) (ws : List Nat) (s : State) : State :=
  if s.pair.role = .active ∧ s.pair.laneUp then
    emit (.lane kind (s.pair.laneOut :: ws)) { s with pair := { s.pair with laneOut := (s.pair.laneOut + 1) % 2 ^ 32 } }
  else s

/-- The next free value's number. -/
def drawFresh (s : State) : Nat × State := (s.fresh, { s with fresh := s.fresh + 1 })

/-! ### The event side of a queue pair (R70, R71, R73, R77) -/

def evtLevel (x : Queue) : Nat := x.evt.words.length

/-- Words with the SOP and EOP marks of one packet. -/
def markWords (ws : List Word) : List EvWord :=
  (ws.zip (List.range ws.length)).map
    (fun p => { word := p.1, sop := decide (p.2 = 0), eop := decide (p.2 + 1 = ws.length) })

/-- Counts a placed packet towards the coalescing of interrupt source q (R73). -/
def coalesce (q : Nat) (s : State) : State :=
  let x := getQ s q
  let n := x.evt.coalCount + 1
  if s.intStat.getD q false then modQ q (fun x => { x with evt := { x.evt with coalCount := n } }) s
  else if max 1 x.coalCfgCount ≤ n then
    setInt q (modQ q (fun x => { x with evt := { x.evt with coalCount := 0, coalAt := none } }) s)
  else
    let at_ := if x.coalCfgTime = 0 then none else x.evt.coalAt.or (some s.up)
    modQ q (fun x => { x with evt := { x.evt with coalCount := n, coalAt := at_ } }) s

/-- Places a whole packet on the event side. -/
def placePacket (q : Nat) (ws : List Word) (s : State) : State :=
  let put := fun (x : Queue) =>
    { x with evt := { x.evt with
        words := x.evt.words ++ markWords ws,
        wm := markLevel x.evt.wm x.wmEvtCfg (evtLevel x) (evtLevel x + ws.length) } }
  coalesce q (modQ q put s)

/-- Places a response or a completion, or keeps it waiting behind those that wait for room already (R40, R71). -/
def placeOrWait (q : Nat) (ws : List Word) (s : State) : State :=
  let x := getQ s q
  if x.evt.waiting.isEmpty && decide (evtLevel x + ws.length ≤ 4096) then placePacket q ws s
  else modQ q (fun x => { x with evt := { x.evt with waiting := x.evt.waiting ++ [ws] } }) s

/-! ### Packets (chapter 02) -/

def packetHeader (op : Nat) (ev : Bool) (len : Nat) : Word := wordOf (op * 1048576 + natOfBool ev * 524288 + len)

def responseWords (op : Nat) (tag : Word) (st : Status) (late : Bool) (detail : Nat) (ws : List Word) : List Word :=
  packetHeader op false (3 + ws.length) :: tag :: statusWord st late detail :: ws

def eventWords (op : Nat) (tag : Word) (code detail t : Nat) (seq : Word) (ws : List Word) : List Word :=
  packetHeader op true (6 + ws.length) :: tag :: wordOf (code * 65536 + detail % 65536) :: wordOf t ::
    wordOf (t / 2 ^ 32) :: seq :: ws

/-- The MTU of a frame size limit: less the Ethernet header, its tag and the FCS (R59, R321; PRESUMED, log 18). -/
def mtuOf (maxFrame : Nat) : Nat := maxFrame - 22

/-- The MTU of the port through which answers to a source leave (R59, R326): that on which the switch knows its MAC. -/
def egressMtu (src : NetSrc) (s : State) : Nat :=
  match s.net.fdb.find? (fun e => decide (e.mac = src.mac ∧ e.vid = src.vid)) with
  | some e => match (List.range 10).find? (fun p => Nat.testBit e.ports p) with
    | some p => mtuOf (tabGet s.net.ports p (Port.init p)).cfg.maxFrame
    | none => 1500
  | none => 1500

/-- The longest network packet, in words, to a source (R59): IP and UDP headers and 24 bytes of the payload go off. -/
def netLimit (src : NetSrc) (s : State) : Nat := (egressMtu src s - (if src.ip6 then 48 else 28) - 24) / 4

/-- The payload bytes of a management datagram under a key (R58). -/
def datagramBytes (key keyIx seq : Nat) (ws : List Word) : List Byte :=
  let body := leBytes 1 2 ++ leBytes keyIx 2 ++ leBytes seq 8 ++ leBytes 0 4 ++ wordBytes ws
  body ++ cmacTag (keyBytes key) body 8

/-- Sends a response or completion of a network command back to its source under the same key, or the ST_OVERFLOW
response that takes its place (R58, R59). -/
def sendDatagram (src : NetSrc) (op : Nat) (tag : Word) (ws : List Word) (s : State) : State :=
  let ws' := if ws.length ≤ netLimit src s then ws else responseWords op tag .overflow false ws.length []
  let mk := s.mgmt.getD src.key MgmtKey.init
  match mk.key with
  | none => s
  | some k =>
    emit (.datagram src (datagramBytes k src.key mk.ownSeq ws'))
      { s with mgmt := s.mgmt.set src.key { mk with ownSeq := mk.ownSeq + 1 } }

/-- Sends words to where a command's answers go: its queue pair, unless that has been emptied since, or its source on
the network. -/
def answer (r : Req) (ws : List Word) (s : State) : State :=
  if r.q < 16 then
    if (getQ s r.q).epoch = r.epoch ∧ (getQ s r.q).faulted = false then placeOrWait r.q ws s else s
  else match r.net with
    | some src => sendDatagram src r.op r.tag ws s
    | none => s

/-! ### Chains (R34) -/

def getChain (s : State) (q : Nat) : Chain := tabGet s.chains q Chain.init

/-- A packet of a queue reached its final status. -/
def chainFinal (q pid : Nat) (good : Bool) (s : State) : State :=
  let c := getChain s q
  let ws := c.waiters.map (fun w => if w.pred = pid ∧ w.outcome = none then { w with outcome := some good } else w)
  let last := if c.lastPid = pid ∧ c.lastOk = none then some good else c.lastOk
  { s with chains := tabSet s.chains q { c with waiters := ws, lastOk := last } }

/-! ### Final statuses -/

/-- Statuses counted by GET_COUNTERS. -/
def countStatus (r : Req) (st : Status) (s : State) : State :=
  match st with
  | .badLength => countQ r.q (fun c => { c with badLength := cnt32 c.badLength }) s
  | .lengthExceeds => countQ r.q (fun c => { c with exceeds := cnt32 c.exceeds }) s
  | .denied => { s with secCnt := { s.secCnt with denied := cnt32 s.secCnt.denied } }
  | _ => s

/-- NR = 1 suppresses ST_OK and ST_ACCEPTED that are not late (R33). -/
def suppressed (r : Req) (st : Status) : Bool :=
  r.nr && !r.late && (decide (st = .ok) || decide (st = .accepted))

/-- A GNSS command that changes something at the next millisecond boundary (R112): settings of GNSS_CONFIG, channels,
antennas, offsets and surveys, and the subscriptions. -/
def actsAtMs (r : Req) : Bool :=
  let h := par r 0
  match r.op with
  | 0x100 => !bitAt h 4
  | 0x101 => true
  | 0x103 => !bitAt h 2
  | 0x104 | 0x108 => decide (fld h 0 1 ≠ 0)
  | 0x105 | 0x106 => decide (fld h 0 2 ≠ 0)
  | _ => false

/-- The device time at which the action of a command that ends now takes effect (R55, R17, R112). -/
def effectTime (r : Req) (s : State) : Nat :=
  if actsAtMs r then (s.now / 1000000 + 1) * 1000000 else if r.eff && ticking s then s.tick.nextAt else s.now

/-- The response time of a command answered with ST_OK: from its acceptance timestamp to the placing, us (R306). -/
def noteResponse (r : Req) (st : Status) (s : State) : State :=
  if st = .ok ∧ r.accepted = false then
    { s with sched := { s.sched with cmdTimes := s.sched.cmdTimes ++ [(s.now - r.stamp) / 1000] } }
  else s

/-- A packet is too long for the network path of its command, and ST_OVERFLOW takes its place (R59). -/
def overflows (r : Req) (len : Nat) (s : State) : Bool :=
  match r.net with
  | some src => decide (16 ≤ r.q) && decide (netLimit src s < len)
  | none => false

/-- The status that the sender sees is ST_OK (R34, R59). -/
def endsWell (r : Req) (st : Status) (ws : List Word) (s : State) : Bool :=
  decide (st = .ok) && (suppressed r st || !overflows r ((if r.accepted then 7 else 3) + ws.length) s)

/-- A command reaches its final status: the response, the completion event where it answered ST_ACCEPTED (R55), or the
result of the host job that ran it (R315); and its chain learns of it (R34). The EVSEQ of a completion on the network queue
is 0 (DESIGN CHOICE, log 169: that queue has no event sequence). -/
def finish (r : Req) (st : Status) (detail : Nat) (ws : List Word) (s : State) : State :=
  let good := endsWell r st ws s
  match r.job with
  | some j =>
    let h := tabGet s.sched.jobs j HostJob.init
    { s with sched := { s.sched with
        jobs := tabSet s.sched.jobs j { h with result := some (statusWord st r.late detail, ws) } } }
  | none =>
    let s1 := noteResponse r st (countStatus r st s)
    let s2 :=
      if suppressed r st then s1
      else if r.accepted then
        if r.q < 16 then
          if (getQ s1 r.q).epoch = r.epoch ∧ (getQ s1 r.q).faulted = false then
            let x := getQ s1 r.q
            let p := eventWords r.op r.tag 1 0 (effectTime r s1) x.evt.evseq (statusWord st r.late detail :: ws)
            placeOrWait r.q p (modQ r.q (fun x => { x with evt := { x.evt with evseq := x.evt.evseq + 1 } }) s1)
          else s1
        else answer r (eventWords r.op r.tag 1 0 (effectTime r s1) 0 (statusWord st r.late detail :: ws)) s1
      else answer r (responseWords r.op r.tag st r.late detail ws) s1
    chainFinal r.q r.pid good s2

/-- A command answers ST_ACCEPTED (R43); its end comes later. -/
def accepted (r : Req) (s : State) : State :=
  if r.job.isSome || suppressed r .accepted then s
  else answer r (responseWords r.op r.tag .accepted r.late 0 []) s

/-- A command that answered ST_ACCEPTED ends with the effect that comes about now. -/
def complete (r : Req) (st : Status) (detail : Nat) (ws : List Word) (s : State) : State :=
  finish { r with accepted := true, eff := false } st detail ws s

/-! ### Events -/

/-- Where an unsolicited event goes. -/
inductive Dest
  | none | all | one (q : Nat) (tag : Word) | allBut (q : Nat)
  deriving DecidableEq, Repr

/-- Packets that wait are placed, in order, as far as they find room (R71). -/
def placeWaiting (q : Nat) : List (List Word) → State → State
  | [], s => modQ q (fun x => { x with evt := { x.evt with waiting := [] } }) s
  | ws :: r, s =>
    if evtLevel (getQ s q) + ws.length ≤ 4096 then placeWaiting q r (placePacket q ws s)
    else modQ q (fun x => { x with evt := { x.evt with waiting := ws :: r } }) s

/-- An unsolicited event of n words would be placed (R71). -/
def eventFits (q n : Nat) (s : State) : Bool :=
  let x := getQ s q
  let y := getQ (if x.evt.waiting.isEmpty then s else placeWaiting q x.evt.waiting s) q
  qEnabled x && y.evt.waiting.isEmpty && decide (evtLevel y + n + 512 ≤ 4096)

/-- An unsolicited event for one queue pair (R54, R71, R75): placed when 512 words remain free after it, otherwise
discarded; EVSEQ advances either way. An event does not pass a packet that waits for room. -/
def postEvent (code detail t : Nat) (payload : List Word) (q : Nat) (tag : Word) (s : State) : State :=
  let x := getQ s q
  if qEnabled x then
    let ws := eventWords ((code / 256) % 16 * 256 + 255) tag code detail t x.evt.evseq payload
    let s1 := modQ q (fun x => { x with evt := { x.evt with evseq := x.evt.evseq + 1 } }) s
    let s2 := if x.evt.waiting.isEmpty then s1 else placeWaiting q x.evt.waiting s1
    let y := getQ s2 q
    if y.evt.waiting.isEmpty && decide (evtLevel y + ws.length + 512 ≤ 4096) then placePacket q ws s2
    else setQueFlag q .evtDrop (countQ q (fun c => { c with evtDrops := cnt32 c.evtDrops }) s2)
  else s

def deliver (code detail t : Nat) (payload : List Word) (d : Dest) (s : State) : State :=
  match d with
  | .none => s
  | .all => (List.range 16).foldl (fun a q => postEvent code detail t payload q 0 a) s
  | .one q tag => postEvent code detail t payload q tag s
  | .allBut k => (List.range 16).foldl (fun a q => if q = k then a else postEvent code detail t payload q 0 a) s

/-- Codes of the audit class (R372). -/
def auditCode (c : Nat) : Bool :=
  (decide (0x0800 ≤ c) && decide (c ≤ 0x0804)) || (decide (0x0D00 ≤ c) && decide (c ≤ 0x0D0F)) ||
    [0x0E00, 0x0E01, 0x0E02, 0x0E03, 0x0E10, 0x0C00, 0x0A02, 0x0A04, 0x0701, 0x0B01, 0x0B02].contains c

/-- Codes that are never recorded (R371). -/
def neverRecorded (c : Nat) : Bool := [0x0001, 0x0101, 0x0103, 0x0300, 0x0F00].contains c

/-- Adds to the count of records not written of a code and cause (R382). -/
def addSuppressed (l : List Suppressed) (code cause : Nat) : List Suppressed :=
  if l.any (fun x => decide (x.code = code ∧ x.cause = cause)) then
    l.map (fun x => if x.code = code ∧ x.cause = cause then { x with count := cnt32 x.count } else x)
  else l ++ [{ code := code, cause := cause, count := 1 }]

/-- The LIMIT of a code (R381). -/
def limitOf (s : State) (code : Nat) : Nat := tabGet s.rec_.limits code (if 0x8000 ≤ code then 0 else 50)

/-- Counts an occurrence of a code in the present second; the number it is. -/
def countOccurrence (code : Nat) (s : State) : Nat × State :=
  let sec := s.now / nsPerSec
  let per := if s.rec_.perSecOf = sec then s.rec_.perSec else []
  let n := tabGet per code 0 + 1
  (n, { s with rec_ := { s.rec_ with perSec := tabSet per code n, perSecOf := sec } })

/-- The payload of a module record (chapter 16). -/
def recordPayload (t detail : Nat) (ws : List Word) : List Byte :=
  leBytes t 8 ++ leBytes detail 2 ++ [0, 0] ++ wordBytes ws

/-- The recorder begins to write a record (R378). -/
def startWrite (audit overflow : Bool) (e : Staged) (s : State) : State :=
  { s with rec_ := { s.rec_ with writing := some { audit := audit, overflow := overflow, entry := e, since := s.up } } }

/-- Records an event (R371-R381): it is written at once where the recorder is idle, and else staged. -/
def stage (code detail t : Nat) (ws : List Word) (s : State) : State :=
  if neverRecorded code then s
  else
    let e : Staged := { code := code, host := false, timeRaw := s.time.raw, payload := recordPayload t detail ws }
    if auditCode code then
      if s.rec_.writing.isNone then startWrite true false e s
      else if s.rec_.audFifo.length < 16 ∧ s.rec_.audWait = [] then
        { s with rec_ := { s.rec_ with audFifo := s.rec_.audFifo ++ [e] } }
      else { s with rec_ := { s.rec_ with audWait := s.rec_.audWait ++ [(e, s.up)] } }
    else
      let (n, s1) := countOccurrence code s
      let lim := limitOf s code
      if lim = 0xFFFF then s1
      else if lim ≠ 0 ∧ lim < n then
        { s1 with rec_ := { s1.rec_ with suppressed := addSuppressed s1.rec_.suppressed code 0 } }
      else if s1.rec_.writing.isNone then startWrite false false e s1
      else if s1.rec_.diagFifo.length < 64 then
        { s1 with rec_ := { s1.rec_ with diagFifo := s1.rec_.diagFifo ++ [e] } }
      else { s1 with rec_ := { s1.rec_ with suppressed := addSuppressed s1.rec_.suppressed code 1 } }

/-- A decrement of a host job's counter (R300, R314). -/
def decHostJob (up : Nat) (h : HostJob) : HostJob :=
  if h.armed then
    if h.ready || h.running then { h with overlaps := h.overlaps + 1 }
    else if h.counter = 0 then h
    else if h.counter = 1 then { h with counter := 0, ready := true, readyAt := up }
    else { h with counter := h.counter - 1 }
  else h

/-- An occurrence of an event code decrements the counter of every host job it triggers (R314). -/
def triggerJobs (code : Nat) (s : State) : State :=
  let hit := fun (h : HostJob) =>
    match h.defn with
    | some d => decide (d.trigger = 1 ∧ d.eventCode = code)
    | none => false
  { s with sched := { s.sched with
      jobs := s.sched.jobs.map (fun p => if hit p.2 then (p.1, decHostJob s.up p.2) else p) } }

/-- An event happens at device time t: host jobs it triggers, its record, and its delivery. -/
def raiseAt (t code detail : Nat) (payload : List Word) (d : Dest) (s : State) : State :=
  deliver code detail t payload d (stage code detail t payload (triggerJobs code s))

def raise (code detail : Nat) (payload : List Word) (d : Dest) (s : State) : State :=
  raiseAt s.now code detail payload d s

/-! ### Access tables (R426, R428) -/

/-- Master ID of a queue. -/
def masterOf (q : Nat) : Nat := if q = 16 then 2 else 1

def permOf (l : List (Nat × Nat)) : Nat := l.foldl (fun a p => a + p.2 * 2 ^ (3 * p.1)) 0

/-- Default permissions of a target's descriptor 0 (R428): R 1, W 2, X 4, by master. -/
def defaultPerm (target : Nat) : Nat :=
  let cls := target / 4096
  let ix := target % 4096
  if cls = 0 then
    if ix ≤ 2 ∨ ix = 6 then permOf [(1, 3), (4, 3)]
    else if ix ≤ 5 then permOf [(1, 1), (4, 3)]
    else permOf [(4, 3)]
  else if cls = 1 then
    if ix ≤ 1 then permOf [(4, 3), (6, 1)]
    else if ix = 2 then permOf [(5, 3)]
    else if ix = 3 then permOf [(6, 3), (4, 1)]
    else if ix = 4 then permOf [(4, 3), (8, 2)]
    else if ix = 5 then permOf [(4, 2), (7, 1)]
    else if ix = 6 then 0
    else if ix = 16 then permOf [(5, 3), (4, 1)]
    else if ix = 17 then permOf [(4, 3), (8, 2)]
    else permOf [(4, 3)]
  else permOf [(1, 7), (2, 7), (4, 7)]

/-- Targets of the target numbers table: 18 blocks of chapter 01, the DRAM regions and MRAM areas, the groups. -/
def targetExists (t : Nat) : Bool :=
  let cls := t / 4096
  let ix := t % 4096
  (decide (cls = 0) && (decide (ix ≤ 6) || (decide (16 ≤ ix) && decide (ix < 34)))) ||
    (decide (cls = 1) && (decide (ix ≤ 6) || (decide (8 ≤ ix) && decide (ix ≤ 13)) || decide (ix = 16) || decide (ix = 17))) ||
    (decide (cls = 2) && decide (ix ≤ 15))

/-- The last offset of a target that its descriptor 0 covers by default. -/
def targetLimit (t : Nat) : Nat :=
  let cls := t / 4096
  let ix := t % 4096
  if cls = 2 then 255
  else if cls = 0 then (if ix ≤ 5 then 0xFFF else if ix = 6 then 0x1FFF else 0xFFFFFFFF)
  else
    [0x0FFFFFFF, 0x3FFFFFFF, 0x1FFFFFFF, 0x1FFFFFFF, 0x3FFFFFFF, 0x0FFFFFFF, 0x1FFFFFFF, 0, 0x5FFFFF, 0x5FFFFF,
      0x1FFFFF, 0x3FFFFF, 0xBFFFFF, 0x1FFFFF, 0, 0, 0x7FFFFF, 0x3FFFFF].getD ix 0

/-- Descriptor 0 as production leaves it, with LOCK on the firmware banks and the STOP mirror (R428). -/
def defaultDescs (t : Nat) : List AclDesc :=
  { base := 0, limit := targetLimit t, perm := defaultPerm t, valid := true,
    lock := decide (t = 3 ∨ t = 0x1008 ∨ t = 0x1009) } :: List.replicate 15 AclDesc.init

def descsOf (s : State) (t : Nat) : List AclDesc := tabGet s.acl t (defaultDescs t)

/-- The valid descriptor with the lowest index whose range holds the offset grants the access (R426). -/
def aclAllows (s : State) (master target off need_ : Nat) : Bool :=
  match (descsOf s target).find? (fun d => d.valid && decide (d.base ≤ off) && decide (off ≤ d.limit)) with
  | some d => decide (((d.perm / 2 ^ (3 * master)) % 8) &&& need_ = need_)
  | none => false

/-- At the end of a second the denials that were only counted are recorded (R429). -/
def flushDenials (s : State) : State :=
  let flush := fun (a : State) (d : Denial) =>
    if d.more = 0 then a
    else raise 0x0E00 (d.master + 16 * d.access) [wordOf d.target, wordOf d.offset, wordOf d.more] .all a
  let a := s.denials.foldl flush s
  { a with denials := [], denialSec := s.now / nsPerSec }

/-- The second of the denials that are held has ended. -/
def endDenials (s : State) : State := if s.denialSec = s.now / nsPerSec then s else flushDenials s

/-- Reports a denial (R429): the first of a master and target in a second at once, further ones by count. -/
def deny (master target off acc : Nat) (s : State) : State :=
  let s1 := endDenials s
  if s1.denials.any (fun d => decide (d.master = master ∧ d.target = target)) then
    let bump := fun (d : Denial) => if d.master = master ∧ d.target = target then { d with more := d.more + 1 } else d
    { s1 with denials := s1.denials.map bump }
  else
    raise 0x0E00 (master + 16 * acc) [wordOf target, wordOf off, 1] .all
      { s1 with denials := s1.denials ++ [{ master := master, target := target, access := acc, offset := off, more := 0 }] }

/-! ### Robots and sessions -/

def getLink (s : State) (r : Nat) : Link := tabGet s.uz.robots r Link.init

def setLink (r : Nat) (l : Link) (s : State) : State := { s with uz := { s.uz with robots := tabSet s.uz.robots r l } }

def modLink (r : Nat) (f : Link → Link) (s : State) : State := setLink r (f (getLink s r)) s

def sessActive (s : State) (r : Nat) : Bool := decide ((getLink s r).sess = .active)

def getSpindle (s : State) (r : Nat) : Spindle := tabGet s.spin.spindles r Spindle.init

def setSpindle (r : Nat) (x : Spindle) (s : State) : State :=
  { s with spin := { s.spin with spindles := tabSet s.spin.spindles r x } }

def modSpindle (r : Nat) (f : Spindle → Spindle) (s : State) : State := setSpindle r (f (getSpindle s r)) s

/-- A spindle is active in every state except IDLE (R234). -/
def spinActive (x : Spindle) : Bool := decide (x.state ≠ .idle)

def anySpindleActive (s : State) : Bool := s.spin.spindles.any (fun p => spinActive p.2)

/-! ### The stop latch (R281) -/

/-- The latch holds the key-valid line inactive unless both channels are clear. -/
def latched (s : State) : Bool := s.stop.chanX || s.stop.chanY

/-- The module signs GO (R388): its role is ACTIVE, or it is LONE once SYS_STATE has first read READY. -/
def signsGo (s : State) : Bool :=
  match s.pair.role with
  | .active => true
  | .lone => s.sys.everReady
  | _ => false

/-- The key-valid line (R388). -/
def keyValid (s : State) : Bool :=
  !latched s && (if s.pair.en then decide (s.pair.role = .active) && !s.pair.actIn else true)

/-- Motion is refused: the latch is set, or a controlled phase runs (R45, R287). -/
def motionStopped (s : State) : Bool := latched s || s.stop.controlled

/-- The owner of the open configuration session is this queue (R431). -/
def sessionOpen (s : State) (q : Nat) : Bool := decide (s.session.phase = 2 ∧ s.session.owner = q)

/-- A command that requires an open session was sent by its owner: the 300 s start again (R431). -/
def touchSession (s : State) : State := { s with session := { s.session with lastUse := s.up } }

/-- The closing of the configuration session by an event (R431). -/
def closeSession (cause : Nat) (s : State) : State :=
  if s.session.phase = 2 then
    raise 0x0E01 cause [wordOf s.session.session, wordOf s.session.owner] .all
      { s with session := { s.session with phase := 0 } }
  else { s with session := { s.session with phase := 0 } }

end Sys2Proof.Machine
end

