-- ==== Sys2Proof/Machine/Submit.lean ====
section
/-! DEFINITION. The path of a command packet from its reception to its final status (chapter 02): the check order of R51,
acceptance, chains, execute-at times, and the word-level interpreter of a command FIFO (R47-R50, R65-R71). What a
command does is given by its descriptor. -/
set_option autoImplicit false

namespace Sys2Proof.Machine

/-- Action classes of R44. -/
inductive LateClass
  | stop | motion | pps | other
  deriving DecidableEq, Repr

/-- What the shared path needs to know of a command: its opcode; the LENGTHs its opcode allows, without AT, and the
smallest of them (R49); the longest response it can produce (R71); whether a request is a read form (R41, R426);
whether a standby admits it (R404); whether the update window and INIT admit it (R41, R410); its action class (R44);
whether its effect comes at the next snapshot (R17); the locks of check 7; and checks 8-11 together with the effect. -/
structure Desc where
  op : Nat
  minLen : Nat
  lenOk : Req → Bool
  maxResp : Nat
  isRead : Req → Bool
  standbyOk : Req → Bool
  updOk : Bool
  initOk : Bool
  cls : Req → LateClass
  eff : Bool
  lock : Req → State → Except Fail Unit
  body : Req → State → Res

/-- A descriptor with the usual entries: fixed lengths, no lock, class "other". -/
def Desc.std (op : Nat) (lens : List Nat) (maxResp : Nat) (isRead : Req → Bool) (body : Req → State → Res) : Desc :=
  { op := op, minLen := lens.foldl min (lens.headD 2), lenOk := fun r => lens.contains (lenNoAt r), maxResp := maxResp, isRead := isRead,
    standbyOk := isRead, updOk := false, initOk := false, cls := fun _ => .other, eff := false,
    lock := fun _ _ => .ok (), body := body }

/-- A descriptor whose forms differ in LENGTH: where a field of the packet names the LENGTH of its form, that LENGTH is
found wrong at check 8 (R30). -/
def Desc.formLen (d : Desc) (f : Req → Option Nat) : Desc :=
  { d with body := fun r s =>
      match f r with
      | some n => if lenNoAt r = n then d.body r s else failWith .badLength d.minLen
      | none => d.body r s }

/-- A read command of a group that a standby admits in its read forms. -/
def Desc.read (op : Nat) (lens : List Nat) (maxResp : Nat) (body : Req → State → Res) : Desc :=
  Desc.std op lens maxResp (fun _ => true) body

/-! ### Checks 2 to 7 -/

/-- Commands that no access table denies to HOSTP and HOSTN (R427). -/
def neverDenied (op : Nat) : Bool := [0xE04, 0xE01, 0xE02, 0x800, 0x801, 0x804].contains op

/-- Check 3 (R426): R for read forms, W for every other command, and X besides for AT = 1 or a host job. -/
def groupAllows (s : State) (r : Req) (isRead : Bool) : Bool :=
  neverDenied r.op ||
    aclAllows s (masterOf r.q) (0x2000 + r.op / 256) (r.op % 256)
      ((if isRead then 1 else 2) + (if r.at_ || r.job.isSome then 4 else 0))

/-- Commands that the BROM serves in recovery (R412). -/
def recoveryOk (op : Nat) : Bool := [0x001, 0xD07, 0xE00, 0xD00, 0xD01, 0xD02, 0xD03, 0xD04].contains op

/-- The LENGTH is allowed for the opcode (R32, R49). -/
def lengthOk (d : Desc) (r : Req) : Bool := d.lenOk r && (!r.at_ || decide (4 ≤ r.len))

/-- Checks 2 to 7 of R51 on a known opcode. -/
def headerChecks (d : Desc) (r : Req) (s : State) : Except Fail Unit := do
  need (!(decide (s.sys.boot = .fault) && !recoveryOk r.op)) .notReady 0
  need (groupAllows s r (d.isRead r)) .denied 0
  need (lengthOk d r) .badLength d.minLen
  need (!r.ev) .badParam 0xFF01
  need (decide (s.pair.role ≠ .standby) || d.standbyOk r) .standby 0
  need (!s.upd.window || d.isRead r || d.updOk) .busy 0
  d.lock r s

/-- Checks 8 to 11 with the effect; while SYS_STATE reads INIT, check 10 refuses what passes 8 and 9 (R410). -/
def gatedBody (d : Desc) (r : Req) (s : State) : Res :=
  if s.sys.boot = .init ∧ d.initOk = false then
    match d.body r s with
    | .error f =>
      if f.status = .badParam ∨ f.status = .range ∨ f.status = .badLength then .error f else failWith .notReady 0
    | .ok _ => failWith .notReady 0
  else d.body r s

/-! ### Execution -/

/-- A command that failed a check answers that status and has no other effect (R51). -/
def failReq (r : Req) (f : Fail) (s : State) : State := finish r f.status f.detail f.words s

/-- The effect of a command and its answer. -/
def perform (r : Req) (s' : State) (rep : Reply) : State :=
  match rep with
  | .ok d ws => finish r .ok d ws s'
  | .done st d ws => finish r st d ws s'
  | .later late => if r.accepted then s' else accepted { r with late := r.late || late } s'

/-- The latest execute-at time after acceptance, ns (R42). -/
def atHorizon : Nat := 86400 * nsPerSec

def periodNs (s : State) : Nat := s.tick.period * 1000000

/-- Commands that count as pending under R42. -/
def pendingAt (s : State) : Nat :=
  (s.execs.filter (fun r => r.accepted)).length + (s.time.waiting.filter (fun p => p.req.at_)).length

/-- Does an accepted command wait for its execute-at time in the list of pending commands; PPS-aligned ones wait for
their whole second in the timebase. -/
def waitsForTime (d : Desc) (r : Req) : Bool :=
  r.at_ && decide (d.cls r ≠ .pps) &&
    (decide (r.stamp < r.execAt) || (decide (d.cls r = .motion) && decide (r.stamp = r.execAt)))

/-- Check 12 and, for a command that runs now, whether it runs late (R42-R44). -/
def lateness (d : Desc) (r : Req) (s : State) : Except Fail Bool := do
  if !r.at_ then return false
  if r.stamp < r.execAt ∨ waitsForTime d r = true then
    need (decide (r.execAt - r.stamp ≤ atHorizon)) .range 0xFF10
    need (decide (pendingAt s < 64)) .noResource 0xFF11
    return false
  let l := r.stamp - r.execAt
  need (!(decide (d.cls r = .motion) && decide (periodNs s < l))) .late (min 65535 (l / 1000))
  return decide (0 < l)

/-- A late command of the class "other", or a late motion start, whose effect does not come at the next snapshot anyway: it
runs, and answers, at the next tick boundary (R44). -/
def waitsForTick (d : Desc) (r : Req) (s : State) : Bool :=
  ticking s && !d.eff && (decide (d.cls r = .other) || decide (d.cls r = .motion))

/-- Checks 8 to 13 and what follows (R34, R42-R44, R51). `chain` tells the final status of the packet before it. -/
def runNow (d : Desc) (r : Req) (chain : Bool) (s : State) : State :=
  let r := { r with eff := d.eff }
  match gatedBody d r s with
  | .error f => failReq r f s
  | .ok (s', rep) =>
    match lateness d r s with
    | .error f => failReq r f s
    | .ok late =>
      if r.ch && !chain then failReq r { status := .state, detail := 0xFF20, words := [] } s
      else if waitsForTime d r then
        accepted r { s with execs := s.execs ++ [{ r with accepted := true }] }
      else if late && waitsForTick d r s then
        { s with execs := s.execs ++ [{ r with late := true, execAt := s.tick.nextAt }] }
      else if late then
        let r' := { r with late := true }
        match gatedBody d r' s with
        | .error f => failReq r f s
        | .ok (s2, rep2) => perform r' s2 rep2
      else perform r s' rep

/-- STOP_FLEET and STOP_ROBOT (R36). -/
def isStopOp (op : Nat) : Bool := decide (op = 0x800) || decide (op = 0x801)

/-- A packet is received on a queue: it gets its number, and becomes the packet that a following chained command waits
on, unless it is a stop (R34, R36). The answer is the packet before it and its final status. -/
def enterChain (r : Req) (s : State) : Req × Nat × Option Bool × State :=
  let c := getChain s r.q
  let r' := { r with pid := c.nextPid }
  let c' :=
    if isStopOp r.op then { c with nextPid := c.nextPid + 1 }
    else { c with nextPid := c.nextPid + 1, lastPid := c.nextPid, lastOk := none }
  (r', c.lastPid, c.lastOk, { s with chains := tabSet s.chains r.q c' })

/-- An accepted command is forwarded to the standby with its acceptance timestamp (R393). -/
def laneCommand (r : Req) (s : State) : State :=
  laneSend 1 ([3, r.q, r.op, natOfBool r.at_, r.execAt, r.stamp] ++ r.params.map (fun w => w.toNat)) s

/-- A received packet is taken: accepted and checked, and run, chained or kept for its time. -/
def take (d : Option Desc) (r0 : Req) (s0 : State) : State :=
  let (r1, pred, predOk, s1) := enterChain { r0 with stamp := s0.now } s0
  match d with
  | none => failReq r1 { status := .badOpcode, detail := 0, words := [] } s1
  | some d =>
    let s2 :=
      if lengthOk d r1 then laneCommand r1 (countQ r1.q (fun c => { c with accepted := cnt32 c.accepted }) s1) else s1
    match headerChecks d r1 s2 with
    | .error f =>
      let s3 :=
        if f.status = .denied then
          deny (masterOf r1.q) (0x2000 + r1.op / 256) r1.op (if d.isRead r1 then 1 else 2) s2
        else s2
      failReq r1 f s3
    | .ok _ =>
      if r1.ch && !isStopOp r1.op then
        match predOk with
        | some good => runNow d r1 good s2
        | none =>
          let c := getChain s2 r1.q
          if c.waiters.length < 32 then
            let c' := { c with waiters := c.waiters ++ [{ req := r1, pred := pred, outcome := none }] }
            { s2 with chains := tabSet s2.chains r1.q c' }
          else failReq r1 { status := .noResource, detail := 0xFF12, words := [] } s2
      else runNow d { r1 with ch := false } true s2

/-- Room on the event side for the longest response (R71). -/
def roomFor (s : State) (q n : Nat) : Bool :=
  decide (16 ≤ q) || ((getQ s q).evt.waiting.isEmpty && decide (evtLevel (getQ s q) + n ≤ 4096))

/-- A complete packet: taken, or held unaccepted for room on the event side (R71). -/
def receive (d : Option Desc) (r : Req) (s : State) : State :=
  let need_ := match d with
    | some d => if lengthOk d r then d.maxResp else 3
    | none => 3
  if roomFor s r.q need_ then take d r s
  else modQ r.q (fun x => { x with cmd := { x.cmd with held := some r } }) s

/-! ### Packets as words -/

/-- The command that the words of a packet spell (chapter 02, command packet). -/
def reqOfWords (q epoch : Nat) (ws : List Word) (net : Option NetSrc) : Req :=
  let h := ws.getD 0 0
  let at_ := bitAt h 18
  { op := fld h 20 31, q := q, epoch := epoch, tag := ws.getD 1 0, ev := bitAt h 19, at_ := at_, nr := bitAt h 17,
    ch := bitAt h 16, len := fld h 0 15,
    execAt := if at_ then (ws.getD 2 0).toNat + 2 ^ 32 * (ws.getD 3 0).toNat else 0,
    params := ws.drop (if at_ then 4 else 2), stamp := 0, pid := 0, job := none, net := net, late := false,
    accepted := false, eff := false }

/-- The words of a host command. -/
def cmdWords (op : Nat) (c : Cmd) : List Word :=
  wordOf (op * 1048576 + natOfBool c.ev * 524288 + natOfBool c.at_ * 262144 + natOfBool c.nr * 131072 +
      natOfBool c.ch * 65536 + c.len % 65536) :: c.tag ::
    ((if c.at_ then words64 c.execAt else []) ++ c.params)

/-- A response that the interpreter gives without having taken a command (R47, R48, R50, R69); it is a packet of the
queue for chains. -/
def interpFail (q op : Nat) (tag : Word) (st : Status) (detail : Nat) (ws : List Word) (s : State) : State :=
  let r0 := { Req.none with op := op, q := q, epoch := (getQ s q).epoch, tag := tag, nr := false, stamp := s.now }
  let (r1, _, _, s1) := enterChain r0 s
  finish r1 st detail ws s1

def modCmd (q : Nat) (f : CmdSide → CmdSide) (s : State) : State := modQ q (fun x => { x with cmd := f x.cmd }) s

def countPurged (q n : Nat) (s : State) : State := countQ q (fun c => { c with purged := addCnt32 c.purged n }) s

/-- The interpreter reads one word. -/
def readWord (lookup : Nat → Option Desc) (q : Nat) (w : Word) (s : State) : State :=
  let x := getQ s q
  match x.cmd.purge with
  | some (.exceeds h nxt n) =>
    modCmd q (fun c => { c with purge := some (.exceeds h (nxt.or (some w)) (n + 1)) }) s
  | some .credit => countPurged q 1 s
  | none =>
    let ws := x.cmd.part ++ [w]
    let h := ws.getD 0 0
    let n := fld h 0 15
    if ws.length = 1 ∧ n = 0 then interpFail q (fld h 20 31) 0 .badLength 0xFF30 [] s
    else if ws.length = 1 ∧ 4096 < n then modCmd q (fun c => { c with purge := some (.exceeds h none 1) }) s
    else if ws.length < n then modCmd q (fun c => { c with part := ws }) s
    else receive (lookup (fld h 20 31)) (reqOfWords q x.epoch ws none) (modCmd q (fun c => { c with part := [] }) s)

/-- The packet in progress is discarded with ST_BAD_LENGTH, DETAIL 0xF000 + the words received (R50, R69). At
a credit violation they do not count as purged, only the words after the drop do (DESIGN CHOICE, log 171). -/
def discardPart (q : Nat) (s : State) : State :=
  let x := getQ s q
  let ws := x.cmd.part
  interpFail q (fld (ws.getD 0 0) 20 31) (ws.getD 1 0) .badLength (0xF000 + ws.length) []
    (modCmd q (fun c => { c with part := [] }) s)

/-- The interpreter passes a doorbell boundary: a purge ends there (R48, R69). -/
def passBell (q : Nat) (s : State) : State :=
  match (getQ s q).cmd.purge with
  | some (.exceeds h nxt n) =>
    interpFail q (fld h 20 31) (nxt.getD 0) .lengthExceeds 0 [wordOf n]
      (countPurged q n (modCmd q (fun c => { c with purge := none }) s))
  | some .credit => modCmd q (fun c => { c with purge := none }) s
  | none => s

/-- The interpreter of one queue pair works through what it sees until nothing is left or it holds a command. An entry
read to its end is released, and the credit limit rises by its valid words (R69). A credit violation with no word of a
packet received is answered as one with a packet of 0 words, opcode 0 and tag 0 (DESIGN CHOICE, log 170). -/
def interp (lookup : Nat → Option Desc) (q : Nat) : Nat → State → State
  | 0, s => s
  | n + 1, s =>
    let x := getQ s q
    if x.cmd.held.isSome || s.sys.softReq then s
    else match x.cmd.vis with
      | [] => s
      | .entry k [] :: rest =>
        interp lookup q n (modCmd q (fun c => { c with vis := rest, credLimit := c.credLimit + wordOf k }) s)
      | .entry k (w :: ws) :: rest =>
        interp lookup q n (readWord lookup q w (modCmd q (fun c => { c with vis := .entry k ws :: rest }) s))
      | .bell :: rest => interp lookup q n (passBell q (modCmd q (fun c => { c with vis := rest }) s))
      | .cut :: rest =>
        let s1 := modCmd q (fun c => { c with vis := rest }) s
        let s2 := if (getQ s1 q).cmd.purge = none then discardPart q s1 else s1
        interp lookup q n (modCmd q (fun c => { c with purge := some (c.purge.getD .credit) }) s2)

/-- Steps that suffice for everything in a FIFO. -/
def fifoSteps (l : List FifoItem) : Nat :=
  l.foldl (fun a i => a + match i with
    | .entry _ ws => ws.length + 1
    | _ => 1) 1

def runInterp (lookup : Nat → Option Desc) (q : Nat) (s : State) : State :=
  interp lookup q (fifoSteps (getQ s q).cmd.vis) s

/-- Valid words in the command FIFO: an entry counts whole until the interpreter releases it (R69). -/
def cmdLevel (x : Queue) : Nat :=
  let n := fun (l : List FifoItem) => l.foldl (fun a i => a + match i with
    | .entry k _ => k
    | _ => 0) 0
  n x.cmd.vis + n x.cmd.inv + x.cmd.open_.length

/-- A partly filled entry is closed (R66). -/
def closeEntry (c : CmdSide) : CmdSide :=
  if c.open_.isEmpty then c
  else { c with inv := c.inv ++ [.entry c.open_.length c.open_], open_ := [] }

/-- The strand timer restarts (R68). -/
def strandStart (q : Nat) (s : State) : State := modCmd q (fun c => { c with strandAt := some s.up }) s

/-- A write to WRITE_PORT of one whole dword (R65, R66, R68, R69). -/
def writeWord (q : Nat) (w : Word) (s : State) : State :=
  let x := getQ s q
  if !qEnabled x then countQ q (fun c => { c with disabledWrites := cnt32 c.disabledWrites }) (strandStart q s)
  else if x.cmd.wordsTaken = x.cmd.credLimit then
    let drop := fun (c : CmdSide) =>
      if c.dropping then c else { closeEntry c with inv := (closeEntry c).inv ++ [.cut], dropping := true }
    setQueFlag q .credViol
      (countQ q (fun c => { c with credViol := cnt32 c.credViol })
        (modCmd q (fun c => { drop c with strandAt := some s.up }) s))
  else
    let put := fun (c : CmdSide) =>
      let c1 := { c with open_ := c.open_ ++ [w], wordsTaken := c.wordsTaken + 1, strandAt := some s.up }
      if c1.open_.length = 4 then { c1 with inv := c1.inv ++ [.entry 4 c1.open_], open_ := [] } else c1
    let mark := fun (y : Queue) =>
      { y with cmd := { y.cmd with wm := markLevel y.cmd.wm y.wmCmdCfg (cmdLevel x) (cmdLevel x + 1) } }
    countQ q (fun c => { c with wordsTaken := cnt32 c.wordsTaken }) (modQ q mark (modCmd q put s))

/-- A write to DOORBELL (R67): what was written becomes visible, and a boundary is marked. -/
def ringBell (lookup : Nat → Option Desc) (q : Nat) (s : State) : State :=
  if !qEnabled (getQ s q) then countQ q (fun c => { c with disabledWrites := cnt32 c.disabledWrites }) s
  else
    let ring := fun (c : CmdSide) =>
      let c1 := closeEntry c
      { c1 with vis := c1.vis ++ c1.inv ++ [.bell], inv := [], dropping := false }
    runInterp lookup q (modCmd q ring s)

/-- Words written one by one, with a doorbell wherever the credit runs out, and one at the end. -/
def writeWords (lookup : Nat → Option Desc) (q : Nat) (ws : List Word) (s : State) : State :=
  ringBell lookup q (ws.foldl (fun a w =>
    let x := getQ a q
    writeWord q w (if qEnabled x ∧ x.cmd.wordsTaken = x.cmd.credLimit then ringBell lookup q a else a)) s)

/-- Nothing of an earlier packet lies ahead of the next word of this queue pair. -/
def cmdIdle (c : CmdSide) : Bool :=
  c.vis.isEmpty && c.inv.isEmpty && c.open_.isEmpty && c.part.isEmpty && c.purge.isNone && c.held.isNone

/-- The words of a whole packet pass the empty FIFO at once: they are counted, and their entries released (R69). -/
def passFifo (q n : Nat) (s : State) : State :=
  let f := fun (x : Queue) =>
    { x with cmd := { x.cmd with
      wordsTaken := x.cmd.wordsTaken + wordOf n, credLimit := x.cmd.credLimit + wordOf n, strandAt := some s.up,
      wm := markLevel x.cmd.wm x.wmCmdCfg 0 (min n 1024) } }
  countQ q (fun c => { c with wordsTaken := addCnt32 c.wordsTaken n }) (modQ q f s)

/-- The packet of a host command is well formed: its LENGTH is that of its words. -/
def cmdShape (c : Cmd) : Bool := decide (c.len = 2 + (if c.at_ then 2 else 0) + c.params.length) && decide (c.len ≤ 4096)

/-- The command as the interpreter holds it. -/
def reqOfCmd (op : Nat) (c : Cmd) (epoch : Nat) : Req :=
  { op := op, q := c.q, epoch := epoch, tag := c.tag, ev := c.ev, at_ := c.at_, nr := c.nr, ch := c.ch, len := c.len,
    execAt := if c.at_ then c.execAt % 2 ^ 64 else 0, params := c.params, stamp := 0, pid := 0, job := none,
    net := c.net, late := false, accepted := false, eff := false }

/-- The queue pair serves commands: the module runs, the endpoint is out of reset (R439), and the QUE registers are in
service (R410, R412). -/
def queServed (s : State) (q : Nat) : Bool :=
  powered s && (decide (q = 16) || s.sys.perstN) && (match s.sys.boot with
    | .boot => false
    | .fault => decide (q = 0)
    | _ => true)

/-- A host command arrives: on a queue pair as its words and a doorbell, on the network queue as a verified packet. -/
def hostCommand (d : Desc) (lookup : Nat → Option Desc) (c : Cmd) (s : State) : State :=
  if c.q = 16 then
    if queServed s 16 && cmdShape c then take (some d) (reqOfCmd d.op c 0) s else s
  else if !queServed s c.q then s
  else
    let x := getQ s c.q
    if qEnabled x && cmdIdle x.cmd && cmdShape c then
      receive (some d) (reqOfCmd d.op c x.epoch) (passFifo c.q c.len s)
    else writeWords lookup c.q (cmdWords d.op c) s

end Sys2Proof.Machine
end

