-- ==== Sys2Proof/Machine/Rec.lean ====
section
/-! DEFINITION. The event recorder (chapter 16): committing records to the rings, overflow and suppression, marks and
snapshots, and the REC commands. -/
set_option autoImplicit false

namespace Sys2Proof.Machine

/-! ### Rings (R373, R376, R377) -/

/-- Sequences wrap modulo 2^32 and never take the value 0 (R373). -/
def seqNext (n : Nat) : Nat := if 0xFFFFFFFF ≤ n then 1 else n + 1

/-- Distance from a sequence up to another, on the sequence's circle without 0. -/
def seqDist (a b : Nat) : Nat := (b + 0xFFFFFFFF - a) % 0xFFFFFFFF

def padTo8 (n : Nat) : Nat := ceilDiv n 8 * 8

/-- Bytes a record occupies: header, padded payload, trailer. -/
def recSize (payload : Nat) : Nat := 24 + padTo8 payload

def ringSize (audit : Bool) : Nat := if audit then 0x400000 else 0xC00000

def getRing (s : State) (audit : Bool) : Ring := if audit then s.rec_.audit else s.rec_.diag

def setRing (audit : Bool) (r : Ring) (s : State) : State :=
  if audit then { s with rec_ := { s.rec_ with audit := r } } else { s with rec_ := { s.rec_ with diag := r } }

def firstSeq (r : Ring) : Nat := match r.recs with
  | [] => 0
  | x :: _ => x.seq

/-- Does a record lie in the bytes [a, b). -/
def overlaps (a b : Nat) (x : Rec) : Bool := decide (x.offset < b) && decide (a < x.offset + recSize x.payload.length)

/-- A snapshot whose range loses a record it has not returned ends (R385). -/
def endSnaps (gone : List Rec) (sn : Snap) : Snap :=
  if sn.open_ && decide (sn.next ≠ seqNext sn.last) &&
      gone.any (fun x => decide (seqDist sn.next x.seq ≤ seqDist sn.next sn.last)) then
    { sn with open_ := false, ended := true }
  else sn

/-- Commits a record (R374, R376): it takes the next sequence, and every older record it overlaps is retired. -/
def commit (audit : Bool) (e : Staged) (s : State) : State :=
  let ring := getRing s audit
  let cut := decide (1008 < e.payload.length)
  let pay := e.payload.take 1008
  let size := recSize pay.length
  let wrap := decide (ringSize audit < ring.writeOff + size)
  let off := if wrap then 0 else ring.writeOff
  let hit := fun (x : Rec) => overlaps off (off + size) x || (wrap && overlaps ring.writeOff (ringSize audit) x)
  let gone := ring.recs.filter hit
  let rec' : Rec :=
    { truncated := cut, host := e.host, timeRaw := e.timeRaw, audit := audit, code := e.code,
      seq := seqNext ring.lastSeq, opTime := s.rec_.opTime, cycles := s.rec_.cycles, payload := pay, offset := off,
      crcBad := false }
  let ring' : Ring :=
    { recs := ring.recs.filter (fun x => !hit x) ++ [rec'], lastSeq := rec'.seq, writeOff := off + size }
  let s1 := setRing audit ring' s
  if audit then { s1 with rec_ := { s1.rec_ with snaps := s1.rec_.snaps.map (endSnaps gone) } } else s1

/-- Audit events that wait move into the audit FIFO as room appears (R380). -/
def refillAudit (s : State) : State :=
  let room := 16 - s.rec_.audFifo.length
  { s with rec_ := { s.rec_ with audFifo := s.rec_.audFifo ++ (s.rec_.audWait.take room).map (fun p => p.1),
                                 audWait := s.rec_.audWait.drop room } }

/-- EV_AUDIT_OVERFLOW stands where the lost records would have stood (R380). -/
def writeOverflow (s : State) : State :=
  let d := min s.rec_.lost 0xFFFF
  let ws := [wordOfFields [(s.rec_.lostFirst, 0), (s.rec_.lostLast, 16)]] ++ words64 s.rec_.lostTime
  let e : Staged := { code := 0x0B01, host := false, timeRaw := s.time.raw, payload := recordPayload s.now d ws }
  let s1 := commit true e { s with rec_ := { s.rec_ with lost := 0, audOverflows := s.rec_.audOverflows + 1 } }
  deliver 0x0B01 d s.now ws .all (triggerJobs 0x0B01 s1)

/-- The recorder takes its next record (R378, R380, R382): a summary that waits, EV_AUDIT_OVERFLOW in its place, audit
records before diagnostic ones. -/
def takeNext (s : State) : State :=
  let c := s.rec_
  match c.summary with
  | e :: rest => startWrite false false e { s with rec_ := { c with summary := rest } }
  | [] =>
    if c.lost ≠ 0 ∧ c.lostAfter = 0 then
      startWrite true true { code := 0x0B01, host := false, timeRaw := s.time.raw, payload := List.replicate 24 0 } s
    else match c.audFifo, c.diagFifo with
      | e :: rest, _ =>
        refillAudit (startWrite true false e
          { s with rec_ := { c with audFifo := rest, lostAfter := c.lostAfter - 1 } })
      | [], e :: rest => startWrite false false e { s with rec_ := { c with diagFifo := rest } }
      | [], [] => s

/-- The record in progress is committed, and the next one is begun. -/
def finishWrite (s : State) : State :=
  match s.rec_.writing with
  | none => s
  | some w =>
    let s1 := { s with rec_ := { s.rec_ with writing := none } }
    takeNext (if w.overflow then writeOverflow s1 else commit w.audit w.entry s1)

/-- Writing a record takes 0.5 us plus 5 ns per byte (R378). -/
def writeNs (w : Writing) : Nat := 500 + 5 * recSize (min 1008 w.entry.payload.length)

/-- Every record that is generated is committed, in the recorder's order. -/
def drain : Nat → State → State
  | 0, s => s
  | n + 1, s => if s.rec_.writing.isNone then s else drain n (finishWrite s)

/-- The recorder with nothing staged: what a host record and an erase come after. -/
def drained (s : State) : State :=
  let c := s.rec_
  drain (3 + c.summary.length + c.audFifo.length + c.audWait.length + c.diagFifo.length) s

/-- RECORD_COMMIT (R371-R380): the writing of the record in progress ends; time passes where none is. -/
def execRecordCommit (dt : Nat) (s : State) : Host.Outcome State Fault Refusal :=
  .next (match s.rec_.writing with
    | some w => if powered s then finishWrite (beginUp (w.since + writeNs w) s) else begin_ dt s
    | none => begin_ dt s)

/-- An audit event that waited is lost and counted (R380). -/
def loseAudit (e : Staged) (rest : List (Staged × Nat)) (c : Recorder) : Recorder :=
  let fresh := decide (c.lost = 0)
  { c with
      audWait := rest, lost := c.lost + 1, lostFirst := if fresh then e.code else c.lostFirst, lostLast := e.code,
      lostTime := if fresh then leNat (e.payload.take 8) else c.lostTime,
      lostAfter := if fresh then c.audFifo.length else c.lostAfter }

/-- AUDIT_STAGE_TIMEOUT (R380): the first audit event that waits has waited for 100 us; time passes
where none waits. -/
def execAuditStageTimeout (dt : Nat) (s : State) : Host.Outcome State Fault Refusal :=
  .next (match s.rec_.audWait with
    | (e, since) :: rest =>
      let s1 := beginUp (since + 100000) s
      { s1 with rec_ := loseAudit e rest s1.rec_ }
    | [] => begin_ dt s)

/-- Order of R382: code, then cause. -/
def suppLe (a b : Suppressed) : Bool := decide (a.code < b.code) || (decide (a.code = b.code) && decide (a.cause ≤ b.cause))

def suppInsert (x : Suppressed) : List Suppressed → List Suppressed
  | [] => [x]
  | y :: r => if suppLe x y then x :: y :: r else y :: suppInsert x r

/-- The whole second at which the counts are summarised next: the present one, unless that is done. -/
def summaryTime (s : State) : Nat :=
  let t := ceilDiv s.now nsPerSec
  (if t = s.rec_.summedAt then t + 1 else t) * nsPerSec

/-- The counts are summarised (R382). -/
def summarise (s : State) : State :=
  let l := s.rec_.suppressed.foldr suppInsert []
  let es := l.take 124
  let ws := es.flatMap (fun e => [wordOfFields [(e.code, 0), (e.cause, 16)], wordOf e.count])
  let e : Staged := { code := 0x0B00, host := false, timeRaw := s.time.raw, payload := recordPayload s.now es.length ws }
  let s1 := { s with rec_ := { s.rec_ with suppressed := l.drop 124, summedAt := s.now / nsPerSec } }
  let s2 := if s1.rec_.writing.isNone then startWrite false false e s1
    else { s1 with rec_ := { s1.rec_ with summary := s1.rec_.summary ++ [e] } }
  deliver 0x0B00 es.length s.now ws .all (triggerJobs 0x0B00 s2)

/-- REC_SUPPRESS_SECOND (R382), at a whole second at which some count is not 0. -/
def execRecSuppressSecond (s : State) : Host.Outcome State Fault Refusal :=
  let t := summaryTime s
  .next (if powered s && !s.rec_.suppressed.isEmpty && reaches t s then summarise (beginAt t s) else begin_ 0 s)

/-! ### Records as words -/

/-- The CRC as a reader finds it: where an uncorrectable error lies in the record, a word that is not the CRC of the rest. -/
def foundCrc (x : Rec) (crc : Word) : Word :=
  if x.crcBad then crc + wordOf (1 + (Config.freeWord x.seq).toNat % (2 ^ 32 - 1)) else crc

/-- The first three header fields and the payload, as bytes; the trailer's CRC covers them (chapter 16). -/
def recHeaderWords (x : Rec) : List Word :=
  [wordOfFields [(natOfBool x.truncated, 0), (natOfBool x.host, 1), (natOfBool x.timeRaw, 2), (natOfBool x.audit, 4),
     (x.payload.length, 6), (x.code, 16)],
   wordOf x.seq, wordOf x.opTime, wordOfFields [(x.opTime / 2 ^ 32 % 256, 0), (x.cycles % 2 ^ 24, 8)]]

def recWords (x : Rec) : List Word :=
  let body := recHeaderWords x ++
    bytesWords (x.payload ++ List.replicate (padTo8 x.payload.length - x.payload.length) 0)
  body ++ [foundCrc x (BitVec.ofNat 32 (crc32 (wordBytes body)).toNat), wordOf 0xC0A1D0FF]

def ringBytes (r : Ring) : Nat := r.recs.foldl (fun a x => a + recSize x.payload.length) 0

/-! ### REC_CFG -/

def recCfgBody (r : Req) (s : State) : Res := do
  let code := fld (par r 0) 0 15
  let op := fld (par r 0) 16 17
  need (onlyBits (par r 0) 0x3FFFF && decide (op ≠ 3)) .badParam 0
  if op = 2 then
    let ws := [wordOf (firstSeq s.rec_.audit), wordOf s.rec_.audit.lastSeq, wordOf (ringBytes s.rec_.audit),
      wordOf (firstSeq s.rec_.diag), wordOf s.rec_.diag.lastSeq, wordOf (ringBytes s.rec_.diag), wordOf s.rec_.opTime,
      wordOf s.rec_.cycles,
      wordOfFields [(min s.rec_.audOverflows 0xFFFF, 0), (s.rec_.diagFifo.length, 16), (s.rec_.audFifo.length, 24)]]
    return (s, .ok 0 ws)
  else
    let lim := fld (par r 1) 0 15
    if op = 1 then
      need (onlyBits (par r 1) 0xFFFF) .badParam 0
      need (!auditCode code && !(decide (lim = 0xFFFF) && neverRecorded code)) .badParam 1
    let s1 := if op = 1 then { s with rec_ := { s.rec_ with limits := tabSet s.rec_.limits code lim } } else s
    let n := (s1.rec_.suppressed.filter (fun x => decide (x.code = code))).foldl (fun a x => addCnt32 a x.count) 0
    return (s1, .ok 0 [wordOfFields [(code, 0), (natOfBool (auditCode code), 18)],
      wordOf (if auditCode code then 0 else limitOf s1 code), wordOf n])

def descRecCfg : Desc :=
  Desc.formLen { Desc.std 0xB00 [3, 4] 12 (fun r => decide (fld (par r 0) 16 17 ≠ 1)) recCfgBody with
    standbyOk := fun _ => true } (fun r => if fld (par r 0) 16 17 = 1 then some 4 else some 3)

/-! ### REC_READ (R383-R385) -/

def getMark (s : State) (i : Nat) : RMark := s.rec_.marks.getD i { audit := false, seq := 1, valid := true }

def getSnap (s : State) (i : Nat) : Snap := s.rec_.snaps.getD i Snap.init

/-- The mark stands on a record held, or right after the last one. -/
def markHeld (s : State) (m : RMark) : Bool :=
  let ring := getRing s m.audit
  m.valid && (ring.recs.any (fun x => decide (x.seq = m.seq)) || decide (m.seq = seqNext ring.lastSeq))

/-- Records from a sequence on, in order. -/
def recsFrom (l : List Rec) (seq : Nat) : List Rec := l.dropWhile (fun x => decide (x.seq ≠ seq))

/-- As many records as MAX, the room in words and the list allow. -/
def takeRecs : Nat → Nat → List Rec → List Rec
  | 0, _, _ => []
  | _, _, [] => []
  | n + 1, room, x :: r =>
    let k := (recWords x).length
    if room < k then [] else x :: takeRecs n (room - k) r

/-- Words available for records in one response. -/
def readRoom (r : Req) (s : State) : Nat :=
  match r.net with
  | some n => netLimit n s - 6
  | none => 4090

def recReadBody (r : Req) (s : State) : Res := do
  let src := bitAt (par r 0) 0
  let ix := fld (par r 0) 1 3
  let mx := fld (par r 0) 8 15
  need (onlyBits (par r 0) 0xFF0F) .badParam 0
  need (decide (1 ≤ mx) && !(src && decide (3 < ix))) .range 0
  let reply := fun (got rest : List Rec) (next lost : Nat) =>
    [wordOfFields [(got.length, 0), (natOfBool (!rest.isEmpty), 8)], wordOf next, wordOf lost] ++ got.flatMap recWords
  if src then
    let sn := getSnap s ix
    need (sn.open_ || sn.ended) .state 1
    if sn.ended then
      return (s, .done .markLost 0 [0, wordOf sn.next, wordOf (seqDist sn.next (seqNext sn.last))])
    else
      let avail := (recsFrom s.rec_.audit.recs sn.next).filter (fun x => decide (seqDist sn.first x.seq ≤ seqDist sn.first sn.last))
      let avail := if sn.next = seqNext sn.last then [] else avail
      let got := takeRecs mx (readRoom r s) avail
      let next := match got.getLast? with
        | some x => seqNext x.seq
        | none => sn.next
      let s1 := { s with rec_ := { s.rec_ with snaps := s.rec_.snaps.set ix { sn with next := next } } }
      return (s1, .ok 0 (reply got (avail.drop got.length) next 0))
  else
    let m := getMark s ix
    let ring := getRing s m.audit
    let held := markHeld s m
    let first := if ring.recs.isEmpty then seqNext ring.lastSeq else firstSeq ring
    let from_ := if held then m.seq else first
    let avail := recsFrom ring.recs from_
    let got := takeRecs mx (readRoom r s) avail
    let next := match got.getLast? with
      | some x => seqNext x.seq
      | none => from_
    let s1 := { s with rec_ := { s.rec_ with marks := s.rec_.marks.set ix { m with seq := next, valid := true } } }
    let ws := reply got (avail.drop got.length) next (if held then 0 else seqDist m.seq first)
    return (s1, if held then .ok 0 ws else .done .markLost 0 ws)

def descRecRead : Desc := { Desc.read 0xB01 [3] 4096 recReadBody with standbyOk := fun _ => true }

/-! ### REC_MARK -/

def recMarkBody (r : Req) (s : State) : Res := do
  let ix := fld (par r 0) 0 2
  let op := fld (par r 0) 4 5
  let cls := bitAt (par r 0) 8
  need (onlyBits (par r 0) 0x137) .badParam 0
  let m := getMark s ix
  let ring := getRing s cls
  let next := seqNext ring.lastSeq
  let q := (par r 1).toNat
  if op = 3 then
    need (ring.recs.any (fun x => decide (x.seq = q))) .range 1
  let m' : RMark :=
    if op = 0 then m
    else { audit := cls, valid := true,
           seq := if op = 1 then (if ring.recs.isEmpty then next else firstSeq ring) else if op = 2 then next else q }
  let s1 := { s with rec_ := { s.rec_ with marks := s.rec_.marks.set ix m' } }
  return (s1, .ok 0 [par r 0, wordOf m'.seq, wordOf (natOfBool (markHeld s1 m'))])

def descRecMark : Desc :=
  Desc.formLen { Desc.std 0xB02 [3, 4] 6 (fun r => decide (fld (par r 0) 4 5 = 0)) recMarkBody with
    standbyOk := fun _ => true } (fun r => if fld (par r 0) 4 5 = 3 then some 4 else some 3)

/-! ### REC_SNAPSHOT -/

def recSnapshotBody (r : Req) (s : State) : Res := do
  let ix := fld (par r 0) 0 1
  let op := fld (par r 0) 4 5
  need (onlyBits (par r 0) 0x33 && decide (op ≠ 3)) .badParam 0
  let ring := s.rec_.audit
  let sn := getSnap s ix
  let first := if ring.recs.isEmpty then seqNext ring.lastSeq else firstSeq ring
  let sn' : Snap :=
    if op = 0 then sn
    else if op = 1 then { open_ := true, ended := false, first := first, last := ring.lastSeq, next := first }
    else { sn with open_ := false, ended := false }
  let s1 := { s with rec_ := { s.rec_ with snaps := s.rec_.snaps.set ix sn' } }
  return (s1, .ok 0 [wordOf ((par r 0).toNat + 256 * natOfBool sn'.open_), wordOf sn'.first, wordOf sn'.last,
    wordOf sn'.next])

def descRecSnapshot : Desc :=
  { Desc.std 0xB03 [3] 7 (fun r => decide (fld (par r 0) 4 5 = 0)) recSnapshotBody with standbyOk := fun _ => true }

/-! ### REC_WRITE -/

/-- A command that requires the open configuration session (R431). -/
def needSession (r : Req) (s : State) : Except Fail Unit := need (sessionOpen s r.q) .state 3

def recWriteBody (r : Req) (s : State) : Res := do
  let code := 0x8000 + fld (par r 0) 0 7
  let cls := bitAt (par r 0) 8
  let detail := fld (par r 0) 16 31
  let n := fld (par r 1) 0 15
  need (onlyBits (par r 0) 0xFFFF01FF && onlyBits (par r 1) 0xFFFF) .badParam 0
  if cls then needSession r s
  let (k, s1) := countOccurrence code s
  let lim := limitOf s code
  need (decide (lim = 0) || (decide (lim ≠ 0xFFFF) && decide (k ≤ lim))) .overflow 1
  let data := (wordBytes (r.params.drop 2)).take n
  let e : Staged :=
    { code := code, host := true, timeRaw := s.time.raw, payload := leBytes r.stamp 8 ++ leBytes detail 2 ++ [0, 0] ++ data }
  let s2 := commit cls e (drained s1)
  let s3 := if cls then touchSession s2 else s2
  return (s3, .ok (natOfBool (decide (1008 < 12 + n))) [wordOf (getRing s3 cls).lastSeq])

def descRecWrite : Desc :=
  Desc.formLen { Desc.std 0xB04 [4] 4 (fun _ => false) recWriteBody with
    standbyOk := fun _ => true, lenOk := fun r => decide (4 ≤ lenNoAt r) }
    (fun r => some (4 + ceilDiv (fld (par r 1) 0 15) 4))

/-! ### REC_ERASE -/

def recEraseBody (r : Req) (s : State) : Res := do
  let cls := bitAt (par r 0) 0
  need (onlyBits (par r 0) 1) .badParam 0
  if cls then needSession r s
  let s1 := drained s
  let ring := getRing s1 cls
  let f := firstSeq ring
  let l := ring.lastSeq
  let s2 := setRing cls { ring with recs := [] } s1
  let s3 := { s2 with rec_ := { s2.rec_ with
      marks := s2.rec_.marks.map (fun m => if m.audit = cls then { m with valid := false } else m),
      snaps := if cls then s2.rec_.snaps.map (fun sn => if sn.open_ then { sn with open_ := false, ended := true } else sn)
        else s2.rec_.snaps } }
  let s4 := raise 0x0B02 (natOfBool cls) [wordOf f, wordOf l] .all s3
  return (if cls then touchSession s4 else s4, .ok 0 [wordOf f, wordOf l])

def descRecErase : Desc :=
  { Desc.std 0xB05 [3] 5 (fun _ => false) recEraseBody with standbyOk := fun _ => true }

end Sys2Proof.Machine
end

