-- ==== Sys2Proof/Machine/Sys.lean ====
section
/-! DEFINITION. The SYS group: NOP, GET_INFO, GET_STATUS, SET_TICK, SOFT_RESET and GET_COUNTERS (chapters 01-03). -/
set_option autoImplicit false

namespace Sys2Proof.Machine

/-! ### NOP (R61) -/

def nopBody (_ : Req) (s : State) : Res := .ok (s, .ok 0 [])

def descNop : Desc := { Desc.std 0x000 [2] 3 (fun _ => true) nopBody with standbyOk := fun _ => true }

/-! ### GET_INFO -/

/-- VERSION of a bank's image: native header bytes 24-27, forerunner header bytes 8-11 (chapter 18). -/
def bankVersion (b : Bank) : Nat :=
  if leNat (b.hdr.take 4) = 0x36495650 then leNat ((b.hdr.drop 8).take 4) else leNat ((b.hdr.drop 24).take 4)

def runBank (s : State) : Bank := if s.upd.runB then s.upd.bankB else s.upd.bankA

/-- SYS_FW.VERSION: 0 until firmware runs. -/
def fwVersion (s : State) : Nat :=
  match s.sys.boot with
  | .init | .ready => bankVersion (runBank s)
  | _ => 0

/-- SYS_STATE.STATE: READY reads RUN while a spindle is active (R234). -/
def sysState (s : State) : Nat :=
  match s.sys.boot with
  | .boot => 0
  | .init => 1
  | .ready => if anySpindleActive s then 3 else 2
  | .fault => 4

def infoWords (s : State) : List Word :=
  [wordOfFields [(memberCode s.member, 0), (Config.siliconRev.toNat, 16)]] ++ words64 Config.unitId.toNat ++
    [wordOf (fwVersion s),
     wordOfFields [(nRobots s.member, 0), (nAntennas s.member, 8), (nCores s.member, 16), (nLanes s.member, 24)],
     wordOfFields [(nChannels s.member, 0), (nJobSlots s.member, 16)],
     wordOfFields [(nLaws s.member, 0), (nBh s.member, 16), (nRh s.member, 20)],
     wordOfFields [(nNodes s.member, 0), (nSlivers s.member, 16)],
     wordOfFields [(nTasks s.member, 0), (powerMw s.member, 16)]]

def getInfoBody (_ : Req) (s : State) : Res := .ok (s, .ok 0 (infoWords s))

def descGetInfo : Desc :=
  { Desc.read 0x001 [2] 12 getInfoBody with standbyOk := fun _ => true, initOk := true }

/-! ### GET_STATUS -/

/-- The guard in force (R8). -/
def guardNow (s : State) : Nat := max s.tick.guardSet s.health.margins.guardReplan

/-- TQ[1:0] as the pads show it. -/
def tqNow (s : State) : Nat := s.time.tqLast

/-- Index of the present tick within its second (R3). -/
def tickIndex (s : State) : Nat := (s.tick.boundary % nsPerSec) / periodNs s

/-- ROVERS_FIXED: the bound rovers whose latest record has STATUS 3, 4 or 5 (R152). -/
def roversFixed (s : State) : Nat :=
  (s.rse.rovers.filter (fun p => match p.2.binding, p.2.latest with
    | some _, some f => decide (3 ≤ f.status)
    | _, _ => false)).length

def statusWords (s : State) : List Word :=
  [wordOfFields [(sysState s, 0), (natOfBool (!s.time.raw), 3), (tqNow s, 4), (natOfBool (latched s), 6),
     (natOfBool s.pair.en, 7), (natOfBool (signsGo s), 8), (natOfBool s.ref.ext, 9),
     (natOfBool s.ref.fallback, 10), (natOfBool s.upd.window, 11)],
   wordOf s.tick.number,
   wordOfFields [(tickIndex s, 0), (s.tick.period, 16), (guardNow s, 24)],
   wordOfFields [(s.fsp.robotsGo, 0), (roversFixed s, 8), (min 255 (satsOf s.gnss.channels).length, 16)]] ++ words64 s.now

def getStatusBody (_ : Req) (s : State) : Res := .ok (s, .ok 0 (statusWords s))

def descGetStatus : Desc :=
  { Desc.read 0x002 [2] 9 getStatusBody with standbyOk := fun _ => true, initOk := true }

/-! ### SET_TICK (R18, R19) -/

/-- The device time of the next tick boundary whose snapshot is still to come; while no ticks run, the next multiple of
the period. -/
def nextBoundary (s : State) : Nat :=
  if ticking s then s.tick.nextAt else ceilDiv s.now (periodNs s) * periodNs s

/-- The period, in ms, that holds at a boundary, by the changes accepted so far. -/
def periodAt (s : State) (b : Nat) : Nat :=
  s.tick.changes.foldl (fun p c => if c.period ≠ 0 ∧ c.second * nsPerSec ≤ b then c.period else p) s.tick.period

/-- The GO offset that holds at a boundary. -/
def offsetAt (s : State) (b : Nat) : Nat :=
  s.tick.changes.foldl (fun o c => if c.offset ≠ 0 ∧ c.second * nsPerSec ≤ b then c.offset else o) s.tick.offset

def setTickBody (r : Req) (s : State) : Res := do
  let p := fld (par r 0) 0 7
  let g := fld (par r 0) 8 15
  let o := fld (par r 1) 0 15
  need (onlyBits (par r 0) 0xFFFF && onlyBits (par r 1) 0xFFFF) .badParam 4
  need (decide (p = 0) || [2, 4, 5, 10, 20].contains p) .badParam 1
  need (decide (g = 0) || (decide (5 ≤ g) && decide (g ≤ 50))) .badParam 2
  let b := nextBoundary s
  let change := decide (p ≠ 0) && decide (p ≠ periodAt s b)
  let sec := ceilDiv b nsPerSec
  let at_ := if change then sec * nsPerSec else b
  let per := if change then p else periodAt s at_
  let off := if o = 0 then offsetAt s at_ else o
  need (decide (100 ≤ off) && decide (off ≤ per * 250)) .badParam 3
  need (!change || !anySpindleActive s) .state 0
  let c : TickChange := { second := if change then sec else 0, period := if change then p else 0, guard := g, offset := o }
  return ({ s with tick := { s.tick with changes := s.tick.changes ++ [c] } }, .ok 0 [wordOf (at_ / nsPerSec)])

def descSetTick : Desc := { Desc.std 0x003 [4] 4 (fun _ => false) setTickBody with eff := true }

/-! ### SOFT_RESET (R81) -/

/-- The refusals of R81 by object state. -/
def softResetRefused (s : State) : Option Nat :=
  if anySpindleActive s && !latched s then some 1
  else if s.pair.role = .active then some 2
  else none

/-- SOFT_RESET is answered; the reset follows as soon as the response is placed (R82). -/
def softResetBody (r : Req) (s : State) : Res := do
  need (decide (par r 0 = wordOf 0x5AFE)) .badParam 1
  match softResetRefused s with
  | some d => failWith .state d
  | none => return ({ s with sys := { s.sys with softReq := true } }, .ok 0 [])

def descSoftReset : Desc := Desc.std 0x004 [3] 3 (fun _ => false) softResetBody

/-! ### GET_COUNTERS (R83) -/

def queCounterWords (c : QueCounters) : List Word :=
  [c.wordsTaken, c.accepted, c.badLength, c.exceeds, c.purged, c.strandDisc, c.credViol, c.disabledWrites, c.evtDrops,
    c.ptrFaults].map wordOf

def secCounterWords (c : SecCounters) : List Word :=
  [c.dropLength, c.dropFormat, c.dropMac, c.replays, c.accepted, c.denied].map wordOf

def pcieWords (c : PcieCounters) : List Word :=
  [wordOfFields [(c.width, 0), (c.gen, 4)], wordOf c.ce, wordOf c.ue, wordOf c.replays, wordOf c.retrains,
    wordOf c.malformed]

def queCountersOf (s : State) (k : Nat) : QueCounters := if k = 16 then s.netCnt else (getQ s k).cnt

def getCountersBody (r : Req) (s : State) : Res := do
  let set := fld (par r 0) 0 7
  let k := fld (par r 0) 8 12
  let clear := bitAt (par r 0) 16
  need (onlyBits (par r 0) 0x11FFF) .badParam 0
  need (decide (set ≤ 2) && !(decide (set = 0) && decide (16 < k))) .range 0
  if set = 0 then
    let ws := queCounterWords (queCountersOf s k)
    return (if clear then countQ k (fun _ => QueCounters.zero) s else s, .ok 0 ws)
  else if set = 1 then
    let z : SecCounters := { dropLength := 0, dropFormat := 0, dropMac := 0, replays := 0, accepted := 0, denied := 0 }
    return (if clear then { s with secCnt := z } else s, .ok 0 (secCounterWords s.secCnt))
  else
    let z := { s.pcie with ce := 0, ue := 0, replays := 0, retrains := 0, malformed := 0 }
    return (if clear then { s with pcie := z } else s, .ok 0 (pcieWords s.pcie))

def descGetCounters : Desc :=
  { Desc.read 0x005 [3] 13 getCountersBody with standbyOk := fun _ => true }

end Sys2Proof.Machine
end

