-- ==== Sys2Proof/Machine/Stop.lean ====
section
/-! DEFINITION. The stop chain (chapter 12): the latch and its set, controlled phases, per-robot stops, resets, the
proof test, and the STOP commands. -/
set_option autoImplicit false

namespace Sys2Proof.Machine

/-! ### Setting the latch (R281-R289) -/

/-- A flag of STOP_FLAGS is set (R76). -/
def setStopFlag (i : Nat) (s : State) : State :=
  { s with stop := { s.stop with flags := s.stop.flags.set i true, occ := occInc s.stop.occ i } }

def addOnce (l : List Nat) (n : Nat) : List Nat := if l.contains n then l else l ++ [n]

/-- Robots with an ACTIVE session, ascending. -/
def activeRobots (s : State) : List Nat :=
  (s.uz.robots.filter (fun p => decide (p.2.sess = .active))).map (fun p => p.1)

/-- A proof test in progress ends as ABORTED when a real set input becomes active (R295). -/
def proofWord (p : ProofRun) : Nat := p.results.getD 0 0 + 4 * p.results.getD 1 0 + 16 * p.results.getD 2 0

def proofResultWords (p : ProofRun) : List Word :=
  [wordOf (proofWord p), wordOfFields [(p.latX, 0), (p.latY, 16)], wordOf p.failInput]

/-- The end of a proof test: its record and its completion (R295, STOP_TEST). -/
def endProof (p : ProofRun) (good : Bool) (s : State) : State :=
  let s1 := raise 0x0804 (proofWord p) (proofResultWords p) .all { s with stop := { s.stop with proof := none } }
  match p.req with
  | some r => complete r (if good then .ok else .fault) 0 (proofResultWords p) s1
  | none => s1

def abortProof (s : State) : State :=
  match s.stop.proof with
  | some p => endProof { p with results := p.left.foldl (fun a i => a.set i 3) p.results } false s
  | none => s

/-- The latch sets, with the cause, ICODE and category given (R284): the key-valid line closes, held GO and SETPOINT
frames are discarded, the burst is launched where one is due, interrupt source 16 sets, and the stop symbol goes to the
partner except for a local set (R296, R446). What firmware does follows at the next input snapshot. -/
def latchSet (cause icode : Nat) (immediate burst symbol : Bool) (s : State) : State :=
  let st := s.stop
  let b : Burst :=
    { next := 0, nextAt := s.up, entries := activeRobots s, stopTime := s.now, cause := cause, tick := s.tick.number }
  let keep := fun (h : Held) => match h.body with
    | .go .. => false
    | .setpoint .. => false
    | _ => true
  let st' := { st with
    chanX := true, chanY := true, cause := cause, icode := icode, immediate := immediate, controlled := false,
    ctrlDeadline := 0, stopTime := s.now, stopTick := s.tick.number, seen := addOnce [] cause, followUp := true,
    burst := if burst then some b else st.burst }
  let s1 := { s with stop := st', uz := { s.uz with held := s.uz.held.filter keep, staged := s.uz.staged.filter keep } }
  let s2 := setInt 16 (setStopFlag 0 s1)
  if symbol && s.pair.en && st.cfg.partnerEn && s.pair.laneUp then emit (.lane 6 [cause]) s2 else s2

/-- The controlled phase of a fleet stop starts (R287). -/
def startPhase (cause icode : Nat) (s : State) : State :=
  { s with stop := { s.stop with
      controlled := true, cause := cause, icode := icode, immediate := false,
      ctrlDeadline := s.up + s.stop.cfg.ctrlLimit * 100000000 } }

/-- The latch sets at the end of a controlled phase with the cause held (R287, R289). -/
def endPhase (immediate : Bool) (s : State) : State := latchSet s.stop.cause s.stop.icode immediate true true s

/-- A fleet stop request (R289): nothing in force, a phase running, or the latch set. -/
def requestStop (cause icode : Nat) (immediate : Bool) (s : State) : State :=
  if latched s then { s with stop := { s.stop with seen := addOnce s.stop.seen cause } }
  else if s.stop.controlled then (if immediate then endPhase true s else s)
  else if immediate then latchSet cause icode true true true s
  else startPhase cause icode s

/-- A real set input becomes active: a proof test aborts, and the stop is requested. -/
def setInput (cause icode : Nat) (immediate : Bool) (s : State) : State :=
  requestStop cause icode immediate (abortProof s)

/-- An internal fault comes up (ICODE table): its source holds until it ceases. -/
def raiseFault (icode : Nat) (s : State) : State :=
  let s1 := { s with stop := { s.stop with faults := addOnce s.stop.faults icode } }
  setInput 4 icode (decide (icode ≠ 3 ∧ icode ≠ 4)) s1

/-- An internal fault source ceases. -/
def ceaseFault (icode : Nat) (s : State) : State :=
  { s with stop := { s.stop with faults := s.stop.faults.filter (fun x => decide (x ≠ icode)) } }

/-! ### Pads (R282, R283) -/

def aStops (s : State) : Bool := !s.stop.estopA
def bStops (s : State) : Bool := s.stop.estopBN

/-- The times since which the channels disagree, and since which both are in their stop states. -/
def padTimers (s : State) : State :=
  let dis := aStops s != bStops s
  let both := aStops s && bStops s
  { s with stop := { s.stop with
      disagreeSince := if dis then s.stop.disagreeSince.or (some s.up) else none,
      bothStopSince := if both then s.stop.bothStopSince.or (some s.up) else none } }

/-- ESTOP_PAD_CHANGE (R282): a pad takes a level; a stop level sets the latch. -/
def execEstopPadChange (a level : Bool) (dt : Nat) (s : State) : Host.Outcome State Fault Refusal :=
  let s1 := begin_ dt s
  let s2 := padTimers { s1 with stop := if a then { s1.stop with estopA := level } else { s1.stop with estopBN := level } }
  .next (if powered s1 && (if a then !level else level) then setInput 1 0 true s2 else s2)

def padWord (s : State) : Word := wordOfFields [(natOfBool s.stop.estopA, 0), (natOfBool s.stop.estopBN, 1)]

/-- A change of the discrepancy is recorded, with the levels of the pads (R283). -/
def discrepancyIs (on : Bool) (s : State) : State :=
  raise 0x0802 (natOfBool on) [padWord s] .all { s with stop := { s.stop with discrepancy := on } }

/-- DISC_TIMEOUT (R283): the channels have disagreed for longer than DISC_TIME. -/
def execDiscTimeout (s : State) : Host.Outcome State Fault Refusal :=
  .next (match s.stop.disagreeSince with
    | some t =>
      if powered s && !s.stop.discrepancy then
        discrepancyIs true (setStopFlag 2 (beginUp (t + s.stop.cfg.discTime * 1000000) s))
      else begin_ 0 s
    | none => begin_ 0 s)

/-- DISCREPANCY_CLEAR (R283): both channels have been in their stop states together for 10 ms. -/
def execDiscrepancyClear (s : State) : Host.Outcome State Fault Refusal :=
  .next (match s.stop.bothStopSince with
    | some t =>
      if powered s && s.stop.discrepancy then
        discrepancyIs false (beginUp (t + 10000000) s)
      else begin_ 0 s
    | none => begin_ 0 s)

/-- PARTNER_STOP_SYMBOL (R296): it sets the latch with cause 3, without firmware; the partner's request then holds. -/
def execPartnerStopSymbol (dt : Nat) (s : State) : Host.Outcome State Fault Refusal :=
  let s1 := begin_ dt s
  .next (if powered s1 && s1.pair.en && s1.stop.cfg.partnerEn then
    setInput 3 0 true { s1 with stop := { s1.stop with partnerStop := true } }
  else s1)

/-- INTERNAL_FAULT (R281, ICODE table): a source comes up, or ceases. -/
def execInternalFault (icode : Nat) (present : Bool) (dt : Nat) (s : State) : Host.Outcome State Fault Refusal :=
  if 7 < icode then .fault .noSuchUnit
  else
    let s1 := begin_ dt s
    .next (if powered s1 then (if present then raiseFault icode s1 else ceaseFault icode s1) else s1)

/-- CTRL_LIMIT_EXPIRE (R287): the hardware sets the latch without firmware. -/
def execCtrlLimitExpire (s : State) : Host.Outcome State Fault Refusal :=
  .next (if powered s && s.stop.controlled then endPhase true (beginUp s.stop.ctrlDeadline s) else begin_ 0 s)

/-- The hardware watchdog of ICODE 1 (R464): the instant at which it expires, if it is armed. -/
def watchdogAt (s : State) : Option Nat :=
  if s.stop.wdogArmed && (decide (s.pair.role = .lone) || decide (s.pair.role = .active)) then
    some (max (s.tick.lastCompleted.getD 0) s.stop.wdogFrom + s.stop.cfg.wdogTicks * periodNs s)
  else none

/-- WATCHDOG_EXPIRE (R464). -/
def execWatchdogExpire (s : State) : Host.Outcome State Fault Refusal :=
  .next (match watchdogAt s with
    | some t => if powered s then raiseFault 1 (beginUp t s) else begin_ 0 s
    | none => begin_ 0 s)

/-! ### Per-robot stops (R288) -/

def getRobotStop (s : State) (r : Nat) : Option RobotStop := tabFind s.stop.robots r

def setRobotStop (r : Nat) (x : RobotStop) (s : State) : State :=
  { s with stop := { s.stop with robots := tabSet s.stop.robots r x } }

def robotStopped (s : State) (r : Nat) : Bool :=
  match getRobotStop s r with
  | some x => x.inForce
  | none => false

/-- A per-robot stop comes in force (R288): the event, ROBOT_STOP, and for an immediate one on a robot with an ACTIVE
session the burst of unicast STOP frames. -/
def forceRobot (r cause : Nat) (immediate : Bool) (s : State) : State :=
  let b : Burst :=
    { next := 0, nextAt := s.up, entries := [r], stopTime := s.now, cause := cause, tick := s.tick.number }
  let x : RobotStop :=
    { inForce := true, controlled := false, immediate := immediate, cause := cause, deadline := 0,
      burst := if immediate && sessActive s r then some b else none }
  raise 0x0803 (r + 256 * natOfBool immediate + 512 * cause) [] .all (setStopFlag 3 (setRobotStop r x s))

/-- A per-robot stop request (R288, R289). -/
def requestRobotStop (r cause : Nat) (immediate : Bool) (s : State) : State :=
  match getRobotStop s r with
  | some x =>
    if x.inForce then s
    else if immediate then forceRobot r x.cause true s
    else s
  | none =>
    if immediate || !sessActive s r then forceRobot r cause immediate s
    else
      setRobotStop r
        { inForce := false, controlled := true, immediate := false, cause := cause,
          deadline := s.up + s.stop.cfg.ctrlLimit * 100000000, burst := none } s

/-- ROBOT_CTRL_LIMIT_EXPIRE (R288): the controlled stop acts as an immediate one from here on. -/
def execRobotCtrlLimitExpire (r : Nat) (s : State) : Host.Outcome State Fault Refusal :=
  if nRobots s.member ≤ r then .fault .noSuchUnit
  else .next (match getRobotStop s r with
    | some x => if powered s && x.controlled then forceRobot r x.cause true (beginUp x.deadline s) else begin_ 0 s
    | none => begin_ 0 s)

/-! ### Reset (R290-R292) -/

/-- The fleet refusal bits of R290 as of now; bit 9 is for a command reset in mode 1 only. -/
def refuseFleet (s : State) : Nat :=
  flagBits [aStops s || bStops s, s.stop.discrepancy, !s.stop.faults.isEmpty, s.stop.partnerStop, s.stop.burst.isSome,
    s.stop.proofFailed, s.stop.controlled, s.time.raw || !s.tick.running,
    decide (s.pair.role = .active) && s.pair.laneUp && !Nat.testBit s.pair.health 1, false, false, false, false, false,
    false, !latched s && !s.stop.controlled]

/-- The refusal bits of one robot's reset (R292). -/
def refuseRobot (s : State) (r : Nat) : Nat :=
  let x := getRobotStop s r
  let burst := match x with
    | some x => x.burst.isSome
    | none => false
  let ctrl := match x with
    | some x => x.controlled
    | none => false
  flagBits [false, false, decide ((tabGet s.gov.robots r GovRobot.init).feState = .fault), false, burst, false, ctrl,
    false, false, false, decide ((getSpindle s r).state = .stopping) && sessActive s r, false, false, false, false,
    x.isNone]

def refuseReset (s : State) (robot : Nat) : Nat := if robot = 255 then refuseFleet s else refuseRobot s robot

/-- A reset whose conditions hold at the snapshot clears both channels, or the robot's stop (R290, R292). -/
def applyReset (q : ResetReq) (s : State) : State :=
  let bits := refuseReset s q.robot
  if bits = 0 then
    let s1 :=
      if q.robot = 255 then
        setStopFlag 1 { s with stop := { s.stop with chanX := false, chanY := false, cause := 0, icode := 0, seen := [] } }
      else { s with stop := { s.stop with robots := tabDel s.stop.robots q.robot } }
    let s2 := raise 0x0801 q.robot [wordOf q.source] .all s1
    match q.req with
    | some r => complete r .ok 0 [wordOf s.tick.number] s2
    | none => s2
  else match q.req with
    | some r => complete r .state bits [] s
    | none => s

/-- The resets that apply at this snapshot, in the order they were accepted. -/
def applyResets (s : State) : State :=
  s.stop.resets.foldl (fun a q => applyReset q a) { s with stop := { s.stop with resets := [] } }

/-- RESET_INPUT_EDGE (R291): a qualified edge of the reset input; a standby resets nothing of its own accord (R296). -/
def execResetInputEdge (dt : Nat) (s : State) : Host.Outcome State Fault Refusal :=
  let s1 := begin_ dt s
  .next (if !powered s1 || decide (s1.pair.role = .standby) then s1
    else if s1.stop.cfg.resetMode = 1 then
      { s1 with stop := { s1.stop with resets := s1.stop.resets ++ [{ req := none, robot := 255, source := 1 }] } }
    else if s1.stop.cfg.resetMode = 2 then
      let moved := s1.stop.armed.map (fun p => ({ req := some p.1, robot := 255, source := 1 } : ResetReq))
      { s1 with stop := { s1.stop with resets := s1.stop.resets ++ moved, armed := [] } }
    else s1)

/-- RESET_ARM_TIMEOUT (R291): no edge came within 30 s. -/
def execResetArmTimeout (s : State) : Host.Outcome State Fault Refusal :=
  .next (match s.stop.armed with
    | (r, t) :: rest =>
      if powered s then
        let s1 := beginUp t s
        complete r .state 0x200 [] { s1 with stop := { s1.stop with armed := rest } }
      else begin_ 0 s
    | [] => begin_ 0 s)

/-! ### Proof test (R294, R295) -/

def startProof (req : Option Req) (parts : Nat) (s : State) : State :=
  let left := [0, 1, 2].filter (fun i => decide (parts = 0) || Nat.testBit parts i)
  { s with stop := { s.stop with
      proof := some { req := req, left := left, results := [0, 0, 0], latX := 0, latY := 0, failInput := 255, tick := none } } }

/-- The longest that a part may take, ns: the closure of a channel's gate output, and the build of the launcher's frame
(R294). -/
def proofLimit (part : Nat) : Nat := if part = 2 then 4000 else 12

/-- A part of a test runs in the guard of a tick of its own (R294), where ticks run. -/
def proofTick (s : State) (p : ProofRun) : Bool :=
  !ticking s || (decide (s.tick.deadline ≤ s.now) && decide (p.tick ≠ some s.tick.number))

/-- PROOF_TEST_PART (R294, R295): the next part of the test runs in a tick's guard; `sets` tells whether every injection set
the channel and it cleared, or every tag of the launcher agreed, `lat` the slowest closure or the time of the build. -/
def execProofTestPart (part : Nat) (sets : Bool) (lat fail : Nat) (s : State) : Host.Outcome State Fault Refusal :=
  if 2 < part then .fault .noSuchUnit
  else
    let s1 := if ticking s && reaches s.tick.deadline s then beginAt s.tick.deadline s else begin_ 0 s
    let pass := sets && decide (lat ≤ proofLimit part)
    .next (match s1.stop.proof with
      | some p =>
        if powered s1 && proofTick s1 p && decide (p.left.head? = some part) then
          let p' := { p with
            left := p.left.tail, tick := some s1.tick.number, results := p.results.set part (if pass then 1 else 2),
            latX := if part = 0 then lat else p.latX, latY := if part = 1 then lat else p.latY,
            failInput := if pass then p.failInput else fail }
          let s2 := { s1 with stop := { s1.stop with proof := some p' } }
          let s3 :=
            if pass then s2
            else
              requestStop 4 6 true (setStopFlag 4
                { s2 with stop := { s2.stop with proofFailed := true, faults := addOnce s2.stop.faults 6 } })
          if p'.left.isEmpty then
            let full := decide (p'.results = [1, 1, 1])
            let s4 :=
              if full then
                ceaseFault 6 { s3 with stop := { s3.stop with
                  proofFailed := false, lastPass := s3.now / nsPerSec % 2 ^ 32, lastPassUp := some s3.up } }
              else s3
            endProof p' (p'.results.all (fun x => decide (x ≤ 1))) s4
          else s3
        else s1
      | none => s1)

/-- The time since power-on at which PROOF_INTERVAL has passed since the last full pass. -/
def proofDueAt (s : State) : Nat := s.stop.lastPassUp.getD s.sys.bootFrom + s.stop.cfg.proofInterval * 3600 * nsPerSec

/-- PROOF_INTERVAL_DUE (R295). -/
def execProofIntervalDue (s : State) : Host.Outcome State Fault Refusal :=
  .next (if powered s && s.stop.cfg.autoProof && s.stop.proof.isNone && !s.stop.controlled then
    startProof none 0 (beginUp (proofDueAt s) s)
  else begin_ 0 s)

/-! ### Registers (STOP mirror) -/

def proofDue (s : State) : Bool :=
  match s.stop.lastPassUp with
  | some t => decide (t + s.stop.cfg.proofInterval * 3600 * nsPerSec < s.up)
  | none => false

/-- STOP_STAT. -/
def stopStat (s : State) : Word :=
  wordOfFields [(natOfBool (latched s), 0), (natOfBool s.stop.controlled, 1), (natOfBool (keyValid s), 2),
    (natOfBool s.stop.estopA, 3), (natOfBool s.stop.estopBN, 4), (natOfBool s.stop.discrepancy, 5),
    (natOfBool (!latched s), 6), (natOfBool s.stop.burst.isSome, 7), (natOfBool (decide (refuseFleet s = 0)), 8),
    (natOfBool (proofDue s), 9), (natOfBool s.stop.proof.isSome, 10), (if latched s then s.stop.cause else 0, 11),
    (natOfBool s.stop.immediate, 14), (if latched s then s.stop.icode else 0, 16)]

/-- STOP_SEEN: bit c for cause c. -/
def stopSeen (s : State) : Word := wordOf (s.stop.seen.foldl (fun a c => a + 2 ^ c) 0)

/-- The robots, 32 j to 32 j + 31, under a per-robot stop in force. -/
def heldWord (s : State) (j : Nat) : Word :=
  wordOf (s.stop.robots.foldl
    (fun a p => if p.2.inForce ∧ p.1 / 32 = j then a + 2 ^ (p.1 % 32) else a) 0)

/-! ### Commands (R297, R298) -/

def stopFlags2 (s : State) : Word :=
  wordOfFields [(natOfBool (latched s), 0), (natOfBool s.stop.controlled, 1)]

/-- STOP_FLEET (R287, R296): on a standby, which runs no controlled phase, it sets the latch. -/
def stopFleetBody (r : Req) (s : State) : Res := do
  need (onlyBits (par r 0) 1) .badParam 0
  let s1 := setInput 2 0 (bitAt (par r 0) 0 || decide (s.pair.role = .standby)) s
  let same := decide (latched s = latched s1) && decide (s.stop.controlled = s1.stop.controlled)
  return (s1, .ok (natOfBool same) [stopFlags2 s1])

def descStopFleet : Desc :=
  { Desc.std 0x800 [3] 4 (fun _ => false) stopFleetBody with
    standbyOk := fun _ => true, updOk := true, cls := fun _ => .stop }

def stopRobotBody (r : Req) (s : State) : Res := do
  let k := fld (par r 0) 0 7
  need (onlyBits (par r 0) 0x1FF && decide (k ≠ 255)) .badParam 0
  need (decide (k < nRobots s.member)) .range 0
  let s1 := requestRobotStop k 5 (bitAt (par r 0) 8) s
  let ctrl := match getRobotStop s1 k with
    | some x => x.controlled
    | none => false
  return (s1, .ok 0 [wordOfFields [(natOfBool (robotStopped s1 k), 0), (natOfBool ctrl, 1)]])

def descStopRobot : Desc :=
  { Desc.std 0x801 [3] 4 (fun _ => false) stopRobotBody with
    standbyOk := fun _ => true, updOk := true, cls := fun _ => .stop }

def stopResetBody (r : Req) (s : State) : Res := do
  let k := fld (par r 0) 0 7
  need (onlyBits (par r 0) 0xFF) .badParam 0
  need (decide (k = 255) || decide (k < nRobots s.member)) .range 0
  let bits := refuseReset s k + (if k = 255 ∧ s.stop.cfg.resetMode = 1 then 512 else 0)
  need (decide (bits = 0)) .state bits
  if k = 255 ∧ s.stop.cfg.resetMode = 2 then
    return ({ s with stop := { s.stop with armed := s.stop.armed ++ [(r, s.up + 30 * nsPerSec)] } }, .later false)
  else
    return ({ s with stop := { s.stop with resets := s.stop.resets ++ [{ req := some r, robot := k, source := 0 }] } },
      .later false)

def descStopReset : Desc := { Desc.std 0x802 [3] 8 (fun _ => false) stopResetBody with updOk := true, eff := true }

/-- P+1 to P+3 of STOP_CFG. -/
def stopCfgWords (c : StopCfg) : List Word :=
  [wordOfFields [(c.goTimeout, 0), (natOfBool c.partnerEn, 4), (c.wdogTicks, 8), (c.ctrlLimit, 16)],
   wordOfFields [(c.discTime, 0), (c.resetMode, 12), (c.resetIn, 16), (natOfBool c.resetInPol, 20)],
   wordOfFields [(c.proofInterval, 0), (natOfBool c.autoProof, 16)]]

def inRange (n lo hi : Nat) : Bool := decide (lo ≤ n) && decide (n ≤ hi)

def stopCfgBody (r : Req) (s : State) : Res := do
  let read := bitAt (par r 0) 0
  need (onlyBits (par r 0) 1) .badParam 0
  if read then return (s, .ok 0 (0 :: stopCfgWords s.stop.cfgSet))
  let a := par r 1
  let b := par r 2
  let c := par r 3
  need (onlyBits a 0xFFFFFF1F && onlyBits b 0x1F33FF && onlyBits c 0x1FFFF && decide (fld b 12 13 ≠ 3)) .badParam 0
  need (inRange (fld a 0 3) 2 10 && inRange (fld a 8 15) 2 64 && inRange (fld a 16 31) 1 600 &&
    inRange (fld b 0 9) 5 1000 && inRange (fld c 0 15) 1 8760) .range 0
  needSessionStop r s
  let cfg : StopCfg :=
    { goTimeout := fld a 0 3, partnerEn := bitAt a 4, wdogTicks := fld a 8 15, ctrlLimit := fld a 16 31,
      discTime := fld b 0 9, resetMode := fld b 12 13, resetIn := fld b 16 19, resetInPol := bitAt b 20,
      proofInterval := fld c 0 15, autoProof := bitAt c 16 }
  return (touchSession { s with stop := { s.stop with cfgSet := cfg } }, .ok 0 (0 :: stopCfgWords cfg))
where
  needSessionStop (r : Req) (s : State) : Except Fail Unit := need (sessionOpen s r.q) .state 3

def descStopCfg : Desc :=
  Desc.formLen { Desc.std 0x803 [3, 6] 7 (fun r => bitAt (par r 0) 0) stopCfgBody with updOk := true, eff := true }
    (fun r => some (if bitAt (par r 0) 0 then 3 else 6))

/-- Time left on CTRL_LIMIT, ms. -/
def ctrlLeft (s : State) : Nat := if s.stop.controlled then (s.stop.ctrlDeadline - s.up) / 1000000 else 0

def stopGetBody (_ : Req) (s : State) : Res :=
  .ok (s, .ok 0 ([stopStat s, stopSeen s] ++ words64 s.stop.stopTime ++
    [wordOf (ctrlLeft s), heldWord s 0, heldWord s 1, heldWord s 2, heldWord s 3, wordOf (refuseFleet s),
     wordOf s.stop.lastPass]))

def descStopGet : Desc :=
  { Desc.read 0x804 [2] 14 stopGetBody with standbyOk := fun _ => true, updOk := true }

def stopTestBody (r : Req) (s : State) : Res := do
  need (onlyBits (par r 0) 7) .badParam 0
  need (!s.stop.controlled) .state 1
  need s.stop.proof.isNone .busy 0
  return (startProof (some r) (fld (par r 0) 0 2) s, .later false)

def descStopTest : Desc :=
  { Desc.std 0x805 [3] 10 (fun _ => false) stopTestBody with
    standbyOk := fun _ => true, updOk := true, lock := fun _ s => need s.stop.proof.isNone .busy 0 }

end Sys2Proof.Machine
end

