-- ==== Sys2Proof/Machine/Sec.lean ====
section
/-! DEFINITION. Access tables and configuration sessions (chapter 19): SEC_ACL_GET, SEC_ACL_SET, SEC_CFG_SESSION. -/
set_option autoImplicit false

namespace Sys2Proof.Machine

/-! ### Region descriptors (R426, R428) -/

def descWords (d : AclDesc) : List Word :=
  [wordOf d.base, wordOf d.limit, wordOfFields [(d.perm % 2 ^ 30, 0), (natOfBool d.valid, 30), (natOfBool d.lock, 31)]]

def getDesc (s : State) (t i : Nat) : AclDesc := (descsOf s t).getD i AclDesc.init

def aclGetBody (r : Req) (s : State) : Res := do
  let t := fld (par r 0) 0 15
  let first := fld (par r 0) 16 19
  let n := fld (par r 0) 20 24
  need (onlyBits (par r 0) 0x1FFFFFF) .badParam 0
  need (targetExists t && inRange n 1 16 && decide (first + n ≤ 16)) .range 0
  return (s, .ok 0 (par r 0 :: (((descsOf s t).drop first).take n).flatMap descWords))

def descSecAclGet : Desc := { Desc.read 0xE01 [3] 52 aclGetBody with standbyOk := fun _ => true }

def setDescs (t : Nat) (l : List AclDesc) (s : State) : State := { s with acl := tabSet s.acl t l }

def aclSetBody (r : Req) (s : State) : Res := do
  let t := fld (par r 0) 0 15
  let i := fld (par r 0) 16 19
  let op := fld (par r 0) 20 21
  let c := par r 3
  need (onlyBits (par r 0) 0x3FFFFF && decide (op ≠ 3)) .badParam 0
  need (!(decide (op = 0) && (decide ((par r 2).toNat < (par r 1).toNat) || bitAt c 31))) .badParam 1
  need (targetExists t) .range 0
  needSession r s
  let held := if op = 2 then (descsOf s t).any (fun d => d.lock) else (getDesc s t i).lock
  need (!held) .state 1
  let d : AclDesc :=
    { base := (par r 1).toNat, limit := (par r 2).toNat, perm := fld c 0 29, valid := bitAt c 30, lock := false }
  let s1 :=
    if op = 0 then setDescs t ((descsOf s t).set i d) s
    else if op = 1 then setDescs t ((descsOf s t).set i { getDesc s t i with valid := false }) s
    else setDescs t (defaultDescs t) s
  let ws := descWords (getDesc s1 t i)
  return (raise 0x0E02 (i + 16 * op) (wordOf t :: ws) .all (touchSession s1), .ok 0 (par r 0 :: ws))

def descSecAclSet : Desc :=
  Desc.formLen { Desc.std 0xE02 [3, 6] 6 (fun _ => false) aclSetBody with standbyOk := fun _ => true }
    (fun r => if fld (par r 0) 20 21 = 0 then some 6 else some 3)

/-! ### Configuration sessions (R430-R432) -/

/-- A nonce is valid for 10 s. -/
def nonceValid (s : State) : Bool := decide (s.session.phase = 1) && decide (s.up < s.session.nonceAt + 10 * nsPerSec)

/-- STATE of the response: 0 NO_KEY, 1 CLOSED, 2 CHALLENGED, 3 OPEN. -/
def sessionState (s : State) : Nat :=
  if s.session.key.isNone then 0
  else if s.session.phase = 2 then 3
  else if nonceValid s then 2
  else 1

/-- Failed proofs of the last 60 s. -/
def recentFails (s : State) : List Nat := s.session.fails.filter (fun t => decide (s.up < t + 60 * nsPerSec))

/-- The 32 bytes that PROOF authenticates (R430). -/
def proofMessage (nonce session master : Nat) : List Byte :=
  [0x43, 0x46, 0x47, 0x31] ++ leBytes Config.unitId.toNat 8 ++ leBytes nonce 16 ++ leBytes session 2 ++
    [byteOf master, 0]

/-- PROOF as P+1 and P+2 carry it. -/
def proofOf (key nonce session master : Nat) : Nat :=
  leNat (cmacTag (keyBytes key) (proofMessage nonce session master) 8)

def keyPar (r : Req) (k : Nat) : Nat := par64 r k + 2 ^ 64 * par64 r (k + 2)

def mgmtMask (s : State) : Nat := flagBits (s.mgmt.map (fun k => k.key.isSome))

def sessionWords (s : State) (nonce : Nat) : List Word :=
  let st := sessionState s
  let held := fun (n : Nat) => if 2 ≤ st then n else 0
  [wordOfFields [(st, 0), (held s.session.owner, 3), (held s.session.master, 8), (s.session.session, 16)]] ++
    words64 nonce ++ words64 (nonce / 2 ^ 64) ++
    [wordOfFields [(if st = 3 then (s.session.lastUse + 300 * nsPerSec - s.up) / nsPerSec else 0, 0),
       (mgmtMask s, 16), (min 15 (recentFails s).length, 20)]]

/-- A SEC_CFG_SESSION of the owner restarts the 300 s (R431). -/
def touchOwner (q : Nat) (s : State) : State := if sessionOpen s q then touchSession s else s

/-- OP 1: a fresh nonce and a SESSION number. -/
def challenge (q : Nat) (s : State) : State × Nat :=
  let (k, s1) := drawFresh s
  let n := (Config.freshNonce k).toNat
  ({ s1 with session := { s1.session with
      phase := 1, owner := q, master := masterOf q, session := (s1.session.session + 1) % 65536, nonce := n,
      nonceAt := s1.up } }, n)

/-- A wrong PROOF uses up the nonce; the third within 60 s locks OP 1 and OP 2 for 60 s (R430). -/
def wrongProof (s : State) : State :=
  let fails := recentFails s ++ [s.up]
  raise 0x0E01 3 [wordOf s.session.session, wordOf s.session.owner] .all
    { s with session := { s.session with
        phase := 0, fails := fails,
        lockedUntil := if 3 ≤ fails.length then s.up + 60 * nsPerSec else s.session.lockedUntil } }

/-- OP 1 and OP 2 while a session is open fail with the owner's queue (R431). -/
def cfgSessionLock (r : Req) (s : State) : Except Fail Unit :=
  let op := fld (par r 0) 0 2
  need (!(decide (op = 1 ∨ op = 2) && decide (s.session.phase = 2))) .busy s.session.owner

def cfgSessionBody (r : Req) (s : State) : Res := do
  let w := par r 0
  let op := fld w 0 2
  let ix := fld w 8 9
  let num := fld w 16 31
  need (decide (op ≠ 7) &&
    onlyBits w (7 + (if op = 5 ∨ op = 6 then 0x300 else 0) + (if op = 2 ∨ op = 3 then 0xFFFF0000 else 0))) .badParam 0
  let answerNow := fun (a : State) => ((a, Reply.ok 0 (sessionWords a 0)) : State × Reply)
  if op = 0 then return answerNow (touchOwner r.q s)
  cfgSessionLock r s
  if op = 1 then
    need s.session.key.isSome .state 0
    need (decide (s.session.lockedUntil ≤ s.up)) .auth 2
    let (s1, n) := challenge r.q s
    return (s1, .ok 0 (sessionWords s1 n))
  if op = 2 then
    need (decide (s.session.lockedUntil ≤ s.up)) .auth 2
    need (decide (num = s.session.session)) .state 1
    need (nonceValid s && decide (s.session.owner = r.q)) .state 2
    if proofOf (s.session.key.getD 0) s.session.nonce s.session.session s.session.master = par64 r 1 then
      let s1 := { s with session := { s.session with phase := 2, lastUse := s.up } }
      return answerNow (raise 0x0E01 0 [wordOf s.session.session, wordOf r.q] .all s1)
    else return (wrongProof s, .done .auth 1 [])
  if op = 3 then
    need (decide (num = s.session.session)) .state 1
    need (sessionOpen s r.q) .state 3
    return answerNow (closeSession 1 s)
  if op = 4 then
    need (decide (r.q ≠ 16)) .state 4
    need (s.session.key.isNone || sessionOpen s r.q) .state 3
    let s1 := { s with session := { s.session with key := some (keyPar r 1) } }
    return answerNow (raise 0x0E03 0 [0] .all (touchOwner r.q s1))
  if op = 5 then
    need (decide (r.q ≠ 16)) .state 4
    need (sessionOpen s r.q) .state 3
    let s1 := { s with mgmt := s.mgmt.set ix { MgmtKey.init with key := some (keyPar r 1) } }
    return answerNow (raise 0x0E03 1 [wordOf ix] .all (touchOwner r.q s1))
  need (sessionOpen s r.q) .state 3
  let s1 := { s with mgmt := s.mgmt.set ix MgmtKey.init }
  return answerNow (raise 0x0E03 2 [wordOf ix] .all (touchOwner r.q s1))

def descSecCfgSession : Desc :=
  Desc.formLen { Desc.std 0xE04 [3, 5, 7] 9 (fun r => decide (fld (par r 0) 0 2 = 0)) cfgSessionBody with
    standbyOk := fun _ => true, lock := cfgSessionLock }
    (fun r =>
      let op := fld (par r 0) 0 2
      some (if op = 2 then 5 else if op = 4 ∨ op = 5 then 7 else 3))

/-- CFG_SESSION_TIMEOUT (R431): 300 s without the owner's use. -/
def execCfgSessionTimeout (s : State) : Host.Outcome State Fault Refusal :=
  .next (if powered s && decide (s.session.phase = 2) then
    closeSession 2 (beginUp (s.session.lastUse + 300 * nsPerSec) s)
  else begin_ 0 s)

end Sys2Proof.Machine
end

