-- ==== Sys2Proof/Machine/FixMath.lean ====
section
/-! DEFINITION. Exact and fixed-point mathematics for geometry: integer square roots, rounding quotients, and the circular
functions in units of 2^-96. -/
set_option autoImplicit false

namespace Sys2Proof.Machine

/-- One bit of the square root, from bit b downward. -/
def isqrtGo (n : Nat) : Nat → Nat → Nat
  | 0, r => r
  | b + 1, r => if (r + 2 ^ b) * (r + 2 ^ b) ≤ n then isqrtGo n b (r + 2 ^ b) else isqrtGo n b r

/-- The integer square root: the largest r with r * r ≤ n. -/
def isqrt (n : Nat) : Nat := isqrtGo n (Nat.log2 n / 2 + 1) 0

/-- The smallest r with n ≤ r * r. -/
def csqrt (n : Nat) : Nat := if isqrt n * isqrt n = n then isqrt n else isqrt n + 1

/-- The square root rounded to the nearest integer. -/
def rsqrt (n : Nat) : Nat := if isqrt n * isqrt n + isqrt n < n then isqrt n + 1 else isqrt n

/-- A quotient rounded to the nearest integer, ties upward. -/
def roundQ (a : Int) (b : Nat) : Int := (2 * a + b) / (2 * (b : Int))

/-- The scale of the fixed-point functions. -/
def fixQ : Nat := 2 ^ 96

/-- Pi at that scale. -/
def piQ : Int := 248902613312231085230521944622

/-- A product of two values at the scale. -/
def mulQ (a b : Int) : Int := a * b / (2 ^ 96 : Int)

/-- The Taylor terms of sine (k odd) and cosine (k even): from term t of order k on, n terms. -/
def taylor (x2 : Int) : Nat → Nat → Int → Int
  | 0, _, _ => 0
  | n + 1, k, t => t + taylor x2 n (k + 2) (-(mulQ t x2) / ((k + 1) * (k + 2) : Nat))

/-- Sine and cosine of an angle between -pi and pi, in radians at the scale. -/
def sinQ (x : Int) : Int := taylor (mulQ x x) 24 1 x
def cosQ (x : Int) : Int := taylor (mulQ x x) 24 0 (2 ^ 96 : Int)

/-- An angle in 10^-9 degree as radians at the scale. -/
def nanoDegQ (a : Int) : Int := a * piQ / 180000000000

/-- The arc tangent series for a small argument: n terms from order k on. -/
def atanSeries (x2 : Int) : Nat → Nat → Int → Int
  | 0, _, _ => 0
  | n + 1, k, t => t / (k : Int) + atanSeries x2 n (k + 2) (-(mulQ t x2))

/-- Half-angle steps: t becomes t / (1 + sqrt(1 + t^2)). -/
def atanHalve : Nat → Int → Int
  | 0, t => t
  | n + 1, t => atanHalve n (t * (2 ^ 96 : Int) / ((2 ^ 96 : Int) + (isqrt ((2 ^ 192 : Nat) + (t * t).toNat) : Int)))

/-- The arc tangent of y / x for 0 ≤ y ≤ x, 0 < x. -/
def atanRatio (y x : Nat) : Int :=
  let t := atanHalve 6 (((y * 2 ^ 96) / x : Nat) : Int)
  64 * atanSeries (mulQ t t) 12 1 t

/-- The angle of the vector (x, y) in radians at the scale, from -pi to pi; 0 for the zero vector. -/
def atan2Q (y x : Int) : Int :=
  let a := y.natAbs
  let b := x.natAbs
  if a = 0 ∧ b = 0 then 0
  else
    let q := if a ≤ b then atanRatio a b else piQ / 2 - atanRatio b a
    let h := if x < 0 then piQ - q else q
    if y < 0 then -h else h

/-- The arc sine of a / b, |a| ≤ b, in radians at the scale. -/
def asinRatio (a : Int) (b : Nat) : Int := atan2Q (a * (2 ^ 96 : Int)) (isqrt ((b * b - a.natAbs * a.natAbs) * 2 ^ 192) : Int)

/-! ### WGS-84 -/

/-- Semi-major axis, mm, and the inverse flattening in units of 10^-9. -/
def wgsA : Nat := 6378137000
def wgsInvF : Nat := 298257223563

/-- e^2 is wgsE2Num / wgsE2Den. -/
def wgsE2Num : Nat := 2 * wgsInvF * 1000000000 - 1000000000000000000
def wgsE2Den : Nat := wgsInvF * wgsInvF

/-- Earth-centred coordinates, mm, of a latitude and longitude in 10^-9 degree and a height in mm. -/
def geodeticToEcef (lat lon height : Int) : Int × Int × Int :=
  let sp := sinQ (nanoDegQ lat)
  let cp := cosQ (nanoDegQ lat)
  let sl := sinQ (nanoDegQ lon)
  let cl := cosQ (nanoDegQ lon)
  let w2 := (2 ^ 192 : Int) - sp * sp * wgsE2Num / wgsE2Den
  let w := isqrt w2.toNat
  let n : Int := ((wgsA * 2 ^ 192 / w : Nat) : Int)
  let nh := n + height * (2 ^ 96 : Int)
  let zh := n - n * wgsE2Num / wgsE2Den + height * (2 ^ 96 : Int)
  (roundQ (mulQ (mulQ nh cp) cl) fixQ, roundQ (mulQ (mulQ nh cp) sl) fixQ, roundQ (mulQ zh sp) fixQ)

/-- The vector from a geodetic origin to an ECEF point in the plane tangent at the origin: east, north, up, mm. -/
def enuOf (lat lon height x y z : Int) : Int × Int × Int :=
  let (ox, oy, oz) := geodeticToEcef lat lon height
  let dx := x - ox
  let dy := y - oy
  let dz := z - oz
  let sp := sinQ (nanoDegQ lat)
  let cp := cosQ (nanoDegQ lat)
  let sl := sinQ (nanoDegQ lon)
  let cl := cosQ (nanoDegQ lon)
  (roundQ (cl * dy - sl * dx) fixQ,
   roundQ (cp * dz - mulQ sp cl * dx - mulQ sp sl * dy) fixQ,
   roundQ (mulQ cp cl * dx + mulQ cp sl * dy + sp * dz) fixQ)

/-- The point moved down by a distance along the ellipsoid's normal, mm. -/
def lowerPoint (x y z : Int) (down : Nat) : Int × Int × Int :=
  let g := wgsInvF - 1000000000
  let zz := z * (wgsInvF * wgsInvF : Nat) / (g * g : Nat)
  let m := isqrt ((x * x + y * y + zz * zz).toNat)
  if m = 0 then (x, y, z - down)
  else (x - roundQ (x * down) m, y - roundQ (y * down) m, z - roundQ (zz * down) m)

end Sys2Proof.Machine
end

