-- ==== Sys2Proof/Machine/Law.lean ====
section
/-! DEFINITION. The fixed-point law of the Loop Engine (chapter 11, R262-R266): evaluation, preset, swap, the slots and
their reset contents, and the coefficient set layout. -/
set_option autoImplicit false

namespace Sys2Proof.Machine

/-! ### Arithmetic (R263) -/

/-- A product or sum in 64 bits. -/
def wrap64 (x : Int) : Int := (BitVec.ofInt 64 x).toInt

def clampInt (x lo hi : Int) : Int := if x < lo then lo else if hi < x then hi else x

def sat32 (x : Int) : Int := clampInt x (-2147483648) 2147483647

def sat48 (x : Int) : Int := clampInt x (-140737488355328) 140737488355327

/-- Round to nearest, ties upward. -/
def roundShift (x : Int) (n : Nat) : Int := if n = 0 then x else wrap64 (x + 2 ^ (n - 1)) / 2 ^ n

/-- The set in force. -/
def activeSet (l : Law) : CoefSet := if l.activeB then l.setB else l.setA

def inactiveSet (l : Law) : CoefSet := if l.activeB then l.setA else l.setB

def setInactive (c : CoefSet) (l : Law) : Law := if l.activeB then { l with setA := c } else { l with setB := c }

def termP (c : CoefSet) (e : Int) : Int := roundShift (wrap64 (c.kp * e)) c.sp

def termD (c : CoefSet) (e ePrev : Int) : Int := roundShift (wrap64 (c.kd * wrap64 (e - ePrev))) c.sd

/-- The integrator that a preset gives (R264). -/
def presetI (c : CoefSet) (target p d ff : Int) : Int :=
  clampInt (sat48 ((target - p - d - ff) * 65536)) (c.iMin * 65536) (c.iMax * 65536)

/-- What an evaluation gives: the slot after it, the output, its terms, and whether a clamp or the rate limit held the
output. -/
structure LawOut where
  law : Law
  u : Int
  p : Int
  d : Int
  ff : Int
  held : Bool
  deriving DecidableEq, Repr

/-- The evaluation of R263 under the set in force. -/
def evalSet (l : Law) (c : CoefSet) (e ff : Int) : LawOut :=
  let p := termP c e
  let d := termD c e l.ePrev
  let pre := sat32 (wrap64 (p + roundShift l.i 16 + d + ff))
  let u1 := clampInt pre c.uMin c.uMax
  let u := if c.rMax = 0 then u1 else clampInt u1 (l.uPrev - c.rMax) (l.uPrev + c.rMax)
  let k := wrap64 (c.ki * e)
  let step := if 16 ≤ c.si then roundShift k (c.si - 16) else sat48 (k * 2 ^ (16 - c.si))
  let hold := (decide (0 < step) && decide (u < pre)) || (decide (step < 0) && decide (pre < u))
  let i := if hold then l.i else clampInt (sat48 (l.i + step)) (c.iMin * 65536) (c.iMax * 65536)
  { law := { l with i := i, ePrev := e, uPrev := u }, u := u, p := p, d := d, ff := ff, held := decide (u ≠ pre) }

/-- A pending swap takes place first: the other set becomes active, and the integrator is preset so that the sum is the
last output (R265). -/
def swapIn (l : Law) (e ff : Int) : Law :=
  if l.swap then
    let l1 := { l with activeB := !l.activeB, swap := false }
    let c := activeSet l1
    { l1 with i := presetI c l1.uPrev (termP c e) (termD c e l1.ePrev) ff }
  else l

/-- One evaluation of a law, a pending swap included. -/
def evalLaw (l : Law) (e ff : Int) : LawOut :=
  let l1 := swapIn l e ff
  evalSet l1 (activeSet l1) e ff

/-! ### Slots (R266) -/

def govSlot (m : Member) (r k : Nat) : Nat := 2 * nChannels m + 5 * r + k

def servoSlot (m : Member) (j : Nat) : Nat := 2 * nChannels m + 5 * nRobots m + j

/-- USE of GOV_GET MODE 1: 0 GNSS, 1 governor, 2 time servo, 3 unused. -/
def slotUse (m : Member) (n : Nat) : Nat :=
  if n < 2 * nChannels m then 0
  else if n < 2 * nChannels m + 5 * nRobots m then 1
  else if n < 2 * nChannels m + 5 * nRobots m + 4 then 2
  else 3

def coef (kp ki : Int) (uMin uMax iMin iMax : Int) (rMax : Nat) : CoefSet :=
  { kp := kp, ki := ki, kd := 0, sp := 16, si := 16, sd := 16, uMin := uMin, uMax := uMax, iMin := iMin, iMax := iMax,
    rMax := rMax }

/-- Quotient rounded to the nearest, ties upward. -/
def roundDiv (a b : Nat) : Nat := (2 * a + b) / (2 * b)

/-- Code and carrier coefficients from the bandwidths of R100 (DLL in 0.01 Hz, PLL and FLL in 0.1 Hz). -/
def dllCoef (bw : Nat) : CoefSet := coef (roundDiv (4 * bw * 65536) 100) 0 (-65536000) 65536000 (-65536000) 65536000 65536

def pllCoef (bw : Nat) : CoefSet :=
  coef (roundDiv (8000 * bw) 30) (roundDiv (32 * bw * bw) 900) (-50000000) 50000000 (-50000000) 50000000 2000

def fllCoef (bw : Nat) : CoefSet := coef 0 (roundDiv (262144 * bw) 10000) (-50000000) 50000000 (-50000000) 50000000 2000

/-- Reset sets of the governor laws (R273). -/
def govCoef (k : Nat) : CoefSet :=
  match k with
  | 0 => coef 0 0 0 65535 0 65535 50
  | 1 | 2 => coef 131072 3277 0 65535 0 65535 50
  | 3 => coef 655360 13107 0 65535 0 65535 50
  | _ => coef 3277 131 0 65535 0 65535 50

/-- Reset sets of the servo laws (R350); SLEW's clamps are those of SLEW_MAX (R349). -/
def servoCoef (j : Nat) : CoefSet :=
  match j with
  | 0 => coef 6553600 163840 (-2000000) 2000000 (-2000000) 2000000 200000
  | 1 => coef 32768000 0 (-10000000) 10000000 0 0 5000000
  | 2 => coef 0 64 (-2000000) 2000000 (-2000000) 2000000 0
  | _ => coef 0 1024 (-1000000) 1000000 (-1000000) 1000000 0

def lawOf (a b : CoefSet) : Law := { Law.zero with setA := a, setB := b }

/-- What a law slot holds at reset: a channel's code law, its carrier law with FLL in set A and PLL in set B, the
governors, the time servo; the rest hold zero. -/
def resetLaw (m : Member) (n : Nat) : Law :=
  match slotUse m n with
  | 0 => if n % 2 = 0 then lawOf (dllCoef 50) (dllCoef 50) else lawOf (fllCoef 100) (pllCoef 150)
  | 1 => let c := govCoef ((n - 2 * nChannels m) % 5); lawOf c c
  | 2 => let c := servoCoef (n - 2 * nChannels m - 5 * nRobots m); lawOf c c
  | _ => Law.zero

def getLaw (s : State) (n : Nat) : Law := tabGet s.gov.laws n (resetLaw s.member n)

def setLaw (n : Nat) (l : Law) (s : State) : State := { s with gov := { s.gov with laws := tabSet s.gov.laws n l } }

/-! ### Coefficient set layout (9 words) -/

def coefWords (c : CoefSet) : List Word :=
  [wordOfInt c.kp, wordOfInt c.ki, wordOfInt c.kd, wordOfFields [(c.sp, 0), (c.si, 8), (c.sd, 16)], wordOfInt c.uMin,
    wordOfInt c.uMax, wordOfInt c.iMin, wordOfInt c.iMax, wordOf c.rMax]

/-- The set that a command carries from P+k on. -/
def coefPar (r : Req) (k : Nat) : CoefSet :=
  let d := par r (k + 3)
  { kp := spar r k, ki := spar r (k + 1), kd := spar r (k + 2), sp := fld d 0 4, si := fld d 8 12, sd := fld d 16 20,
    uMin := spar r (k + 4), uMax := spar r (k + 5), iMin := spar r (k + 6), iMax := spar r (k + 7),
    rMax := (par r (k + 8)).toNat }

/-- Undefined bits of the layout are 0. -/
def coefBits (r : Req) (k : Nat) : Bool := onlyBits (par r (k + 3)) 0x1F1F1F

def betweenInt (x lo hi : Int) : Bool := decide (lo ≤ x) && decide (x ≤ hi)

end Sys2Proof.Machine
end

