-- ==== Sys2Proof/Machine/Gov.lean ====
section
/-! DEFINITION. The speed governors (chapter 11): the governor phase of one robot, the following-error supervisor, and the
GOV commands. -/
set_option autoImplicit false

namespace Sys2Proof.Machine

def getGov (s : State) (r : Nat) : GovRobot := tabGet s.gov.robots r GovRobot.init

def setGov (r : Nat) (g : GovRobot) (s : State) : State :=
  { s with gov := { s.gov with robots := tabSet s.gov.robots r g } }

/-! ### The governor phase (R268-R271, R310) -/

/-- A robot's inputs of the governor phase (R268): SEP and BND inputs, QUAL after inflation, the ack latency in us,
BRAKE_DIST, the tracking reference while the spindle is MANUAL, and whether the robot is stale. -/
structure GovIn where
  sep : Int
  bnd : Int
  qual : Nat
  lat : Nat
  brake : Nat
  ref : Option Int
  stale : Bool
  deriving DecidableEq, Repr

/-- Errors and feed-forwards of the five loops, in order of k. -/
def govErrors (c : GovCfg) (i : GovIn) : List (Int × Int) :=
  [(0, (c.cap : Int)), (sat32 (i.sep + c.sepTol - i.brake), 0), (sat32 (i.bnd + c.bndTol - i.brake), 0),
    (sat32 ((c.qualLimit : Int) - i.qual), 0), (sat32 ((c.linkLimit : Int) * 100 - i.lat), 0)]

/-- The lowest of the outputs. -/
def lowest (us : List Int) : Int := us.foldl (fun a b => if b < a then b else a) (us.headD 0)

/-- The loop that wins (R269): on equal outputs the previous winner, otherwise the lowest k. -/
def winnerOf (prev : Nat) (us : List Int) : Nat :=
  let m := lowest us
  if us.getD prev (m + 1) = m then prev else us.findIdx (fun u => decide (u = m))

/-- What a losing law is set to (R270): its last output becomes the ceiling, and where KI is not 0 its integral part is
the ceiling less its d and ff. -/
def trackLaw (o : LawOut) (ceiling : Int) : Law :=
  let c := activeSet o.law
  let l := { o.law with uPrev := ceiling }
  if c.ki = 0 then l else { l with i := presetI c (ceiling + o.p) o.p o.d o.ff }

/-- The governor phase of one robot. -/
def governRobot (r : Nat) (i : GovIn) (s : State) : State :=
  let g := getGov s r
  let es := govErrors g.cfg i
  let outs := (es.zip (List.range 5)).map (fun p => evalLaw (getLaw s (govSlot s.member r p.2)) p.1.1 p.1.2)
  let us := outs.map (fun o => o.u)
  let win := winnerOf g.winner us
  let ceiling := if i.stale then 0 else lowest us
  let ref := if i.stale then 0 else i.ref.getD ceiling
  let all := i.stale || i.ref.isSome
  let put := fun (a : State) (p : LawOut × Nat) =>
    setLaw (govSlot s.member r p.2) (if p.2 = win ∧ all = false then p.1.law else trackLaw p.1 ref) a
  setGov r { g with
    ceiling := ceiling, winner := win, outputs := us, errors := es.map (fun e => e.1), held := outs.map (fun o => o.held),
    tracking := i.ref.isSome, evalTick := s.tick.number, stale := i.stale } ((outs.zip (List.range 5)).foldl put s)

/-! ### The following-error supervisor (R275-R277) -/

def feNo : FeState → Nat
  | .ok => 0 | .warn => 1 | .fault => 2

/-- The supervisor changes its state: its events, and the stop that ACTION asks for on entry to FAULT (R277). -/
def feMove (r : Nat) (new : FeState) (s : State) : State :=
  let g := getGov s r
  if g.feState = new then s
  else
    let ws := [wordOfInt g.fe, wordOf (getSpindle s r).stream]
    let s1 := setGov r { g with feState := new } s
    let s2 := if g.feState = .warn ∨ new = .warn then raise 0x0700 (r + 256 * feNo new) ws .all s1 else s1
    let s3 :=
      if g.feState = .fault ∨ new = .fault then raise 0x0701 (r + 256 * feNo new + 1024 * g.cfg.action) ws .all s2 else s2
    if new = .fault ∧ g.cfg.action ≠ 0 then requestRobotStop r 4 (decide (g.cfg.action = 2)) s3 else s3

/-- A run of snapshots that meet a condition: the time since its first. -/
def feRun (c : Bool) (p : Nat) (t : Option Nat) : Option Nat :=
  if c then some (match t with
    | some n => n + p
    | none => 0) else none

def feMet (t : Option Nat) (ms : Nat) : Bool :=
  match t with
  | some n => decide (ms * 1000000 ≤ n)
  | none => false

/-- A snapshot at which the following error is evaluated. -/
def feEvaluate (r : Nat) (fe : Int) (s : State) : State :=
  let g := getGov s r
  let a := fe.natAbs
  let p := periodNs s
  let g1 := { g with
    fe := sat32 fe, warnRun := feRun (decide (g.cfg.warn ≤ a)) p g.warnRun,
    faultRun := feRun (decide (g.cfg.fault ≤ a)) p g.faultRun, clearRun := feRun (decide (a < g.cfg.warn)) p g.clearRun }
  let new : FeState := match g.feState with
    | .ok =>
      if feMet g1.faultRun g.cfg.faultTime then .fault else if feMet g1.warnRun g.cfg.warnTime then .warn else .ok
    | .warn =>
      if feMet g1.faultRun g.cfg.faultTime then .fault else if feMet g1.clearRun g.cfg.warnTime then .ok else .warn
    | .fault => if feMet g1.clearRun g.cfg.faultTime then .ok else .fault
  feMove r new (setGov r g1 s)

/-- The spindle enters IDLE, HOLD or MANUAL: the state becomes OK and the timers restart (R276). -/
def feRest (r : Nat) (s : State) : State :=
  feMove r .ok (setGov r { getGov s r with warnRun := none, faultRun := none, clearRun := none } s)

/-- The governors at boot and at SOFT_RESET (R272): set A active, running state and ceilings 0. The coefficient sets stay
as the MRAM holds them. -/
def resetGovernors (s : State) : State :=
  let clear := fun (p : Nat × Law) =>
    if slotUse s.member p.1 = 1 then
      (p.1, { p.2 with activeB := false, i := 0, uPrev := 0, ePrev := 0, swap := false })
    else p
  let robot := fun (p : Nat × GovRobot) => (p.1, { GovRobot.init with cfgSet := p.2.cfgSet, cfg := p.2.cfgSet })
  { s with gov := { laws := s.gov.laws.map clear, robots := s.gov.robots.map robot } }

/-- Settings written since the last snapshot come in force (R17). -/
def applyGovCfg (s : State) : State :=
  { s with gov := { s.gov with robots := s.gov.robots.map (fun p => (p.1, { p.2 with cfg := p.2.cfgSet })) } }

/-! ### Commands (R279, R280) -/

/-- The slots that a ROBOT field names. -/
def robotsOf (s : State) (r : Nat) : List Nat := if r = 255 then List.range (nRobots s.member) else [r]

/-- ROBOT is a slot of the member, or 0xFF for a write. -/
def robotOk (s : State) (r : Nat) : Except Fail Unit := need (decide (r = 255) || decide (r < nRobots s.member)) .range 0

def noFfRead (r : Nat) (read : Bool) : Except Fail Unit := need (!(read && decide (r = 255))) .badParam 2

def coefRange (c : CoefSet) (k : Nat) : Except Fail Unit := do
  need (betweenInt c.uMin 0 65535) .range (k + 4)
  need (betweenInt c.uMax 0 65535) .range (k + 5)
  need (betweenInt c.iMin 0 65535) .range (k + 6)
  need (betweenInt c.iMax 0 65535) .range (k + 7)
  need (decide (c.rMax ≤ 65535)) .range (k + 8)

def govCoefLoadBody (r : Req) (s : State) : Res := do
  let w := par r 0
  let k := fld w 0 7
  let loop := fld w 8 10
  let read := bitAt w 11
  need (onlyBits w (if read then 0x1FFF else 0xFFF) && (read || coefBits r 1)) .badParam 0
  noFfRead k read
  let c := coefPar r 1
  need (read || (decide (c.uMin ≤ c.uMax) && decide (c.iMin ≤ c.iMax))) .badParam 1
  robotOk s k
  need (decide (loop ≤ 4)) .range 0
  let first := getLaw s (govSlot s.member (if k = 255 then 0 else k) loop)
  let head := wordOfFields [(k, 0), (loop, 8), (natOfBool (bitAt w 12), 12), (natOfBool first.activeB, 13)]
  if read then return (s, .ok 0 (head :: coefWords (if bitAt w 12 then inactiveSet first else activeSet first)))
  else
    coefRange c 1
    need (!(robotsOf s k).any (fun x => (getLaw s (govSlot s.member x loop)).swap)) .state 1
    let put := fun (a : State) (x : Nat) =>
      setLaw (govSlot a.member x loop) (setInactive c (getLaw a (govSlot a.member x loop))) a
    return ((robotsOf s k).foldl put s, .ok 0 (head :: coefWords c))

/-- The form that the READ bit names. -/
def readForm (bit rd wr : Nat) (r : Req) : Option Nat := some (if bitAt (par r 0) bit then rd else wr)

def descGovCoefLoad : Desc :=
  Desc.formLen { Desc.std 0x700 [3, 12] 13 (fun r => bitAt (par r 0) 11) govCoefLoadBody with eff := true }
    (readForm 11 3 12)

def govCoefSwapBody (r : Req) (s : State) : Res := do
  let w := par r 0
  let k := fld w 0 7
  let loops := fld w 8 12
  need (onlyBits w 0x1FFF) .badParam 0
  robotOk s k
  let ks := (List.range 5).filter (fun j => decide (loops = 0) || Nat.testBit loops j)
  let slots := (robotsOf s k).flatMap (fun x => ks.map (fun j => govSlot s.member x j))
  need (!slots.any (fun n => (getLaw s n).swap)) .state 1
  return (slots.foldl (fun a n => setLaw n { getLaw a n with swap := true } a) s, .ok 0 [wordOf slots.length])

def descGovCoefSwap : Desc := { Desc.std 0x701 [3] 4 (fun _ => false) govCoefSwapBody with eff := true }

/-- A write of settings for the robots that a ROBOT field names. -/
def modGovCfg (k : Nat) (f : GovCfg → GovCfg) (s : State) : State :=
  (robotsOf s k).foldl (fun a x => setGov x { getGov a x with cfgSet := f (getGov a x).cfgSet } a) s

def govCfgOf (s : State) (k : Nat) : GovCfg := (getGov s (if k = 255 then 0 else k)).cfgSet

def govLimitsWords (k : Nat) (c : GovCfg) : List Word :=
  [wordOf k, wordOfFields [(c.sepTol, 0), (c.bndTol, 16)], wordOfFields [(c.qualLimit, 0), (c.linkLimit, 16)]]

def govLimitsBody (r : Req) (s : State) : Res := do
  let w := par r 0
  let k := fld w 0 7
  let read := bitAt w 8
  need (onlyBits w 0x1FF) .badParam 0
  noFfRead k read
  robotOk s k
  if read then return (s, .ok 0 (govLimitsWords k (govCfgOf s k)))
  else
    let a := par r 1
    let b := par r 2
    need (decide (fld a 0 15 ≤ 10000) && decide (fld a 16 31 ≤ 10000)) .range 1
    need (inRange (fld b 0 15) 1 10000 && inRange (fld b 16 31) 1 1000) .range 2
    let s1 := modGovCfg k (fun c => { c with
      sepTol := fld a 0 15, bndTol := fld a 16 31, qualLimit := fld b 0 15, linkLimit := fld b 16 31 }) s
    return (s1, .ok 0 (govLimitsWords k (govCfgOf s1 k)))

def descGovLimits : Desc :=
  Desc.formLen { Desc.std 0x702 [3, 5] 6 (fun r => bitAt (par r 0) 8) govLimitsBody with eff := true } (readForm 8 3 5)

def govFeWords (k : Nat) (c : GovCfg) : List Word :=
  [wordOf k, wordOfFields [(c.warn, 0), (c.fault, 16)], wordOfFields [(c.warnTime, 0), (c.faultTime, 16)],
    wordOf c.action]

def govFeCfgBody (r : Req) (s : State) : Res := do
  let w := par r 0
  let k := fld w 0 7
  let read := bitAt w 8
  let a := par r 1
  let b := par r 2
  need (onlyBits w 0x1FF && (read || (onlyBits (par r 3) 3 && decide (fld (par r 3) 0 1 ≠ 3)))) .badParam 0
  noFfRead k read
  need (read || decide (fld a 0 15 < fld a 16 31)) .badParam 1
  robotOk s k
  if read then return (s, .ok 0 (govFeWords k (govCfgOf s k)))
  else
    need (decide (10 ≤ fld a 0 15) && decide (10 ≤ fld a 16 31)) .range 1
    need (decide (fld b 0 15 ≤ 10000) && decide (fld b 16 31 ≤ 10000)) .range 2
    let s1 := modGovCfg k (fun c => { c with
      warn := fld a 0 15, fault := fld a 16 31, warnTime := fld b 0 15, faultTime := fld b 16 31,
      action := fld (par r 3) 0 1 }) s
    return (s1, .ok 0 (govFeWords k (govCfgOf s1 k)))

def descGovFeCfg : Desc :=
  Desc.formLen { Desc.std 0x703 [3, 6] 7 (fun r => bitAt (par r 0) 8) govFeCfgBody with eff := true } (readForm 8 3 6)

def govRobotWords (s : State) (r : Nat) : List Word :=
  let g := getGov s r
  let laws := (List.range 5).map (fun k => getLaw s (govSlot s.member r k))
  [wordOfFields [(uint 16 g.ceiling, 0), (g.winner, 16), (feNo g.feState, 20), (natOfBool g.tracking, 22),
     (flagBits (laws.map (fun l => l.activeB)), 23)],
   wordOfFields [(flagBits (laws.map (fun l => l.swap)), 0), (flagBits g.held, 5)]] ++
    g.outputs.map wordOfInt ++ g.errors.map wordOfInt ++ [wordOfInt g.fe, wordOf g.evalTick]

def govSlotWords (s : State) (n : Nat) : List Word :=
  let l := getLaw s n
  wordOfFields [(n, 0), (natOfBool l.activeB, 12), (natOfBool l.swap, 13), (slotUse s.member n, 14)] ::
    (coefWords l.setA ++ coefWords l.setB ++ wordsInt64 l.i ++ [wordOfInt l.uPrev, wordOfInt l.ePrev])

def govGetBody (r : Req) (s : State) : Res := do
  let w := par r 0
  let n := fld w 0 11
  let mode := fld w 12 13
  need (onlyBits w 0x3FFF && decide (mode ≤ 1) && (decide (mode = 1) || decide (n < 256))) .badParam 0
  need (!(decide (mode = 0) && decide (n = 255))) .badParam 2
  if mode = 0 then
    need (decide (n < nRobots s.member)) .range 0
    return (s, .ok 0 (govRobotWords s n))
  else
    need (decide (n < nLaws s.member)) .range 0
    return (s, .ok 0 (govSlotWords s n))

def descGovGet : Desc := Desc.read 0x704 [3] 26 govGetBody

def govCapSetBody (r : Req) (s : State) : Res := do
  let w := par r 0
  let k := fld w 0 7
  let read := bitAt w 8
  need (onlyBits w 0xFFFF01FF && (!read || decide (fld w 16 31 = 0))) .badParam 0
  noFfRead k read
  robotOk s k
  let s1 := if read then s else modGovCfg k (fun c => { c with cap := fld w 16 31 }) s
  return (s1, .ok 0 [wordOf (govCfgOf s1 k).cap])

def descGovCapSet : Desc :=
  { Desc.std 0x705 [3] 4 (fun r => bitAt (par r 0) 8) govCapSetBody with eff := true }

end Sys2Proof.Machine
end

