-- ==== Sys2Proof/Machine/Time.lean ====
section
/-! DEFINITION. The timebase (chapter 15): sources and their selection, the servo, steps, holdover, time quality, the pulse
and time-of-day interfaces, the choice of REF, and the TIME commands but PTP_CFG. -/
set_option autoImplicit false

namespace Sys2Proof.Machine

def setTime (t : Timebase) (s : State) : State := { s with time := t }

def setTimeFlag (i : Nat) (s : State) : State :=
  { s with time := { s.time with flags := s.time.flags.set i true, occ := occInc s.time.occ i } }

/-! ### Servo laws (R348-R350) -/

def servoLaw (s : State) (j : Nat) : Law := getLaw s (servoSlot s.member j)

def setServoLaw (j : Nat) (l : Law) (s : State) : State := setLaw (servoSlot s.member j) l s

/-- The clamps that hold whatever a coefficient set says (R349). -/
def servoClamp (slew j : Nat) (c : CoefSet) : CoefSet :=
  if j = 1 then { c with uMin := -(slew * 1000000 : Int), uMax := (slew * 1000000 : Int) }
  else if j = 0 then { c with uMin := max c.uMin (-2000000), uMax := min c.uMax 2000000 }
  else c

/-- One evaluation of a servo law. -/
def evalServo (j : Nat) (e : Int) (s : State) : State :=
  let l := servoLaw s j
  let f := servoClamp s.time.servo.slewMax j
  let o := evalLaw { l with setA := f l.setA, setB := f l.setB } (sat32 e) 0
  setServoLaw j { o.law with setA := l.setA, setB := l.setB } s

/-- A preset of a servo law with U_PREV kept, at an error of 0 (R354). -/
def presetServo (j : Nat) (s : State) : State :=
  let l := servoLaw s j
  let c := activeSet l
  setServoLaw j { l with i := presetI c l.uPrev (termP c 0) (termD c 0 l.ePrev) 0 } s

/-- The servo laws' running state at boot. -/
def resetServo (s : State) : State :=
  (List.range 4).foldl (fun a j =>
    setServoLaw j { servoLaw a j with activeB := false, i := 0, uPrev := 0, ePrev := 0, swap := false } a) s

/-! ### Uncertainty and quality (R357, R359, R462) -/

/-- The SERVO_CFG settings that stand: those last written, with AGEING not below what re-planning asks for (R435, R436). -/
def servoSetOf (s : State) : ServoCfg :=
  { s.time.servoSet with ageing := max s.time.servoSet.ageing s.health.margins.ageing }

def rideNs (s : State) : Nat := s.time.servo.ride * 1000

/-- The unc of R462, before saturation. -/
def uncNow (s : State) : Nat :=
  let t := s.time
  if t.raw then 0xFFFFFFFF
  else if t.holdover then
    t.unc0 + t.sigmaF * t.holdSecs / 1000 + t.servo.ageing * t.holdSecs * t.holdSecs / 172800000
  else if t.selected ≠ 0 then t.theta.natAbs + (if t.tqLast = 3 then 100 else 1000)
  else 0xFFFFFFFF

def uncWord (s : State) : Word := wordOf (min (uncNow s) 0xFFFFFFFF)

/-- The integrity level acts on nothing under ACTION 0 (R127). -/
def actingLevel (c : Corr) : Nat := if c.cfg.action = 0 then 0 else c.level

/-- TQ (R347, R359, R367). -/
def tqOf (s : State) : Nat :=
  let t := s.time
  if t.raw then 0
  else if t.holdover then (if uncNow s ≤ rideNs s then 1 else 0)
  else if t.selected = 0 then 0
  else if t.asymSuspect then 1
  else if t.selected = 2 ∨ t.selected = 3 ∨ t.selected = 5 then 2
  else if t.selected = 1 ∧ 2 ≤ actingLevel s.corr then 2
  else if t.theta.natAbs ≤ t.servo.capture then 3
  else 2

/-- TQ is reported afresh; a change sets interrupt source 17 (R359). -/
def updateTq (s : State) : State :=
  let q := tqOf s
  if q = s.time.tqLast then s else setInt 17 { s with time := { s.time with tqLast := q } }

def thetaWord (s : State) : Word := wordOfInt (sat32 s.time.theta)

/-! ### Sources (R345-R347) -/

def getSource (s : State) (c : Nat) : Source := tabGet s.time.sources c Source.init

def setSource (c : Nat) (x : Source) (s : State) : State :=
  { s with time := { s.time with sources := tabSet s.time.sources c x } }

def qualified (s : State) (c : Nat) : Bool := (getSource s c).qualAt.isSome

/-- The source that R345 and R346 select now. -/
def pickSource (s : State) : Nat :=
  if s.pair.role = .standby then (if qualified s 5 then 5 else 0)
  else
    let l := s.time.src.list.filter (fun c => decide (c ≠ 0) && qualified s c)
    let cur := s.time.selected
    if l.contains cur then
      let ripe := fun (c : Nat) => match (getSource s c).qualAt with
        | some t => decide (t + s.time.src.wtr * nsPerSec ≤ s.up)
        | none => false
      if s.time.src.revertive then ((l.takeWhile (fun c => decide (c ≠ cur))).find? ripe).getD cur else cur
    else l.headD 0

/-- Entering and leaving holdover (R357, R358). -/
def holdoverEvent (on : Bool) (s : State) : State :=
  setInt 17 (raise 0x0A00 (natOfBool on) [wordOf (min s.time.holdSecs 0xFFFFFFFF), uncWord s] .all s)

def enterHoldover (unc : Nat) (s : State) : State :=
  let u0 := (servoLaw s 0).uPrev
  let u2 := (servoLaw s 2).uPrev
  holdoverEvent true (setTimeFlag 1 { s with time := { s.time with
    holdover := true, holdSecs := 0, unc0 := unc, sigmaF := max 100 (u0 - u2).natAbs, freq := u2 } })

def leaveHoldover (s : State) : State :=
  let s1 := holdoverEvent false s
  { s1 with time := { s1.time with holdover := false, holdSecs := 0 } }

/-- The selection changes to a source, or to none (R345, R357, R358, R463). -/
def changeSource (new : Nat) (s : State) : State :=
  let old := s.time.selected
  if new = old then s
  else
    let unc := uncNow s
    let s1 :=
      if new = 0 then { s with time := { s.time with selected := 0 } }
      else { s with time := { s.time with selected := new, theta := (getSource s new).theta, thetaAdj := 0 } }
    let s2 := raise 0x0A03 (new + 16 * old) [thetaWord s1] .all s1
    let s3 :=
      if new = 0 then (if s.time.raw then s2 else enterHoldover unc s2)
      else if s2.time.holdover then leaveHoldover s2
      else s2
    updateTq { s3 with time := { s3.time with lastTheta := none, lastMpd := none, thetaJumpAt := none, mpdJumpAt := none } }

def reselect (s : State) : State := changeSource (pickSource s) s

/-- A source's condition begins, or goes on, to hold. -/
def sourceHolds (c : Nat) (s : State) : State :=
  let x := getSource s c
  if x.heldSince.isSome then s else setSource c { x with heldSince := some s.up } s

/-- Port code of a PTP source. -/
def ptpPortOf (c : Nat) : Nat := c + 6

/-- The end of the suspicion (R368): its event carries the port and the estimate in ps. -/
def endSuspect (cause : Nat) (s : State) : State :=
  let est := (servoLaw s 3).uPrev * 1000
  let s1 := raise 0x0A01 cause [wordOf s.time.asymPort, wordOfInt (sat32 est)] .all s
  updateTq { s1 with time := { s1.time with asymSuspect := false, asymHist := [], asymReported := false } }

/-- A source is lost (R345, R357). -/
def loseOnly (c : Nat) (s : State) : State :=
  let s1 := setSource c { getSource s c with heldSince := none, qualAt := none } s
  if s1.time.selected = c then reselect s1 else s1

/-- A suspect PTP source is disqualified (R368). -/
def disqualifyPtp (s : State) : State :=
  let c := s.time.asymPort - 6
  let s1 := endSuspect 2 s
  loseOnly c (setSource c { getSource s1 c with barred := true } s1)

def loseSource (c : Nat) (s : State) : State :=
  let s1 := loseOnly c s
  if c = 1 ∧ s1.time.asymSuspect = true then disqualifyPtp s1
  else if s1.time.asymSuspect = true ∧ c + 6 = s1.time.asymPort then endSuspect 2 s1
  else s1

/-- Does the member have the source: BH[1] is absent from PVS-7008 (R1, R347). -/
def sourceExists (s : State) (c : Nat) : Bool :=
  decide (1 ≤ c) && decide (c ≤ 5) && (decide (c ≠ 3) || decide (nBh s.member = 2))

/-- The mean of the offsets that a source has measured since the last evaluation, else its last one. -/
def Source.mean (x : Source) : Int := if x.count = 0 then x.theta else x.sum / (x.count : Int)

/-- The offset of a source: that of the partner is what the lane's time transfer measures; GNSS has the clock offset of the
module's own solution (R105), PTP the mean over the second, PPS_IN what its last edge gives. -/
def offsetOf (s : State) (code : Nat) (partner : Int) : Int := if code = 5 then partner else (getSource s code).mean

/-- SOURCE_QUALIFY (R345): the condition has held without a break for QUAL_TIME. -/
def execSourceQualify (code : Nat) (theta : Int) (dt : Nat) (s : State) : Host.Outcome State Fault Refusal :=
  if !sourceExists s code then .fault .noSuchUnit
  else
    let s1 := begin_ dt s
    let x := getSource s1 code
    .next (match x.heldSince with
      | some t =>
        if powered s1 && x.qualAt.isNone && decide (t + s1.time.src.qualTime * nsPerSec ≤ s1.up) &&
            !(decide (code = 1) && decide (3 ≤ actingLevel s1.corr)) then
          reselect (setSource code { x with qualAt := some s1.up, theta := offsetOf s1 code theta, barred := false } s1)
        else s1
      | none => s1)

/-- WTR_EXPIRE (R345): a higher source has stayed qualified for WTR; time moves on to the end of the WTR that ends
first. -/
def execWtrExpire (s : State) : Host.Outcome State Fault Refusal :=
  let ends := (s.time.src.list.filter (fun c => decide (c ≠ 0))).filterMap (fun c =>
    match (getSource s c).qualAt with
    | some t => if s.up < t + s.time.src.wtr * nsPerSec then some (t + s.time.src.wtr * nsPerSec) else none
    | none => none)
  .next (if powered s then
    match ends with
    | [] => reselect (begin_ 0 s)
    | t :: ts => reselect (beginUp (ts.foldl min t) s)
  else begin_ 0 s)

/-- SOURCE_LOST (R345, R357). -/
def execSourceLost (code dt : Nat) (s : State) : Host.Outcome State Fault Refusal :=
  if !sourceExists s code then .fault .noSuchUnit
  else
    let s1 := begin_ dt s
    .next (if powered s1 then loseSource code s1 else s1)

/-- ASYM_HOLD_EXPIRE (R368). -/
def execAsymHoldExpire (s : State) : Host.Outcome State Fault Refusal :=
  .next (if powered s && s.time.asymSuspect then
    disqualifyPtp (beginUp (s.time.asymAt + s.time.servo.asymHold * nsPerSec) s)
  else begin_ 0 s)

def getPtpPort (s : State) (p : Nat) : PtpPort := tabGet s.time.ptpPorts p (PtpPort.init p)

/-- A port with the settings of a PTP_CFG write. -/
def PtpPort.withCfg (p : PtpPort) (c : PtpPortCfg) : PtpPort :=
  { p with tcMode := c.tcMode, oneStep := c.oneStep, fleet := c.fleet, src := c.src, delayMech := c.delayMech,
           transport := c.transport, asym := c.asym }

/-- The ports as they stand once every write has taken effect (R467). -/
def ptpPortsSet (t : Timebase) : Tab PtpPort :=
  t.ptpActs.foldl (fun a x => tabSet a x.1 ((tabGet a x.1 (PtpPort.init x.1)).withCfg x.2)) t.ptpPorts

def setPtpPort (p : Nat) (x : PtpPort) (s : State) : State :=
  { s with time := { s.time with ptpPorts := tabSet s.time.ptpPorts p x } }

/-- Law 3 has run for 60 s and changed by less than 10 ns over the last 10 s. -/
def asymSettled (h : List Int) : Bool :=
  decide (60 ≤ h.length) && decide ((h.getD 0 0 - h.getD 10 0).natAbs < 10)

/-- ASYM_ESTIMATE_SETTLED (R368). -/
def execAsymEstimateSettled (s : State) : Host.Outcome State Fault Refusal :=
  let s1 := begin_ 0 s
  .next (if powered s1 && s1.time.asymSuspect && asymSettled s1.time.asymHist && !s1.time.asymReported then
    if s1.time.servo.asymAuto then
      let p := getPtpPort s1 s1.time.asymPort
      endSuspect 1 (setPtpPort s1.time.asymPort { p with asym := p.asym + (servoLaw s1 3).uPrev * 1000 } s1)
    else { s1 with time := { s1.time with asymReported := true } }
  else s1)

/-! ### Steps (R353-R355) -/

/-- The first tick boundary at or after a device time. -/
def boundaryFrom (s : State) (t : Nat) : Nat := ceilDiv t (periodNs s) * periodNs s

/-- Device time becomes `new`, with the event's cause and the step in ns (R354, R355). A tick that is still to open at
this instant opens at the new time; one that has opened ends at the first boundary at least half a period on. -/
def stepTime (cause new : Nat) (s : State) : State :=
  let old := s.now
  let d : Int := (new : Int) - (old : Int)
  let s1 := { s with now := new, time := { s.time with
    frac := 0, theta := 0,
    sources := s.time.sources.map (fun x =>
      (x.1, { x.2 with theta := x.2.theta + d, sum := x.2.sum + d * (x.2.count : Int) })),
    evaluated := (new + nsPerSec / 2) / nsPerSec,
    ppsPulse := s.time.ppsPulse.map (fun p => { p with second := none, edge := p.edge + d * 1000 }),
    waiting := s.time.waiting.map (fun p =>
      if old < p.second * nsPerSec ∧ p.second * nsPerSec < new then
        { p with second := ceilDiv new nsPerSec, req := { p.req with late := true } }
      else p) } }
  let s2 := setTimeFlag 0 (presetServo 1 (presetServo 0 s1))
  let s3 :=
    if !s2.tick.running then s2
    else if s2.tick.nextAt ≤ old then { s2 with tick := { s2.tick with nextAt := new } }
    else
      let e := boundaryFrom s2 (new + periodNs s2 / 2)
      { s2 with tick := { s2.tick with
          nextAt := e, boundary := new, deadline := e - periodNs s2 * max s2.tick.guardSet s2.health.margins.guardReplan / 100 } }
  raise 0x0A02 cause (wordsInt64 d ++ [wordOf s3.tick.number]) .all s3

/-- Device time is stepped by the offset theta: it becomes the present time less theta. -/
def stepBack (cause : Nat) (theta : Int) (s : State) : State := stepTime cause ((s.now : Int) - theta).toNat s

/-! ### Entering NORMAL mode (R343, R344) -/

/-- NORMAL mode begins at boot: ticks run from the first boundary on (R9). -/
def enterNormal (s : State) : State :=
  let s1 := raise 0x0A04 0 [] .all
    { s with time := { s.time with raw := false, booting := false, rawRate := 0, freq := 0, slew := 0 } }
  updateTq { s1 with tick := { s1.tick with running := true, nextAt := boundaryFrom s1 s1.now } }

/-- The next whole second of device time. -/
def nextSecond (s : State) : Nat := (s.now + nsPerSec - 1) / nsPerSec

/-- TIME_NORMAL_ENTRY (R343): at the first whole second after a source has qualified, device time is stepped to it. -/
def execTimeNormalEntry (theta : Int) (s : State) : Host.Outcome State Fault Refusal :=
  .next (if powered s && s.time.booting && s.time.raw && decide (s.time.selected ≠ 0) then
    enterNormal (stepBack 0 (offsetOf s s.time.selected theta) (beginAt (nextSecond s * nsPerSec) s))
  else begin_ 0 s)

/-- BOOT_WAIT_EXPIRE (R343): no source has qualified. -/
def execBootWaitExpire (s : State) : Host.Outcome State Fault Refusal :=
  .next (if powered s && s.time.booting && s.time.raw && decide (s.time.selected = 0) &&
      decide (s.time.src.bootWait ≠ 0) then
    enterNormal (beginUp (s.time.bootAt + s.time.src.bootWait * nsPerSec) s)
  else begin_ 0 s)

/-! ### The servo at a whole second (R348-R358, R463) -/

/-- The following error of the ride-through limit (R356). -/
def rideCheck (s : State) : State :=
  let beyond := decide (rideNs s < s.time.theta.natAbs)
  if beyond && anySpindleActive s && !s.time.ride then
    let s1 := raise 0x0A05 1 [thetaWord s] .all (setTimeFlag 3 { s with time := { s.time with ride := true } })
    raiseFault 3 s1
  else if !beyond && s.time.ride then
    ceaseFault 3 (raise 0x0A05 0 [thetaWord s] .all { s with time := { s.time with ride := false } })
  else s

/-- A coincident jump of offset and mean path delay raises the suspicion (R367). -/
def asymDetect (mpd : Nat) (s : State) : State :=
  if s.time.selected ≠ 2 ∧ s.time.selected ≠ 3 then s
  else
    let sec := s.time.evaluated
    let jump := fun (old : Option Int) (new : Int) (lim : Nat) => match old with
      | some o => decide (lim < (new - o).natAbs)
      | none => false
    let tj := if jump s.time.lastTheta s.time.theta s.time.servo.asymStep then some sec else s.time.thetaJumpAt
    let mj := if jump s.time.lastMpd mpd s.time.servo.asymMpd then some sec else s.time.mpdJumpAt
    let s1 := { s with time := { s.time with
      lastTheta := some s.time.theta, lastMpd := some (mpd : Int), thetaJumpAt := tj, mpdJumpAt := mj, mpd := mpd } }
    let both := match tj, mj with
      | some a, some b => decide (a ≤ b + 2) && decide (b ≤ a + 2) && (decide (a = sec) || decide (b = sec))
      | _, _ => false
    if both && !s.time.asymSuspect then
      let p := ptpPortOf s.time.selected
      let s2 := setTimeFlag 2 { s1 with time := { s1.time with
        asymSuspect := true, asymPort := p, asymAt := s1.up, asymHist := [], asymReported := false } }
      let s3 := raise 0x0A01 0 [wordOf p, 0] .all s2
      if qualified s3 1 then s3 else disqualifyPtp s3
    else s1

/-- The laws of R348, in order, and the rate that they give (R341). -/
def servoLaws (thetaOf : Nat → Option Int) (s : State) : State :=
  let src := decide (s.time.selected ≠ 0)
  let th := s.time.theta
  let inCap := decide (th.natAbs ≤ s.time.servo.capture)
  let sus := s.time.asymSuspect
  let on0 := src && inCap && !sus
  let s1 := if on0 then evalServo 0 (-th) s else s
  let s2 := evalServo 1 (if src && (inCap || sus) then 0 else -th) s1
  let s3 := if on0 then evalServo 2 ((servoLaw s2 0).uPrev - (servoLaw s2 2).uPrev) s2 else s2
  let s4 :=
    if sus && qualified s3 1 then
      match thetaOf (s3.time.asymPort - 6), thetaOf 1 with
      | some p, some g =>
        let a := evalServo 3 (p - g) s3
        { a with time := { a.time with asymHist := ((servoLaw a 3).uPrev :: a.time.asymHist).take 64 } }
      | _, _ => s3
    else s3
  let slew := (servoLaw s4 1).uPrev
  let freq :=
    if s4.time.holdover then (servoLaw s4 2).uPrev + (s4.time.servo.ageing * s4.time.holdSecs / 86400 : Nat)
    else (servoLaw s4 0).uPrev
  { s4 with time := { s4.time with
      freq := freq, slew := slew, thetaAdj := if src then s4.time.thetaAdj else s4.time.thetaAdj + slew } }

/-- The whole second evaluated next. -/
def servoAt (s : State) : Nat := max (s.time.evaluated + 1) (s.now / nsPerSec) * nsPerSec

/-- The second's offsets of the sources stand, and those of the next second are measured afresh. -/
def takeThetas (partner : Int) (s : State) : State :=
  [2, 3, 5].foldl (fun a c =>
    setSource c { getSource a c with theta := offsetOf a c partner, sum := 0, count := 0 } a) s

/-! ### PPS_OUT (R360) -/

/-- The level of PPS_OUT: that of a pulse for its width from its leading edge, else the other. -/
def ppsOut (s : State) : Bool :=
  let t : Int := (s.now : Int) * 1000
  match s.time.ppsPulse with
  | some p => if p.edge ≤ t ∧ t < p.edge + p.width * 10000000 then p.high else !s.time.pps.outPol
  | none => !s.time.pps.outPol

/-! ### PPS_IN and time of day (R361) -/

def inDelayNs (s : State) : Int := s.time.pps.inDelay / 1000

/-- A pulse and the second that names it give the offset of the PPS source; consecutive seconds keep its condition. -/
def ppsPair (edge sec : Nat) (consecutive : Bool) (s : State) : State :=
  let th : Int := (edge : Int) - inDelayNs s - (sec * nsPerSec : Nat)
  let s1 := setSource 4 { getSource s 4 with theta := th } s
  if consecutive then sourceHolds 4 s1
  else if qualified s1 4 then loseSource 4 s1
  else setSource 4 { getSource s1 4 with heldSince := some s1.up } s1

/-- The time of day of a pulse is absent: the PPS source is lost, or its condition begins anew. -/
def todAbsent (s : State) : State :=
  if qualified s 4 then loseSource 4 s else setSource 4 { getSource s 4 with heldSince := none } s

/-- PPS_IN_EDGE (R361): edges 1 s +- 1 us apart begin and keep the condition of the PPS source, and each has a sentence of
its own, the one before it with TOD_REF 1, the one after it with TOD_REF 0. A qualified source outlasts one missing edge. -/
def execPpsInEdge (dt : Nat) (s : State) : Host.Outcome State Fault Refusal :=
  let s1 := begin_ dt s
  .next (if powered s1 && s1.time.pps.inEn then
    let good := match s1.time.ppsEdgeAt with
      | some t => decide (((s1.now : Int) - (t : Int) - 1000000000).natAbs ≤ 1000)
      | none => false
    let open_ := s1.time.ppsOpen
    let s2 := { s1 with time := { s1.time with ppsEdgeAt := some s1.now, ppsOpen := !s1.time.pps.todRef } }
    if s2.time.pps.todRef then
      match s2.time.todSecond with
      | some sec =>
        if !open_ then todAbsent s2
        else if good || !qualified s2 4 then ppsPair s2.now sec good s2
        else s2
      | none => s2
    else if open_ then todAbsent s2
    else if good || qualified s2 4 then s2
    else setSource 4 { getSource s2 4 with heldSince := none } s2
  else s1)

/-- A sentence's TAI second: ZDA needs a valid UTC offset. -/
def todTai (x : TodText) (s : State) : Option Nat :=
  if x.zda then
    (if s.time.utcValid then some (((x.seconds : Int) + s.time.utcOffset).toNat) else none)
  else some x.seconds

/-- TOD_SENTENCE (R361). -/
def execTodSentence (text : TodText) (dt : Nat) (s : State) : Host.Outcome State Fault Refusal :=
  let s1 := begin_ dt s
  .next (if powered s1 && s1.time.pps.inEn && text.checksumOk && decide (text.zda = (s1.time.pps.todFmt == 0)) then
    if !text.zda && !text.locked then
      loseSource 4 { s1 with time := { s1.time with todSecond := none } }
    else
      let s2 :=
        if text.zda || s1.time.utcDecoded then s1
        else { s1 with time := { s1.time with utcOffset := text.offset, utcValid := true } }
      match todTai text s2 with
      | none => todAbsent s2
      | some sec =>
        let cons := match s2.time.todSecond with
          | some o => decide (sec = o + 1)
          | none => true
        let open_ := s2.time.ppsOpen
        let s3 := { s2 with time := { s2.time with todSecond := some sec, ppsOpen := s2.time.pps.todRef } }
        if s3.time.pps.todRef then (if cons then s3 else todAbsent s3)
        else match s3.time.ppsEdgeAt with
          | some e => if open_ then ppsPair e sec cons s3 else s3
          | none => s3
  else s1)

/-! ### REF (R23, R453) -/

/-- EXT_REF_LOSS (R23). -/
def execExtRefLoss (dt : Nat) (s : State) : Host.Outcome State Fault Refusal :=
  let s1 := begin_ dt s
  .next (if powered s1 && s1.ref.ext then
    raise 0x0A06 0 [thetaWord s1] .all { s1 with ref := { ext := false, fallback := true, extPresent := false } }
  else s1)

/-- The reference selected; a change at any time but a boot is recorded. -/
def refSelected (usable : Bool) (s : State) : State :=
  let s1 := { s with
    ref := { ext := usable, fallback := false, extPresent := usable }, time := { s.time with refRetry := none } }
  if s.ref.ext = usable ∨ s.time.booting = true then s1 else raise 0x0A06 (natOfBool usable) [thetaWord s1] .all s1

/-- REF_SELECT (R453): REF is selected afresh, at the moment that asks for it; a change is recorded once device time
runs. -/
def execRefSelect (usable : Bool) (s : State) : Host.Outcome State Fault Refusal :=
  .next (match s.time.refRetry with
    | some t =>
      if powered s && reaches t s then refSelected usable (beginAt t s)
      else begin_ 0 s
    | none => begin_ 0 s)

/-! ### TIME_GET and TIME_SOURCE_CFG -/

def timeStat (s : State) : Nat :=
  flagBits [s.time.raw] + 2 * s.time.tqLast + 16 * s.time.selected +
    128 * flagBits [s.time.holdover, s.time.asymSuspect, decide (s.time.slew ≠ 0),
      decide (rideNs s < s.time.theta.natAbs), s.time.utcValid] + 4096 * s.time.leap

def timeGetBody (_ : Req) (s : State) : Res :=
  .ok (s, .ok 0 (words64 s.now ++ [wordOf (timeStat s), wordOf (uint 16 s.time.utcOffset), thetaWord s,
    wordOfInt s.time.freq, wordOfInt s.time.slew, uncWord s, wordOf (if s.time.holdover then s.time.holdSecs else 0),
    wordOf (if s.time.selected = 2 ∨ s.time.selected = 3 then s.time.mpd else 0),
    wordOfInt ((servoLaw s 3).uPrev * 1000)]))

def descTimeGet : Desc := Desc.read 0xA01 [2] 14 timeGetBody

def srcWords (s : State) : List Word :=
  let c := s.time.srcSet
  [0, wordOfFields ((c.list.zip [0, 4, 8, 12]) ++ [(natOfBool c.revertive, 16)]),
    wordOfFields [(c.qualTime, 0), (c.wtr, 8), (c.bootWait, 24)],
    wordOfFields ([(s.time.selected, 0), (natOfBool s.ref.ext, 16), (natOfBool s.ref.fallback, 17)] ++
      ([1, 2, 3, 4, 5].map (fun c => (natOfBool (qualified s c), 8 + c))))]

/-- No code above 0 twice. -/
def distinctCodes : List Nat → Bool
  | [] => true
  | c :: r => (decide (c = 0) || !r.contains c) && distinctCodes r

def timeSourceCfgBody (r : Req) (s : State) : Res := do
  let read := bitAt (par r 0) 0
  let a := par r 1
  let b := par r 2
  need (onlyBits (par r 0) 1 && (read || onlyBits a 0x37777)) .badParam 0
  let l := [0, 1, 2, 3].map (fun j => fld a (4 * j) (4 * j + 2))
  need (read || (!l.contains 5 && distinctCodes l)) .badParam 1
  if read then return (s, .ok 0 (srcWords s))
  else
    need (l.all (fun c => decide (c = 0) || sourceExists s c)) .range 1
    need (decide (1 ≤ fld b 0 7) && decide (fld b 8 23 ≤ 3600)) .range 2
    let cfg : SrcCfg :=
      { list := l, revertive := bitAt a 16, qualTime := fld b 0 7, wtr := fld b 8 23, bootWait := fld b 24 31 }
    let retry := if bitAt a 17 then some ((s.now / nsPerSec + 1) * nsPerSec) else s.time.refRetry
    let s1 := { s with time := { s.time with srcSet := cfg, refRetry := retry } }
    return (s1, .ok 0 (srcWords s1))

def descTimeSourceCfg : Desc :=
  Desc.formLen (Desc.std 0xA00 [3, 5] 7 (fun r => bitAt (par r 0) 0) timeSourceCfgBody)
    (fun r => some (if bitAt (par r 0) 0 then 3 else 5))

/-! ### PPS-aligned commands (R43, R370) -/

/-- The whole second at which a PPS-aligned command acts. -/
def ppsSecond (r : Req) : Nat :=
  if r.at_ && !r.late then ceilDiv r.execAt nsPerSec else r.stamp / nsPerSec + 1

/-- A PPS-aligned write waits for its second. -/
def waitPps (r : Req) (s : State) : State :=
  { s with time := { s.time with waiting := s.time.waiting ++ [{ req := r, second := max (ppsSecond r) (nextSecond s) }] } }

/-- What refuses TIME_SET by the state, at acceptance and at its second. -/
def timeSetRefused (op : Nat) (s : State) : Except Fail Unit := do
  need (!(decide (op = 0) && anySpindleActive s)) .state 1
  need (!(decide (op ≠ 1) && !s.time.raw && decide (s.time.selected ≠ 0))) .state 2
  need (!(decide (op = 1) && s.time.utcDecoded)) .state 3

def timeSetBody (r : Req) (s : State) : Res := do
  let op := fld (par r 0) 0 1
  let v := par64 r 1
  need (onlyBits (par r 0) 3 && decide (op ≠ 3) &&
    (if op = 1 then decide (v = 0) && onlyBits (par r 3) 0x3FFFF else decide (par r 3 = 0))) .badParam 0
  need (!(decide (op = 0) && decide (v % nsPerSec ≠ 0))) .badParam 1
  need (!(decide (op = 1) && decide (fld (par r 3) 16 17 = 3))) .range 3
  need (!(decide (op = 2) && decide (rideNs s < (spar64 r 1).natAbs) && anySpindleActive s)) .range 1
  timeSetRefused op s
  return (waitPps r s, .later false)

def descTimeSet : Desc :=
  { Desc.std 0xA02 [6] 3 (fun _ => false) timeSetBody with cls := fun _ => .pps }

def ppsWords (c : PpsCfg) : List Word :=
  [0, wordOfFields [(c.outMode, 0), (natOfBool c.inEn, 2), (natOfBool c.inPol, 3), (natOfBool c.outPol, 4),
     (c.todFmt, 5), (natOfBool c.todRef, 7), (c.baud, 8), (c.outWidth, 16)], wordOfInt c.outDelay, wordOfInt c.inDelay]

def ppsCfgOf (r : Req) : PpsCfg :=
  let a := par r 1
  { outMode := fld a 0 1, inEn := bitAt a 2, inPol := bitAt a 3, outPol := bitAt a 4, todFmt := fld a 5 6,
    todRef := bitAt a 7, baud := fld a 8 10, outWidth := fld a 16 31, outDelay := spar r 2, inDelay := spar r 3 }

/-- The settings as they stand once the writes accepted for the next whole second have acted (R467); a write that waits for an
execute-at time is none of them (DESIGN CHOICE, log 122). -/
def ppsInForce (s : State) : PpsCfg :=
  s.time.waiting.foldl (fun c p => if p.req.op = 0xA03 ∧ p.req.at_ = false then ppsCfgOf p.req else c) s.time.pps

def ppsCfgBody (r : Req) (s : State) : Res := do
  let read := bitAt (par r 0) 0
  let c := ppsCfgOf r
  need (onlyBits (par r 0) 1 && (read || (onlyBits (par r 1) 0xFFFF07FF && decide (c.outMode ≠ 3) &&
    decide (c.todFmt ≤ 1)))) .badParam 0
  if read then return (s, .ok 0 (ppsWords (ppsInForce s)))
  else
    need (decide (c.baud ≤ 4) && inRange c.outWidth 1 50000) .range 1
    need (betweenInt c.outDelay (-100000000) 100000000) .range 2
    need (betweenInt c.inDelay (-100000000) 100000000) .range 3
    return (waitPps r s, .later false)

def descPpsCfg : Desc :=
  Desc.formLen { Desc.std 0xA03 [3, 6] 7 (fun r => bitAt (par r 0) 0) ppsCfgBody with
    cls := fun r => if bitAt (par r 0) 0 then .other else .pps }
    (fun r => some (if bitAt (par r 0) 0 then 3 else 6))

def timeModeRefused (rawWanted : Bool) (s : State) : Except Fail Unit := do
  need (!(rawWanted && !s.time.raw && anySpindleActive s)) .state 1
  need (!(rawWanted && !s.time.raw && !latched s)) .state 2

def timeModeBody (r : Req) (s : State) : Res := do
  let want := bitAt (par r 0) 0
  need (onlyBits (par r 0) 1) .badParam 0
  timeModeRefused want s
  if want = s.time.raw ∧ ¬ (r.at_ = true ∧ r.stamp < r.execAt) then return (s, .ok 0 [wordOf (natOfBool want)])
  else return (waitPps r s, .later false)

def descTimeMode : Desc :=
  { Desc.std 0xA06 [3] 4 (fun _ => false) timeModeBody with cls := fun _ => .pps }

/-- The effect of TIME_SET at its second. -/
def timeSetAct (r : Req) (s : State) : State :=
  let op := fld (par r 0) 0 1
  if op = 0 then stepTime 2 (par64 r 1) s
  else if op = 1 then
    { s with time := { s.time with
        utcOffset := sfld (par r 3) 0 15, utcValid := true, leap := fld (par r 3) 16 17 } }
  else { s with time := { s.time with thetaAdj := s.time.thetaAdj + spar64 r 1 * 1000 } }

/-- A change of mode at a whole second (R344). -/
def timeModeAct (rawWanted : Bool) (s : State) : State :=
  if rawWanted = s.time.raw then s
  else
    let s1 :=
      if rawWanted then
        { s with time := { s.time with raw := true, rawRate := s.time.freq + s.time.slew },
                 tick := { s.tick with running := false } }
      else
        { s with time := { s.time with raw := false, booting := false },
                 tick := { s.tick with running := true, nextAt := s.now + nsPerSec } }
    updateTq (raise 0x0A04 (natOfBool rawWanted) [] .all s1)

/-- The PPS-aligned command that acts next: the earliest second, in acceptance order. -/
def nextPps (l : List PpsPending) : Option PpsPending :=
  l.foldl (fun o p => match o with
    | none => some p
    | some q => if p.second < q.second then some p else o) none

/-- A command that waited for a PPS is applied at it. -/
def ppsApply (p : PpsPending) (s : State) : State :=
  let s1 := { s with time := { s.time with waiting := s.time.waiting.erase p } }
  let r := p.req
  if r.op = 0xA02 then
    match timeSetRefused (fld (par r 0) 0 1) s1 with
    | .error f => complete r f.status f.detail [] s1
    | .ok _ => complete r .ok 0 [] (updateTq (timeSetAct r s1))
  else if r.op = 0xA03 then
    complete r .ok 0 (ppsWords (ppsCfgOf r)) { s1 with time := { s1.time with pps := ppsCfgOf r } }
  else
    let want := bitAt (par r 0) 0
    match timeModeRefused want s1 with
    | .error f => complete r f.status f.detail [] s1
    | .ok _ => complete r .ok 0 [wordOf (natOfBool want)] (timeModeAct want s1)

/-- PPS_ALIGNED_APPLY (R370). -/
def execPpsAlignedApply (s : State) : Host.Outcome State Fault Refusal :=
  .next (match nextPps s.time.waiting with
    | some p =>
      if powered s && reaches (p.second * nsPerSec) s then ppsApply p (beginAt (p.second * nsPerSec) s)
      else begin_ 0 s
    | none => begin_ 0 s)

/-! ### SERVO_CFG (R351, R352) -/

def servoWords (c : ServoCfg) : List Word :=
  [wordOfFields [(c.capture, 0), (c.stepThr, 16)],
   wordOfFields [(c.ride, 0), (c.slewMax, 20), (natOfBool c.asymAuto, 24)],
   wordOfFields [(c.asymStep, 0), (c.asymMpd, 16)], wordOfFields [(c.asymHold, 0), (c.ageing, 16)]]

def servoHead (r : Req) (s : State) : Word :=
  let w := par r 0
  let l := servoLaw s (fld w 4 5)
  wordOfFields [(fld w 0 1, 0), (fld w 4 5, 4), (natOfBool l.activeB, 8), (natOfBool l.swap, 9)]

def servoPending (s : State) : Nat := flagBits ((List.range 4).map (fun j => (servoLaw s j).swap))

def servoCfgBody (r : Req) (s : State) : Res := do
  let w := par r 0
  let sec := fld w 0 1
  let read := bitAt w 2
  let j := fld w 4 5
  let write := !read
  need (onlyBits w 0x37 &&
    (!(decide (sec = 0) && write) || (onlyBits (par r 2) 0x1F1FFFF)) &&
    (!(decide (sec = 1) && write) || coefBits r 1)) .badParam 0
  need (decide (sec ≠ 3)) .range 0
  if sec = 0 then
    if read then return (s, .ok 0 (servoHead r s :: servoWords (servoSetOf s)))
    else
      let a := par r 1
      let b := par r 2
      let c := par r 3
      let d := par r 4
      need (decide (10 ≤ fld a 0 15) && decide (1 ≤ fld a 16 31)) .range 1
      need (inRange (fld b 0 16) 10 100000 && inRange (fld b 20 23) 1 10) .range 2
      need (decide (10 ≤ fld c 0 15) && decide (10 ≤ fld c 16 31)) .range 3
      need (decide (10 ≤ fld d 0 15)) .range 4
      let cfg : ServoCfg :=
        { capture := fld a 0 15, stepThr := fld a 16 31, ride := fld b 0 16, slewMax := fld b 20 23,
          asymAuto := bitAt b 24, asymStep := fld c 0 15, asymMpd := fld c 16 31, asymHold := fld d 0 15,
          ageing := fld d 16 31 }
      let s1 := { s with time := { s.time with servoSet := cfg } }
      return (s1, .ok 0 (servoHead r s1 :: servoWords (servoSetOf s1)))
  else if sec = 1 then
    if read then return (s, .ok 0 (servoHead r s :: coefWords (inactiveSet (servoLaw s j))))
    else
      let c := coefPar r 1
      need (decide (c.rMax ≤ 0x7FFFFFFF)) .range 9
      need (!(servoLaw s j).swap) .state 1
      let s1 := setServoLaw j (setInactive c (servoLaw s j)) s
      return (s1, .ok 0 (servoHead r s1 :: coefWords c))
  else if read then return (s, .ok 0 [servoHead r s, wordOf (servoPending s)])
  else
    need (!(servoLaw s j).swap) .state 1
    let s1 := setServoLaw j { servoLaw s j with swap := true } s
    return (s1, .ok 0 [servoHead r s1, wordOf (servoPending s1)])

def descServoCfg : Desc :=
  Desc.formLen (Desc.std 0xA05 [3, 7, 12] 13 (fun r => bitAt (par r 0) 2) servoCfgBody)
    (fun r =>
      let sec := fld (par r 0) 0 1
      if sec = 3 then none
      else if bitAt (par r 0) 2 ∨ sec = 2 then some 3
      else if sec = 0 then some 7 else some 12)

end Sys2Proof.Machine
end

