-- ==== Sys2Proof/Machine/Gnss.lean ====
section
/-! DEFINITION. GNSS signal processing (chapter 04): the millisecond evaluation of channels and gains, assignment and
searches, the antenna bias, the position and time solution, the surveys, and the GNSS commands. -/
set_option autoImplicit false

namespace Sys2Proof.Machine

/-! ### Accessors -/

def getChan (s : State) (c : Nat) : Channel := tabGet s.gnss.channels c Channel.init

def setChan (c : Nat) (x : Channel) (s : State) : State :=
  { s with gnss := { s.gnss with channels := tabSet s.gnss.channels c x } }

def getChain4 (s : State) (i : Nat) : Chain4 := tabGet s.gnss.chains i Chain4.init

def setChain4 (i : Nat) (x : Chain4) (s : State) : State :=
  { s with gnss := { s.gnss with chains := tabSet s.gnss.chains i x } }

def chainIx (ant : Bool) (band : Nat) : Nat := 4 * natOfBool ant + band

def getBw (s : State) (sig : Nat) : LoopBw := tabGet s.gnss.bws sig LoopBw.init

def getAnt (s : State) (ant : Bool) : Antenna := s.gnss.antennas.getD (natOfBool ant) Antenna.init

def setAnt (ant : Bool) (x : Antenna) (s : State) : State :=
  { s with gnss := { s.gnss with antennas := s.gnss.antennas.set (natOfBool ant) x } }

def getIsb (s : State) (sys : Nat) : Isb := tabGet s.gnss.isbs sys Isb.init

def setIsb (sys : Nat) (x : Isb) (s : State) : State :=
  { s with gnss := { s.gnss with isbs := tabSet s.gnss.isbs sys x } }

/-- The receiver runs from the start of firmware on. -/
def gnssRuns (s : State) : Bool := powered s && (decide (s.sys.boot = .init) || decide (s.sys.boot = .ready))

/-- The next multiple of a period, ns, at or after now that is not the last one evaluated. -/
def dueMult (p last : Nat) (s : State) : Nat :=
  let t := ceilDiv s.now p * p
  if t = last then t + p else t

/-! ### Channels (R93-R99) -/

/-- The code of a coherent integration: 1, 2, 4, 10, 20 ms. -/
def integOf (ms : Nat) : Nat := if ms < 2 then 1 else if ms < 4 then 2 else if ms < 10 then 3 else if ms < 20 then 4 else 5

/-- Data-bit length of a data signal, ms (PRESUMED, from the public interface documents). -/
def bitMs (sig svid : Nat) : Nat :=
  if sig = 18 ∨ sig = 19 then 4
  else if (sig = 10 ∨ sig = 13) ∧ (svid ≤ 5 ∨ 59 ≤ svid) then 2
  else 20

/-- The coherent integration of a code, ms. -/
def integMs (code : Nat) : Nat := [1, 1, 2, 4, 10, 20].getD code 1

/-- INTEG in force (R97). -/
def integInForce (c : Channel) : Nat :=
  if c.integ ≠ 0 then c.integ
  else if c.sinceEdge.isNone then 1
  else if (sigInfo c.sig).data then integOf (bitMs c.sig c.svid) else 5

/-- Carrier frequency, Hz, with the GLONASS frequency number (k + 7 is held). -/
def carrierHz (sig k : Nat) : Nat :=
  match sig with
  | 4 => 1602000000 + 562500 * k - 7 * 562500
  | 5 => 1246000000 + 437500 * k - 7 * 437500
  | _ => (sigInfo sig).carrier

/-- The code law's feed-forward: the carrier law's output, mHz, in 2^-16 chip/s (R98). -/
def codeAid (sig k : Nat) (u : Int) : Int := roundQ (u * 65536 * ((sigInfo sig).chip : Int)) (1000 * carrierHz sig k)

/-! ### Discriminators and indicators (R94, R97 and the discriminators' table) -/

def Cplx.power (c : Cplx) : Nat := (c.i * c.i + c.q * c.q).toNat

/-- The in-phase part of a correlator value along another: their product with the conjugate, real part. -/
def Cplx.along (a b : Cplx) : Int := a.i * b.i + a.q * b.q

/-- The quadrature part of a value against an earlier one. -/
def Cplx.across (now_ before : Cplx) : Int := before.i * now_.q - before.q * now_.i

def sumDumps (sel : Dump → Cplx) (l : List Dump) : Cplx :=
  { i := (l.map (fun d => (sel d).i)).sum, q := (l.map (fun d => (sel d).q)).sum }

/-- Normalised early-minus-late power scaled by the spacing, 2^-16 chip. -/
def codeError (spacing : Nat) (e l : Cplx) : Int :=
  if e.power + l.power = 0 then Config.zeroSignal 0
  else roundQ (((e.power : Int) - l.power) * (1024 * spacing)) (e.power + l.power)

/-- arctan(Q/I) on data signals, atan2(Q, I) on pilots, 2^-16 cycle. -/
def phaseError (data : Bool) (p : Cplx) : Int :=
  if p.i = 0 ∧ p.q = 0 then Config.zeroSignal 1
  else if data && decide (p.i < 0) then roundQ (atan2Q (-p.q) (-p.i) * 65536) (2 * piQ).toNat
  else roundQ (atan2Q p.q p.i * 65536) (2 * piQ).toNat

/-- atan2(cross, dot) / (2 pi n) of sums that lie n ms apart, mHz. -/
def freqError (n : Nat) (now_ before : Cplx) : Int :=
  if now_.along before = 0 ∧ now_.across before = 0 then Config.zeroSignal 2
  else roundQ (atan2Q (now_.across before) (now_.along before) * 1000000) (2 * piQ * n).toNat

/-- cos 2 delta-phi, 2^-15. -/
def lockCosine (p : Cplx) : Int :=
  if p.power = 0 then Config.zeroSignal 3 else roundQ ((p.i * p.i - p.q * p.q) * 32768) p.power

/-- (VE - VL)/P and (VE + VL)/(2P) of a dump, 2^-15, each correlator taken along the prompt one. -/
def monitorOf (d : Dump) : Int × Int :=
  let ve := d.veryEarly.along d.prompt
  let vl := d.veryLate.along d.prompt
  if d.prompt.power = 0 then (Config.zeroSignal 4, Config.zeroSignal 5)
  else (roundQ ((ve - vl) * 32768) d.prompt.power, roundQ ((ve + vl) * 16384) d.prompt.power)

/-- How many of the last dumps the discriminators sum (R97): INTEG of them, on data signals none from before the present
bit. -/
def sumLength (c : Channel) : Nat :=
  match (if (sigInfo c.sig).data then c.sinceEdge else none) with
  | some k => min (integMs c.integNow) (max 1 k)
  | none => integMs c.integNow

/-- The frequency error of a channel: none can be formed until two sums exist, and the law then sees no error. -/
def channelFreq (c : Channel) : Int :=
  let n := sumLength c
  if c.dumps.length < 2 * n then 0
  else freqError n (sumDumps Dump.prompt (c.dumps.take n)) (sumDumps Dump.prompt ((c.dumps.drop n).take n))

/-- A dump enters a channel, and the bit edges are followed. -/
def takeDump (m : ChanMeas) (c : Channel) : Channel :=
  let y := { c with
    dumps := (m.dump :: c.dumps).take 40, monitors := (monitorOf m.dump :: c.monitors).take 1000,
    sinceEdge := if m.bitEdge then some 1
      else c.sinceEdge.map (fun k => if bitMs c.sig c.svid ≤ k then 1 else k + 1) }
  let z := { y with integNow := integInForce y }
  { z with cosines := (lockCosine (sumDumps Dump.prompt (z.dumps.take (sumLength z))) :: z.cosines).take 20 }

def codeSlot (c : Nat) : Nat := 2 * c
def carrierSlot (c : Nat) : Nat := 2 * c + 1

/-- New coefficients pass to a law through its inactive set and a swap at its next evaluation (R99). -/
def stageLaw (n : Nat) (c : CoefSet) (s : State) : State :=
  let l := setInactive c (getLaw s n)
  setLaw n { l with swap := true } s

def carrierCoef (s : State) (x : Channel) : CoefSet :=
  if x.state = .track then pllCoef (getBw s x.sig).pll else fllCoef (getBw s x.sig).fll

/-- A lock ends or a cycle slips: LOCK_TIME returns to 0 and SLIP_COUNT advances (R103). On a data signal the half cycle is
unknown again, the 0.5 cycle applied until then with it (DESIGN CHOICE, log 161: the rule says 'that lock'). -/
def slipped (x : Channel) : Channel :=
  let data := (sigInfo x.sig).data
  { x with lockTime := 0, slipCount := (x.slipCount + 1) % 256, slip20 := true, slipHost := true,
           halfUnres := data, halfApplied := false, polarityAt := if data then none else x.polarityAt }

/-- A channel's laws before a lock, written at a ms boundary: the inactive sets take the coefficients in force and swap, the
carrier under the FLL with its output kept, the code law with an empty integrator (R99). -/
def prepareLaws (c : Nat) (s : State) : State :=
  let b := getBw s (getChan s c).sig
  let flip := fun (k : CoefSet) (l : Law) =>
    let l1 := setInactive k l
    { l1 with activeB := !l1.activeB, swap := false, ePrev := 0 }
  let l := flip (fllCoef b.fll) (getLaw s (carrierSlot c))
  let d := flip (dllCoef b.dll) (getLaw s (codeSlot c))
  setLaw (codeSlot c) { d with i := 0 } (setLaw (carrierSlot c) { l with i := presetI (activeSet l) l.uPrev 0 0 0 } s)

/-- The carrier law's integrator is preset to a Doppler (R90, R99), and the code law's output follows it. -/
def presetDoppler (c : Nat) (doppler : Int) (s : State) : State :=
  let x := getChan s c
  let l := getLaw s (carrierSlot c)
  let d := getLaw s (codeSlot c)
  setLaw (codeSlot c) { d with uPrev := codeAid x.sig x.k doppler }
    (setLaw (carrierSlot c) { l with i := presetI (activeSet l) doppler 0 0 0, uPrev := doppler } s)

/-- The transition table's changes on what the milliseconds before showed (R97). Leaving PULL_IN or TRACK for REACQ counts
in SLIP_COUNT as every loss of lock does (DESIGN CHOICE, log 162: the table names a slip only from TRACK to PULL_IN). -/
def chanMove (c : Nat) (s : State) : State :=
  let x := getChan s c
  let fresh := fun (y : Channel) => { y with goodMs := 0, badMs := 0, weakMs := 0 }
  if chanLocked x.state && decide (500 ≤ x.weakMs) then
    prepareLaws c
      (setChan c { fresh (slipped x) with state := .reacq, searchSince := s.up, predicted := some x.doppler } s)
  else if x.state = .pullIn ∧ 50 ≤ x.goodMs then
    let y := { fresh x with state := .track }
    setChan c y (stageLaw (carrierSlot c) (carrierCoef s y) s)
  else if x.state = .track ∧ 20 ≤ x.badMs then
    let y := { fresh (slipped x) with state := .pullIn }
    setChan c y (stageLaw (carrierSlot c) (carrierCoef s y) s)
  else s

/-- One millisecond of a locked channel: its laws, then its figures (R97-R99, R103). -/
def chanMs (s : State) (m : ChanMeas) : State :=
  let s1 := chanMove m.ch s
  let x := takeDump m (getChan s1 m.ch)
  if !chanLocked x.state then s1
  else
    let sums := x.dumps.take (sumLength x)
    let freq := channelFreq x
    let phase := phaseError (sigInfo x.sig).data (sumDumps Dump.prompt sums)
    let oc := evalLaw (getLaw s1 (carrierSlot m.ch)) (if x.state = ChanState.track then phase else freq) 0
    let od := evalLaw (getLaw s1 (codeSlot m.ch))
      (codeError x.spacing (sumDumps Dump.early sums) (sumDumps Dump.late sums)) (codeAid x.sig x.k oc.u)
    let s2 := setLaw (codeSlot m.ch) od.law (setLaw (carrierSlot m.ch) oc.law s1)
    let y := if m.slip then slipped x else x
    let resolve := y.halfUnres && m.halfKnown.isSome
    setChan m.ch { y with
      doppler := oc.u, cn0 := m.cn0, polarityAt := if resolve then some s.now else y.polarityAt,
      halfUnres := y.halfUnres && !resolve, halfApplied := if resolve then m.halfKnown.getD false else y.halfApplied,
      lockTime := if x.state = ChanState.track ∧ m.slip = false then min 0xFFFFFFFF (x.lockTime + 1) else y.lockTime,
      goodMs := if freq.natAbs ≤ 5000 ∧ 26215 ≤ x.lockInd then x.goodMs + 1 else 0,
      badMs := if x.lockInd < 16384 then x.badMs + 1 else 0,
      weakMs := if m.cn0 < 1600 then x.weakMs + 1 else 0 } s2

/-- A channel takes a search's result: pull-in under the FLL with the integrator preset to the Doppler (R90, R99). -/
def handOff (c code : Nat) (doppler : Int) (s : State) : State :=
  let x := getChan s c
  let data := (sigInfo x.sig).data
  presetDoppler c doppler (setChan c { x with
    state := .pullIn, doppler := doppler, codePhase := code, goodMs := 0, badMs := 0, weakMs := 0, lockTime := 0,
    dumps := [], cosines := [], monitors := [], sinceEdge := none, integNow := if x.integ = 0 then 1 else x.integ,
    halfUnres := data, halfApplied := false, polarityAt := if data then none else some s.now, predicted := none } s)

/-- The channel is released: IDLE, and automatic again. -/
def releaseChan (c : Nat) (s : State) : State :=
  if tabHas s.gnss.channels c then setChan c Channel.init s else s

/-- Channels that are assigned, or pinned and waiting, of a signal and antenna and satellite. -/
def chansWhere (f : Channel → Bool) (s : State) : List Nat :=
  (s.gnss.channels.filter (fun p => (chanUsed p.2.state || (decide (p.2.state = .idle) && p.2.pinned)) && f p.2)).map
    (fun p => p.1)

def releaseWhere (f : Channel → Bool) (s : State) : State := (chansWhere f s).foldl (fun a c => releaseChan c a) s

/-! ### Antenna bias (R85) -/

def biasNo : BiasState → Nat
  | .off => 0 | .ok => 1 | .open_ => 2 | .short => 3

/-- The bias state changes: EV_GNSS_ANT_FAULT. -/
def biasMove (ant : Bool) (b : BiasState) (s : State) : State :=
  let x := getAnt s ant
  let s1 := setAnt ant { x with bias := b } s
  if x.bias = b then s1 else raise 0x0100 (natOfBool ant + 2 * biasNo b) [] .all s1

def biasClass (current : Nat) : BiasState := if current < 3 then .open_ else .ok

/-! ### ARP and surveys (R107-R110) -/

/-- Survey state word of GNSS_SURVEY response word 3. -/
def surveyWord (s : State) : Word :=
  let arp := if s.gnss.survey.isSome then 1 else match s.gnss.arp with
    | none => 0
    | some a => if a.surveyed then 3 else 2
  wordOfFields [(arp, 0), (if s.gnss.baseline.isSome then 1 else s.gnss.blState, 4),
    (natOfBool s.gnss.arpPending.isSome, 6)]

/-- EV_GNSS_SURVEY to the queue pair that issued the survey (R114). -/
def surveyEvent (r : Req) (detail : Nat) (s : State) : State :=
  raise 0x0102 detail [surveyWord s] (if r.q < 16 then .one r.q r.tag else .none) s

/-- The ARP in force changes; every enabled correction stream owes its 1005 or 1006 message (R119). -/
def putArp (a : Option Arp) (s : State) : State :=
  let owe := fun (p : Nat × Stream) => (p.1, { p.2 with oweArp := true })
  { s with gnss := { s.gnss with arp := a, arpPending := none },
           corr := { s.corr with streams := s.corr.streams.map owe } }

/-! ### Actions at the millisecond boundary (R112) -/

/-- RETIRED is left by no command, only by a reset (R97). -/
def retired (s : State) (c : Nat) : Bool := decide ((getChan s c).state = .retired)

/-- What a command does at the millisecond boundary. A pin of a DISABLED channel enables it again (DESIGN CHOICE, log 163:
the table says DISABLED is left when OP = 0). -/
def applyGnssAct (s : State) (a : GnssAct) : State :=
  match a with
  | .general en rate mask =>
    releaseWhere (fun c => !Nat.testBit en c.sig)
      { s with gnss := { s.gnss with sigEn := en, obsRate := rate, mask := mask } }
  | .chainSet ant band c =>
    let old := getChain4 s (chainIx ant band)
    let s1 := setChain4 (chainIx ant band)
      { c with gainNow := if c.agcFixed then c.gain else old.gainNow, blankLeft := old.blankLeft,
               figures := old.figures, notches := old.notches } s
    if c.en then s1
    else releaseWhere (fun x => decide (x.ant = ant) && decide ((sigInfo x.sig).band = band)) s1
  | .notchSet ant band idx n =>
    let x := getChain4 s (chainIx ant band)
    setChain4 (chainIx ant band) { x with notches := tabSet x.notches idx n } s
  | .bandwidth sig b =>
    let sigs := if sig = 31 then List.range 21 else [sig]
    let s1 := { s with gnss := { s.gnss with bws := sigs.foldl (fun t g => tabSet t g b) s.gnss.bws } }
    (chansWhere (fun x => chanUsed x.state && sigs.contains x.sig) s1).foldl
      (fun a c =>
        if chanLocked (getChan a c).state then
          stageLaw (codeSlot c) (dllCoef b.dll) (stageLaw (carrierSlot c) (carrierCoef a (getChan a c)) a)
        else prepareLaws c a) s1
  | .release c => if retired s c then s else releaseChan c s
  | .disable c => if retired s c then s else setChan c { Channel.init with state := .disabled } s
  | .pin c ant sig k integ svid spacing mon hint =>
    if retired s c then s
    else
      let s1 := releaseWhere (fun x => chanUsed x.state && decide (x.ant = ant) && decide (x.sig = sig) &&
        decide (x.svid = svid) && decide (x.k = k)) s
      let s2 := prepareLaws c (setChan c { Channel.init with
        state := if hint.isSome then .reacq else .acq, ant := ant, sig := sig, k := k, svid := svid, pinned := true,
        integ := integ, integNow := if integ = 0 then 1 else integ,
        spacing := if spacing = 0 then (sigInfo sig).spacing else spacing, monSpacing := if mon = 0 then 64 else mon,
        predicted := hint, searchSince := s1.up } s1)
      match hint with
      | some d => presetDoppler c d s2
      | none => s2
  | .adjust c integ spacing mon =>
    if retired s c then s else
    let x := getChan s c
    let y := { x with
      integ := integ, spacing := if spacing = 0 then (sigInfo x.sig).spacing else spacing,
      monSpacing := if mon = 0 then 64 else mon }
    setChan c { y with integNow := integInForce y } s
  | .arpSet a => putArp a { s with gnss := { s.gnss with survey := none } }
  | .surveyIn v => { s with gnss := { s.gnss with survey := some v, elapsed := 0 } }
  | .baseline v => { s with gnss := { s.gnss with baseline := some v, elapsed := 0 } }
  | .antenna ant en delay =>
    let x := getAnt s ant
    if en && x.biasEn then setAnt ant { x with cableDelay := delay } s
    else
      biasMove ant (if en then .ok else .off) (setAnt ant
        { x with biasEn := en, cableDelay := delay, current := 0, voltage := 0, onSince := s.up, retryAt := none,
                 retries := 0 } s)
  | .isb sys mode value =>
    let x := getIsb s sys
    let y := match mode with
      | 1 => if sys = 4 ∨ sys = 5 then { x with mode := 1, value := 0, sigma := 0, valid := true }
             else { x with mode := 1, valid := false }
      | 2 => { x with mode := 2, fixed := value, value := value, sigma := 0, valid := true }
      | _ => { x with mode := 0, age := 0, valid := decide (x.mode = 0) && x.valid }
    setIsb sys y s
  | .obsSub q sub =>
    { s with gnss := { s.gnss with
        subs := match sub with
          | some b => tabSet s.gnss.subs q b
          | none => tabDel s.gnss.subs q } }
  | .navSub q on sysMask failed unitMask tag =>
    let x := tabGet s.corr.navSubs q NavSub.init
    let y := if on then { x with on := true, sysMask := sysMask, failed := failed, unitMask := unitMask, tag := tag }
      else { x with on := false }
    { s with corr := { s.corr with navSubs := tabSet s.corr.navSubs q y } }

/-- The state with every waiting action carried out: what the commands report (R467). -/
def gnssView (s : State) : State := s.gnss.acts.foldl applyGnssAct { s with gnss := { s.gnss with acts := [] } }

/-! ### The millisecond (R16, R86, R97) -/

/-- What the samples of a millisecond add up to: squared magnitudes and number of the samples left by the blanking, the
samples at full scale, blanked and taken, and those still to be blanked. -/
structure SampleSum where
  power : Nat
  kept : Nat
  full : Nat
  blanked : Nat
  taken : Nat
  left_ : Nat
  deriving DecidableEq, Repr

/-- A run of equal samples under the blanking of a chain (R87): a magnitude above BLANK_THR times AGC_TARGET blanks it and
the samples of the hold time after it, 12.276 of them in 100 ns. -/
def takeRun (x : Chain4) (a : SampleSum) (r : SampleRun) : SampleSum :=
  let mag2 := (r.i * r.i + r.q * r.q).toNat
  let loud := x.blankEn && decide ((x.blankThr * x.agcTarget) ^ 2 < 100 * mag2)
  let gone := if loud then r.n else min r.n a.left_
  let full := decide (127 ≤ r.i) || decide (r.i ≤ -128) || decide (127 ≤ r.q) || decide (r.q ≤ -128)
  { power := a.power + mag2 * (r.n - gone), kept := a.kept + (r.n - gone), full := a.full + (if full then r.n else 0),
    blanked := a.blanked + gone, taken := a.taken + r.n,
    left_ := if loud then x.blankHold * 12276 / 1000 else a.left_ - gone }

/-- The gain step, 0.5 dB each, that brings the RMS of the samples nearest to the target, at most 1 dB (R86); none where no
sample is left. -/
def gainStep (target : Nat) (a : SampleSum) : Int :=
  let p := a.power * 1000000
  let t := target * target * a.kept
  if a.kept = 0 then 0
  else if t * 1188502 ≤ p then -2
  else if t * 1059254 ≤ p then -1
  else if a.power * 1188502 ≤ t * 1000000 then 2
  else if a.power * 1059254 ≤ t * 1000000 then 1
  else 0

/-- One millisecond of a band chain (R86, R87). -/
def agcMs (s : State) (m : AgcMeas) : State :=
  let x := getChain4 s m.chain
  let a := m.samples.foldl (takeRun x)
    { power := 0, kept := 0, full := 0, blanked := 0, taken := 0, left_ := if x.blankEn then x.blankLeft else 0 }
  let g := if x.agcFixed then x.gain else min 126 ((x.gainNow : Int) + gainStep x.agcTarget a).toNat
  setChain4 m.chain { x with
    gainNow := g, blankLeft := a.left_, figures := ((a.full, a.blanked, a.taken) :: x.figures).take 1000 } s

/-- The millisecond at t: the waiting actions, the gains, and every locked channel. -/
def gnssMs (t : Nat) (chans : List ChanMeas) (agc : List AgcMeas) (s : State) : State :=
  let s1 := (agc.filter (fun m => decide (m.chain < 4 * nAntennas s.member))).foldl agcMs (gnssView s)
  let s2 := (chans.filter (fun m => decide (m.ch < nChannels s.member))).foldl chanMs s1
  { s2 with gnss := { s2.gnss with lastMs := t } }

/-- GNSS_MS_TICK, at each whole millisecond. -/
def execGnssMsTick (chans : List ChanMeas) (agc : List AgcMeas) (s : State) : Host.Outcome State Fault Refusal :=
  let t := dueMult 1000000 s.gnss.lastMs s
  .next (if gnssRuns s && reaches t s then gnssMs t chans agc (beginAt t s) else begin_ 0 s)

/-! ### Notches (R88) -/

/-- Half the width of a chain's passband, Hz. -/
def passband (band : Nat) : Nat := [25500000, 20500000, 25500000, 16000000].getD band 0

/-- Where a notch stands, if it stands anywhere. -/
def notchAt (n : Notch) : Option Int :=
  match n.mode with
  | 1 => some n.freq
  | 2 => n.locked
  | _ => none

/-- A frequency lies within another notch of the chain. -/
def covered (notches : Tab Notch) (idx : Nat) (f : Int) : Bool :=
  notches.any (fun p => decide (p.1 ≠ idx) && match notchAt p.2 with
    | some c => decide (2 * (f - c).natAbs ≤ p.2.width * 10000)
    | none => false)

def strongest : List NotchTone → Option NotchTone
  | [] => none
  | t :: r => match strongest r with
    | some u => if t.level < u.level then some u else some t
    | none => some t

/-- An adaptive notch of a chain after a search: the strongest component it may lock to; the one it is locked to while that
stays within what it can follow, 100 kHz/s. -/
def notchLock (tones : List NotchTone) (s : State) (at_ : Nat × Nat) : State :=
  let x := getChain4 s at_.1
  let n := tabGet x.notches at_.2 Notch.init
  if n.mode ≠ 2 then s
  else
    let may := tones.filter (fun t => decide (t.chain = at_.1) && decide (100 ≤ t.level) &&
      decide (t.freq.natAbs ≤ passband (at_.1 % 4)) && !covered x.notches at_.2 t.freq)
    let near := match n.locked with
      | some f => strongest (may.filter (fun t => decide ((t.freq - f).natAbs ≤ 10000)))
      | none => none
    setChain4 at_.1
      { x with notches := tabSet x.notches at_.2 { n with locked := (near.or (strongest may)).map (fun t => t.freq) } } s

/-- The search at t: adaptive notches lock, follow, or have nothing to lock to. -/
def notchSearch (t : Nat) (tones : List NotchTone) (s : State) : State :=
  let all := (List.range (4 * nAntennas s.member)).flatMap (fun c => (List.range 8).map (fun i => (c, i)))
  let s1 := all.foldl (notchLock tones) s
  { s1 with gnss := { s1.gnss with lastNotch := t } }

/-- NOTCH_SEARCH, every 100 ms. -/
def execNotchSearch (tones : List NotchTone) (s : State) : Host.Outcome State Fault Refusal :=
  let t := dueMult 100000000 s.gnss.lastNotch s
  .next (if gnssRuns s && reaches t s then notchSearch t tones (beginAt t s) else begin_ 0 s)

/-! ### Assignment and searches (R90, R95, R97) -/

/-- The order of R95; a candidate without an elevation comes after those with one. -/
def skyBefore (a b : SkySat) : Bool :=
  if a.ant ≠ b.ant then !a.ant
  else if a.elev ≠ b.elev then
    match a.elev, b.elev with
    | some x, some y => decide (y < x)
    | some _, none => true
    | none, _ => false
  else if a.sig ≠ b.sig then decide (a.sig < b.sig)
  else decide (a.svid ≤ b.svid)

def insertSky (x : SkySat) : List SkySat → List SkySat
  | [] => [x]
  | y :: r => if skyBefore x y then x :: y :: r else y :: insertSky x r

def sameSignal (x : SkySat) (ant : Bool) (c : Channel) : Bool :=
  decide (c.ant = ant) && decide (c.sig = x.sig) && decide (c.svid = x.svid) && decide (c.k = x.k)

/-- The lowest idle automatic channel. -/
def idleChan (s : State) : Option Nat :=
  (List.range (nChannels s.member)).find? (fun c => decide ((getChan s c).state = .idle) && !(getChan s c).pinned)

/-- A signal may be searched on an antenna: its SIG and its chain are enabled, no channel tracks it there, and it is not
deferred (R95, R97, R113). -/
def searchable (x : SkySat) (s : State) : Bool :=
  decide (x.sig < 21) && Nat.testBit s.gnss.sigEn x.sig &&
    (getChain4 s (chainIx x.ant (sigInfo x.sig).band)).en && decide (natOfBool x.ant < nAntennas s.member) &&
    !s.gnss.channels.any (fun p => chanUsed p.2.state && sameSignal x x.ant p.2) &&
    !s.gnss.deferred.any (fun (a, g, v, k, t) => decide (a = x.ant ∧ g = x.sig ∧ v = x.svid ∧ k = x.k ∧ s.up < t))

/-- One candidate of the assignment: above 0 degrees by the almanac, or any where no almanac is held. -/
def assignSat (almanac : Bool) (s : State) (x : SkySat) : State :=
  let up := match x.elev with
    | some e => decide (0 < e)
    | none => !almanac
  let onA := s.gnss.channels.any (fun p => chanUsed p.2.state && sameSignal x false p.2)
  match (if up && searchable x s && (!x.ant || onA) then idleChan s else none) with
  | some c =>
    prepareLaws c (setChan c { Channel.init with
      state := .acq, ant := x.ant, sig := x.sig, k := x.k, svid := x.svid, spacing := (sigInfo x.sig).spacing,
      predicted := if x.predicted then some x.doppler else none, searchSince := s.up } s)
  | none => s

/-- A pinned channel whose deferral has passed is searched again. -/
def repin (s : State) (p : Nat × Channel) : State :=
  let c := p.2
  let x : SkySat := { ant := c.ant, sig := c.sig, svid := c.svid, k := c.k, elev := none, doppler := 0, predicted := false }
  if c.pinned ∧ c.state = .idle ∧ searchable x s = true then
    prepareLaws p.1 (setChan p.1 { c with state := .acq, searchSince := s.up } s)
  else s

/-- The assignment at t: automatic channels go to what the sky shows, in the order of R95. -/
def assignChannels (t : Nat) (sky : List SkySat) (s : State) : State :=
  let s1 := { s with gnss := { s.gnss with
    lastAssign := t, deferred := s.gnss.deferred.filter (fun (_, _, _, _, d) => decide (s.up < d)) } }
  (sky.foldr insertSky []).foldl (assignSat (sky.any (fun x => x.elev.isSome))) (s1.gnss.channels.foldl repin s1)

/-- CHANNEL_ASSIGN, at each whole second. -/
def execChannelAssign (sky : List SkySat) (s : State) : Host.Outcome State Fault Refusal :=
  let t := dueMult nsPerSec s.gnss.lastAssign s
  .next (if gnssRuns s && reaches t s then assignChannels t sky (beginAt t s) else begin_ 0 s)

/-- The channels that wait for a search, longest first; 32 of them are searched at once (R90). -/
def searching (s : State) : List Nat :=
  let w := (s.gnss.channels.filter (fun p => decide (p.2.state = .acq) || decide (p.2.state = .reacq)))
  let before := fun (p : Nat × Channel) =>
    (w.filter (fun q => decide (q.2.searchSince < p.2.searchSince) ||
      (decide (q.2.searchSince = p.2.searchSince) && decide (q.1 < p.1)))).length
  (w.filter (fun p => decide (before p < 32))).map (fun p => p.1)

/-- The Doppler window of a search (R90): 6 kHz about 0, or 600 Hz about a prediction. -/
def inWindow (x : Channel) (doppler : Int) : Bool :=
  match x.predicted with
  | some p => decide ((doppler - p).natAbs ≤ 600000)
  | none => decide (doppler.natAbs ≤ 6000000)

/-- The dwell of a search (R90), ns: 8 sums of 1 ms, of 4 ms on pilots; 16 sums of 4 ms with a prediction. -/
def dwell (x : Channel) : Nat :=
  if x.predicted.isSome then 64000000 else if (sigInfo x.sig).data then 8000000 else 32000000

/-- A search of the channel can end with this result now. -/
def searchFinds (ch : Nat) (doppler : Int) (s : State) : Bool :=
  (searching s).contains ch && inWindow (getChan s ch) doppler && decide ((getChan s ch).searchSince + dwell (getChan s ch) ≤ s.up)

/-- ACQ_SEARCH_DONE: the search's code phase and Doppler pass to the channel. -/
def execAcqSearchDone (ch code : Nat) (doppler : Int) (dt : Nat) (s : State) : Host.Outcome State Fault Refusal :=
  if nChannels s.member ≤ ch then .fault .noSuchUnit
  else .next (let s1 := begin_ dt s
    if gnssRuns s1 && searchFinds ch doppler s1 then handOff ch code doppler s1 else s1)

/-- A channel in ACQ becomes IDLE and its signal is deferred for 60 s; one in REACQ goes to ACQ, or to IDLE where it is
automatic. -/
def searchEnds (ch : Nat) (x : Channel) (s : State) : State :=
  if x.state = .acq then
    setChan ch (if x.pinned then { x with state := .idle } else Channel.init)
      { s with gnss := { s.gnss with
        deferred := s.gnss.deferred ++ [(x.ant, x.sig, x.svid, x.k, s.up + 60 * nsPerSec)] } }
  else
    setChan ch (if x.pinned then { x with state := .acq, searchSince := s.up, predicted := none } else Channel.init) s

/-- ACQ_TIMEOUT: 10 s without success. -/
def execAcqTimeout (ch : Nat) (s : State) : Host.Outcome State Fault Refusal :=
  if nChannels s.member ≤ ch then .fault .noSuchUnit
  else .next (let x := getChan s ch
    if gnssRuns s && (decide (x.state = .acq) || decide (x.state = .reacq)) then
      searchEnds ch x (beginUp (x.searchSince + 10 * nsPerSec) s)
    else begin_ 0 s)

/-! ### Bias events -/

/-- What the bias current has shown (R85): SHORT, the limit engaged for 10 ms, switches the bias off, to be retried after
1 s and then every 10 s; otherwise it has stayed below 3 mA for 1 s, or lies above. Neither time can have passed sooner after
the bias came on. -/
def biasShown (ant short_ : Bool) (current voltage : Nat) (s : State) : State :=
  let x := getAnt s ant
  let since := if short_ then 10000000 else if current < 3 then nsPerSec else 0
  if s.up < x.onSince + since then s
  else if short_ then
    biasMove ant .short (setAnt ant { x with
      current := current, voltage := 0, retries := x.retries + 1,
      retryAt := some (s.up + (if x.retries = 0 then nsPerSec else 10 * nsPerSec)) } s)
  else biasMove ant (biasClass current) (setAnt ant { x with current := current, voltage := voltage, retries := 0 } s)

/-- BIAS_FAULT (R85). -/
def execBiasFault (ant short_ : Bool) (current voltage dt : Nat) (s : State) : Host.Outcome State Fault Refusal :=
  if nAntennas s.member ≤ natOfBool ant then .fault .noSuchUnit
  else .next (let s1 := begin_ dt s
    let x := getAnt s1 ant
    if !powered s1 || !x.biasEn || x.retryAt.isSome then s1 else biasShown ant short_ current voltage s1)

/-- BIAS_RETRY: 1 s after a SHORT, then every 10 s, the bias is switched on again. A current between 3 mA and the limit is
OK at once; BIAS_FAULT tells of OPEN and SHORT. -/
def execBiasRetry (ant : Bool) (current voltage : Nat) (s : State) : Host.Outcome State Fault Refusal :=
  if nAntennas s.member ≤ natOfBool ant then .fault .noSuchUnit
  else .next (let x := getAnt s ant
    match x.retryAt with
    | none => begin_ 0 s
    | some t =>
      let s1 := beginUp t s
      let s2 := setAnt ant { x with current := current, voltage := voltage, onSince := s1.up, retryAt := none } s1
      if 3 ≤ current ∧ current < 180 then biasShown ant false current voltage s2 else s2)

/-! ### Directions -/

/-- The point that directions are taken from: the ARP in force, or the module's own solution (R125). -/
def refPoint (s : State) : Option Ecef :=
  match s.gnss.arp with
  | some a => some (a.x, a.y, a.z)
  | none => s.gnss.pos

def dot3 (a b : Ecef) : Int := a.1 * b.1 + a.2.1 * b.2.1 + a.2.2 * b.2.2

def sub3 (a b : Ecef) : Ecef := (a.1 - b.1, a.2.1 - b.2.1, a.2.2 - b.2.2)

/-- A vector at a length of 2^30. -/
def unit3 (v : Ecef) : Ecef :=
  let n := isqrt (dot3 v v).toNat
  if n = 0 then (0, 0, 0)
  else (roundQ (v.1 * 1073741824) n, roundQ (v.2.1 * 1073741824) n, roundQ (v.2.2 * 1073741824) n)

/-- East, north and up at a point, of length 2^30: up is the normal of the ellipsoid. -/
def localAxes (p : Ecef) : Ecef × Ecef × Ecef :=
  let g := wgsInvF - 1000000000
  let up := unit3 (p.1, p.2.1, p.2.2 * (wgsInvF * wgsInvF : Nat) / (g * g : Nat))
  let east := if p.1 = 0 ∧ p.2.1 = 0 then (0, 1073741824, 0) else unit3 (-p.2.1, p.1, 0)
  let north := unit3 (up.2.1 * east.2.2 - up.2.2 * east.2.1, up.2.2 * east.1 - up.1 * east.2.2,
    up.1 * east.2.1 - up.2.1 * east.1)
  (east, north, up)

/-- The direction of a point from another: east, north, up, 2^-30. -/
def direction (ref at_ : Ecef) : Ecef :=
  let (e, n, u) := localAxes ref
  let d := unit3 (sub3 at_ ref)
  (roundQ (dot3 d e) 1073741824, roundQ (dot3 d n) 1073741824, roundQ (dot3 d u) 1073741824)

/-- The sine of a satellite's elevation, 2^-30; none where its place or the module's own is not known. -/
def sinElev (s : State) (sat : Option Ecef) : Option Int :=
  match refPoint s, sat with
  | some r, some p => some (direction r p).2.2
  | _, _ => none

/-- The sine of an angle in degrees, 2^-30. -/
def sinDeg (deg : Nat) : Int := sinQ (nanoDegQ (deg * 1000000000)) / (2 ^ 66 : Int)

/-- A satellite lies below a mask; one whose elevation is not known does not (DESIGN CHOICE, log 164). -/
def belowMask (mask : Nat) (e : Option Int) : Bool :=
  match e with
  | some v => decide (v < sinDeg mask)
  | none => false

/-! ### Position and time solution (R105, R106, R108) -/

/-- A time in ps as a range in 2^-6 mm. -/
def psRange (ps : Int) : Int := roundQ (ps * (299792458 * 64)) 1000000000

/-- The ionosphere-free combination of two codes on the carriers f and g. -/
def ionoFree (f g : Nat) (p q : Int) : Int :=
  let n := (f * f : Int) * p - (g * g : Int) * q
  let d := (f * f : Int) - (g * g : Int)
  if d < 0 then roundQ (-n) d.natAbs else roundQ n d.natAbs

/-- The ANT_A records that the solution, the survey and the offsets go by: a code, above the mask, of a satellite whose
place is known (R104, R105). -/
def pvtRecs (s : State) : List SatObs :=
  s.gnss.ownRecs.filter (fun o => !o.rec_.ant && o.rec_.prValid && !o.rec_.belowMask && o.sat.isSome)

/-- The record of the lowest SIG. -/
def lowestSig : List SatObs → Option SatObs
  | [] => none
  | o :: r => match lowestSig r with
    | some u => if u.rec_.sig < o.rec_.sig then some u else some o
    | none => some o

/-- A satellite's code: the combination of two bands where it has them, its lowest SIG otherwise. -/
def satCode (l : List SatObs) : Option (SatObs × Int) :=
  (lowestSig l).map (fun a =>
    match lowestSig (l.filter (fun o => decide ((sigInfo o.rec_.sig).band ≠ (sigInfo a.rec_.sig).band))) with
    | some b => (a, ionoFree (carrierHz a.rec_.sig a.rec_.k) (carrierHz b.rec_.sig b.rec_.k) a.rec_.pr b.rec_.pr)
    | none => (a, a.rec_.pr))

/-- Whether a system's codes can be used, and what its applied offset adds to them (R105): an offset that the solution
estimates adds nothing. -/
def appliedOffset (s : State) (sys : Nat) : Option Int :=
  let x := getIsb s sys
  if sys = 0 ∨ x.mode = 0 then some 0 else if x.valid then some (psRange x.value) else none

/-- The codes of the solution, one per satellite. -/
def pvtCodes (s : State) : List PvtCode :=
  let l := pvtRecs s
  let key := fun (o : SatObs) => ((sigInfo o.rec_.sig).sys, o.rec_.svid)
  let sats := l.foldl (fun a o => if a.contains (key o) then a else a ++ [key o]) []
  sats.filterMap (fun k =>
    match satCode (l.filter (fun o => decide (key o = k))), appliedOffset s k.1 with
    | some (o, pr), some off => o.sat.map (fun p => { sys := k.1, svid := k.2, pr := pr + off, sat := p })
    | _, _ => none)

/-- What the solution goes by (R105). -/
def pvtIn (s : State) : PvtIn :=
  { codes := pvtCodes s, estimated := [1, 2, 3, 4, 5].filter (fun k => decide ((getIsb s k).mode = 0)),
    ephemeris := s.gnss.ephemeris, arp := s.gnss.arp.map (fun a => (a.x, a.y, a.z)) }

/-- The usable satellites of a system. -/
def satsOfSystem (sys : Nat) (l : List PvtCode) : Nat := (l.filter (fun c => decide (c.sys = sys))).length

/-- An inter-system offset after a second's solution, where there was one: an estimate is filtered with 600 s. -/
def isbSecond (codes : List PvtCode) (out : Option PvtOut) (s : State) (sys : Nat) : State :=
  let x := getIsb s sys
  match x.mode with
  | 0 =>
    match (if 2 ≤ satsOfSystem sys codes then out else none) with
    | some o =>
      let f := if x.valid then x.filter + o.offset sys - roundQ x.filter 600 else 600 * o.offset sys
      setIsb sys
        { x with filter := f, value := roundQ f 600, sigma := min 0xFFFF (o.offsetSigma sys), valid := true, age := 0 } s
    | none => setIsb sys { x with age := x.age + 1, valid := x.valid && decide (x.age + 1 < 600) } s
  | 1 =>
    match (if sys = 4 ∨ sys = 5 then none else x.broadcast) with
    | some b => setIsb sys { x with value := b, sigma := 0, valid := true } s
    | none => s
  | _ => s

/-- The sigma of a survey's mean, mm: that of n epochs whose errors correlate over 600 s (R108). -/
def meanSigma (v : Survey) : Nat := csqrt (v.sumVar * 600 / max 1 (v.count * max 600 v.count))

/-- A survey-in takes a second's solution, where there was one of a position. -/
def surveyAdd (out : Option PvtOut) (v : Survey) : Survey :=
  match out with
  | some o =>
    { v with elapsed := v.elapsed + 1, sumX := v.sumX + o.pos.1, sumY := v.sumY + o.pos.2.1, sumZ := v.sumZ + o.pos.2.2,
             count := v.count + 1, sumVar := v.sumVar + o.sigma * o.sigma }
  | none => { v with elapsed := v.elapsed + 1 }

/-- A second of the survey-in, and its end (R108, R109). ELAPSED is one counter, which a survey-in and a baseline survey that
run together both write (DESIGN CHOICE, log 165: 'of the survey in progress or the last one'). -/
def surveySecond (out : Option PvtOut) (s : State) : State :=
  match s.gnss.survey with
  | none => s
  | some v0 =>
    let v := surveyAdd out v0
    let s1 := { s with gnss := { s.gnss with survey := some v, elapsed := v.elapsed } }
    if v.elapsed < v.minDur ∨ v.count = 0 ∨ v.accLimit < meanSigma v then s1
    else
      let (x, y, z) := lowerPoint (roundQ v.sumX v.count) (roundQ v.sumY v.count) (roundQ v.sumZ v.count) v.pcoUp
      let a : Arp := { x := x, y := y, z := z, sigma := meanSigma v, surveyed := true }
      let s2 := { s1 with gnss := { s1.gnss with survey := none } }
      if anySpindleActive s2 then
        surveyEvent v.req 1 { s2 with gnss := { s2.gnss with arpPending := some a } }
      else surveyEvent v.req 0 (putArp (some a) s2)

/-- The CLK indicator's condition between two solutions of at least 6 satellites, held for 10 s. -/
def clkCheck (sats : Nat) (out : PvtOut) (s : State) : State :=
  let jump := (out.clkBias - (s.gnss.clkBias + s.gnss.clkDrift)).natAbs
  if 6 ≤ sats ∧ 6 ≤ s.gnss.pvtSats ∧ s.corr.cfg.clkJump * 10000 < jump then
    { s with corr := { s.corr with clkUntil := s.up + 10 * nsPerSec } }
  else s

/-- The solution of the second at t: 4 satellites give position and time, 1 gives the time over an ARP. The GNSS source's
offset is its clock offset, and it holds at an acting integrity level of at most 2. -/
def pvtSecond (t : Nat) (s : State) : State :=
  let codes := pvtCodes s
  let n := codes.length
  let fixed := decide (4 ≤ n)
  let usable := fixed || (decide (1 ≤ n) && s.gnss.arp.isSome)
  let out := Config.pvt (pvtIn s)
  let s1 := if usable then clkCheck n out s else s
  let s2 := { s1 with gnss := { s1.gnss with
    lastPvt := t, pvtSats := if usable then n else 0,
    clkBias := if usable then out.clkBias else s1.gnss.clkBias,
    clkDrift := if usable then out.clkDrift else s1.gnss.clkDrift,
    pos := if fixed then some out.pos else s1.gnss.pos } }
  let s3 := (List.range 5).foldl (fun a k => isbSecond codes (if fixed then some out else none) a (k + 1)) s2
  let s4 := surveySecond (if fixed then some out else none) s3
  if usable then
    let s5 := setSource 1 { getSource s4 1 with theta := roundQ out.clkBias 1000 } s4
    if actingLevel s5.corr ≤ 2 then sourceHolds 1 s5 else s5
  else s4

/-- PVT_SOLUTION, once per second; time passes where none is due. -/
def execPvtSolution (dt : Nat) (s : State) : Host.Outcome State Fault Refusal :=
  let t := dueMult nsPerSec s.gnss.lastPvt s
  .next (if gnssRuns s && reaches t s then pvtSecond t (beginAt t s) else begin_ dt s)

/-- A pending survey result takes force at the first snapshot with no spindle active (R109). -/
def applyPendingArp (s : State) : State :=
  match s.gnss.arpPending with
  | some a => if anySpindleActive s then s else putArp (some a) s
  | none => s

/-! ### GNSS_CONFIG (R113) -/

def addAct (a : GnssAct) (s : State) : State := { s with gnss := { s.gnss with acts := s.gnss.acts ++ [a] } }

/-- Live status of GNSS_CONFIG, word 6. -/
def gnssStatus (sec : Nat) (ant : Bool) (band ix : Nat) (s : State) : Word :=
  let c := getChain4 s (chainIx ant band)
  match sec with
  | 0 => wordOfFields [(min 255 (satsOf s.gnss.channels).length, 0),
      ((s.gnss.channels.filter (fun p => chanUsed p.2.state)).length, 8)]
  | 1 => wordOfFields [(c.gainNow, 0), (min 8191 c.clipPpm, 7), (min 4095 (c.blankPpm / 250), 20)]
  | 2 =>
    let n := tabGet c.notches ix Notch.init
    match n.mode with
    | 1 => wordOfInt n.freq
    | 2 => match n.locked with
      | some f => wordOfInt f
      | none => 0x80000000
    | _ => 0x80000000
  | _ => 0

def gnssSettings (sec : Nat) (ant : Bool) (band ix sig : Nat) (s : State) : List Word :=
  let c := getChain4 s (chainIx ant band)
  match sec with
  | 0 => [wordOf s.gnss.sigEn, wordOfFields [(s.gnss.obsRate, 0), (s.gnss.mask, 8)]]
  | 1 => [wordOfFields [(natOfBool c.en, 0), (natOfBool c.agcFixed, 1), (c.gain, 2), (c.agcTarget, 9)],
      wordOfFields [(natOfBool c.blankEn, 0), (c.blankThr, 1), (c.blankHold, 8)]]
  | 2 =>
    let n := tabGet c.notches ix Notch.init
    [wordOfFields [(n.mode, 0), (n.width, 8)], wordOfInt n.freq]
  | _ =>
    let b := getBw s (if sig = 31 then 0 else sig)
    [wordOfFields [(b.dll, 0), (b.pll, 16)], wordOf b.fll]

def gnssConfigBody (r : Req) (s : State) : Res := do
  let h := par r 0
  let a := par r 1
  let b := par r 2
  let sec := fld h 0 3
  let read := bitAt h 4
  let ant := bitAt h 5
  let band := fld h 6 7
  let ix := fld h 8 10
  let sig := fld h 11 15
  need (onlyBits h 0xFFFF) .badParam 0
  need (decide (3 < sec) || decide (sec = 3) || decide (sig = 0)) .badParam 0
  need (decide (3 < sec) || decide (sec = 2) || decide (ix = 0)) .badParam 0
  need (decide (3 < sec) || decide (sec = 1) || decide (sec = 2) || (!ant && decide (band = 0))) .badParam 0
  need (decide (sec ≠ 3) || decide (sig ≤ 20) || decide (sig = 31)) .badParam 0
  match sec with
  | 0 => need (read || (onlyBits a 0x1FFFFF && onlyBits b 0xFFFF)) .badParam 0
  | 1 => need (read || (onlyBits a 0xFFFF && onlyBits b 0xFFFF)) .badParam 0
  | 2 => need (read || (onlyBits a 0xFF03 && decide (fld a 0 1 ≠ 3))) .badParam 0
  | 3 => need (read || onlyBits b 0xFFFF) .badParam 0
  | _ => failWith .range 0
  need (!ant || decide (nAntennas s.member = 2)) .range 0
  if read then
    let v := gnssView s
    return (s, .ok 0 (h :: gnssSettings sec ant band ix sig v ++ [gnssStatus sec ant band ix s]))
  match sec with
  | 0 =>
    need ([1, 2, 5, 10, 20, 50, 100].contains (fld b 0 7) && decide (fld b 8 15 ≤ 60)) .range 2
    return (addAct (.general (fld a 0 20) (fld b 0 7) (fld b 8 15)) s, .ok 0 [])
  | 1 =>
    need (decide (fld a 2 8 ≤ 126) && inRange (fld a 9 15) 8 64) .range 1
    need (decide (20 ≤ fld b 1 7)) .range 2
    let c : Chain4 := { Chain4.init with
      en := bitAt a 0, agcFixed := bitAt a 1, gain := fld a 2 8, agcTarget := fld a 9 15, blankEn := bitAt b 0,
      blankThr := fld b 1 7, blankHold := fld b 8 15 }
    return (addAct (.chainSet ant band c) s, .ok 0 [])
  | 2 =>
    need (decide (1 ≤ fld a 8 15)) .range 1
    need (betweenInt b.toInt (-61380000) 61380000) .range 2
    let n : Notch := { mode := fld a 0 1, width := fld a 8 15, freq := b.toInt, locked := none }
    return (addAct (.notchSet ant band ix n) s, .ok 0 [])
  | _ =>
    need (inRange (fld a 0 15) 5 1000 && inRange (fld a 16 31) 10 500) .range 1
    need (inRange (fld b 0 15) 10 500) .range 2
    return (addAct (.bandwidth sig { dll := fld a 0 15, pll := fld a 16 31, fll := fld b 0 15 }) s, .ok 0 [])

/-- Every GNSS and CORR command passes on a standby (R404). -/
def descGnssConfig : Desc :=
  ({ Desc.std 0x100 [3, 5] 7 (fun r => bitAt (par r 0) 4) gnssConfigBody with standbyOk := fun _ => true }).formLen
    (readForm 4 3 5)

/-! ### GNSS_CHANNEL_SET -/

/-- Satellite numbers of a system as records carry them (PRESUMED ranges of the systems' numbering). -/
def svidOk (sig svid : Nat) : Bool :=
  match (sigInfo sig).sys with
  | 0 => inRange svid 1 32
  | 1 => inRange svid 1 24
  | 2 => inRange svid 1 36
  | 3 => inRange svid 1 63
  | 4 => inRange svid 193 202
  | _ => inRange svid 20 58

def chanStateNo : ChanState → Nat
  | .idle => 0 | .acq => 1 | .pullIn => 2 | .track => 3 | .reacq => 4 | .disabled => 5 | .retired => 6

def gnssChannelSetBody (r : Req) (s : State) : Res := do
  let h := par r 0
  let b := par r 1
  let c := fld h 0 9
  let op := fld h 10 11
  let ant := bitAt h 12
  let sig := fld h 13 17
  let k := fld h 18 21
  let integ := fld h 22 24
  let svid := fld b 0 7
  let sp := fld b 8 14
  let mon := fld b 15 22
  let hint := bitAt b 23
  need (onlyBits h 0x1FFFFFF && onlyBits b 0xFFFFFF && decide (integ ≤ 5)) .badParam 0
  need (decide (op = 1) || (!ant && decide (sig = 0) && decide (k = 0) && decide (svid = 0) && !hint)) .badParam 0
  need (decide (op = 1) || decide (op = 3) || (decide (integ = 0) && decide (sp = 0) && decide (mon = 0))) .badParam 0
  need (hint || decide (par r 2 = 0)) .badParam 0
  need (decide (op ≠ 1) || decide (sig ≤ 20)) .badParam 0
  need (decide (c < nChannels s.member)) .range 0
  let spOk := decide (sp = 0) || inRange sp 3 64
  let monOk := decide (mon = 0) || inRange mon 7 128
  need (spOk && monOk) .range 0
  let kOk := if sig = 4 ∨ sig = 5 then decide (k ≤ 13) else decide (k = 0)
  need (decide (op ≠ 1) || (svidOk sig svid && kOk && (!ant || decide (nAntennas s.member = 2)))) .range 0
  let v := gnssView s
  need (decide (op ≠ 1) || (Nat.testBit v.gnss.sigEn sig &&
    (getChain4 v (chainIx ant (sigInfo sig).band)).en)) .state 1
  need (decide ((getChan v c).state ≠ .retired)) .state 2
  let act : GnssAct := match op with
    | 0 => .release c
    | 1 => .pin c ant sig k integ svid sp mon (if hint then some (spar r 2) else none)
    | 2 => .disable c
    | _ => .adjust c integ sp mon
  let s1 := addAct act s
  return (s1, .ok 0 [wordOf (chanStateNo (getChan (gnssView s1) c).state)])

def descGnssChannelSet : Desc :=
  { Desc.std 0x101 [5] 4 (fun _ => false) gnssChannelSetBody with standbyOk := fun _ => true }

/-! ### GNSS_GET_CHANNELS -/

def chanWords (s : State) (c : Nat) : List Word :=
  let x := getChan s c
  [wordOfFields [(c, 0), (chanStateNo x.state, 10), (natOfBool x.ant, 13), (x.sig, 14), (x.k, 19),
     (natOfBool x.pinned, 23), (x.svid, 24)],
   wordOfInt x.doppler,
   wordOfFields [(x.cn0 % 65536, 0), (x.spacing, 16), (x.monSpacing, 23), (natOfBool x.halfUnres, 31)],
   wordOf x.lockTime,
   wordOfFields [(uint 16 x.monSym, 0), (uint 16 x.monRatio, 16)],
   wordOfFields [(uint 16 x.lockInd, 0), (x.slipCount, 16), (x.integNow, 24)]]

def gnssGetChannelsBody (r : Req) (s : State) : Res := do
  let h := par r 0
  let first := fld h 0 9
  let n := fld h 10 19
  need (onlyBits h 0xFFFFF) .badParam 0
  need (inRange n 1 512 && decide (first + n ≤ nChannels s.member)) .range 0
  return (s, .ok 0 (h :: (List.range n).flatMap (fun k => chanWords s (first + k))))

def descGnssGetChannels : Desc := Desc.read 0x102 [3] (4 + 6 * 512) gnssGetChannelsBody

/-! ### GNSS_SET_ANTENNA -/

/-- The live bias figures of an antenna with the cable delay last written (R467). -/
def antennaWords (x : Antenna) (delay : Int) : List Word :=
  [wordOfFields [(biasNo x.bias, 0), (min 255 x.current, 8)], wordOfInt delay, wordOf (x.voltage % 65536)]

def gnssSetAntennaBody (r : Req) (s : State) : Res := do
  let h := par r 0
  let ant := bitAt h 0
  let read := bitAt h 2
  need (onlyBits h 7 && !(read && bitAt h 1)) .badParam 0
  need (!ant || decide (nAntennas s.member = 2)) .range 0
  let s1 := if read then s else addAct (.antenna ant (bitAt h 1) (spar r 1)) s
  return (s1, .ok 0 (antennaWords (getAnt s1 ant) (getAnt (gnssView s1) ant).cableDelay))

def descGnssSetAntenna : Desc :=
  ({ Desc.std 0x103 [3, 4] 6 (fun r => bitAt (par r 0) 2) gnssSetAntennaBody with standbyOk := fun _ => true }).formLen
    (readForm 2 3 4)

/-! ### GNSS_SET_ISB -/

def isbWords (s : State) : List Word :=
  (List.range 5).flatMap (fun k =>
    let x := getIsb s (k + 1)
    [wordOfInt x.value, wordOfFields [(x.sigma, 0), (x.mode, 16), (natOfBool x.valid, 18)]])

def gnssSetIsbBody (r : Req) (s : State) : Res := do
  let h := par r 0
  let sys := fld h 0 2
  let mode := fld h 4 5
  need (onlyBits h 0x37 && decide (mode ≠ 3) && (decide (sys ≠ 0) || decide (mode = 0)) &&
    (decide (mode = 2) || decide (par r 1 = 0))) .badParam 0
  need (decide (sys ≤ 5)) .range 0
  let s1 := if sys = 0 then s else addAct (.isb sys mode (spar r 1)) s
  return (s1, .ok 0 (isbWords (gnssView s1)))

def descGnssSetIsb : Desc :=
  { Desc.std 0x105 [4] 13 (fun r => decide (fld (par r 0) 0 2 = 0)) gnssSetIsbBody with standbyOk := fun _ => true }

/-! ### GNSS_SURVEY (R107-R110) -/

def surveyWords (s : State) : List Word :=
  let a := s.gnss.arp.getD { x := 0, y := 0, z := 0, sigma := 0, surveyed := false }
  surveyWord s :: wordsInt64 a.x ++ wordsInt64 a.y ++ wordsInt64 a.z ++
    [wordOf a.sigma, wordOf s.gnss.elapsed, wordOfInt s.gnss.blE, wordOfInt s.gnss.blN, wordOfInt s.gnss.blU,
     wordOf (s.gnss.blSigma % 65536)]

def surveyOf (r : Req) (minDur acc pco : Nat) : Survey :=
  { req := r, minDur := minDur, accLimit := acc, pcoUp := pco, elapsed := 0, sumX := 0, sumY := 0, sumZ := 0,
    count := 0, sumVar := 0, good := 0 }

def surveyLen (r : Req) : Option Nat :=
  match fld (par r 0) 0 2 with
  | 0 => some 3 | 1 => some 9 | 2 => some 8 | 3 => some 5 | 4 => some 4 | 5 => some 3
  | _ => none

def gnssSurveyBody (r : Req) (s : State) : Res := do
  let mode := fld (par r 0) 0 2
  need (onlyBits (par r 0) 7) .badParam 0
  let fixedAt := fun (p : Int × Int × Int) =>
    GnssAct.arpSet (some { x := p.1, y := p.2.1, z := p.2.2, sigma := 0, surveyed := false })
  let done := fun (s1 : State) => (.ok (s1, .ok 0 (surveyWords (gnssView s1))) : Res)
  let free := need (!anySpindleActive s) .state 1
  match mode with
  | 0 => done s
  | 1 =>
    free
    done (addAct (fixedAt (spar64 r 1, spar64 r 3, spar64 r 5)) s)
  | 2 =>
    need (betweenInt (spar64 r 1) (-90000000000) 90000000000) .range 1
    need (betweenInt (spar64 r 3) (-180000000000) 180000000000) .range 3
    free
    done (addAct (fixedAt (geodeticToEcef (spar64 r 1) (spar64 r 3) (spar r 5))) s)
  | 3 =>
    need (inRange (par r 1).toNat 60 86400) .range 1
    need (inRange (fld (par r 2) 0 15) 10 10000 && decide (fld (par r 2) 16 31 ≤ 500)) .range 2
    free
    done (addAct (.surveyIn (surveyOf r (par r 1).toNat (fld (par r 2) 0 15) (fld (par r 2) 16 31))) s)
  | 4 =>
    need (decide (nAntennas s.member = 2)) .range 0
    need (inRange (par r 1).toNat 60 86400) .range 1
    done (addAct (.baseline (surveyOf r (par r 1).toNat 0 0)) s)
  | 5 =>
    free
    done (addAct (.arpSet none) s)
  | _ => failWith .range 0

def descGnssSurvey : Desc :=
  ({ Desc.std 0x106 [3, 9, 8, 5, 4] 16 (fun r => decide (fld (par r 0) 0 2 = 0)) gnssSurveyBody with
      standbyOk := fun _ => true }).formLen surveyLen

/-! ### GNSS_GET_OBS (R115) -/

def obsWords (o : Obs) : List Word :=
  [wordOfFields [(o.channel, 0), (o.sig, 10), (natOfBool o.ant, 15), (o.svid, 16), (o.k, 24)],
   wordOf o.pr,
   wordOfFields [((o.pr / 2 ^ 32) % 65536, 0), (natOfBool o.prValid, 16), (natOfBool o.phValid, 17),
     (natOfBool o.halfUnres, 18), (natOfBool o.halfApplied, 19), (natOfBool o.slip, 20), (natOfBool o.belowMask, 21),
     (natOfBool o.excluded, 22), (o.slipCount % 16, 24)]] ++ wordsInt64 o.phase ++
  [wordOfInt o.doppler, wordOfFields [(o.cn0 % 65536, 0), (uint 16 o.monSym, 16)], wordOf o.lockTime]

/-- The records that a request's masks take: all antennas or systems where a mask is 0. -/
def obsMatch (antMask sysMask : Nat) (o : Obs) : Bool :=
  (decide (antMask = 0) || Nat.testBit antMask (natOfBool o.ant)) &&
    (decide (sysMask = 0) || Nat.testBit sysMask (sigInfo o.sig).sys)

/-- Words 3-8 of a response and the words 7-12 of a part: a window of matching records. -/
def obsHead (e : ObsEpoch) (total start n : Nat) : List Word :=
  let next := start + n
  [wordOfFields [(n, 0), (natOfBool (decide (next < total)), 9), (next, 16)], wordOf total] ++ words64 e.time ++
    [wordOfInt (sat32 e.clkBias), wordOfInt (sat32 e.clkDrift)]

def gnssGetObsBody (r : Req) (s : State) : Res := do
  let h := par r 0
  let mode := fld h 0 1
  let antMask := fld h 2 3
  let sysMask := fld h 4 9
  let start := fld h 16 25
  need (onlyBits h 0x3FF03FF && decide (mode ≠ 3)) .badParam 0
  need (!Nat.testBit antMask 1 || decide (nAntennas s.member = 2)) .range 0
  need (!s.gnss.epochs.isEmpty) .notReady 0
  match mode with
  | 0 =>
    let e? := if par64 r 1 = 0 then s.gnss.epochs.head? else s.gnss.epochs.find? (fun e => decide (e.time = par64 r 1))
    match e? with
    | none => failWith .state 3
    | some e =>
      let l := e.recs.filter (obsMatch antMask sysMask)
      let part := (l.drop start).take 256
      return (s, .ok 0 (obsHead e l.length start part.length ++ part.flatMap obsWords))
  | 1 =>
    need (decide (r.q < 16)) .state 2
    return (addAct (.obsSub r.q (some { antMask := antMask, sysMask := sysMask, tag := r.tag })) s, .ok 0 [])
  | _ => return (addAct (.obsSub r.q none) s, .ok 0 [])

def descGnssGetObs : Desc :=
  { Desc.std 0x108 [5] 2057 (fun r => decide (fld (par r 0) 0 1 = 0)) gnssGetObsBody with standbyOk := fun _ => true }

/-- Cuts a list into parts of at most n. -/
def chunksOf {α : Type} (n : Nat) : Nat → List α → List (List α)
  | 0, _ => []
  | f + 1, l => if l.isEmpty then [] else l.take n :: chunksOf n f (l.drop n)

/-- A host-rate epoch is streamed to its subscribers in parts of at most 128 records; one with no matching record goes as a
single empty part (DESIGN CHOICE, log 166: R115 says that every epoch is streamed). -/
def streamObs (e : ObsEpoch) (s : State) : State :=
  s.gnss.subs.foldl (fun a p =>
    let l := e.recs.filter (obsMatch p.2.antMask p.2.sysMask)
    let parts := if l.isEmpty then [[]] else chunksOf 128 l.length l
    ((List.range parts.length).zip parts).foldl (fun b q =>
      raise 0x0101 0 (wordOfFields [(q.1, 0), (parts.length, 8)] :: obsHead e l.length (128 * q.1) q.2.length ++
        q.2.flatMap obsWords) (.one p.1 p.2.tag) b) a) s

end Sys2Proof.Machine
end

