-- ==== Sys2Proof/Machine/PairOps.lean ====
section
/-! DEFINITION. Operations of the pair unit that other chapters call (chapter 17): leaving the ACTIVE role, asserting
PFAULT_OUT, changing the role, and what a change of role brings. -/
set_option autoImplicit false

namespace Sys2Proof.Machine

def roleNo : Role → Nat
  | .lone => 0 | .standby => 1 | .active => 2 | .arbitrating => 3

/-- CFG_MISMATCH (R391): both modules carry the same PREFER, or their PAIR_MAC differ. -/
def cfgMismatch (s : State) : Bool :=
  s.pair.laneUp && (match s.pair.partnerCfg with
    | some (p, m) => (p == s.pair.prefer) || decide (m ≠ s.pair.mac)
    | none => false)

/-- PAIR_GET word 3. -/
def pairWord3 (s : State) : Nat :=
  roleNo s.pair.role +
    4 * flagBits [s.pair.laneUp, s.pair.actIn, s.pair.pfaultIn, s.sys.pfaultOut, s.pair.synced, s.pair.partnerReady,
      cfgMismatch s, s.pair.mirrorIncompat, s.pair.interlockFault]

/-- EV_PAIR_STATE, and interrupt source 19 (R64, R407). -/
def pairState (s : State) : State :=
  setInt 19 (raise 0x0C01 (pairWord3 s % 4 + 16 * (pairWord3 s / 4)) [wordOf s.tick.number] .all s)

/-- The role changes: the configuration session closes (R431), and the change is reported. -/
def setRole (r : Role) (s : State) : State :=
  if s.pair.role = r then s
  else pairState (closeSession 4 { s with pair := { s.pair with role := r } })

/-- The time transfer of the Hexlux lane is a standby's source while the lane is up (R345, R346). -/
def partnerTime (s : State) : State :=
  reselect (if s.pair.role = .standby ∧ s.pair.laneUp = true then sourceHolds 5 s else loseSource 5 s)

/-- The frames that the module holds are discarded (R389). -/
def dropFrames (s : State) : State := { s with uz := { s.uz with held := [], staged := [], waiting := [] } }

/-- A command whose completion another module gives: its effect on the state that a standby follows stays. -/
def followed (r : Req) : Req := { r with q := 17, net := none, nr := true, job := none }

/-- The frames are discarded; the round that runs and the pending execute-at commands are left to the module that becomes
active (R46, R229, R389). -/
def dropFleet (s : State) : State :=
  { dropFrames s with
    execs := [], task := { s.task with run := none, runReq := none },
    time := { s.time with waiting := s.time.waiting.map (fun p => if p.req.at_ then { p with req := followed p.req } else p) } }

/-- The base and the ARP of a standby's solutions are the active module's (R162): its own leave, and the filters that rest on
them. -/
def leaveBase (s : State) : State :=
  { s with rse := { s.rse with
      bases := [], arp := none, rovers := s.rse.rovers.map (fun p => (p.1, { p.2 with filter := none })) } }

/-- Resets that wait are admitted on the active module only (R296). -/
def dropResets (s : State) : State :=
  let rs := s.stop.resets.filterMap (fun q => q.req) ++ s.stop.armed.map (fun p => p.1)
  rs.foldl (fun a r => complete r .standby 0 [] a) { s with stop := { s.stop with resets := [], armed := [] } }

/-- The module becomes a standby: it asks for a resync (R395). -/
def becomeStandby (s0 : State) : State :=
  let s := dropResets s0
  let s1 := setRole .standby (leaveBase (dropFleet { s with pair := { s.pair with synced := false, resync := true } }))
  partnerTime (ceaseFault 7 (if s1.pair.laneUp then emit (.lane 5 []) s1 else s1))

/-- A PAIR_SWITCH that has not acted when the module leaves the ACTIVE role otherwise ends as on a standby. -/
def dropSwitch (s : State) : State :=
  s.pair.switchReqs.foldl (fun a r => complete r .state 1 [] a) { s with pair := { s.pair with switchReqs := [] } }

/-- The module stops ACT_OUT and leaves the ACTIVE role (R389). -/
def leaveActive (s : State) : State := if s.pair.role = .active then becomeStandby (dropSwitch s) else s

/-- PFAULT_OUT is asserted (R389). -/
def assertPfault (s : State) : State := leaveActive { s with sys := { s.sys with pfaultOut := true } }

/-- The SerDes go off 50 us into a power-down sequence (R449). -/
def serdesOff (s : State) : Nat := s.sys.downAt + 50000

/-- The power-down sequence starts (R449): PFAULT_OUT is released, the role leaves ACTIVE, the yard outputs go off, and
no record or burst follows; a burst in progress ends when the SerDes go off. -/
def powerDown (s : State) : State :=
  let s1 := assertPfault s
  { s1 with
    sys := { s1.sys with power := .poweringDown, downAt := s1.up, junctionOff := s1.sys.junctionOff || s1.sys.junctionStop, junctionStop := false },
    spin := { s1.spin with driven := false },
    stop := { s1.stop with burst := match s1.stop.burst with
      | some b => if b.nextAt ≤ s1.up + 50000 then some b else none
      | none => none } }

/-- After a junction overtemperature the module powers down once the burst has ended (R458). -/
def afterBurst (s : State) : State :=
  if s.sys.junctionStop && s.stop.burst.isNone then powerDown s else s

/-- EV_PAIR_SWITCH at the first snapshot after a switch-over (R401, R407); LAST_SWITCH is the first tick run. -/
def recordSwitch (s : State) : State :=
  match s.pair.switchEvent with
  | some (cause, lat, n, gap, k) =>
    raise 0x0C00 (cause + 16 * natOfBool lat) [wordOf n, wordOf gap, wordOf k] .all
      { s with pair := { s.pair with switchEvent := none, lastSwitch := s.tick.number } }
  | none => s

end Sys2Proof.Machine
end

