-- ==== Sys2Proof/Machine/Msm.lean ====
section
/-! DEFINITION. The MSM messages of a rover (R135, R136; the layout is that of RTCM 10403.3, PRESUMED), and the carriers of
their signals. -/
set_option autoImplicit false

namespace Sys2Proof.Machine

/-- Bits of an RTCM message body, from bit lo of the body, n of them. -/
def rtcmField (body : List Byte) (lo n : Nat) : Nat := (beNat body / 2 ^ (8 * body.length - lo - n)) % 2 ^ n

/-- The same as a signed number; the most negative one says that there is no value. -/
def rtcmSigned (body : List Byte) (lo n : Nat) : Option Int :=
  let v := rtcmField body lo n
  if v = 2 ^ (n - 1) then none else some (if v < 2 ^ (n - 1) then (v : Int) else (v : Int) - 2 ^ n)

/-- The positions of the set bits of a mask of n bits, the most significant first, counted from 1. -/
def maskIds (mask n : Nat) : List Nat := (List.range n).filterMap (fun i => if Nat.testBit mask (n - 1 - i) then some (i + 1) else none)

/-- Widths in an MSM of type 4-7: range, phase, lock time and C/N0 fields, and the exponents of the range and phase units
(ms). -/
structure MsmShape where
  rangeBits : Nat
  phaseBits : Nat
  lockBits : Nat
  cn0Bits : Nat
  rangeExp : Nat
  phaseExp : Nat
  full : Bool
  deriving DecidableEq, Repr

/-- MSM4 and MSM5 have the short fields, MSM6 and MSM7 the long ones; MSM5 and MSM7 carry rates. -/
def msmShape (k : Nat) : MsmShape :=
  if k < 6 then
    { rangeBits := 15, phaseBits := 22, lockBits := 4, cn0Bits := 6, rangeExp := 24, phaseExp := 29, full := decide (k = 5) }
  else
    { rangeBits := 20, phaseBits := 24, lockBits := 10, cn0Bits := 10, rangeExp := 29, phaseExp := 31,
      full := decide (k = 7) }

/-- A cell: place of its satellite among the satellites, the satellite, the signal. -/
def msmCells (body : List Byte) : List (Nat × Nat × Nat) :=
  let sats := maskIds (rtcmField body 73 64) 64
  let sigs := maskIds (rtcmField body 137 32) 32
  let grid := ((List.range sats.length).zip sats).flatMap (fun a => sigs.map (fun g => (a.1, a.2, g)))
  ((List.range grid.length).zip grid).filterMap (fun p => if rtcmField body (169 + p.1) 1 = 1 then some p.2 else none)

/-- The signals of an MSM of a system, of type k (4-7). -/
def msmObs (sys k : Nat) (body : List Byte) : List RoverObs :=
  let m := msmShape k
  let nSat := (maskIds (rtcmField body 73 64) 64).length
  let nSig := (maskIds (rtcmField body 137 32) 32).length
  let cells := msmCells body
  let n := cells.length
  let s0 := 169 + nSat * nSig
  let info := s0 + 8 * nSat
  let fine := info + (if m.full then 4 else 0) * nSat
  let rough := fine + 10 * nSat
  let c0 := rough + (if m.full then 14 else 0) * nSat
  let c1 := c0 + m.rangeBits * n
  let c2 := c1 + m.phaseBits * n
  let c3 := c2 + m.lockBits * n
  let c4 := c3 + n
  let c5 := c4 + m.cn0Bits * n
  ((List.range n).zip cells).map (fun p =>
    let j := p.1
    let i := p.2.1
    let ms := rtcmField body (s0 + 8 * i) 8
    let r31 : Int := ((ms * 1024 + rtcmField body (fine + 10 * i) 10) * 2097152 : Nat)
    let ranged := fun (v : Option Int) (e : Nat) => if ms = 255 then none else v.map (fun x => r31 + x * 2 ^ (31 - e))
    let pr := ranged (rtcmSigned body (c0 + m.rangeBits * j) m.rangeBits) m.rangeExp
    let cn := rtcmField body (c4 + m.cn0Bits * j) m.cn0Bits
    let rate := if !m.full then none
      else match rtcmSigned body (rough + 14 * i) 14, rtcmSigned body (c5 + 15 * j) 15 with
        | some a, some b => some (10000 * a + b)
        | _, _ => none
    { sys := sys, svid := if sys = 4 then p.2.2.1 + 192 else p.2.2.1, id := p.2.2.2,
      k := if sys = 1 ∧ m.full = true then some (rtcmField body (info + 4 * i) 4) else none,
      pr := pr.map (fun x => roundQ (x * (299792458 * 64)) (2 ^ 31)),
      phase := ranged (rtcmSigned body (c1 + m.phaseBits * j) m.phaseBits) m.phaseExp, rate := rate,
      lock := rtcmField body (c2 + m.lockBits * j) m.lockBits, half := decide (rtcmField body (c3 + j) 1 = 1),
      cn0 := if m.cn0Bits = 6 then 100 * cn else roundQ (cn * 100 : Int) 16 |>.toNat })

/-- The signal code of the module that lies on the carrier of a signal ID of a system (GPS, GLONASS, Galileo, BeiDou,
QZSS). -/
def carrierSig (sys id : Nat) : Option Nat :=
  let has := fun (l : List Nat) (g : Nat) (o : Option Nat) => if l.contains id then some g else o
  match sys with
  | 0 => has [2, 3, 4, 30, 31, 32] 0 (has [8, 9, 10, 15, 16, 17] 2 (has [22, 23, 24] 3 none))
  | 1 => has [2, 3] 4 (has [8, 9] 5 none)
  | 2 => has [2, 3, 4, 5, 6] 6 (has [22, 23, 24] 7 (has [14, 15, 16] 8 (has [8, 9, 10, 11, 12] 9 none)))
  | 3 => has [2, 3, 4] 10 (has [30, 31, 32] 11 (has [22, 23, 24] 12 (has [8, 9, 10] 13 none)))
  | _ => has [2, 30, 31, 32] 14 (has [15, 16, 17] 16 (has [22, 23, 24] 17 (has [9, 10, 11] 18 none)))

/-- The signal ID that RTCM 10403.3 assigns to the component tracked. -/
def msmSignal (sig : Nat) : Nat :=
  match sig with
  | 0 | 4 | 6 | 10 | 14 => 2
  | 1 | 11 | 15 => 31
  | 2 | 16 => 16
  | 3 | 7 | 12 | 17 => 23
  | 5 | 9 | 13 => 8
  | 8 => 15
  | 18 => 9
  | _ => 0

/-- System of an observation message number by tens: GPS, GLONASS, Galileo, QZSS, BeiDou. -/
def msmSystem (num : Nat) : Option Nat := tabFind [(107, 0), (108, 1), (109, 2), (111, 4), (112, 3)] (num / 10)

/-- The biases of a 1230 message, mm: each signal's field is there where its mask bit is set, in the order L1 C/A, L1 P,
L2 C/A, L2 P; of a band the C/A one counts before the P one. -/
def biasFields (body : List Byte) : Option Int × Option Int :=
  let mask := rtcmField body 28 4
  let before := fun (i : Nat) => ((List.range i).filter (fun j => Nat.testBit mask (3 - j))).length
  let v := fun (i : Nat) =>
    if Nat.testBit mask (3 - i) then some (20 * (BitVec.ofNat 16 (rtcmField body (32 + 16 * before i) 16)).toInt) else none
  ((v 0).or (v 1), (v 2).or (v 3))

end Sys2Proof.Machine
end

