-- ==== Sys2Proof/Machine/Solver.lean ====
section
/-! DEFINITION. What a rover's solution is made of (R139-R149): the base observations at the rover's epoch, the signals used
and their weights, the slip tests, the filter's process, entry and change of reference, and the integer resolution. The
arithmetic that the specification only names is opaque (log 168). -/
set_option autoImplicit false

namespace Sys2Proof.Machine

/-- Light, mm/s. -/
def lightMm : Nat := 299792458000

/-! ### Base observations at a rover epoch (R139, R158) -/

def slotNs : Nat := 50000000

/-- Phase (2^-16 cycle) and code (2^-6 mm) of a record moved by a time in ns with its Doppler. -/
def driftObs (dt : Int) (o : Obs) : Obs :=
  let f := carrierHz o.sig o.k
  { o with phase := o.phase - roundQ (o.doppler * dt * 65536) 1000000000000,
           pr := ((o.pr : Int) - roundQ (o.doppler * dt * lightMm * 64) (1000000000000 * f)).toNat }

/-- The cubic Hermite value at n ns of a slot, of two values and their derivatives per slot, the latter times k. -/
def hermite (n k : Nat) (p0 p1 m0 m1 : Int) : Int :=
  let d : Int := slotNs
  let x : Int := n
  let h01 := x * x * (3 * d - 2 * x)
  roundQ (k * ((d * d * d - h01) * p0 + h01 * p1) + x * (d - x) * ((d - x) * m0 - x * m1)) (k * slotNs ^ 3)

/-- A point between two. -/
def between (n : Nat) (a b : Ecef) : Ecef :=
  let f := fun (x y : Int) => x + roundQ ((y - x) * n) slotNs
  (f a.1 b.1, f a.2.1 b.2.1, f a.2.2 b.2.2)

/-- A signal at n ns after the first of two base epochs; none where it slipped between them. -/
def interpObs (n : Nat) (a b : SatObs) : Option SatObs :=
  let x := a.rec_
  let y := b.rec_
  if y.slip then none
  else
    let f := carrierHz y.sig y.k
    let range := fun (o : Obs) => -o.doppler * (lightMm * 64)
    let rec_ := { y with
      phase := hermite n 20000 x.phase y.phase (-x.doppler * 65536) (-y.doppler * 65536),
      pr := (hermite n (20000 * f) x.pr y.pr (range x) (range y)).toNat,
      prValid := x.prValid && y.prValid, phValid := x.phValid && y.phValid, halfUnres := x.halfUnres || y.halfUnres,
      belowMask := x.belowMask || y.belowMask, excluded := x.excluded || y.excluded, cn0 := min x.cn0 y.cn0 }
    some { rec_ := rec_, sat := match a.sat, b.sat with
      | some p, some q => some (between n p q)
      | p, q => p.or q }

def sameTracked (a b : Obs) : Bool := decide (a.sig = b.sig ∧ a.svid = b.svid ∧ a.k = b.k)

/-- The base observations interpolated between two epochs; a signal missing from either is left out. -/
def interpBase (n : Nat) (a b : List SatObs) : List SatObs :=
  b.filterMap (fun y => (a.find? (fun x => sameTracked x.rec_ y.rec_)).bind (fun x => interpObs n x y))

/-! ### Signals used and their weights (R143-R145) -/

/-- 10^(x / 1000), 2^-96: of x in 0.01 dB the ratio of powers. -/
def dbGo : Nat → Nat → Nat → Nat → Nat
  | 0, _, _, a => a
  | n + 1, c, x, a => dbGo n (c * c / 2 ^ 96) (x / 2) (if x % 2 = 1 then a * c / 2 ^ 96 else a)

def dbRatio (x : Nat) : Nat := dbGo 16 79410802291334243152930988449 x (2 ^ 96)

/-- Variance (2^-8 mm^2) of an observation on one end, a = b, of the elevation's sine. -/
def endVar (a : Nat) (sinEl : Int) : Nat :=
  let s := max 1 (sinEl * sinEl).toNat
  256 * a * a + 256 * a * a * 2 ^ 60 / s

/-- The variance of a signal of both ends; below 35 dB-Hz on either the weight falls (the lower C/N0 counts). -/
def pairVar (a : Nat) (sinR sinB : Int) (cn0 : Nat) : Nat :=
  (endVar a sinR + endVar a sinB) * dbRatio (3500 - cn0) / 2 ^ 96

/-- The base's record on the carrier of a rover's observation, usable on both ends: the same signal ID first, else the lowest
SIG. -/
def baseFor (o : RoverObs) (g : Nat) (recs : List SatObs) : Option SatObs :=
  let on := recs.filter (fun p => decide (
    p.rec_.ant = false ∧ (sigInfo p.rec_.sig).sys = o.sys ∧ p.rec_.svid = o.svid ∧
    carrierHz p.rec_.sig p.rec_.k = carrierHz g p.rec_.k ∧ p.rec_.excluded = false ∧ p.rec_.belowMask = false) &&
    (match o.k with
     | some k => decide (k = p.rec_.k)
     | none => true))
  match on.find? (fun p => decide (msmSignal p.rec_.sig = o.id)) with
  | some p => some p
  | none => on.find? (fun p => on.all (fun q => decide (p.rec_.sig ≤ q.rec_.sig)))

/-- A rover's observation against the base's (R143). -/
def pairSignal (c : RoverCfg) (arp pos : Ecef) (recs : List SatObs) (o : RoverObs) : Option DdSignal :=
  match carrierSig o.sys o.id with
  | none => none
  | some g =>
    match baseFor o g recs with
    | none => none
    | some p => p.sat.bind (fun sat =>
      let sR := (direction pos sat).2.2
      let sB := (direction arp sat).2.2
      let low := min o.cn0 p.rec_.cn0
      if sR < sinDeg c.elevMask ∨ sB < sinDeg c.elevMask ∨ low < 100 * c.cn0Mask then none
      else some { sig := g, rover := o, base := p.rec_, sat := sat, sinRover := sR, sinBase := sB,
                  varCode := pairVar 300 sR sB low, varPhase := pairVar 3 sR sB low })

/-- Bands in the order L1, L5, L2, E6. -/
def bandRank (sig : Nat) : Nat := [0, 2, 1, 3].getD (sigInfo sig).band 3

def sameSv (a b : DdSignal) : Bool := decide (a.rover.sys = b.rover.sys ∧ a.rover.svid = b.rover.svid)

/-- The carrier comes before another in the order of bands. -/
def carrierBefore (a b : DdSignal) : Bool :=
  decide (bandRank a.sig < bandRank b.sig) || (decide (bandRank a.sig = bandRank b.sig) && decide (a.sig < b.sig))

/-- One signal per satellite and carrier: that of the lowest signal ID. -/
def oneOfCarrier (l : List DdSignal) : List DdSignal :=
  l.filter (fun a => l.all (fun b => !(sameSv a b && decide (a.sig = b.sig)) || decide (a.rover.id ≤ b.rover.id)))

/-- At most FREQS carriers of a satellite, in the order of bands. -/
def firstCarriers (n : Nat) (l : List DdSignal) : List DdSignal :=
  l.filter (fun a => decide ((l.filter (fun b => sameSv a b && carrierBefore b a)).length < n))

/-- A signal has valid phase on both ends. -/
def hasPhase (s : DdSignal) : Bool := s.rover.phase.isSome && s.base.phValid

/-- The reference satellite of a carrier: of those with phase on both ends the highest, of equals the lowest number. -/
def refOf (l : List DdSignal) (g : Nat) : Option Nat :=
  let on := l.filter (fun s => hasPhase s && decide (s.sig = g))
  (on.find? (fun s => on.all (fun u =>
    decide (u.sinBase < s.sinBase) || (decide (u.sinBase = s.sinBase) && decide (s.rover.svid ≤ u.rover.svid))))).map
    (fun s => s.rover.svid)

/-- The references of the carriers. -/
def refsOf (l : List DdSignal) : Tab Nat :=
  (List.range 21).filterMap (fun g => (refOf l g).map (fun v => (g, v)))

/-- The signal needs an ambiguity state: phase on both ends, and not a reference. -/
def needsAmb (refs : Tab Nat) (s : DdSignal) : Bool := hasPhase s && decide (tabFind refs s.sig ≠ some s.rover.svid)

/-- Without its lowest satellite. -/
def dropLowest (l : List DdSignal) : List DdSignal :=
  match l with
  | [] => []
  | a :: r =>
    let low := r.foldl (fun m s => if s.sinBase < m.sinBase then s else m) a
    l.filter (fun s => !sameSv s low)

/-- Satellites go, the lowest first, until the ambiguities fit. -/
def fitAmbs (maxAmb : Nat) : Nat → List DdSignal → List DdSignal
  | 0, l => l
  | n + 1, l => if (l.filter (needsAmb (refsOf l))).length ≤ maxAmb then l else fitAmbs maxAmb n (dropLowest l)

/-- The signals of a solve (R143); none of their phases where phase is held out (R161). -/
def selectSignals (c : RoverCfg) (maxAmb : Nat) (noPhase : Bool) (arp pos : Ecef) (obs : List RoverObs)
    (recs : List SatObs) : List DdSignal :=
  let all := obs.filterMap (fun o => pairSignal c arp pos recs (if noPhase then { o with phase := none } else o))
  let l := firstCarriers c.freqs (oneOfCarrier all)
  fitAmbs maxAmb l.length l

/-- How many satellites signals are of. -/
def svCount (l : List DdSignal) : Nat :=
  (l.foldl (fun (a : List DdSignal) s => if a.any (sameSv s) then a else s :: a) []).length

/-- A length in 2^-6 mm as 2^-16 cycle of a carrier. -/
def cyclesOf (f : Nat) (x : Int) : Int := roundQ (x * f * 1024) lightMm

/-- A rover's phase, 2^-31 ms, as 2^-16 cycle. -/
def roverCycles (f : Nat) (x : Int) : Int := roundQ (x * f) 32768000

/-- The troposphere taken off both ends (R145), zenith delays in 2^-6 mm. -/
def noTropo (zR zB : Nat) (s : DdSignal) : DdSignal :=
  let dR := roundQ ((zR : Int) * 1073741824) (max 1 s.sinRover).toNat
  let dB := roundQ ((zB : Int) * 1073741824) (max 1 s.sinBase).toNat
  { s with
    rover := { s.rover with pr := s.rover.pr.map (fun x => x - dR),
                            phase := s.rover.phase.map (fun x => x - roundQ (dR * 2 ^ 31) (64 * 299792458)) },
    base := { s.base with pr := ((s.base.pr : Int) - dB).toNat,
                          phase := s.base.phase - cyclesOf (carrierHz s.base.sig s.base.k) dB } }

/-! ### Slips (R149) -/

/-- A carrier of a rover's observation, Hz. -/
def roverHz (o : RoverObs) (g : Nat) : Nat := carrierHz g (o.k.getD 7)

/-- A phase in 2^-31 ms as 2^-6 mm. -/
def phaseRange (x : Int) : Int := roundQ (x * (299792458 * 64)) (2 ^ 31)

/-- The tests of one signal against the epoch before: lock time, half-cycle indicator, and the phase against the mean of
the two rates over the time between. -/
def signalSlips (dt : Nat) (a b : RoverObs) : Bool :=
  let wave := match carrierSig b.sys b.id with
    | some g => lightMm * 64 / roverHz b g
    | none => 0
  decide (b.lock < a.lock ∨ b.lock = 0) || (a.half != b.half) ||
    (match a.phase, b.phase, a.rate, b.rate with
     | some p, some q, some v, some w =>
       decide (wave < 4 * (phaseRange (q - p) - roundQ ((v + w) * dt * 64) 20000000000).natAbs)
     | _, _, _, _ => false)

def sameRover (a b : RoverObs) : Bool := decide (a.sys = b.sys ∧ a.svid = b.svid ∧ a.id = b.id)

/-- The geometry-free combination of two signals jumped by more than 50 mm. -/
def geoFreeJump (prev : List RoverObs) (b c : RoverObs) : Bool :=
  decide (b.sys = c.sys ∧ b.svid = c.svid) && decide (carrierSig b.sys b.id ≠ carrierSig c.sys c.id) &&
    (match prev.find? (sameRover b), prev.find? (sameRover c), b.phase, c.phase with
     | some b0, some c0, some y, some z =>
       match b0.phase, c0.phase with
       | some y0, some z0 => decide (3200 < (phaseRange ((y - z) - (y0 - z0))).natAbs)
       | _, _ => false
     | _, _, _, _ => false)

/-- The signals that slipped since the epoch before, on the rover or (satellite, SIG) on the base. -/
def slippedObs (dt : Nat) (prev : List RoverObs) (base : List (Nat × Nat)) (obs : List RoverObs) : List RoverObs :=
  obs.filter (fun b =>
    (match prev.find? (sameRover b) with
     | some a => signalSlips dt a b
     | none => false) ||
    obs.any (geoFreeJump prev b) ||
    (match carrierSig b.sys b.id with
     | some g => base.any (fun z => decide (z.1 = b.svid ∧ (sigInfo z.2).sys = b.sys ∧ (sigInfo z.2).carrier = (sigInfo g).carrier))
     | none => false))

/-- An ambiguity is of one of the signals, or refers to one: a slip of the reference is one of each ambiguity against
it. -/
def ambSlipped (refs : Tab Nat) (slipped : List RoverObs) (a : Amb) : Bool :=
  slipped.any (fun o => decide (carrierSig o.sys o.id = some a.sig) &&
    (decide (o.svid = a.svid) || decide (tabFind refs a.sig = some o.svid)))

/-! ### The filter (R146) -/

/-- A vector and a covariance through rows of coefficients over a common denominator. -/
def linVec (rows : List (List (Nat × Int))) (d : Nat) (x : List Int) : List Int :=
  rows.map (fun r => roundQ ((r.map (fun p => p.2 * x.getD p.1 0)).sum) d)

def covAt (c : List (List Int)) (i j : Nat) : Int := (c.getD i []).getD j 0

def linCov (rows : List (List (Nat × Int))) (d : Nat) (c : List (List Int)) : List (List Int) :=
  rows.map (fun r => rows.map (fun q =>
    roundQ ((r.map (fun a => (q.map (fun b => a.2 * b.2 * covAt c a.1 b.1)).sum)).sum) (d * d)))

/-- The states 0-6 as they are. -/
def coreRows : List (List (Nat × Int)) := (List.range 7).map (fun i => [(i, 1)])

/-- A filter whose states are combinations of the old ones. -/
def mapFilter (rows : List (List (Nat × Int))) (d : Nat) (ambs : List Amb) (f : Filter) : Filter :=
  let x := linVec rows d (f.core ++ f.ambs.map (fun a => a.value))
  { f with core := x.take 7, ambs := (ambs.zip (x.drop 7)).map (fun p => { p.1 with value := p.2 }), cov := linCov rows d f.cov }

def withIx (l : List Amb) : List (Nat × Amb) := (List.range l.length).zip l

/-- Ambiguities leave the filter. -/
def keepAmbs (p : Amb → Bool) (f : Filter) : Filter :=
  let kept := (withIx f.ambs).filter (fun q => p q.2)
  mapFilter (coreRows ++ kept.map (fun q => [(7 + q.1, 1)])) 1 (kept.map (fun q => q.2)) f

/-- A covariance plus a term for each pair of states. -/
def addCov (g : Nat → Nat → Int) (c : List (List Int)) : List (List Int) :=
  ((List.range c.length).zip c).map (fun p =>
    ((List.range p.2.length).zip p.2).map (fun q => q.2 + g p.1 q.1))

/-- The noise of a white acceleration of density (A_MAX/2)^2 mm^2/s^3 over dt ns, 2^-16. -/
def accelNoise (aMax dt i j : Nat) : Int :=
  let q : Int := aMax * aMax * dt * 65536
  if 6 ≤ i ∨ 6 ≤ j ∨ i % 3 ≠ j % 3 then 0
  else if i < 3 ∧ j < 3 then roundQ (q * dt * dt) (12 * 10 ^ 27)
  else if 3 ≤ i ∧ 3 ≤ j then roundQ q (4 * 10 ^ 9)
  else roundQ (q * dt) (8 * 10 ^ 18)

/-- The filter at a later time: constant velocity with that noise. -/
def predict (aMax t : Nat) (f : Filter) : Filter :=
  let dt := t - f.time
  let one : Int := 1000000000
  let rows := (List.range 3).map (fun i => [(i, one), (i + 3, (dt : Int))]) ++
    (List.range (4 + f.ambs.length)).map (fun i => [(i + 3, one)])
  let g := mapFilter rows 1000000000 f.ambs f
  { g with time := t, cov := addCov (accelNoise aMax dt) g.cov }

/-- An ambiguity under new references: the old one less that of the new reference; the new reference's own becomes the old
reference's. Without an ambiguity of the new reference it leaves. -/
def rerefAmb (f : Filter) (refs : Tab Nat) (i : Nat) (a : Amb) : Option (Amb × List (Nat × Int)) :=
  match tabFind f.refs a.sig, tabFind refs a.sig with
  | some o, some n =>
    if o = n then some (a, [(7 + i, 1)])
    else if a.svid = n then some ({ a with svid := o, int := -a.int }, [(7 + i, -1)])
    else ((withIx f.ambs).find? (fun q => decide (q.2.svid = n ∧ q.2.sig = a.sig))).map (fun q =>
      ({ a with int := a.int - q.2.int }, [(7 + i, 1), (7 + q.1, -1)]))
  | _, _ => none

/-- A change of reference satellites transforms the ambiguities exactly and keeps their fixed status (R146). -/
def reref (refs : Tab Nat) (f : Filter) : Filter :=
  let l := (withIx f.ambs).filterMap (fun q => rerefAmb f refs q.1 q.2)
  { mapFilter (coreRows ++ l.map (fun p => p.2)) 1 (l.map (fun p => p.1)) f with refs := refs }

/-- Phase less code of a signal, rover less base, 2^-16 cycle. -/
def codeMinusPhase (s : DdSignal) : Option Int :=
  let f := carrierHz s.base.sig s.base.k
  match s.rover.pr, s.rover.phase with
  | some p, some q =>
    if s.base.prValid then some (roverCycles f q - cyclesOf f p - (s.base.phase - cyclesOf f s.base.pr)) else none
  | _, _ => none

/-- Nearest integer of a value in 2^-16. -/
def nearestInt (x : Int) : Int := roundQ x 65536

/-- A new ambiguity enters with its code-minus-phase value and the variance of that, never below (10 m)^2. -/
def enterAmb (ref s : DdSignal) (f : Filter) : Filter :=
  match codeMinusPhase ref, codeMinusPhase s with
  | some r, some v =>
    let hz := carrierHz s.base.sig s.base.k
    let var := max (ref.varCode + ref.varPhase + s.varCode + s.varPhase) (256 * 10 ^ 8)
    let a : Amb := { svid := s.rover.svid, sig := s.sig, value := v - r, int := nearestInt (v - r), fixed := false,
                     held := false, age := 0, fixRun := 0 }
    { f with ambs := f.ambs ++ [a],
             cov := f.cov.map (fun row => row ++ [0]) ++
               [List.replicate (7 + f.ambs.length) 0 ++ [roundQ (var * 256 * (hz * hz) : Nat) (lightMm * lightMm)]] }
  | _, _ => f

/-- Every signal that needs one and has none gets an ambiguity; those of signals not used leave. -/
def matchAmbs (l : List DdSignal) (f : Filter) : Filter :=
  let need := l.filter (needsAmb f.refs)
  let is := fun (s : DdSignal) (a : Amb) => decide (s.sig = a.sig ∧ s.rover.svid = a.svid)
  let g := keepAmbs (fun a => need.any (fun s => is s a)) f
  need.foldl (fun h s =>
    if h.ambs.any (is s) then h
    else match l.find? (fun u => decide (u.sig = s.sig ∧ tabFind f.refs u.sig = some u.rover.svid)) with
      | some r => enterAmb r s h
      | none => h) g

/-- A vector from the ARP as east, north, up, 2^-16 mm; and back. -/
def fromArp (arp p : Ecef) : List Int :=
  let (e, n, u) := localAxes arp
  let d := sub3 p arp
  [e, n, u].map (fun a => roundQ (dot3 d a * 65536) 1073741824)

def toEcef (arp : Ecef) (x : List Int) : Ecef :=
  let (e, n, u) := localAxes arp
  let f := fun (a b c : Int) => roundQ (x.getD 0 0 * a + x.getD 1 0 * b + x.getD 2 0 * c) (65536 * 1073741824)
  (arp.1 + f e.1 n.1 u.1, arp.2.1 + f e.2.1 n.2.1 u.2.1, arp.2.2 + f e.2.2 n.2.2 u.2.2)

/-- A diagonal covariance. -/
def diagCov (l : List Int) : List (List Int) :=
  (List.range l.length).map (fun i => (List.range l.length).map (fun j => if i = j then l.getD i 0 else 0))

/-- A filter starts at the code solution. -/
def startFilter (t : Nat) (arp pos : Ecef) : Filter :=
  { time := t, core := fromArp arp pos ++ [0, 0, 0, 0], ambs := [], cov := diagCov ((List.range 7).map Config.startVariance),
    refs := [] }

/-- A filter re-based at a position known to 10 mm (R163): every ambiguity leaves. -/
def rebaseFilter (arp pos : Ecef) (f : Filter) : Filter :=
  let g := keepAmbs (fun _ => false) f
  let c := linCov ([[], [], []] ++ (List.range 4).map (fun i => [(i + 3, 1)])) 1 g.cov
  { g with core := fromArp arp pos ++ g.core.drop 3, cov := addCov (fun i j => if i = j ∧ i < 3 then 6553600 else 0) c }

/-- The filter after a float update. -/
def afterFloat (o : FloatOut) (f : Filter) : Filter :=
  let n := 7 + f.ambs.length
  { f with
    core := (List.range 7).map (fun i => o.core.getD i 0),
    ambs := (withIx f.ambs).map (fun q =>
      let v := o.values.getD q.1 0
      { q.2 with value := v, int := if q.2.fixed || q.2.held then q.2.int else nearestInt v,
                 age := if covAt o.cov (7 + q.1) (7 + q.1) ≤ 4096 then q.2.age + 1 else 0 }),
    cov := (List.range n).map (fun i => (List.range n).map (fun j => covAt o.cov i j)) }

/-! ### Integer resolution (R145, R147, R148) -/

/-- Combinations of ambiguities searched: rows of places and coefficients, with the last ratio. -/
def searchRows (f : Filter) (rows : List (List (Nat × Int))) : List Int × Nat :=
  let at7 := rows.map (fun r => r.map (fun p => (7 + p.1, p.2)))
  Config.integerSearch (linVec at7 1 (f.core ++ f.ambs.map (fun a => a.value))) (linCov at7 1 f.cov)

/-- Without the row of the largest variance. -/
def dropLargest (f : Filter) (rows : List (List (Nat × Int))) : List (List (Nat × Int)) :=
  let var := fun (r : List (Nat × Int)) =>
    (r.map (fun a => (r.map (fun b => a.2 * b.2 * covAt f.cov (7 + a.1) (7 + b.1))).sum)).sum
  match rows with
  | [] => []
  | a :: l =>
    let m := l.foldl (fun m r => if var m < var r then r else m) a
    rows.filter (fun r => decide (r ≠ m))

/-- The partial search: until the ratio passes or fewer than PAR_MIN remain. -/
def partialSearch (f : Filter) (thr parMin : Nat) : Nat → List (List (Nat × Int)) → Nat →
    List (List (Nat × Int) × Int) × Nat
  | 0, _, ratio => ([], ratio)
  | n + 1, rows, ratio =>
    if rows.isEmpty ∨ rows.length < parMin then ([], ratio)
    else
      let (ints, q) := searchRows f rows
      if thr ≤ q then (rows.zip ints, q) else partialSearch f thr parMin n (dropLargest f rows) q

/-- The full set first, which wants 5 satellites, then subsets: the rows resolved with their integers, and the ratio. -/
def resolveRows (c : RoverCfg) (sats : Nat) (f : Filter) (rows : List (List (Nat × Int))) :
    List (List (Nat × Int) × Int) × Nat :=
  if rows.isEmpty then ([], 0)
  else
    let (ints, q) := searchRows f rows
    if 10 * c.ratioThr ≤ q ∧ 5 ≤ sats then (rows.zip ints, q)
    else partialSearch f (10 * c.ratioThr) c.parMin rows.length (dropLargest f rows) q

/-- The eligible ambiguities of a satellite on its first two carriers. -/
def widePairs (f : Filter) (elig : List Nat) : List (Nat × Nat) :=
  let l := (withIx f.ambs).filter (fun q => elig.contains q.1)
  let before := fun (a b : Amb) => decide (bandRank a.sig < bandRank b.sig ∨ (bandRank a.sig = bandRank b.sig ∧ a.sig < b.sig))
  l.filterMap (fun q =>
    let mates := l.filter (fun u => decide (u.2.svid = q.2.svid ∧ (sigInfo u.2.sig).sys = (sigInfo q.2.sig).sys ∧ u.1 ≠ q.1))
    if mates.any (fun u => before u.2 q.2) then none
    else (mates.find? (fun u => mates.all (fun w => decide (w.1 = u.1) || before u.2 w.2))).map (fun u => (q.1, u.1)))

/-- What the resolution of an epoch finds: places and integers, and the last ratio. At a long baseline the wide lanes come
first, then the narrow lanes of those found, ionosphere-free. -/
def resolve (c : RoverCfg) (sats : Nat) (inp : FloatIn) (f : Filter) (elig : List Nat) : List (Nat × Int) × Nat :=
  if !inp.longBl then
    let (l, q) := resolveRows c sats f (elig.map (fun i => [(i, 1)]))
    (l.map (fun p => ((p.1.headD (0, 0)).1, p.2)), q)
  else if c.freqs = 1 then ([], 0)
  else
    let pairs := widePairs f elig
    let (wl, q1) := resolveRows c sats f (pairs.map (fun p => [(p.1, 1), (p.2, -1)]))
    let wide := wl.map (fun p => ((p.1.headD (0, 0)).1, (p.1.getLastD (0, 0)).1, p.2))
    if wide.isEmpty then ([], q1)
    else
      let g := afterFloat (Config.floatUpdate { inp with wide := wide }) f
      let (nl, q2) := resolveRows c sats g (wide.map (fun p => [(p.1, 1)]))
      (nl.flatMap (fun p =>
        let i := (p.1.headD (0, 0)).1
        match wide.find? (fun w => decide (w.1 = i)) with
        | some w => [(i, p.2), (w.2.1, p.2 - w.2.2)]
        | none => [(i, p.2)]), q2)

end Sys2Proof.Machine
end

