-- ==== Sys2Proof/Machine/Rover.lean ====
section
/-! DEFINITION. The Rover Solution Engine (chapter 06): bindings and capacity, the assembly of rover epochs, the choice of
what is solved, the status of a fix, the fix a tick uses, and the ROVER commands. -/
set_option autoImplicit false

namespace Sys2Proof.Machine

def getRover (s : State) (r : Nat) : Rover := tabGet s.rse.rovers r Rover.init

def setRover (r : Nat) (x : Rover) (s : State) : State :=
  { s with rse := { s.rse with rovers := tabSet s.rse.rovers r x } }

def modRover (r : Nat) (f : Rover → Rover) (s : State) : State := setRover r (f (getRover s r)) s

def modStats (r : Nat) (f : RoverStats → RoverStats) (s : State) : State :=
  modRover r (fun x => { x with stats := f x.stats }) s

/-! ### Capacity (R155, R156) -/

/-- c(n) in kFMA. -/
def solveCost (n : Nat) : Nat := ceilDiv (3200 * (n + 8) ^ 3) 1124864

/-- The budget B of a slot. -/
def solveBudget (s : State) : Nat := s.rse.lanes * s.rse.mhz * 5

def rateHz (code : Nat) : Nat := [1, 2, 5, 10, 20].getD code 1

/-- A binding has an epoch in slot k (R138). -/
def inSlot (b : Binding) (k : Nat) : Bool :=
  decide ((20 + k - b.phase) % (20 / rateHz b.rate) = 0)

/-- Load of a slot: the rovers that are not suspended. -/
def slotLoad (s : State) (k : Nat) : Nat :=
  (s.rse.rovers.map (fun p => match p.2.binding with
    | some b => if !p.2.suspended && inSlot b k then solveCost b.maxAmb else 0
    | none => 0)).sum

def peakLoad (s : State) : Nat := ((List.range 20).map (slotLoad s)).foldl max 0

/-- The first slot that exceeds the budget. -/
def overSlot (s : State) : Option Nat := (List.range 20).find? (fun k => decide (solveBudget s < slotLoad s k))

/-- Suspends bound rovers of the slots in excess, highest robot ID first, until every slot fits. -/
def suspendRovers (s : State) : State :=
  s.rse.rovers.reverse.foldl (fun a p =>
    match overSlot a, p.2.binding with
    | some _, some b =>
      if !(getRover a p.1).suspended &&
          (List.range 20).any (fun k => decide (solveBudget a < slotLoad a k) && inSlot b k)
      then modRover p.1 (fun x => { x with suspended := true }) a else a
    | _, _ => a) s

/-- Resumes suspended rovers in ascending robot ID while they fit. -/
def resumeRovers (s : State) : State :=
  s.rse.rovers.foldl (fun a p =>
    if (getRover a p.1).suspended && (getRover a p.1).binding.isSome then
      let b := modRover p.1 (fun x => { x with suspended := false }) a
      if (overSlot b).isNone then b else a
    else a) s

def suspendedMask (s : State) : Nat :=
  s.rse.rovers.foldl (fun a p => if p.2.suspended then a + 2 ^ p.1 else a) 0

/-- L or f changed: B is recomputed, rovers are suspended where a slot no longer fits, and EV_ROVER_CAPACITY goes out. -/
def capacityChange (s : State) : State :=
  let s1 := suspendRovers s
  let m := suspendedMask s1
  raise 0x0302 ((s1.rse.rovers.filter (fun p => p.2.suspended)).length)
    ([wordOfFields [(s1.rse.lanes, 0), (s1.rse.mhz, 16)], wordOf (solveBudget s1)] ++
      words64 m ++ words64 (m / 2 ^ 64)) .all s1

/-- The SOLVE clock in force is the lower of f_therm and the f of re-planning; each change acts under R156 (R457). -/
def setSolve (s : State) : State :=
  let f := min s.health.fTherm s.health.margins.solveMhz
  if f = s.rse.mhz then s else capacityChange { s with rse := { s.rse with mhz := f } }

/-- A SOLVE frequency that re-planning chose takes force at its whole second (R435). -/
def applySolve (s : State) : State :=
  match s.health.margins.solvePending with
  | some (f, sec) =>
    if sec * nsPerSec ≤ s.now then
      let m := { s.health.margins with solveMhz := f, solvePending := none }
      setSolve { s with health := { s.health with margins := m } }
    else s
  | none => s

/-! ### Actions at the slot boundary (R164, R165) -/

/-- Unbinding clears the slot; its settings stay, the biases of ROVER_CFG among them (R137). -/
def clearedRover (x : Rover) : Rover :=
  { Rover.init with cfg := x.cfg, cfgBiases := x.cfgBiases,
                    biases := if x.cfgBiases then some (x.cfg.gloBias1, x.cfg.gloBias2) else none }

/-- The clusters that solve a robot stop. -/
def freeClusters (r : Nat) (s : State) : State :=
  { s with rse := { s.rse with clusters := s.rse.clusters.map (fun c => if c = some r then none else c) } }

def applyRoverAct (s : State) (a : RoverAct) : State :=
  match a with
  | .bind r b =>
    resumeRovers (suspendRovers (modRover r (fun x =>
      { (if x.binding.isSome then x else clearedRover x) with binding := some b, suspended := false }) s))
  | .unbind r => resumeRovers (modRover r clearedRover (freeClusters r s))
  | .cfg r c => modRover r (fun x => { x with cfg := c, cfgBiases := true, biases := some (c.gloBias1, c.gloBias2) }) s
  | .sub q x => { s with rse := { s.rse with subs := tabSet s.rse.subs q x } }
  | .unsub q => { s with rse := { s.rse with subs := tabDel s.rse.subs q } }

/-- The state with every waiting action carried out: at the slot boundary, and for what commands report (R467). -/
def rseView (s : State) : State := s.rse.acts.foldl applyRoverAct { s with rse := { s.rse with acts := [] } }

def addRoverAct (a : RoverAct) (s : State) : State := { s with rse := { s.rse with acts := s.rse.acts ++ [a] } }

/-! ### Assembly of rover epochs (R134-R141) -/

/-- The base epoch at or after a time, and its slot number. -/
def baseOf (t : Nat) : Nat := ceilDiv t slotNs * slotNs

def slotOf (t : Nat) : Nat := (baseOf t % nsPerSec) / slotNs

/-- An open epoch closes: it is discarded, or waits for its base epoch and a cluster. -/
def closeEpoch (r : Nat) (wait : Bool) (s : State) : State :=
  let x := getRover s r
  match x.open_, x.binding with
  | some e, some b =>
    let y := { x with open_ := none }
    let st := y.stats
    let done := { e with closedAt := s.now, isPartial := wait }
    if e.future then setRover r { y with stats := { st with future := cnt32 st.future } } s
    else if !inSlot b (slotOf e.time) then setRover r { y with stats := { st with offGrid := cnt32 st.offGrid } } s
    else if y.lastSlot = baseOf e.time then setRover r { y with stats := { st with duplicate := cnt32 st.duplicate } } s
    else
      let st' := if wait then { st with partialEpochs := cnt32 st.partialEpochs } else st
      setRover r { y with ready := y.ready ++ [done], lastClosed := max y.lastClosed e.time, lastSlot := baseOf e.time,
                          stats := st' } s
  | _, _ => setRover r { x with open_ := none } s

/-- An accepted MSM of a system and epoch, with its signals (R136). -/
def addMsm (r sys t : Nat) (more : Bool) (obs : List RoverObs) (s : State) : State :=
  let x := getRover s r
  let older := match x.open_ with
    | some e => decide (t < e.time)
    | none => false
  if (decide (x.lastClosed ≠ 0) && decide (t ≤ x.lastClosed)) || older then
    modStats r (fun c => { c with tooOld := cnt32 c.tooOld }) s
  else
    let s1 := match x.open_ with
      | some e => if e.time = t then s else closeEpoch r true s
      | none => s
    let y := getRover s1 r
    let e := y.open_.getD { time := t, systems := [], obs := [], firstAt := s1.up, lastAt := s1.now, closedAt := 0,
                            isPartial := false, future := decide (s1.now + nsPerSec < t) }
    if e.systems.contains sys then modStats r (fun c => { c with duplicate := cnt32 c.duplicate }) s1
    else
      let e2 := { e with systems := e.systems ++ [sys], obs := e.obs ++ obs, lastAt := s1.now }
      let s2 := setRover r { y with open_ := some e2 } s1
      if more then s2 else closeEpoch r false s2

/-- EPOCH_WAIT_EXPIRE (R136). -/
def execEpochWaitExpire (r : Nat) (s : State) : Host.Outcome State Fault Refusal :=
  if nRobots s.member ≤ r then .fault .noSuchUnit
  else .next (match (getRover s r).open_ with
    | some e => if powered s then closeEpoch r true (beginUp (e.firstAt + (getRover s r).cfg.epochWait * 1000000) s)
                else begin_ 0 s
    | none => begin_ 0 s)

/-- The time nearest to now whose remainder is given, ms. -/
def nearestMs (now res period : Int) : Int := now + ((res - now + period / 2) % period - period / 2)

/-- Device time of an RTCM epoch time (chapter 06, Epoch alignment), for the system of the message. -/
def rtcmTime (sys field : Nat) (s : State) : Nat :=
  let now : Int := (s.now / 1000000 : Nat)
  let ms := match sys with
    | 1 => nearestMs now ((field % 134217728 : Nat) - 10800000 + 1000 * s.time.utcOffset) 86400000
    | 3 => nearestMs now (315964833000 + (field : Int)) 604800000
    | _ => nearestMs now (315964819000 + (field : Int)) 604800000
  ms.toNat * 1000000

/-- One RTCM message of an OBS frame reaches the RSE (R135-R137). A component that a 1230 message does not carry stays. -/
def rseMessage (r : Nat) (s : State) (body : List Byte) : State :=
  let num := rtcmField body 0 12
  let k := num % 10
  let format := (msmSystem num).isSome && decide (1 ≤ k) && decide (k ≤ 3) ||
    (decide (1001 ≤ num) && decide (num ≤ 1004)) || (decide (1009 ≤ num) && decide (num ≤ 1012))
  match (msmSystem num).filter (fun _ => decide (4 ≤ k ∧ k ≤ 7)) with
  | some sys =>
    addMsm r sys (rtcmTime sys (rtcmField body 24 30) s) (decide (rtcmField body 54 1 = 1)) (msmObs sys k body) s
  | none =>
    if num = 1230 then
      modRover r (fun x =>
        let old := x.biases.getD (0, 0)
        let (a, b) := biasFields body
        { x with biases := if a.isSome ∨ b.isSome then some (a.getD old.1, b.getD old.2) else x.biases }) s
    else if format then modStats r (fun c => { c with format := cnt32 c.format }) s
    else modStats r (fun c => { c with other := cnt32 c.other }) s

/-- The messages of an OBS frame (R134): one whose MSMs name another station is discarded whole and counted once. -/
def rseFrame (r : Nat) (bodies : List (List Byte)) (s : State) : State :=
  match (getRover s r).binding with
  | none => s
  | some b =>
    let isMsm := fun (m : List Byte) =>
      let num := rtcmField m 0 12
      (msmSystem num).isSome && decide (1 ≤ num % 10 ∧ num % 10 ≤ 7)
    if !b.anyStation && bodies.any (fun m => isMsm m && decide (rtcmField m 12 12 ≠ b.station)) then
      modStats r (fun c => { c with station := cnt32 c.station }) s
    else bodies.foldl (rseMessage r) s

/-- A rover is heard: 30 s of silence before it re-enter its ambiguities at its next epoch (R160). -/
def roverHeard (r : Nat) (s : State) : State :=
  modRover r (fun x =>
    let quiet := match x.lastHeard with
      | some t => decide (t + 30 * nsPerSec < s.up)
      | none => false
    { x with lastHeard := some s.up, silent := x.silent || quiet }) s

/-! ### What a solution stands on (R139, R158) -/

def baseAt (s : State) (t : Nat) : Option BaseEpoch := s.rse.bases.find? (fun b => decide (b.time = t))

/-- Base observations of an epoch: those of the same time, those interpolated between two base epochs, or the last ones
extrapolated by their Doppler for at most 100 ms; none beyond that. -/
def baseUse (s : State) (t : Nat) : Option BaseUse :=
  let b := baseOf t
  match baseAt s b, baseAt s (b - slotNs) with
  | some y, some x =>
    if b = t then some { interp := false, age := 0, base := b, recs := y.recs }
    else some { interp := true, age := max (b - t) (t - (b - slotNs)), base := b,
                recs := interpBase (t - (b - slotNs)) x.recs y.recs }
  | y, _ =>
    match s.rse.bases.find? (fun x => decide (x.time ≤ t)) with
    | some l =>
      if y.isSome ∧ b = t then some { interp := false, age := 0, base := b, recs := l.recs }
      else if t - l.time ≤ 100000000 then
        some { interp := false, age := t - l.time, base := l.time,
               recs := l.recs.map (fun p => { p with rec_ := driftObs (t - l.time : Nat) p.rec_ }) }
      else none
    | none => none

/-- A base epoch comes (R139, R149, R158): its ANT_A records are kept, a gap of 30 s before it and the slips that it shows
are noted for every rover. -/
def takeBase (t : Nat) (recs : List SatObs) (s : State) : State :=
  let antA := recs.filter (fun p => !p.rec_.ant)
  let slips := (antA.filter (fun p => p.rec_.slip)).map (fun p => (t, p.rec_.svid, p.rec_.sig))
  let gap := match s.rse.bases with
    | b :: _ => decide (b.time + 30 * nsPerSec < t)
    | [] => false
  let note := fun (x : Rover) => { x with gap := x.gap || (gap && x.filter.isSome), baseSlips := x.baseSlips ++ slips }
  { s with rse := { s.rse with
      bases := ({ time := t, recs := antA } :: s.rse.bases).take 40,
      rovers := s.rse.rovers.map (fun p => if p.2.binding.isSome then (p.1, note p.2) else p) } }

/-- When an epoch is ready (R131): its last message has come, and its base epoch is published or known to be missing
(R101). -/
def readyTime (s : State) (e : Epoch) : Option Nat :=
  let b := baseOf e.time
  if (baseAt s b).isSome then some (max e.lastAt b)
  else if b + 1500000 ≤ s.now then some (max e.lastAt (b + 1500000))
  else none

/-- The heads that could be solved now: ready time and robot. -/
def readyRovers (s : State) : List (Nat × Nat) :=
  s.rse.rovers.filterMap (fun p =>
    match p.2.solving, p.2.ready with
    | none, e :: _ => (readyTime s e).map (fun t => (t, p.1))
    | _, _ => none)

def earliest : List (Nat × Nat) → Option (Nat × Nat)
  | [] => none
  | p :: r =>
    match earliest r with
    | none => some p
    | some q => if q.1 < p.1 ∨ (q.1 = p.1 ∧ q.2 < p.2) then some q else some p

/-- An epoch became ready more than 500 ms after its time (R140). -/
def cameLate (s : State) (e : Epoch) : Bool :=
  match readyTime s e with
  | some t => decide (e.time + 500000000 < t)
  | none => false

/-- Such epochs are discarded. -/
def dropOld (s : State) : State :=
  let f := fun (x : Rover) =>
    let n := (x.ready.filter (cameLate s)).length
    { x with ready := x.ready.filter (fun e => !cameLate s e), stats := { x.stats with tooOld := addCnt32 x.stats.tooOld n } }
  { s with rse := { s.rse with rovers := s.rse.rovers.map (fun p => (p.1, f p.2)) } }

/-! ### Publication (R151, R152, R166, R167) -/

def fixWords (r : Nat) (f : Fix) : List Word :=
  let u32 := fun (i : Int) => wordOf (min i.toNat 0xFFFFFFFF)
  let s32 := fun (i : Int) => wordOfInt (sat32 i)
  [wordOfFields [(r, 0), (f.status, 8), (natOfBool f.extrap, 11), (natOfBool f.stale, 12), (natOfBool f.interp, 13),
     (natOfBool f.partialEpoch, 14), (natOfBool f.handover, 15), (natOfBool f.longBl, 16), (natOfBool f.enuValid, 17),
     (natOfBool f.velValid, 18), (natOfBool f.headingValid, 19), (f.reason, 20), (min 255 f.nSats, 24)]] ++
  words64 f.epochTime ++ words64 f.pubTime ++ wordsInt64 f.x ++ wordsInt64 f.y ++ wordsInt64 f.z ++
  [s32 f.e, s32 f.n, s32 f.u, s32 f.ve, s32 f.vn, s32 f.vu, u32 (f.cov.getD 0 0), s32 (f.cov.getD 1 0),
   s32 (f.cov.getD 2 0), u32 (f.cov.getD 3 0), s32 (f.cov.getD 4 0), u32 (f.cov.getD 5 0),
   wordOf (min f.sigmaH 0x7FFFFFFF), wordOfFields [(min f.sigmaVh 0xFFFF, 0), (f.heading % 65536, 16)],
   wordOfFields [(min 255 f.nAmb, 0), (min 255 f.nFixed, 8), (min 0xFFFF f.ratio, 16)],
   wordOfFields [(min 0xFFFF f.baseline, 0), (min 0xFFFF f.pdop, 16)], wordOf (min 0xFFFF f.baseAge), wordOf f.fixSeq]

/-- Only the module that is no standby publishes (R162). -/
def rseRaise (code detail : Nat) (ws : List Word) (d : Dest) (s : State) : State :=
  if s.pair.role = .standby then s else raise code detail ws d s

/-- A record passes to the subscriptions: every DECIM-th of a rover, the first of them first (R166). -/
def streamFix (r : Nat) (f : Fix) (s : State) : State :=
  s.rse.subs.foldl (fun a p =>
    let (q, x) := p
    if !Nat.testBit x.mask r then a
    else
      let n := tabGet x.counts r 0
      let a1 := { a with rse := { a.rse with subs := tabSet a.rse.subs q { x with counts := tabSet x.counts r (n + 1) } } }
      if n % (max 1 x.decim) = 0 then rseRaise 0x0300 r (fixWords r f) (.one q x.tag) a1 else a1) s

/-- A fix record is published. `from_` is the last input of its epoch (R157). -/
def publishFix (r from_ : Nat) (f0 : Fix) (s : State) : State :=
  let x := getRover s r
  let f := { f0 with
    pubTime := s.now, fixSeq := (x.fixSeq + 1) % 2 ^ 32, enuValid := s.track.origin.isSome, extrap := false,
    stale := false }
  let us := min 0xFFFFFFFF ((s.now - from_) / 1000)
  let st := x.stats
  let st1 := if f.status = 0 then st else
    { st with solved := cnt32 st.solved, lastLatency := us, maxLatency := max st.maxLatency us }
  let st2 := if 3 ≤ f.status then { st1 with fixedEpochs := cnt32 st1.fixedEpochs } else st1
  let before := match x.latest with
    | some l => if l.pubTime < s.now then some l else x.prior
    | none => none
  let s1 := setRover r { x with fixSeq := f.fixSeq, prior := before, latest := some f, solving := none, stats := st2 } s
  let s2 := if f.status = 0 then s1 else { s1 with rse := { s1.rse with lastLatency := us } }
  let s3 := match x.latest with
    | some l => if l.status = f.status then s2 else
        rseRaise 0x0301 (r + 256 * f.status + 2048 * l.status) [wordOf f.reason] .all s2
    | none => s2
  streamFix r f s3

/-- The record of an epoch that was not solved: the position, velocity and covariance the slot holds (R151). -/
def noFix (x : Rover) (reason : Nat) (e : Epoch) : Fix :=
  { x.held with status := 0, reason := reason, nSats := 0, ratio := 0, nFixed := 0, nAmb := (x.filter.map (fun f => f.ambs.length)).getD 0,
                epochTime := e.time, partialEpoch := e.isPartial, handover := x.handover, interp := false,
                longBl := false, baseAge := 0 }

/-- Why an epoch cannot be solved at all: suspension, no ARP, no base (R156, R158, R159). -/
def blocked (s : State) (x : Rover) (e : Epoch) : Option Nat :=
  if x.suspended then some 5
  else if s.rse.arp.isNone ∨ (s.pair.role ≠ .standby ∧ s.gnss.arp.isNone) then some 2
  else if (baseUse s e.time).isNone then some 1
  else none

/-- The slips of an epoch taken (R149), with base slips up to a time: the ambiguities of slipped signals leave, to be
re-entered as new, and all of them when more than half slipped. -/
def noteEpoch (r base : Nat) (e : Epoch) (s : State) : State :=
  let x := getRover s r
  let past := (x.baseSlips.filter (fun z => decide (z.1 ≤ base))).map (fun z => z.2)
  let slipped := slippedObs (e.time - x.lastTime) x.lastObs past e.obs
  let hit := fun (f : Filter) => f.ambs.filter (ambSlipped f.refs slipped)
  let full : Bool := match x.filter with
    | some f => decide (f.ambs.length < 2 * (hit f).length)
    | none => false
  let st := { x.stats with slips := addCnt32 x.stats.slips slipped.length,
                           fullResets := if full then cnt32 x.stats.fullResets else x.stats.fullResets }
  let s1 := setRover r { x with
    baseSlips := x.baseSlips.filter (fun z => decide (base < z.1)), lastObs := e.obs, lastTime := e.time, stats := st,
    filter := x.filter.map (fun f => keepAmbs (fun a => !full && !ambSlipped f.refs slipped a) f) } s
  if full then rseRaise 0x0303 r [] .all s1 else s1

/-- The record of an epoch that has no base: the filter goes on by its kinematic model (R158). -/
def coast (e : Epoch) (x : Rover) : Rover := { x with filter := x.filter.map (predict x.cfg.aMax e.time) }

/-- The record of an epoch that is not solved, and the slot after it. -/
def publishNone (r input reason : Nat) (e : Epoch) (s : State) : State :=
  let s1 := if reason = 1 then modRover r (coast e) s else s
  publishFix r input (noFix (getRover s1 r) reason e) s1

/-- ROVER_SOLVE_START: a free cluster takes the epoch with the earliest ready time, of equals the lower robot ID (R131);
an epoch that cannot be solved publishes its record at once. -/
def execRoverSolveStart (dt : Nat) (s : State) : Host.Outcome State Fault Refusal :=
  .next (let s1 := begin_ dt s
    if !gnssRuns s1 then s1
    else
      let s2 := dropOld (applySolve s1)
      match earliest (readyRovers s2) with
      | none => s2
      | some (ready, r) =>
        let x := getRover s2 r
        match x.ready with
        | [] => s2
        | e :: rest =>
          let y := { x with ready := rest }
          match blocked s2 y e with
          | some reason => publishNone r ready reason e (noteEpoch r 0 e (setRover r y s2))
          | none =>
            match (List.range 4).find? (fun c => (s2.rse.clusters.getD c none).isNone) with
            | some c =>
              let s3 := setRover r { y with solving := (baseUse s2 e.time).map (fun u => (e, u)) } s2
              { s3 with rse := { s3.rse with clusters := s3.rse.clusters.set c (some r) } }
            | none => s2)

/-! ### The solution of an epoch (R142-R149, R158-R163) -/

/-- Every ambiguity leaves, to be re-entered as new. -/
def reenter (x : Rover) : Rover := { x with filter := x.filter.map (keepAmbs (fun _ => false)), valFails := 0 }

/-- A reset of scope (ROVER_RESET_AMB) re-enters an ambiguity. SYS of the command: GPS, GLONASS, Galileo, QZSS, BeiDou. -/
def resetHits (z : Nat × Nat × Nat) (a : Amb) : Bool :=
  let sys := (sigInfo a.sig).sys
  match z.1 with
  | 1 => decide (sys = 1)
  | 2 => decide (sys = [0, 1, 2, 4, 3].getD z.2.1 9 ∧ a.svid = z.2.2)
  | _ => true

/-- What a slot's filter loses before a solution: everything by a reset of scope 3, ambiguities by the other scopes, by a
base gap of more than 30 s and by silence. The causes go out as EV_ROVER_AMB_RESET. -/
def beforeSolve (r : Nat) (s : State) : State :=
  let x := getRover s r
  let all := x.gap || x.silent
  let lost := all && (match x.filter with
    | some f => !f.ambs.isEmpty
    | none => false)
  let kept := if x.resets.any (fun z => decide (z.1 = 3)) then none
    else x.filter.map (keepAmbs (fun a => !all && !x.resets.any (fun z => resetHits z a)))
  let st := if lost then { x.stats with fullResets := cnt32 x.stats.fullResets } else x.stats
  let s1 := setRover r { x with filter := kept, resets := [], silent := false, gap := false, stats := st } s
  let s2 := if x.gap then rseRaise 0x0303 (r + 256) [] .all s1 else s1
  let s3 := if x.silent then rseRaise 0x0303 (r + 512) [] .all s2 else s2
  if x.resets.isEmpty then s3 else rseRaise 0x0303 (r + 1024) [] .all s3

/-- An ambiguity may join the integer search (R144, R147, resolution thresholds): its sigma small in two epochs, or at all
in an epoch that re-bases; no half-cycle indicator; for GLONASS the conditions of R147. -/
def eligible (x : Rover) (up : Nat) (l : List DdSignal) (a : Amb) : Bool :=
  let glo := x.cfg.gloAr && x.biases.isSome && (match x.gloSince with
    | some t => decide (t + 60 * nsPerSec ≤ up)
    | none => false)
  decide ((if x.rebase then 1 else 2) ≤ a.age) && (decide ((sigInfo a.sig).sys ≠ 1) || glo) &&
    !l.any (fun s => decide (s.sig = a.sig ∧ s.rover.svid = a.svid) && s.rover.half)

/-- Course over ground, clockwise from north, in 2^-16 turn. -/
def headingOf (ve vn : Int) : Nat := ((roundQ (atan2Q ve vn * 32768) piQ.toNat) % 65536).toNat

/-- Rows that turn a vector in the axes of the ARP into those of the track's origin, 2^-30, from a place of the states
on. -/
def turnRows (origin : Option Origin) (arp : Ecef) (at_ : Nat) : List (List (Nat × Int)) :=
  let (a, b, c) := localAxes arp
  let axes := match origin with
    | some o => let (e, n, u) := localAxes (geodeticToEcef o.lat o.lon o.height); [e, n, u]
    | none => [a, b, c]
  axes.map (fun v => [(at_, roundQ (dot3 v a) 1073741824), (at_ + 1, roundQ (dot3 v b) 1073741824),
                      (at_ + 2, roundQ (dot3 v c) 1073741824)])

/-- East, north and up of a point in the track's frame; 0 while no origin is set. -/
def enuAt (origin : Option Origin) (p : Ecef) : Int × Int × Int :=
  match origin with
  | some o => enuOf o.lat o.lon o.height p.1 p.2.1 p.2.2
  | none => (0, 0, 0)

/-- The numbers of a fix from the states and covariance of a solution (R151). -/
def placeFix (origin : Option Origin) (arp : Ecef) (down : Nat) (velOk : Bool) (o : FloatOut) (f : Fix) : Fix :=
  let p := toEcef arp o.core
  let (px, py, pz) := lowerPoint p.1 p.2.1 p.2.2 down
  let (pe, pn, pu) := enuAt origin (px, py, pz)
  let v := (linVec (turnRows origin arp 3) 1073741824 o.core).map (fun x => roundQ x 65536)
  let c := linCov (turnRows origin arp 0 ++ turnRows origin arp 3) 1073741824 o.cov
  let mm := fun (i j : Nat) => roundQ (covAt c i j) 65536
  let ve := v.getD 0 0
  let vn := v.getD 1 0
  let moving := decide (2500 ≤ ve * ve + vn * vn) && velOk
  { f with
    velValid := velOk, headingValid := moving, x := px, y := py, z := pz, e := pe, n := pn, u := pu, ve := ve, vn := vn,
    vu := v.getD 2 0, cov := [mm 0 0, mm 0 1, mm 0 2, mm 1 1, mm 1 2, mm 2 2],
    sigmaH := min 0x7FFFFFFF (csqrt (mm 0 0 + mm 1 1).toNat),
    sigmaVh := min 0xFFFF (csqrt (ceilDiv (covAt c 3 3 + covAt c 4 4).toNat 65536)),
    heading := if moving then headingOf ve vn else f.heading }

/-- The antenna of the last fix: ANT_HEIGHT above its point. -/
def lastAntenna (x : Rover) : Ecef :=
  let p : Ecef := (x.held.x, x.held.y, x.held.z)
  let up := (localAxes p).2.2
  let f := fun (a b : Int) => a + roundQ (b * x.cfg.antHeight) 1073741824
  (f p.1 up.1, f p.2.1 up.2.1, f p.2.2 up.2.2)

/-- The filter an epoch's update starts from: a new one at the code solution, re-based after a switch-over (R163),
predicted, under the references of the epoch, with the ambiguities of its signals (R146). -/
def entryFilter (x : Rover) (e : Epoch) (arp pos : Ecef) (l : List DdSignal) : Filter :=
  let f0 := x.filter.getD (startFilter e.time arp pos)
  let f1 := if x.rebase then rebaseFilter arp (lastAntenna x) f0 else f0
  matchAmbs l (reref (refsOf l) (predict x.cfg.aMax e.time f1))

/-- What the float update of an epoch goes by. -/
def floatIn (x : Rover) (arp : Ecef) (longBl : Bool) (l : List DdSignal) (f : Filter) : FloatIn :=
  { filter := f, signals := l, arp := arp, roverBias := x.biases,
    baseBias := (20 * (Config.gloBias 0).toInt, 20 * (Config.gloBias 1).toInt), longBl := longBl,
    held := ((withIx f.ambs).filter (fun q => q.2.held)).map (fun q => (q.1, q.2.int)), wide := [] }

/-- The signals of an epoch, the troposphere removed. -/
def epochSignals (x : Rover) (e : Epoch) (u : BaseUse) (arp pos : Ecef) : List DdSignal :=
  (selectSignals x.cfg (x.binding.map (fun b => b.maxAmb) |>.getD 96) x.far30 arp pos e.obs u.recs).map
    (noTropo (Config.zenithDelay pos) (Config.zenithDelay arp))

/-- The ambiguities after an epoch's resolution (resolution thresholds): fixed by it, held after HOLD_EPOCHS validated
fixes, released after two failures. -/
def afterFix (c : RoverCfg) (good release : Bool) (ints : List (Nat × Int)) (l : List Amb) : List Amb :=
  (withIx l).map (fun q =>
    let n := if good then tabFind ints q.1 else none
    let run := if n.isSome then q.2.fixRun + 1 else 0
    { q.2 with int := n.getD q.2.int, fixed := n.isSome, fixRun := run,
               held := !release && (q.2.held || (c.holdEn && n.isSome && decide (c.holdEpochs ≤ run))) })

/-- The fix of an epoch that is solved, the slot after it, and whether a switch-over's ambiguities ran out of epochs. -/
def solveEpoch (x0 : Rover) (up : Nat) (origin : Option Origin) (arp : Ecef) (dist : Nat) (e : Epoch) (u : BaseUse)
    (code : CodeOut) : Rover × Fix × Bool :=
  let l := epochSignals x0 e u arp code.pos
  let f := entryFilter x0 e arp code.pos l
  let longBl := decide (x0.cfg.ionoBl * 1000000 ≤ dist)
  let inp := floatIn x0 arp longBl l f
  let o := Config.floatUpdate inp
  let g := afterFloat o f
  let x := { x0 with gloSince := if covAt g.cov 6 6 ≤ 16384 then x0.gloSince.or (some up) else none }
  let elig := ((withIx g.ambs).filter (fun q => eligible x up l q.2)).map (fun q => q.1)
  let (ints, ratio) := resolve x.cfg (svCount l) inp g elig
  let (fx, rms, top) := Config.fixedUpdate inp o ints
  let good := !ints.isEmpty && decide (rms ≤ 10) && decide (top ≤ 30)
  let fails := if good then 0 else if ints.isEmpty then x.valFails else x.valFails + 1
  let release := decide (2 ≤ fails)
  let ambs := afterFix x.cfg good release ints g.ambs
  let hand := x.handover && !good
  let tooLong := hand && decide (10 ≤ x.handoverEpochs + 1)
  let status := if ambs.isEmpty then 1 else if !good || hand then 2 else if !inp.held.isEmpty then 5
    else if ints.length = elig.length then 4 else 3
  let fix := placeFix origin arp x.cfg.antHeight (l.any (fun s => s.rover.rate.isSome) || x0.filter.isSome)
    (if good then fx else { o with core := g.core })
    { x.held with
      status := status, extrap := false, stale := false, interp := u.interp, partialEpoch := e.isPartial,
      handover := hand && !tooLong, longBl := longBl, reason := 0, nSats := svCount l, epochTime := e.time,
      nAmb := ambs.length, nFixed := (ambs.filter (fun a => a.fixed || a.held)).length, ratio := ratio,
      baseline := roundDiv dist 1000, pdop := code.pdop, baseAge := u.age / 1000000 }
  let y := { x with
    filter := some { g with ambs := ambs }, valFails := if release then 0 else fails, handover := hand && !tooLong,
    rebase := false, handoverEpochs := if hand then x.handoverEpochs + 1 else 0, held := fix }
  (if tooLong then reenter y else y, fix, tooLong)

/-- Satellites of the code solution: with code on the rover, and of a known place. -/
def codeSats (e : Epoch) (u : BaseUse) : Nat :=
  ((e.obs.filter (fun o => o.pr.isSome && u.recs.any (fun p =>
      p.sat.isSome && decide ((sigInfo p.rec_.sig).sys = o.sys ∧ p.rec_.svid = o.svid)))).foldl
    (fun (a : List RoverObs) o => if a.any (fun b => decide (b.sys = o.sys ∧ b.svid = o.svid)) then a else o :: a) []).length

/-- A threshold of R161: reached at a distance, left 200 m below it. -/
def farLatch (was : Bool) (limit dist : Nat) : Bool := decide ((if was then limit - 200000 else limit) ≤ dist)

/-- The fix of an epoch from its code solution, at a distance in mm from the ARP. -/
def solveFrom (r : Nat) (e : Epoch) (u : BaseUse) (arp : Ecef) (code : CodeOut) (dist : Nat) (s : State) : State :=
  let input := max e.closedAt u.base
  let s1 := modRover r (fun x => { x with far30 := farLatch x.far30 30000000 dist, far100 := farLatch x.far100 100000000 dist }) s
  if 1000000 < code.clock.natAbs then publishNone r input 4 e s1
  else if codeSats e u < 5 then publishNone r input 3 e s1
  else if (getRover s1 r).far100 then publishNone r input 6 e (modRover r reenter s1)
  else
    let s2 := beforeSolve r s1
    let z := solveEpoch (getRover s2 r) s2.up s2.track.origin arp dist e u code
    let s3 := setRover r z.1 s2
    publishFix r input z.2.1 (if z.2.2 then rseRaise 0x0303 (r + 768) [] .all s3 else s3)

/-- The distance of two points, mm. -/
def distance (a b : Ecef) : Nat := let d := sub3 a b; isqrt (dot3 d d).toNat

/-- The fix of an epoch whose solve ends. -/
def solveFix (r : Nat) (e : Epoch) (u : BaseUse) (s : State) : State :=
  let s1 := noteEpoch r u.base e s
  match s1.rse.arp with
  | none => publishNone r (max e.closedAt u.base) 2 e s1
  | some a =>
    let code := Config.codeSolution e.obs u.recs e.time
    solveFrom r e u (a.x, a.y, a.z) code (distance code.pos (a.x, a.y, a.z)) s1

/-- ROVER_FIX_PUBLISH: the solve on a cluster ends. -/
def execRoverFixPublish (cluster dt : Nat) (s : State) : Host.Outcome State Fault Refusal :=
  if 4 ≤ cluster then .fault .noSuchUnit
  else .next (let s1 := begin_ dt s
    match s1.rse.clusters.getD cluster none with
    | none => s1
    | some r =>
      let s2 := { s1 with rse := { s1.rse with clusters := s1.rse.clusters.set cluster none } }
      match (getRover s2 r).solving with
      | some (e, u) => solveFix r e u s2
      | none => s2)

/-! ### The fix a tick uses (R153, R154) -/

/-- Quotient rounded half away from zero. -/
def roundMag (x : Int) (b : Nat) : Int :=
  let m : Int := ((x.natAbs + b / 2) / b : Nat)
  if x < 0 then -m else m

/-- A record carried to a snapshot, and its sigma (R153). -/
def extrapolate (c : RoverCfg) (t : Nat) (f : Fix) : Fix × Nat :=
  let age := t - f.epochTime
  let limit := c.staleAge * 1000000
  let stale := decide (limit < age)
  let dt := (if stale then limit else age) / 1000
  let v := fun (x : Int) => if f.velValid then roundMag (x * dt) 1000000 else 0
  let growV := ((if f.velValid then f.sigmaVh else c.aMax) * dt + 999999) / 1000000
  let growA := (c.aMax * dt * dt + 1999999999999) / 2000000000000
  ({ f with extrap := true, stale := stale, e := f.e + v f.ve, n := f.n + v f.vn, u := f.u + v f.vu },
   min 0x7FFFFFFF (f.sigmaH + growV + growA))

/-- The record published before a snapshot. -/
def recordAt (x : Rover) (t : Nat) : Option Fix :=
  match x.latest with
  | some f => if f.pubTime < t then some f else x.prior.filter (fun g => decide (g.pubTime < t))
  | none => none

/-- Every rover's tick fix at a snapshot. -/
def tickFixes (t : Nat) (s : State) : State :=
  let f := fun (x : Rover) => match recordAt x t with
    | some g =>
      let (h, sg) := extrapolate x.cfg t g
      { x with tickFix := some h, sigmaExt := sg }
    | none => { x with tickFix := none, sigmaExt := 0x7FFFFFFF }
  { s with rse := { s.rse with rovers := s.rse.rovers.map (fun p => (p.1, f p.2)) } }

/-- The tick fix stands: STATUS 1 to 5 and not stale. -/
def usableFix (s : State) (r : Nat) : Option Fix :=
  let x := getRover s r
  match x.binding, x.tickFix with
  | some _, some f => if 1 ≤ f.status ∧ f.stale = false then some f else none
  | _, _ => none

/-- The QUAL loop's input (R154, R128). -/
def qualInput (s : State) (r : Nat) : Nat :=
  match usableFix s r with
  | none => 0x7FFFFFFF
  | some _ =>
    let sg := (getRover s r).sigmaExt
    match s.corr.levelSnap with
    | 3 => 0x7FFFFFFF
    | 2 => min 0x7FFFFFFF (sg * s.corr.cfg.inflate)
    | _ => sg

def roversStale (s : State) : Nat :=
  (s.rse.rovers.filter (fun p => match p.2.tickFix with
    | some f => f.stale
    | none => false)).length

/-- The ARP of the base epochs changes: the position that every slot holds shifts with it; the states, which are relative
to the ARP, and the ambiguities stay (R159). -/
def setArp (new : Option Arp) (s : State) : State :=
  if s.rse.arp = new then s
  else
    let move := fun (x : Rover) => match s.rse.arpRef, new with
      | some a, some b =>
        let p : Ecef := (x.held.x + b.x - a.x, x.held.y + b.y - a.y, x.held.z + b.z - a.z)
        let (e, n, u) := enuAt s.track.origin p
        { x with held := { x.held with x := p.1, y := p.2.1, z := p.2.2, e := e, n := n, u := u } }
      | _, _ => x
    { s with rse := { s.rse with
        arp := new, arpRef := new.or s.rse.arpRef,
        rovers := s.rse.rovers.map (fun p => if p.2.filter.isSome then (p.1, move p.2) else p) } }

/-- At an input snapshot the module's own ARP comes in force in the RSE; a standby's is the active module's (R162). -/
def shiftArp (s : State) : State := if s.pair.role = .standby then s else setArp s.gnss.arp s

/-- The track's origin changed (R190, R191): the records and the position that each slot holds are in the new frame. -/
def moveOrigin (old new : Option Origin) (s : State) : State :=
  let f := fun (x : Fix) =>
    let p : Ecef := (x.x, x.y, x.z)
    if p = (0, 0, 0) then { x with enuValid := new.isSome }
    else
      let a := enuAt old p
      let b := enuAt new p
      { x with e := x.e + b.1 - a.1, n := x.n + b.2.1 - a.2.1, u := x.u + b.2.2 - a.2.2, enuValid := new.isSome }
  let g := fun (x : Rover) =>
    { x with held := f x.held, latest := x.latest.map f, prior := x.prior.map f, tickFix := x.tickFix.map f }
  { s with rse := { s.rse with rovers := s.rse.rovers.map (fun p => (p.1, g p.2)) } }

/-! ### ROVER_BIND -/

def robotField (s : State) (n : Nat) (all : Bool) : Except Fail Unit :=
  need (decide (n < nRobots s.member) || (all && decide (n = 255))) .range 0

def bindWords (s : State) (r : Nat) : List Word :=
  let x := getRover s r
  let head := match x.binding with
    | some b => [wordOfFields [(r, 0), (1, 8), (b.rate, 10), (b.phase, 13), (b.maxAmb, 18), (natOfBool b.anyStation, 25)],
        wordOfFields [(b.station, 0), (natOfBool x.suspended, 16)], wordOf (solveCost b.maxAmb)]
    | none => [wordOf r, 0, 0]
  head ++ [wordOf (peakLoad s), wordOf (solveBudget s)]

def roverBindBody (r : Req) (s : State) : Res := do
  let h := par r 0
  let rb := fld h 0 7
  let op := fld h 8 9
  need (onlyBits h 0x3FFFFFF && onlyBits (par r 1) 0xFFF && decide (op ≠ 3)) .badParam 0
  robotField s rb false
  let v := rseView s
  match op with
  | 1 =>
    let rate := fld h 10 12
    let b : Binding := { station := fld (par r 1) 0 11, rate := rate, phase := fld h 13 17, maxAmb := fld h 18 24,
                         anyStation := bitAt h 25 }
    need (decide (rate ≤ 4) && decide (b.phase < 20 / rateHz rate) && inRange b.maxAmb 8 96) .range 0
    need (match (getRover v rb).binding with
      | some o => decide (o.station = b.station)
      | none => true) .binding 0
    let trial := modRover rb (fun x => { x with binding := some b, suspended := false }) v
    match overSlot trial with
    | some k => failWith .noResource k
    | none =>
      let s1 := addRoverAct (.bind rb b) s
      return (s1, .ok 0 (bindWords (rseView s1) rb))
  | 2 =>
    need (!spinActive (getSpindle s rb)) .state 1
    let s1 := addRoverAct (.unbind rb) s
    return (s1, .ok 0 (bindWords (rseView s1) rb))
  | _ => return (s, .ok 0 (bindWords v rb))

def descRoverBind : Desc :=
  (Desc.std 0x300 [3, 4] 8 (fun r => decide (fld (par r 0) 8 9 = 0)) roverBindBody).formLen
    (fun r => some (if fld (par r 0) 8 9 = 1 then 4 else 3))

/-! ### ROVER_CFG -/

def roverCfgWords (c : RoverCfg) : List Word :=
  [wordOfFields [(c.elevMask, 0), (c.cn0Mask, 6), (c.freqs, 12), (natOfBool c.holdEn, 14), (natOfBool c.gloAr, 15),
     (c.ratioThr, 16), (c.parMin, 24)],
   wordOfFields [(c.staleAge, 0), (c.aMax, 12), (c.holdEpochs, 28)],
   wordOfFields [(c.antHeight, 0), (c.ionoBl, 16), (c.epochWait, 24)],
   wordOfFields [(uint 16 c.gloBias1, 0), (uint 16 c.gloBias2, 16)]]

def roverCfgBody (r : Req) (s : State) : Res := do
  let h := par r 0
  let a := par r 1
  let b := par r 2
  let c := par r 3
  let rb := fld h 0 7
  let read := bitAt h 8
  need (onlyBits h 0x1FF && !(read && decide (rb = 255)) && (read || onlyBits a 0x7FFFFFFF)) .badParam 0
  robotField s rb true
  if read then return (s, .ok 0 (wordOf rb :: roverCfgWords (getRover (rseView s) rb).cfg))
  need (decide (fld a 0 5 ≤ 45) && inRange (fld a 6 11) 20 50 && inRange (fld a 12 13) 1 3 &&
    inRange (fld a 16 23) 15 100 && inRange (fld a 24 30) 4 96) .range 1
  need (inRange (fld b 0 11) 60 1000 && inRange (fld b 12 27) 100 20000 && decide (1 ≤ fld b 28 31)) .range 2
  need (decide (fld c 0 15 ≤ 5000) && inRange (fld c 16 23) 2 20 && inRange (fld c 24 31) 5 50) .range 3
  let w : RoverCfg :=
    { elevMask := fld a 0 5, cn0Mask := fld a 6 11, freqs := fld a 12 13, holdEn := bitAt a 14, gloAr := bitAt a 15,
      ratioThr := fld a 16 23, parMin := fld a 24 30, staleAge := fld b 0 11, aMax := fld b 12 27,
      holdEpochs := fld b 28 31, antHeight := fld c 0 15, ionoBl := fld c 16 23, epochWait := fld c 24 31,
      gloBias1 := sfld (par r 4) 0 15, gloBias2 := sfld (par r 4) 16 31 }
  return ((robotsOf s rb).foldl (fun s k => addRoverAct (.cfg k w) s) s, .ok 0 (wordOf rb :: roverCfgWords w))

def descRoverCfg : Desc :=
  (Desc.std 0x301 [3, 7] 8 (fun r => bitAt (par r 0) 8) roverCfgBody).formLen (readForm 8 3 7)

/-! ### ROVER_GET_FIX -/

def roverGetFixBody (r : Req) (s : State) : Res := do
  let h := par r 0
  let rb := fld h 0 7
  need (onlyBits h 0x3FF && decide (fld h 8 9 ≤ 1)) .badParam 0
  robotField s rb false
  let x := getRover s rb
  let f := if fld h 8 9 = 1 then x.tickFix else x.latest
  need (f.isSome || x.binding.isNone) .notReady 0
  need x.binding.isSome .state 1
  return (s, .ok 0 (fixWords rb (f.getD Fix.none)))

def descRoverGetFix : Desc := Desc.read 0x302 [3] 32 roverGetFixBody

/-! ### ROVER_SUBSCRIBE -/

def roverSubscribeBody (r : Req) (s : State) : Res := do
  let h := par r 0
  let mode := fld h 0 1
  let mask := par64 r 1 + 2 ^ 64 * par64 r 3
  need (onlyBits h 0x3FF && decide (mode ≠ 3)) .badParam 0
  need (decide (mask < 2 ^ nRobots s.member)) .range 0
  need (decide (mode ≠ 1) || decide (r.q < 16)) .state 2
  let s1 := match mode with
    | 1 => addRoverAct (.sub r.q { decim := fld h 2 9, mask := mask, tag := r.tag, counts := [] }) s
    | 2 => addRoverAct (.unsub r.q) s
    | _ => s
  let m := match tabFind (rseView s1).rse.subs r.q with
    | some x => x.mask
    | none => 0
  return (s1, .ok 0 (h :: words64 m ++ words64 (m / 2 ^ 64)))

def descRoverSubscribe : Desc := Desc.std 0x303 [7] 8 (fun r => decide (fld (par r 0) 0 1 = 0)) roverSubscribeBody

/-! ### ROVER_RESET_AMB -/

def roverResetAmbBody (r : Req) (s : State) : Res := do
  let h := par r 0
  let rb := fld h 0 7
  let scope := fld h 8 9
  let z := (scope, fld h 10 12, fld h 13 20)
  need (onlyBits h 0x1FFFFF && (decide (scope = 2) || decide (fld h 10 20 = 0))) .badParam 0
  robotField s rb true
  need (decide (fld h 10 12 ≤ 4)) .range 0
  need (decide (rb = 255) || (getRover s rb).binding.isSome) .state 1
  let put := fun (a : State) (k : Nat) =>
    if (getRover a k).binding.isSome then modRover k (fun x => { x with resets := x.resets ++ [z] }) a else a
  return ((robotsOf s rb).foldl put s, .ok 0 [])

def descRoverResetAmb : Desc := Desc.std 0x304 [3] 3 (fun _ => false) roverResetAmbBody

/-! ### ROVER_GET_STATS -/

def statWords (c : RoverStats) : List Word :=
  [c.solved, c.offGrid, c.tooOld, c.duplicate, c.station, c.format, c.other, c.future, c.partialEpochs, c.slips,
   c.fullResets, c.fixedEpochs, c.lastLatency, c.maxLatency].map wordOf

def addStats (a b : RoverStats) : RoverStats :=
  { solved := addCnt32 a.solved b.solved, offGrid := addCnt32 a.offGrid b.offGrid, tooOld := addCnt32 a.tooOld b.tooOld,
    duplicate := addCnt32 a.duplicate b.duplicate, station := addCnt32 a.station b.station,
    format := addCnt32 a.format b.format, other := addCnt32 a.other b.other, future := addCnt32 a.future b.future,
    partialEpochs := addCnt32 a.partialEpochs b.partialEpochs, slips := addCnt32 a.slips b.slips,
    fullResets := addCnt32 a.fullResets b.fullResets, fixedEpochs := addCnt32 a.fixedEpochs b.fixedEpochs,
    lastLatency := a.lastLatency, maxLatency := max a.maxLatency b.maxLatency }

def roverGetStatsBody (r : Req) (s : State) : Res := do
  let h := par r 0
  let rb := fld h 0 7
  need (onlyBits h 0x1FF) .badParam 0
  robotField s rb true
  let x := getRover s rb
  let clear := fun (a : State) (k : Nat) => modStats k (fun _ => RoverStats.zero) a
  if rb = 255 then
    let c0 := s.rse.rovers.foldl (fun c p => addStats c p.2.stats) RoverStats.zero
    let c := { c0 with lastLatency := s.rse.lastLatency }
    let s1 := if bitAt h 8 then
        let a := (s.rse.rovers.map (fun p => p.1)).foldl clear s
        { a with rse := { a.rse with lastLatency := 0 } }
      else s
    return (s1, .ok 0 (0 :: statWords c ++ [wordOfFields [(s.rse.lanes, 0), (s.rse.mhz, 16)], wordOf (solveBudget s)]))
  let st := match x.latest with
    | some f => f.status + 8 * f.reason
    | none => 0
  let w := wordOf (st + 128 * natOfBool x.binding.isSome + 256 * natOfBool x.suspended)
  return (if bitAt h 8 then clear s rb else s, .ok 0 (w :: statWords x.stats ++ [0, wordOf (solveBudget s)]))

def descRoverGetStats : Desc := Desc.read 0x305 [3] 20 roverGetStatsBody

end Sys2Proof.Machine
end

