-- ==== Sys2Proof/Machine/Corr.lean ====
section
/-! DEFINITION. Navigation data, corrections and antenna integrity (chapter 05), and the measurement epoch (R101). -/
set_option autoImplicit false

namespace Sys2Proof.Machine

/-! ### Navigation units (R116-R118) -/

def getNavSub (s : State) (q : Nat) : NavSub := tabGet s.corr.navSubs q NavSub.init

def setNavSub (q : Nat) (x : NavSub) (s : State) : State :=
  { s with corr := { s.corr with navSubs := tabSet s.corr.navSubs q x } }

/-- BITS of the navigation units table. -/
def unitBits (u : Nat) : Nat := [300, 300, 600, 274, 85, 240, 244, 492, 300, 600, 264, 288, 1744, 250].getD u 0

/-- The ANT_A channel that decodes a unit's signal (R116). -/
def navChannel (u : NavUnit) (s : State) : Option Channel :=
  (s.gnss.channels.find? (fun p => chanLocked p.2.state && !p.2.ant && decide (p.2.sig = u.sig) &&
    decide (p.2.svid = u.svid) && decide (p.2.k = u.k))).map (fun p => p.2)

/-- The unit's DATA words: the bits that the last word does not need are 0. -/
def navData (u : NavUnit) : List Word :=
  let n := ceilDiv (unitBits u.unit) 32
  (List.range n).map (fun i =>
    let w := u.words.getD i 0
    let spare := 32 * n - unitBits u.unit
    if i + 1 = n then wordOf (w.toNat / 2 ^ spare * 2 ^ spare) else w)

/-- A unit passes to one subscription, or is discarded under R71. -/
def deliverNav (u : NavUnit) (s : State) (p : Nat × NavSub) : State :=
  let (q, x) := p
  let sys := (sigInfo u.sig).sys
  let wanted := x.on && (decide (x.sysMask = 0) || Nat.testBit x.sysMask sys) && (decide (u.check ≠ 2) || x.failed) &&
    (decide (x.unitMask = 0) || Nat.testBit x.unitMask u.unit)
  if !wanted then s
  else
    let ws := [wordOfFields [(u.sig, 0), (u.k, 5), (u.svid, 16), (u.unit, 24)],
      wordOfFields [(unitBits u.unit, 0), (u.check, 12), (min 15 u.corrected, 16)]] ++ words64 u.tFirst ++
      navData u
    let y := if eventFits q (6 + ws.length) s then { x with delivered := cnt32 x.delivered }
      else if qEnabled (getQ s q) then { x with discarded := cnt32 x.discarded }
      else x
    raise 0x0103 0 ws (.one q x.tag) (setNavSub q y s)

/-- What a good unit leaves in the module: the ephemeris store, its system's broadcast offset and the UTC offset (R117,
R361). -/
def storeNav (u : NavUnit) (s : State) : State :=
  if u.check = 2 then s
  else
    let key := fun (e : Nat × Nat × Nat × List Nat) => decide (e.1 = u.sig ∧ e.2.1 = u.svid ∧ e.2.2.1 = u.unit)
    let s1 :=
      if u.store then
        { s with gnss := { s.gnss with
            ephemeris := s.gnss.ephemeris.filter (fun e => !key e) ++
              [(u.sig, u.svid, u.unit, u.words.map (fun w => w.toNat))] } }
      else s
    let s2 := match u.isb with
      | some ps =>
        let sys := (sigInfo u.sig).sys
        setIsb sys { getIsb s1 sys with broadcast := some ps } s1
      | none => s1
    match u.utc with
    | some (off, leap) =>
      { s2 with time := { s2.time with utcOffset := off, utcValid := true, utcDecoded := true, leap := leap % 4 } }
    | none => s2

/-- A decoded unit is counted, stored, and delivered where its polarity was known when its first bit came (R116, R117). -/
def takeNav (u : NavUnit) (c : Channel) (s : State) : State :=
  let count := fun (x : Corr) => match u.check with
    | 0 => { x with pass := cnt32 x.pass }
    | 1 => { x with corrected := cnt32 x.corrected }
    | _ => { x with fail := cnt32 x.fail }
  let s1 := storeNav u { s with corr := count s.corr }
  match c.polarityAt with
  | some p => if p ≤ u.tFirst then s1.corr.navSubs.foldl (deliverNav u) s1 else s1
  | none => s1

/-- NAV_UNIT_DECODED: a unit of a signal that an ANT_A channel tracks. -/
def execNavUnitDecoded (u : NavUnit) (dt : Nat) (s : State) : Host.Outcome State Fault Refusal :=
  if !(unitSignals u.unit).contains u.sig then .fault .noSuchUnit
  else .next (let s1 := begin_ dt s
    match (if gnssRuns s1 then navChannel u s1 else none) with
    | some c => takeNav u c s1
    | none => s1)

def navCounts (q : Nat) (s : State) : List Word :=
  let x := getNavSub s q
  [wordOf s.corr.pass, wordOf s.corr.corrected, wordOf s.corr.fail, wordOf x.delivered, wordOf x.discarded]

def gnssNavSubscribeBody (r : Req) (s : State) : Res := do
  let h := par r 0
  let mode := fld h 0 1
  need (onlyBits h 0x1FF && onlyBits (par r 1) 0x3FFF && decide (mode ≠ 3)) .badParam 0
  need (decide (mode = 1) || (decide (fld h 2 8 = 0) && decide (par r 1 = 0))) .badParam 0
  match mode with
  | 1 =>
    need (decide (r.q < 16)) .state 2
    return (addAct (.navSub r.q true (fld h 2 7) (bitAt h 8) (fld (par r 1) 0 13) r.tag) s, .ok 0 (navCounts r.q s))
  | 2 => return (addAct (.navSub r.q false 0 false 0 0) s, .ok 0 (navCounts r.q s))
  | _ => return (s, .ok 0 (navCounts r.q s))

def descGnssNavSubscribe : Desc :=
  { Desc.std 0x104 [4] 8 (fun r => decide (fld (par r 0) 0 1 = 0)) gnssNavSubscribeBody with standbyOk := fun _ => true }

/-! ### RTCM messages (R119-R121; the layout is that of RTCM 10403.3, PRESUMED) -/

/-- A list of fields, width and value, most significant first: its number and width. -/
def packBits (fs : List (Nat × Int)) : Nat × Nat := fs.foldl (fun a f => (a.1 * 2 ^ f.1 + uint f.1 f.2, a.2 + f.1)) (0, 0)

/-- A message as an RTCM 3 frame: preamble, length, body padded to whole bytes, CRC-24Q. -/
def rtcmFrame (fs : List (Nat × Int)) : List Byte :=
  let (v, w) := packBits fs
  let n := ceilDiv w 8
  let body := beBytes (v * 2 ^ (8 * n - w)) n
  let m := (0xD3 : Byte) :: beBytes n 2 ++ body
  m ++ beBytes (crc24q m).toNat 3

def charFields (bs : List Byte) : List (Nat × Int) := bs.map (fun b => (8, (b.toNat : Int)))

/-- A number as hexadecimal digits. -/
def hexText (n : Nat) : Nat → List Byte
  | 0 => []
  | k + 1 => hexText (n / 16) k ++ [byteOf (if n % 16 < 10 then 48 + n % 16 else 55 + n % 16)]

/-- The text "WANDOKOR PVS-7xxx" of the member. -/
def receiverText (m : Member) : List Byte :=
  ([87, 65, 78, 68, 79, 75, 79, 82, 32, 80, 86, 83, 45] ++ match m with
    | .pvs7008 => [55, 48, 48, 56]
    | .pvs7032 => [55, 48, 51, 50]
    | .pvs7128 => [55, 49, 50, 56]).map byteOf

def getDescr (s : State) (kind : Nat) : Descr := tabGet s.corr.descrs kind Descr.init

/-- 1005 or 1006: the ARP in units of 0.1 mm; 1006 adds the antenna height. -/
def arpMsg (c : StreamCfg) (a : Arp) : List Byte :=
  let sys := fun (i : Nat) => (1, (natOfBool (Nat.testBit c.sysMask i) : Int))
  let fs : List (Nat × Int) :=
    [(12, if c.arpMsg = 0 then 1005 else 1006), (12, c.station), (6, 0), sys 0, sys 1, sys 2, (1, 0), (38, 10 * a.x),
     (1, 1), (1, 0), (38, 10 * a.y), (2, 0), (38, 10 * a.z)]
  rtcmFrame (if c.arpMsg = 0 then fs else fs ++ [(16, (c.antHeight : Int))])

/-- 1007, 1008 or 1033. -/
def descMsg (c : StreamCfg) (s : State) : List Byte :=
  let a := getDescr s 0
  let n := getDescr s 1
  let head := fun (k : Nat) => [(12, (k : Int)), (12, (c.station : Int)), (8, (a.len : Int))] ++
    charFields (a.text.take a.len) ++ [(8, (a.setup : Int))]
  let serial := (8, (n.len : Int)) :: charFields (n.text.take n.len)
  match c.descMsg with
  | 0 => rtcmFrame (head 1007)
  | 1 => rtcmFrame (head 1008 ++ serial)
  | _ => rtcmFrame (head 1033 ++ serial ++
      (8, 17) :: charFields (receiverText s.member) ++ (8, 8) :: charFields (hexText (fwVersion s) 8) ++
      (8, 16) :: charFields (hexText Config.unitId.toNat 16))

/-- 1230: the calibrated biases of L1OF and L2OF, alignment indicator 0. -/
def biasMsg (c : StreamCfg) : List Byte :=
  rtcmFrame [(12, 1230), (12, c.station), (1, 0), (3, 0), (4, 10), (16, (Config.gloBias 0).toInt),
    (16, (Config.gloBias 1).toInt)]

/-- The message system's epoch time: ms of the system's week; GLONASS day and time of day (UTC + 3 h). -/
def msmTime (sys t : Nat) (utc : Int) : Int :=
  let ms : Int := (t / 1000000 : Nat)
  let gps := ms - 315964819000
  match sys with
  | 1 =>
    let m := ms - 1000 * utc + 10800000
    let days := m / 86400000
    ((days + 4) % 7) * 134217728 + m % 86400000
  | 3 => (gps - 14000) % 604800000
  | _ => gps % 604800000

/-- Satellites of records, in order of first appearance. -/
def satIds (l : List Obs) : List Nat := l.foldl (fun a o => if a.contains o.svid then a else a ++ [o.svid]) []

def satBit (sys svid : Nat) : Nat := if sys = 4 then svid - 193 else svid - 1

/-- What the range, phase and rate fields of a record's cell encode. -/
def obsFields (o : Obs) : List Int := [o.pr, (natOfBool o.prValid : Int), o.phase, o.doppler, o.k]

/-- The 4-bit lock-time indicator of a lock time in ms: 0 below 32 ms, then one for each doubling. -/
def lockInd4 (ms : Nat) : Nat := if ms < 32 then 0 else min 15 (Nat.log2 ms - 4)

/-- The 10-bit lock-time indicator: the lock time itself below 64 ms, then 32 steps in each doubling. -/
def lockInd10 (ms : Nat) : Nat :=
  if ms < 64 then ms
  else
    let k := Nat.log2 ms - 6
    min 704 (64 + 32 * k + (ms - 2 ^ (k + 6)) / 2 ^ (k + 1))

/-- The signal fields of MSM4, MSM5 and MSM7, in the order of the message: which, and their widths. -/
def cellFields (msmType : Nat) : List (Nat × Nat) :=
  match msmType with
  | 0 => [(0, 15), (1, 22), (2, 4), (3, 1), (4, 6)]
  | 1 => [(0, 15), (1, 22), (2, 4), (3, 1), (4, 6), (5, 15)]
  | _ => [(0, 20), (1, 24), (2, 10), (3, 1), (4, 10), (5, 15)]

/-- A signal field of a cell (R120): fine range, fine phase with its invalid value, lock time, half-cycle ambiguity, C/N0,
rate. -/
def cellField (num : Nat) (o : Obs) (f : Nat × Nat) : Nat × Int :=
  let free : Bool → Int := fun ok =>
    if ok then (Config.rtcmData num (1 + f.1) (obsFields o) : Int) else -(2 ^ (f.2 - 1) : Int)
  (f.2, match f.1 with
    | 0 => free o.prValid
    | 1 => free o.phValid
    | 2 => (if f.2 = 4 then lockInd4 o.lockTime else lockInd10 o.lockTime : Nat)
    | 3 => (natOfBool o.halfUnres : Int)
    | 4 => (if f.2 = 6 then min 63 ((o.cn0 + 50) / 100) else min 1023 ((o.cn0 * 16 + 50) / 100) : Nat)
    | _ => free o.phValid)

/-- The satellite fields of an MSM: rough range, extended information, rough rate. -/
def satFields (msmType : Nat) : List (Nat × Nat) :=
  if msmType = 0 then [(6, 8), (7, 10)] else [(6, 8), (8, 4), (7, 10), (9, 14)]

/-- An MSM4, MSM5 or MSM7 of one system. -/
def msmMsg (c : StreamCfg) (sys t : Nat) (more raw : Bool) (utc : Int) (l : List Obs) : List Byte :=
  let num : Nat := [1070, 1080, 1090, 1120, 1110].getD sys 0 + [4, 5, 7].getD c.msmType 7
  let sats := sortNat (satIds l)
  let sigs := sortNat (l.foldl (fun a o => if a.contains (msmSignal o.sig) then a else a ++ [msmSignal o.sig]) [])
  let cell := fun (v g : Nat) => l.find? (fun o => decide (o.svid = v ∧ msmSignal o.sig = g))
  let satMask : Int := (sats.foldl (fun a v => a + 2 ^ (63 - satBit sys v)) 0 : Nat)
  let sigMask : Int := (sigs.foldl (fun a g => a + 2 ^ (32 - g)) 0 : Nat)
  let grid := sats.flatMap (fun v => sigs.map (fun g => cell v g))
  rtcmFrame ([(12, (num : Int)), (12, (c.station : Int)), (30, msmTime sys t utc), (1, (natOfBool more : Int)), (3, 0),
      (7, 0), (2, if raw then 2 else 1), (2, 0), (1, 0), (3, 0), (64, satMask), (32, sigMask)] ++
    grid.map (fun o => (1, (natOfBool o.isSome : Int))) ++
    (satFields c.msmType).flatMap (fun f => sats.map (fun v =>
      (f.2, (Config.rtcmData num (1 + f.1) ((l.filter (fun o => decide (o.svid = v))).flatMap obsFields) : Int)))) ++
    (cellFields c.msmType).flatMap (fun f => grid.filterMap (fun o => o.map (fun x => cellField num x f))))

/-- A legacy message: 1004 for GPS, 1012 for GLONASS. -/
def legacyMsg (c : StreamCfg) (sys t : Nat) (more : Bool) (utc : Int) (l : List Obs) : List Byte :=
  let sats := sortNat (satIds l)
  let num : Nat := if sys = 0 then 1004 else 1012
  rtcmFrame ([(12, (num : Int)), (12, (c.station : Int)),
      (if sys = 0 then 30 else 27, if sys = 0 then msmTime 0 t utc else msmTime 1 t utc % 134217728),
      (1, (natOfBool more : Int)), (5, (sats.length : Int)), (1, 0), (3, 0)] ++
    sats.map (fun v => (if sys = 0 then 125 else 130,
      (Config.rtcmData num 0 ((l.filter (fun o => decide (o.svid = v))).flatMap obsFields) : Int))))

/-! ### Correction streams (R119-R123) -/

def getStream (s : State) (k : Nat) : Stream := tabGet s.corr.streams k (Stream.init k)

def setStream (k : Nat) (x : Stream) (s : State) : State :=
  { s with corr := { s.corr with streams := tabSet s.corr.streams k x } }

/-- STATE of a stream (R119, R124, R128). -/
def streamStateOf (s : State) (c : StreamCfg) : StreamState :=
  if !c.en then .off
  else if s.gnss.arp.isNone then .waitArp
  else if actingLevel s.corr = 3 then .paused
  else .run

def streamNo : StreamState → Nat
  | .off => 0 | .waitArp => 1 | .run => 2 | .paused => 3

/-- Two records are of one satellite. -/
def sameSat (a b : Obs) : Bool := decide ((sigInfo a.sig).sys = (sigInfo b.sig).sys ∧ a.svid = b.svid)

/-- Records that a stream sends: the ANT_A signals of its systems with a signal ID; no satellite that is EXCLUDED, lies below
its mask, or has no signal with PR_VALID (R120); with the legacy messages, GPS and GLONASS alone. SYS_MASK is in the order GPS,
GLONASS, Galileo, QZSS, BeiDou. -/
def streamObsOf (s : State) (c : StreamCfg) (l : List SatObs) : List Obs :=
  let l1 := (l.filter (fun p =>
    let sys := (sigInfo p.rec_.sig).sys
    !p.rec_.ant && !p.rec_.excluded && !belowMask c.elevMask (sinElev s p.sat) &&
      decide (sys < (if c.msmType = 3 then 2 else 5)) &&
      Nat.testBit c.sysMask ([0, 1, 2, 4, 3].getD sys 5) && decide (msmSignal p.rec_.sig ≠ 0))).map (fun p => p.rec_)
  l1.filter (fun o => l1.any (fun u => sameSat o u && u.prValid))

/-- How many satellites records are of. -/
def satCount (l : List Obs) : Nat :=
  (l.foldl (fun (a : List Obs) o => if a.any (sameSat o) then a else o :: a) []).length

/-- The observation messages of an epoch, in the order GPS, GLONASS, Galileo, QZSS, BeiDou (R121); how many satellites
and cells they hold. -/
def obsMessages (c : StreamCfg) (t : Nat) (l : List Obs) (s : State) : List (List Byte) :=
  let order := if c.msmType = 3 then [0, 1] else [0, 1, 2, 4, 3]
  let of := fun (sys : Nat) => l.filter (fun o => decide ((sigInfo o.sig).sys = sys))
  let present := order.filter (fun sys => !(of sys).isEmpty)
  let last := present.getLastD 9
  present.map (fun sys =>
    if c.msmType = 3 then legacyMsg c sys t (decide (sys ≠ last)) s.time.utcOffset (of sys)
    else msmMsg c sys t (decide (sys ≠ last)) s.time.raw s.time.utcOffset (of sys))

/-- A stationary message is due at an epoch (R121). -/
def dueAt (period t : Nat) : Bool := decide (period ≠ 0) && decide (t % (period * nsPerSec) = 0)

/-- One stream at one epoch (R119-R123): 1230 is neither sent nor owed while PAUSED, and STREAM 2 sends nothing on a
standby. -/
def streamEpoch (t : Nat) (l : List SatObs) (s : State) (k : Nat) : State :=
  let x0 := getStream s k
  let st := streamStateOf s x0.cfgSet
  let x := { x0 with cfg := x0.cfgSet, state := st, oweArp := x0.oweArp && x0.cfgSet.en }
  let s1 := if x0.state = st then setStream k x s
    else raise 0x0200 (k + 4 * streamNo st) [] .all (setStream k x s)
  match s1.gnss.arp with
  | none => s1
  | some a =>
    if st = .off ∨ st = .waitArp ∨ (k = 2 ∧ s1.pair.role = .standby) then s1
    else
      let c := x.cfg
      let rate := [1, 2, 5, 10, 20].getD c.msmRate 1
      let obs := if st = .run ∧ t % (nsPerSec / rate) = 0 then streamObsOf s1 c l else []
      let ms := obsMessages c t obs s1
      let dArp := x.oweArp || dueAt c.arpPeriod t
      let dDesc := x.oweDesc || dueAt c.descPeriod t
      let dBias := decide (st = .run) && (x.oweBias || dueAt c.biasPeriod t)
      let all := ms ++ (if dArp then [arpMsg c a] else []) ++ (if dDesc then [descMsg c s1] else []) ++
        (if dBias then [biasMsg c] else [])
      let n := (all.map (fun m => m.length)).sum
      if all.isEmpty then s1
      else if k < 2 ∧ 8192 < x.fifo.length + n then
        setStream k { x with dropped := cnt32 x.dropped, oweArp := dArp, oweDesc := dDesc, oweBias := dBias } s1
      else
        let y := { x with
          messages := addCnt32 x.messages all.length, bytes := addCnt32 x.bytes n, oweArp := false, oweDesc := false,
          oweBias := x.oweBias && !dBias,
          sats := if ms.isEmpty then x.sats else min 255 (satCount obs),
          cells := if ms.isEmpty then x.cells else min 4095 obs.length }
        if k < 2 then
          setStream k { y with fifo := y.fifo ++ all.flatten, latencyFrom := y.latencyFrom ++ [(x.fifo.length, t)] } s1
        else
          let s2 := setStream k y s1
          { s2 with corr := { s2.corr with corrOut := s2.corr.corrOut ++ [(t, all)] } }

/-- A latency of a stream, in us, is noted. -/
def noteLatency (t now : Nat) (x : Stream) : Stream :=
  let us := min 0xFFFFFFFF ((now - t) / 1000)
  { x with lastLatency := us, maxLatency := max x.maxLatency us }

/-- UART_C_BYTE_SENT: the next byte of a stream leaves on its UART. -/
def execUartCByteSent (stream dt : Nat) (s : State) : Host.Outcome State Fault Refusal :=
  if 2 ≤ stream then .fault .noSuchUnit
  else .next (let s1 := begin_ dt s
    let x := getStream s1 stream
    match x.fifo with
    | [] => s1
    | b :: rest =>
      let y := (x.latencyFrom.filter (fun p => decide (p.1 = 0))).foldl (fun a p => noteLatency p.2 s1.now a)
        { x with fifo := rest }
      let z := { y with latencyFrom := (x.latencyFrom.filter (fun p => decide (p.1 ≠ 0))).map (fun p => (p.1 - 1, p.2)) }
      emit (.uartC stream b) (setStream stream z s1))

/-! ### Antenna integrity (R125-R129) -/

/-- A value reduced into plus or minus half of a span. -/
def wrapInto (v : Int) (span : Nat) : Int := (v + span / 2) % (span : Int) - span / 2

/-- Wavelength, micrometres. -/
def waveUm (sig k : Nat) : Nat := roundDiv 299792458000000 (carrierHz sig k)

/-- A tested satellite: its signal, v_s, wavelength and the span of its residual. -/
structure DdTest where
  sys : Nat
  svid : Nat
  sig : Nat
  v : Int
  wave : Nat
  span : Nat
  deriving DecidableEq, Repr

/-- The record of the same signal on ANT_B. -/
def onAntB (recs : List SatObs) (a : Obs) : Option Obs :=
  (recs.find? (fun p => p.rec_.ant && p.rec_.phValid && decide (p.rec_.sig = a.sig ∧ p.rec_.svid = a.svid ∧ p.rec_.k = a.k))).map
    (fun p => p.rec_)

/-- The BAND 0 records of ANT_A with phase, of satellites at or above the mask; with the dual-antenna test, those that have
phase on ANT_B too. Of each satellite that of the lowest SIG is its tested signal (R125, R126; without the dual-antenna test
ANT_A alone: DESIGN CHOICE, log 167). -/
def testedRecs (dual : Bool) (recs : List SatObs) : List SatObs :=
  let ok := recs.filter (fun p =>
    !p.rec_.ant && p.rec_.phValid && decide ((sigInfo p.rec_.sig).band = 0) && !p.rec_.belowMask &&
      (!dual || (onAntB recs p.rec_).isSome))
  ok.filter (fun p => ok.all (fun u => !sameSat u.rec_ p.rec_ || decide (p.rec_.sig ≤ u.rec_.sig)))

/-- The surveyed baseline along a satellite's direction, um. -/
def baselineAlong (s : State) (sat : Option Ecef) : Option Int :=
  match refPoint s, sat with
  | some r, some p =>
    some (roundQ (dot3 (direction r p) (s.gnss.blE, s.gnss.blN, s.gnss.blU) * 1000) 1073741824)
  | _, _ => none

/-- The dual-antenna test's satellites: v = lambda (phi_B - phi_A) + e . b (R125). One whose direction is not known is not
tested. -/
def ddTests (recs : List SatObs) (s : State) : List DdTest :=
  (testedRecs true recs).filterMap (fun p =>
    match onAntB recs p.rec_, baselineAlong s p.sat with
    | some b, some along =>
      let w := waveUm p.rec_.sig p.rec_.k
      some { sys := (sigInfo p.rec_.sig).sys, svid := p.rec_.svid, sig := p.rec_.sig,
             v := roundQ ((b.phase - p.rec_.phase) * w) 65536 + along, wave := w,
             span := if p.rec_.halfUnres || b.halfUnres then w / 2 else w }
    | _, _ => none)

/-- The circular median of the v_s: the one whose circular distances to all of them sum to the least. -/
def circMedian (l : List DdTest) : Int :=
  let cost := fun (b : Int) => (l.map (fun t => (wrapInto (t.v - b) t.wave).natAbs)).sum
  match l with
  | [] => 0
  | t :: r => (r.foldl (fun best u => if cost u.v < best.2 then (u.v, cost u.v) else best) (t.v, cost t.v)).1

def ddFails (c : IntegCfg) (beta : Int) (t : DdTest) : Bool :=
  decide (c.resThr * 1000 < (wrapInto (t.v - beta) t.span).natAbs)

/-- The SQM test of the tested signals: system, SVID, whether it fails (R126). -/
def sqmTests (dual : Bool) (recs : List SatObs) (s : State) : List (Nat × Nat × Bool) :=
  (testedRecs dual recs).map (fun p =>
    ((sigInfo p.rec_.sig).sys, p.rec_.svid, decide (s.corr.cfg.sqmThr < p.rec_.monSym.natAbs)))

/-- A satellite's record after one epoch in which it was tested (R126). -/
def satEpoch (t : Nat) (fail spoof : Bool) (x : SatInteg) : SatInteg :=
  let x1 := if spoof then x else { x with fails := if fail then x.fails + 1 else 0 }
  let x2 := if fail then { x1 with passSince := none } else { x1 with passSince := some (x1.passSince.getD t) }
  if 3 ≤ x2.fails then { x2 with excluded := true }
  else match x2.passSince with
    | some p => if x2.excluded ∧ p + 60 * nsPerSec ≤ t then { x2 with excluded := false } else x2
    | none => x2

/-- An epoch in which a satellite is not tested ends its runs of failures and of passes; a spoof epoch leaves the failures
(R126). -/
def satGap (spoof : Bool) (x : SatInteg) : SatInteg :=
  { x with fails := if spoof then x.fails else 0, passSince := none }

def putSat (t : Nat) (spoof : Bool) (l : List SatInteg) (r : Nat × Nat × Bool) : List SatInteg :=
  let (sys, svid, fail) := r
  if l.any (fun x => decide (x.sys = sys ∧ x.svid = svid)) then
    l.map (fun x => if x.sys = sys ∧ x.svid = svid then satEpoch t fail spoof x else x)
  else l ++ [satEpoch t fail spoof { sys := sys, svid := svid, fails := 0, excluded := false, passSince := none }]

/-- The median of a chain's learned gains. -/
def gainMedian (l : List (Nat × Nat)) : Nat := (sortNat (l.map (fun p => p.2))).getD (l.length / 2) 0

/-- The POWER indicator of one ANT_A chain. -/
def powerLow (s : State) (band : Nat) : Bool :=
  let c := getChain4 s band
  let l := tabGet s.corr.gains band []
  c.en && !c.agcFixed && decide (3600 ≤ l.length) && decide (c.gainNow + s.corr.cfg.powerDelta ≤ gainMedian l)

/-- Gains learned at whole seconds at level 0, over 24 h. -/
def learnGains (t : Nat) (s : State) : State :=
  if t % nsPerSec ≠ 0 ∨ s.corr.level ≠ 0 then s
  else
    let sec := t / nsPerSec
    let add := fun (a : Tab (List (Nat × Nat))) (band : Nat) =>
      let c := getChain4 s band
      if c.en ∧ c.agcFixed = false then
        tabSet a band ((sec, c.gainNow) :: (tabGet a band []).filter (fun p => decide (sec < p.1 + 86400)))
      else a
    { s with corr := { s.corr with gains := (List.range 4).foldl add s.corr.gains } }

/-- C/N0 of the ANT_A BAND 0 signals in TRACK: at least 8 with a standard deviation below 1.0 dB. -/
def cn0Flat (s : State) : Bool :=
  let xs := (s.gnss.channels.filter (fun p => decide (p.2.state = .track) && !p.2.ant &&
    decide ((sigInfo p.2.sig).band = 0))).map (fun p => p.2.cn0)
  let n := xs.length
  let sum := xs.sum
  decide (8 ≤ n) && decide (n * (xs.map (fun x => x * x)).sum < sum * sum + 10000 * n * n)

def interference (s : State) : Bool :=
  (List.range 4).any (fun b =>
    let c := getChain4 s b
    decide (10000 < c.clipPpm) || decide (10000 < c.blankPpm) ||
      c.notches.any (fun p => decide (p.2.mode = 2) && p.2.locked.isSome))

/-- The level that indicators give (R127). -/
def indicatorLevel (ind : Nat) (c : Corr) : Nat :=
  let b := fun (i : Nat) => Nat.testBit ind i
  if (b 2 && decide (c.cfg.alarmEpochs ≤ c.spoofRun)) || decide (c.cfg.alarmEpochs ≤ c.coincRun) then 3
  else if b 2 || b 3 || b 4 || b 5 then 2
  else if b 0 || b 1 then 1
  else 0

/-- The level in force after an epoch (R127): it rises at once, and falls, once in an epoch, to the lowest value that the
computed levels of the last H seconds have not exceeded. -/
def levelAfter (level computed t : Nat) (hist : List (Nat × Nat)) : Nat :=
  if level < computed then computed
  else
    let h := if level = 3 then 60 else 10
    let within := fun (l : Nat) => hist.all (fun p => decide (p.1 + h * nsPerSec ≤ t) || decide (p.2 ≤ l))
    ([0, 1, 2].find? (fun l => decide (l < level) && within l)).getD level

/-- GNSS_INTEGRITY_CFG response word 6: the failing satellites are reported whatever ACTION is (R127). -/
def integrityWord (c : Corr) : Word :=
  wordOfFields [(c.level, 0), (c.indicators, 8), (min 255 (c.sats.filter (fun x => x.excluded)).length, 16),
    (min 255 c.tested, 24)]

/-- What the level in force brings at once: its event, the loss of GNSS, the stop, and TQ (R128, R129, R347, R359). -/
def levelActs (old : Nat) (s : State) : State :=
  let new := s.corr.level
  let s1 := if old = new then s else raise 0x0104 (new + 4 * old) [integrityWord s.corr] .all s
  let s2 := if actingLevel s1.corr = 3 ∧ qualified s1 1 then loseSource 1 s1 else s1
  let s3 := if s2.corr.cfg.action = 2 ∧ new = 3 ∧ old < 3 then raiseFault 4 s2 else s2
  updateTq (if new < 3 ∧ s3.stop.faults.contains 4 then ceaseFault 4 s3 else s3)

/-- DD_EN: 0 on a member with one antenna (R2, R130). -/
def ddEnabled (m : Member) (c : IntegCfg) : Bool := c.ddEn && decide (nAntennas m = 2)

/-- The integrity evaluation of a 50 ms epoch on its records. -/
def integrityEpoch (t : Nat) (recs : List SatObs) (s0 : State) : State :=
  let s := { s0 with corr := { s0.corr with cfg := s0.corr.cfgSet } }
  let c := s.corr
  let active := ddEnabled s.member c.cfg && decide (s.gnss.blState = 2) && s.gnss.baseline.isNone
  let tests := if active then ddTests recs s else []
  let beta := circMedian tests
  let failed := (tests.filter (ddFails c.cfg beta)).length
  let spoof := decide (5 ≤ tests.length) && decide (c.cfg.spoofFrac * tests.length ≤ 100 * failed)
  let sqm := sqmTests active recs s
  let dd := tests.map (fun x => (x.sys, x.svid, ddFails c.cfg beta x))
  let sqmOf := fun (x : Nat × Nat × Bool) => sqm.any (fun y => decide (y.1 = x.1 ∧ y.2.1 = x.2.1) && y.2.2)
  let judged := dd.map (fun x => (x.1, x.2.1, x.2.2 || sqmOf x)) ++
    sqm.filter (fun y => !dd.any (fun x => decide (y.1 = x.1 ∧ y.2.1 = x.2.1)))
  let gaps := c.sats.map (fun x =>
    if judged.any (fun y => decide (y.1 = x.sys ∧ y.2.1 = x.svid)) then x else satGap spoof x)
  let sats := judged.foldl (putSat t spoof) gaps
  let flat := cn0Flat s
  let flatSince := if flat then c.flatSince.or (some s.up) else none
  let bPower := (List.range 4).any (powerLow s)
  let bClk := decide (s.up < c.clkUntil)
  let bFlat := match flatSince with
    | some f => decide (f + 10 * nsPerSec ≤ s.up)
    | none => false
  let two := decide (2 ≤ natOfBool bPower + natOfBool bClk + natOfBool bFlat)
  let ind := flagBits [sats.any (fun x => x.excluded), interference s, spoof, bPower, bClk, bFlat,
    active && decide (tests.length < 5), !active]
  let c1 := { c with
    sats := sats, tested := tests.length, spoofRun := if spoof then c.spoofRun + 1 else 0,
    coincRun := if two then c.coincRun + 1 else 0, flatSince := flatSince, indicators := ind }
  let comp := indicatorLevel ind c1
  let hist := (t, comp) :: c.history.filter (fun p => decide (t < p.1 + 60 * nsPerSec))
  let c2 := { c1 with history := hist, level := levelAfter c.level comp t hist }
  learnGains t (levelActs c.level { s with corr := c2 })

/-! ### GNSS_INTEGRITY_CFG (R130) -/

def integWords (m : Member) (x : Corr) : List Word :=
  let c := x.cfgSet
  [wordOfFields [(c.action, 1), (natOfBool (ddEnabled m c), 3)],
    wordOfFields [(c.resThr, 0), (c.spoofFrac, 8), (c.alarmEpochs, 16), (c.inflate, 24)],
    wordOfFields [(c.powerDelta, 0), (c.sqmThr, 8), (c.clkJump, 24)], integrityWord x]

def integrityCfgBody (r : Req) (s : State) : Res := do
  let h := par r 0
  let a := par r 1
  let b := par r 2
  let read := bitAt h 0
  need (onlyBits h 0xF && (!read || decide (h = 1)) && (read || decide (fld h 1 2 ≠ 3))) .badParam 0
  let s1 ← (if read then (.ok s : Except Fail State) else do
    need (!bitAt h 3 || decide (nAntennas s.member = 2)) .range 0
    need (inRange (fld a 0 7) 5 50 && inRange (fld a 8 15) 20 90 && inRange (fld a 16 23) 1 40 &&
      inRange (fld a 24 31) 1 15) .range 1
    need (inRange (fld b 0 7) 2 40 && inRange (fld b 8 23) 328 16384 && decide (1 ≤ fld b 24 31)) .range 2
    let c : IntegCfg := { action := fld h 1 2, ddEn := bitAt h 3, resThr := fld a 0 7, spoofFrac := fld a 8 15,
                          alarmEpochs := fld a 16 23, inflate := fld a 24 31, powerDelta := fld b 0 7,
                          sqmThr := fld b 8 23, clkJump := fld b 24 31 }
    .ok { s with corr := { s.corr with cfgSet := c } })
  return (s1, .ok 0 (integWords s1.member s1.corr))

def descGnssIntegrityCfg : Desc :=
  ({ Desc.std 0x107 [3, 5] 7 (fun r => bitAt (par r 0) 0) integrityCfgBody with standbyOk := fun _ => true }).formLen
    (readForm 0 3 5)

/-! ### CORR_STREAM_CFG (R124) -/

def streamWords (c : StreamCfg) : List Word :=
  [wordOfFields [(natOfBool c.en, 0), (c.baud, 1), (c.msmType, 4), (c.msmRate, 6), (c.sysMask, 9), (c.elevMask, 14),
     (c.station, 20)],
   wordOfFields [(c.arpPeriod, 0), (c.arpMsg, 6), (c.descPeriod, 7), (c.descMsg, 13), (c.biasPeriod, 15), (c.rhMask, 21)],
   wordOf c.antHeight]

def descrWords (kind : Nat) (d : Descr) : List Word :=
  if d.len = 0 ∧ d.setup = 0 then List.replicate 9 0
  else wordOfFields [(kind, 0), (d.len, 8), (d.setup, 16)] ::
    (List.range 8).map (fun i => wordOf (leNat ((d.text ++ List.replicate 32 0).drop (4 * i) |>.take 4)))

def corrLen (r : Req) : Option Nat := some ([6, 12, 3, 4].getD (fld (par r 0) 4 5) 6)

/-- The settings and the state of a correction stream. -/
def streamReply (k : Nat) (s : State) : List Word :=
  streamWords (getStream s k).cfgSet ++ [wordOf (streamNo (streamStateOf s (getStream s k).cfgSet))]

def corrStreamCfgBody (r : Req) (s : State) : Res := do
  let h := par r 0
  let k := fld h 0 1
  let sec := fld h 4 5
  let a := par r 1
  let b := par r 2
  need (onlyBits h 0x33 && (decide (sec = 0) || decide (sec = 2) || decide (k = 0))) .badParam 0
  let reply := fun (s1 : State) => (.ok (s1, .ok 0 (h :: streamReply k s1)) : Res)
  match sec with
  | 0 =>
    need (onlyBits b 0x1FFFFFFF && onlyBits (par r 3) 0xFFFF && decide (fld b 13 14 ≠ 3) &&
      (decide (k ≠ 2) || decide (fld a 1 3 = 0)) && (decide (k = 2) || decide (fld b 21 28 = 0))) .badParam 0
    need (decide (k ≤ 2) && decide (fld a 6 8 ≤ 4) && decide (fld a 14 19 ≤ 60) && decide (fld b 0 5 ≤ 60) &&
      decide (fld b 7 12 ≤ 60) && decide (fld b 15 20 ≤ 60) && decide (fld b 21 28 < 2 ^ nRh s.member)) .range 0
    let c : StreamCfg :=
      { en := bitAt a 0, baud := fld a 1 3, msmType := fld a 4 5, msmRate := fld a 6 8, sysMask := fld a 9 13,
        elevMask := fld a 14 19, station := fld a 20 31, arpPeriod := fld b 0 5, arpMsg := fld b 6 6,
        descPeriod := fld b 7 12, descMsg := fld b 13 14, biasPeriod := fld b 15 20, rhMask := fld b 21 28,
        antHeight := fld (par r 3) 0 15 }
    reply (setStream k { getStream s k with cfgSet := c } s)
  | 2 =>
    need (decide (k ≤ 2)) .range 0
    reply s
  | 1 =>
    let kind := fld a 0 0
    let len := fld a 8 12
    let text := wordBytes ((List.range 8).map (fun i => par r (2 + i)))
    need (onlyBits a 0xFF1F01 && (decide (kind = 0) || decide (fld a 16 23 = 0)) &&
      (text.drop len).all (fun x => decide (x = 0))) .badParam 0
    let d : Descr := { len := len, setup := fld a 16 23, text := text.take len }
    return ({ s with corr := { s.corr with descrs := tabSet s.corr.descrs kind d } }, .ok 0 (h :: descrWords kind d))
  | _ =>
    need (onlyBits a 1) .badParam 0
    return (s, .ok 0 (h :: descrWords (fld a 0 0) (getDescr s (fld a 0 0))))

def descCorrStreamCfg : Desc :=
  ({ Desc.std 0x200 [3, 4, 6, 12] 13 (fun r => bitAt (par r 0) 5) corrStreamCfgBody with
      standbyOk := fun _ => true }).formLen corrLen

/-! ### CORR_GET_STATS -/

def corrStatsWords (s : State) (x : Stream) : List Word :=
  [wordOf (streamNo (streamStateOf s x.cfgSet)), wordOf x.messages, wordOf x.bytes, wordOf x.dropped,
    wordOfFields [(x.sats, 0), (x.cells, 8)], wordOf x.lastLatency, wordOf x.maxLatency]

def corrGetStatsBody (r : Req) (s : State) : Res := do
  let h := par r 0
  let k := fld h 0 1
  need (onlyBits h 0x103) .badParam 0
  need (decide (k ≤ 2)) .range 0
  let x := getStream s k
  let s1 := if bitAt h 8 then setStream k { x with messages := 0, bytes := 0, dropped := 0, maxLatency := 0 } s else s
  return (s1, .ok 0 (corrStatsWords s x))

def descCorrGetStats : Desc := Desc.read 0x201 [3] 10 corrGetStatsBody

/-! ### The measurement epoch (R101) -/

/-- A pseudorange as recorded, 2^-6 mm (R102): the internal group delay and the cable delay are taken off. -/
def rawRange (s : State) (c : Channel) (pr : Nat) : Nat :=
  (uint 48 ((pr : Int) - Config.groupDelay c.ant (sigInfo c.sig).band - psRange (getAnt s c.ant).cableDelay))

/-- The record of a channel at an epoch (R102-R104). -/
def obsOf (s : State) (host : Bool) (m : ObsMeas) : Option SatObs :=
  let c := getChan s m.ch
  if !chanLocked c.state then none
  else
    let excluded := decide (s.corr.cfg.action ≠ 0) &&
      s.corr.sats.any (fun x => x.excluded && decide (x.sys = (sigInfo c.sig).sys ∧ x.svid = c.svid))
    let r : Obs :=
          { channel := m.ch, sig := c.sig, ant := c.ant, svid := c.svid, k := c.k, pr := rawRange s c m.pr,
            prValid := m.prValid, phValid := decide (c.state = .track), halfUnres := c.halfUnres,
            halfApplied := c.halfApplied, slip := if host then c.slipHost else c.slip20,
            belowMask := Machine.belowMask s.gnss.mask (sinElev s m.sat), excluded := excluded, slipCount := c.slipCount,
            phase := m.phase + (if c.halfApplied then 32768 else 0), doppler := c.doppler, cn0 := c.cn0,
            monSym := c.monSym, lockTime := c.lockTime }
    some { rec_ := r, sat := m.sat }

/-- The measurements of an epoch in channel order, one for a channel. -/
def insertMeas (m : ObsMeas) : List ObsMeas → List ObsMeas
  | [] => [m]
  | x :: r => if m.ch < x.ch then m :: x :: r else if m.ch = x.ch then m :: r else x :: insertMeas m r

def inChannelOrder (l : List ObsMeas) : List ObsMeas := l.foldr insertMeas []

/-- The records of an epoch. -/
def recsOf (s : State) (host : Bool) (l : List ObsMeas) : List SatObs := (inChannelOrder l).filterMap (obsOf s host)

/-- The baseline survey takes an epoch, and ends (R110). -/
def baselineEpoch (fixed : Option (Int × Int × Int)) (s : State) : State :=
  match s.gnss.baseline with
  | none => s
  | some v0 =>
    let v1 := { v0 with count := v0.count + 1, elapsed := (v0.count + 1) / 20 }
    let v := match fixed with
      | some (e, n, u) => { v1 with sumX := v1.sumX + e, sumY := v1.sumY + n, sumZ := v1.sumZ + u, good := v1.good + 1 }
      | none => v1
    let s1 := { s with gnss := { s.gnss with baseline := some v, elapsed := v.elapsed } }
    if v.count < 20 * v.minDur then s1
    else
      let e := if v.good = 0 then 0 else roundQ v.sumX v.good
      let n := if v.good = 0 then 0 else roundQ v.sumY v.good
      let u := if v.good = 0 then 0 else roundQ v.sumZ v.good
      let len2 := (e * e + n * n + u * u).toNat
      let ok := decide (80 * v.count ≤ 100 * v.good) && decide (300 * 300 ≤ len2) && decide (len2 ≤ 50000 * 50000)
      let (f, s2) := drawFresh { s1 with gnss := { s1.gnss with baseline := none } }
      if ok then
        surveyEvent v.req 2 { s2 with gnss := { s2.gnss with
          blE := e, blN := n, blU := u, blSigma := (Config.freeWord f).toNat % 65536, blState := 2 } }
      else surveyEvent v.req 3 { s2 with gnss := { s2.gnss with blState := 3 } }

/-- A record as BASE carries it. -/
def baseWords (p : SatObs) : List Nat :=
  (obsWords p.rec_).map (fun w => w.toNat) ++
    (match p.sat with
     | some x => [1, uint 64 x.1, uint 64 x.2.1, uint 64 x.2.2]
     | none => [0])

/-- A base epoch reaches the RSE, and the partner's with the ARP in force (R138, R158, R162): not at integrity level 3, and
on a standby only from the lane. The module's own ones are kept apart for a switch-over (R163). -/
def baseEpoch (t : Nat) (recs : List SatObs) (s : State) : State :=
  let antA := recs.filter (fun p => !p.rec_.ant)
  if actingLevel s.corr = 3 ∨ antA.all (fun p => !p.rec_.prValid) then s
  else
    let s1 := { s with rse := { s.rse with own := ({ time := t, recs := antA } :: s.rse.own).take 40 } }
    if s1.pair.role = .standby then s1
    else
      let arp := match s1.gnss.arp, s1.rse.arp with
        | some _, some a => [1, (uint 64 a.x), (uint 64 a.y), (uint 64 a.z)]
        | _, _ => [0]
      laneSend 2 (t :: arp ++ antA.flatMap baseWords) (takeBase t antA s1)

def clearSlips (host own : Bool) (s : State) : State :=
  let f := fun (p : Nat × Channel) =>
    (p.1, { p.2 with slipHost := p.2.slipHost && !host, slip20 := p.2.slip20 && !own })
  { s with gnss := { s.gnss with channels := s.gnss.channels.map f } }

/-- The device time of the next measurement epoch. -/
def nextEpoch (s : State) : Nat :=
  min (dueMult 50000000 s.gnss.lastEpoch s) (dueMult (nsPerSec / s.gnss.obsRate) s.gnss.lastEpoch s)

/-- What an epoch that is a multiple of 50 ms is to the integrity monitor, the own solution, the base's corrections and the
rovers. -/
def ownEpoch (t : Nat) (obs : List ObsMeas) (s : State) : State :=
  let s1 := rseView s
  let s2 := integrityEpoch t (recsOf s1 false obs) s1
  let recs := recsOf s2 false obs
  let s3 := baselineEpoch (Config.baselineFix recs) { s2 with gnss := { s2.gnss with ownRecs := recs } }
  baseEpoch t recs ((List.range 3).foldl (streamEpoch t recs) s3)

/-- An epoch at the observation rate: it is kept, its records in channel order, and streamed to the hosts. -/
def hostEpoch (t : Nat) (obs : List ObsMeas) (s : State) : State :=
  let e : ObsEpoch := { time := t, clkBias := s.gnss.clkBias, clkDrift := s.gnss.clkDrift,
                        recs := (recsOf s true obs).map (fun p => p.rec_) }
  streamObs e { s with gnss := { s.gnss with epochs := (e :: s.gnss.epochs).take 8 } }

/-- The epoch at t. -/
def measEpoch (t : Nat) (obs : List ObsMeas) (s : State) : State :=
  let own := decide (t % 50000000 = 0)
  let host := decide (t % (nsPerSec / s.gnss.obsRate) = 0)
  let s1 := { s with gnss := { s.gnss with lastEpoch := t } }
  let s2 := if own then ownEpoch t obs s1 else s1
  let s3 := if host then hostEpoch t obs s2 else s2
  clearSlips host own s3

/-- MEAS_EPOCH. -/
def execMeasEpoch (obs : List ObsMeas) (s : State) : Host.Outcome State Fault Refusal :=
  let t := nextEpoch s
  .next (if gnssRuns s && reaches t s then measEpoch t obs (beginAt t s) else begin_ 0 s)

end Sys2Proof.Machine
end

