-- ==== Sys2Proof/Machine/Sched.lean ====
section
/-! DEFINITION. The job scheduler (chapter 13): dependence counters, the creel, dispatch to the tick cores, quarantine,
tick statistics, host jobs, and SCHED_GET. -/
set_option autoImplicit false

namespace Sys2Proof.Machine

/-! ### Jobs and dependence (R299, R300) -/

def getSlot (s : State) (i : Nat) : JobSlot := tabGet s.sched.slots i JobSlot.init

def setSlot (i : Nat) (x : JobSlot) (s : State) : State :=
  { s with sched := { s.sched with slots := tabSet s.sched.slots i x } }

def getHostJob (s : State) (j : Nat) : HostJob := tabGet s.sched.jobs j HostJob.init

def setHostJob (j : Nat) (h : HostJob) (s : State) : State :=
  { s with sched := { s.sched with jobs := tabSet s.sched.jobs j h } }

/-- First slot of the host jobs (R299). -/
def hostBase (m : Member) : Nat := nJobSlots m - nHostJobs m

/-- A decrement of a slot's dependence counter (R300). -/
def decSlot (up : Nat) (x : JobSlot) : JobSlot :=
  if x.ready || x.running then { x with overlaps := x.overlaps + 1 }
  else if x.counter = 0 then x
  else if x.counter = 1 then { x with counter := 0, ready := true, readyAt := up }
  else { x with counter := x.counter - 1 }

/-! ### Cores -/

def getCore (s : State) (c : Nat) : Core := tabGet s.sched.cores c Core.init

def setCore (c : Nat) (x : Core) (s : State) : State :=
  { s with sched := { s.sched with cores := tabSet s.sched.cores c x } }

def coreIds (s : State) : List Nat := List.range (nCores s.member)

def inService (s : State) : Nat := ((coreIds s).filter (fun c => !(getCore s c).quarantined)).length

/-- Overruns of a core within the last 64 ticks. -/
def ovr64 (s : State) (c : Nat) : Nat :=
  ((getCore s c).overruns.filter (fun t => decide (s.tick.number < t + 64))).length

/-- Quarantine (R311, R312): never below half the member's cores; there, an active module of a pair asserts PFAULT_OUT
(R389). -/
def quarantine (c cause : Nat) (s : State) : State :=
  if (getCore s c).quarantined then s
  else if 2 * (inService s - 1) < nCores s.member then (if s.pair.en then assertPfault s else s)
  else
    let s1 := { s with health := { s.health with replanDue := s.health.replanDue ++ [1] } }
    setInt 21 (raise 0x0F02 (c + 16 * cause) [wordOf (ovr64 s c)] .all
      (setCore c { getCore s1 c with quarantined := true, prefetch := none } s1))

/-! ### The creel (R301-R304) -/

/-- A ready job: slot, priority, ready time, serial key. -/
structure ReadyJob where
  slot : Nat
  prio : Nat
  readyAt : Nat
  key : Option Nat
  deriving DecidableEq, Repr

def readyJobs (s : State) : List ReadyJob :=
  let fw := (s.sched.slots.filter (fun p => p.2.ready)).map (fun p =>
    ({ slot := p.1, prio := p.2.prio, readyAt := p.2.readyAt,
       key := match p.2.cls with
         | .serial k => some k
         | .parallel => none } : ReadyJob))
  let hj := if s.pair.role = .standby then [] else
    (s.sched.jobs.filter (fun p => p.2.ready)).map (fun p =>
      ({ slot := hostBase s.member + p.1, prio := 4, readyAt := p.2.readyAt, key := some p.1 } : ReadyJob))
  fw ++ hj

/-- A serial key is in flight: a firmware job or a host job of that key runs (R302, R314). -/
def keyBusy (s : State) (j : ReadyJob) : Bool :=
  match j.key with
  | none => false
  | some k => s.sched.slots.any (fun p => p.2.running && decide (p.2.cls = .serial k)) || (getHostJob s k).running

/-- Better: higher priority, then earlier ready time, then lower slot (R302). -/
def betterJob (a b : ReadyJob) : Bool :=
  decide (b.prio < a.prio) ||
    (decide (a.prio = b.prio) && (decide (a.readyAt < b.readyAt) || (decide (a.readyAt = b.readyAt) && decide (a.slot < b.slot))))

def bestJob : List ReadyJob → Option ReadyJob
  | [] => none
  | a :: r => match bestJob r with
    | none => some a
    | some b => if betterJob b a then some b else some a

/-- Between the tick deadline and the next boundary no job of priority 6 is dispatched (R304). -/
def inGuard (s : State) : Bool := ticking s && decide (s.tick.deadline ≤ s.now)

/-- The next job for a core: ready, neither it nor another of its key prefetched by another core, its key free, and allowed
by R304. -/
def nextJob (s : State) (core : Nat) : Option ReadyJob :=
  let others := (s.sched.cores.filter (fun p => decide (p.1 ≠ core))).filterMap (fun p => p.2.prefetch)
  let ready := readyJobs s
  let keys := (ready.filter (fun j => others.contains j.slot)).filterMap (fun j => j.key)
  let taken := fun (j : ReadyJob) => match j.key with
    | some k => keys.contains k
    | none => false
  bestJob (ready.filter (fun j =>
    !others.contains j.slot && !taken j && !keyBusy s j && !(inGuard s && decide (j.prio = 6))))

/-- A job starts on a core: it is no longer ready, it runs, and the waits are measured. -/
def startJob (core : Nat) (j : ReadyJob) (s : State) : State :=
  let c := getCore s core
  let w := s.up - j.readyAt
  let c' := { c with
    job := some (j.slot, s.up), prefetch := none, jobsRun := c.jobsRun + 1, waitMax := max c.waitMax w,
    waitSum := c.waitSum + w, waitCount := c.waitCount + 1 }
  let s1 := setCore core c' s
  let s2 := { s1 with sched := { s1.sched with
    waits := s1.sched.waits.set j.prio (max (s1.sched.waits.getD j.prio 0) (w / 1000)) } }
  if j.slot < hostBase s.member then
    setSlot j.slot { getSlot s2 j.slot with ready := false, running := true } s2
  else
    let k := j.slot - hostBase s.member
    let h := getHostJob s2 k
    setHostJob k { h with ready := false, running := true, runs := h.runs + 1 } s2

/-- The core prefetches one job (R303). -/
def prefetchJob (core : Nat) (s : State) : State :=
  setCore core { getCore s core with prefetch := (nextJob s core).map (fun j => j.slot) } s

/-- Ready jobs per priority, and their peaks since clear. -/
def creelDepth (s : State) (p : Nat) : Nat := ((readyJobs s).filter (fun j => decide (j.prio = p))).length

def notePeaks (s : State) : State :=
  { s with sched := { s.sched with
      peaks := (List.range 8).map (fun p => max (s.sched.peaks.getD p 0) (creelDepth s p)) } }

/-- CORE cycles (1.25 ns) as ns, rounded up. -/
def cyclesNs (n : Nat) : Nat := ceilDiv (5 * n) 4

/-- JOB_COMPLETE (R300, R311): the successors' counters fall, and a job of priority 6 or 7 that took more than twice its
planned duration counts as an overrun of its core. -/
def execJobComplete (core dt : Nat) (s : State) : Host.Outcome State Fault Refusal :=
  if nCores s.member ≤ core then .fault .noSuchUnit
  else
    let s1 := begin_ dt s
    .next (match (getCore s1 core).job with
      | none => s1
      | some (slot, t0) =>
        let d := s1.up - t0
        let c := getCore s1 core
        let s2 := setCore core { c with job := none, busy := c.busy + d } s1
        if hostBase s1.member ≤ slot then s2
        else
          let x := getSlot s2 slot
          let s3 := setSlot slot { x with running := false } s2
          let s4 := x.succs.foldl (fun a i => setSlot i (decSlot a.up (getSlot a i)) a) s3
          let s5 := if x.prio = 6 then { s4 with sched := { s4.sched with prio6 := s4.sched.prio6 + d } } else s4
          let s6 := notePeaks s5
          if 6 ≤ x.prio ∧ 2 * cyclesNs x.planned < d then
            let c := getCore s6 core
            let s7 := setCore core { c with
              overruns := s6.tick.number :: c.overruns.filter (fun t => decide (s6.tick.number < t + 64)),
              ovrTotal := c.ovrTotal + 1 } s6
            if 4 ≤ ovr64 s7 core then quarantine core 0 s7 else s7
          else s6)

/-- A job is taken from its core; a host job goes on (R312). -/
def revoke (core slot : Nat) (s : State) : State :=
  if hostBase s.member ≤ slot then s
  else
    let x := getSlot s slot
    let c := getCore s core
    let s1 := setCore core { c with job := none, revoked := c.revoked + 1 } s
    quarantine core 1 (setSlot slot { x with running := false, ready := true } s1)

/-- JOB_REVOKE (R312): a job that has run for more than 8 times its planned duration is ready again with its original
ready time, and its core is quarantined. -/
def execJobRevoke (core : Nat) (s : State) : Host.Outcome State Fault Refusal :=
  if nCores s.member ≤ core then .fault .noSuchUnit
  else .next (match (getCore s core).job with
    | none => begin_ 0 s
    | some (slot, t0) =>
      revoke core slot (beginUp (t0 + 8 * cyclesNs (getSlot s slot).planned + 1) s))

/-! ### Tick statistics (R305) -/


/-- The 1st-percentile slack over the last 1,000 ticks (R306). -/
def slackP99 (s : State) : Int := (sortInt s.sched.slacks).getD (s.sched.slacks.length / 100) 0

/-- A tick is completed: its slack, in us (R305). -/
def noteSlack (s : State) : State :=
  let k : Int := ((s.tick.deadline : Int) - (s.now : Int)) / 1000
  { s with sched := { s.sched with
      slackLast := k, slackMin := some (match s.sched.slackMin with
        | some m => min m k
        | none => k),
      slacks := (k :: s.sched.slacks).take 1000, consec := 0 } }

/-- Overruns of ticks within the last 64. -/
def tickOvr64 (s : State) : Nat := (s.sched.ovrRecent.filter (fun t => decide (s.tick.number < t + 64))).length

/-- Once a second the load figures and the command response times are taken (R305, R306). -/
def secondStats (s : State) : State :=
  let d := inService s * s.sched.budget
  let ts := sortNat s.sched.cmdTimes
  let n := ts.length
  { s with sched := { s.sched with
      load := if d = 0 then 0 else s.sched.prio6 * 10000 / d, prio6 := 0, budget := 0,
      cmdTyp := ts.getD (n / 2) 0, cmdP99 := ts.getD (n * 99 / 100) 0, cmdTimes := [],
      cores := s.sched.cores.map (fun p => (p.1, { p.2 with
        load := p.2.busy * 10000 / nsPerSec, busy := 0, waitMean := p.2.waitSum / p.2.waitCount, waitSum := 0,
        waitCount := 0 })) } }

/-! ### Host jobs (R314, R315) -/

/-- Periodic host jobs count input snapshots (R314). -/
def periodicJobs (s : State) : State :=
  let step := fun (h : HostJob) =>
    match h.defn with
    | some d =>
      if h.armed && decide (d.trigger = 2) then
        if h.periodLeft ≤ 1 then { decHostJob s.up h with periodLeft := d.periodTicks }
        else { h with periodLeft := h.periodLeft - 1 }
      else h
    | none => h
  { s with sched := { s.sched with jobs := s.sched.jobs.map (fun p => (p.1, step p.2)) } }

/-- Every host job is disarmed (R316). -/
def disarmJobs (s : State) : State :=
  { s with sched := { s.sched with
      jobs := s.sched.jobs.map (fun p => (p.1, { p.2 with armed := false, ready := false, running := false, result := none })) } }

/-- HOST_JOB_FINAL (R315): the result goes to the defining queue pair as EV_SCHED_JOB, the successors' counters fall
after ST_OK, successors with STOP_ON_FAIL are disarmed otherwise, and the job re-arms or is disarmed. -/
def execHostJobFinal (j dt : Nat) (s : State) : Host.Outcome State Fault Refusal :=
  if nHostJobs s.member ≤ j then .fault .noSuchUnit
  else
    let s1 := begin_ dt s
    let h := getHostJob s1 j
    .next (match h.result, h.defn with
      | some (w, ws), some d =>
        let good := decide (fld w 16 31 = 0)
        let tag := d.packet.getD 1 0
        let s2 :=
          if d.queue < 16 then raise 0x0F00 j (w :: ws) (.one d.queue tag) s1 else raise 0x0F00 j (w :: ws) .none s1
        let h1 := getHostJob s2 j
        let h2 :=
          { h1 with running := false, result := none, lastStatus := w, armed := d.rearm && h1.armed,
                    counter := if d.rearm then d.deps else h1.counter }
        let s3 := setHostJob j h2 s2
        let succ := fun (a : State) (k : Nat) =>
          let x := getHostJob a k
          if !Nat.testBit d.succMask k then a
          else if good then setHostJob k (decHostJob a.up x) a
          else match x.defn with
            | some e => if e.stopOnFail then setHostJob k { x with armed := false, ready := false } a else a
            | none => a
        (List.range (nHostJobs s3.member)).foldl succ s3
      | _, _ => s1)

/-! ### SCHED_GET (R317) -/

def clearTickStats (s : State) : State :=
  { s with sched := { s.sched with slackMin := none, overruns := 0, carryBeacons := 0 } }

def quarantinedMask (s : State) : Nat :=
  (coreIds s).foldl (fun a c => if (getCore s c).quarantined then a + 2 ^ c else a) 0

def schedTickWords (s : State) : List Word :=
  [wordOfFields [(s.tick.period, 0), (guardNow s, 8), (min s.sched.load 0xFFFF, 16)], wordOfInt s.sched.slackLast,
   wordOfInt (slackP99 s), wordOfInt (s.sched.slackMin.getD 0), wordOf s.sched.overruns, wordOf s.sched.carryBeacons,
   wordOfFields [(tickOvr64 s, 0), (min s.sched.consec 255, 8)], wordOf s.sched.cmdTyp, wordOf s.sched.cmdP99,
   wordOfFields [(inService s, 0), (quarantinedMask s, 16)], wordOf s.sched.lastOverrun]

def creelWords (s : State) : List Word :=
  (List.range 8).map (fun p => wordOfFields [(creelDepth s p, 0), (s.sched.peaks.getD p 0, 16)]) ++
    s.sched.waits.map wordOf

def coreWords (s : State) (c : Nat) : List Word :=
  let x := getCore s c
  [wordOfFields [(natOfBool x.quarantined, 0), (natOfBool x.job.isSome + natOfBool x.prefetch.isSome, 8)],
   wordOf x.load, wordOf x.jobsRun, wordOf x.waitMean, wordOf x.waitMax, wordOf (ovr64 s c), wordOf x.ovrTotal,
   wordOf x.revoked]

def schedGetBody (r : Req) (s : State) : Res := do
  let sec := fld (par r 0) 0 1
  let c := fld (par r 0) 8 11
  let clear := bitAt (par r 0) 16
  need (onlyBits (par r 0) 0x10F03) .badParam 0
  need (decide (sec ≠ 3) && (decide (sec ≠ 2) || decide (c < nCores s.member))) .range 0
  if sec = 0 then return (if clear then clearTickStats s else s, .ok 0 (schedTickWords s))
  else if sec = 1 then
    let z := { s with sched := { s.sched with peaks := List.replicate 8 0, waits := List.replicate 8 0 } }
    return (if clear then z else s, .ok 0 (creelWords s))
  else
    let z := setCore c { getCore s c with jobsRun := 0, waitMax := 0, ovrTotal := 0, revoked := 0 } s
    return (if clear then z else s, .ok 0 (coreWords s c))

def descSchedGet : Desc :=
  { Desc.read 0xF00 [3] 19 schedGetBody with standbyOk := fun _ => true }

end Sys2Proof.Machine
end

