-- ==== Sys2Proof/Machine/Upd.lean ====
section
/-! DEFINITION. Images, the update session, the doff and attestation (chapter 18). -/
set_option autoImplicit false

namespace Sys2Proof.Machine

/-! ### Image headers (R413-R415) -/

/-- n bytes of a header at an offset, as a number. -/
def hdrAt (h : List Byte) (off n : Nat) : Nat := leNat ((h.drop off).take n)

def zeroBytes (h : List Byte) (off n : Nat) : Bool := ((h.drop off).take n).all (fun b => decide (b = 0))

def isForerunner (h : List Byte) : Bool := decide (hdrAt h 0 4 = 0x36495650)

def hdrVersion (h : List Byte) : Nat := if isForerunner h then hdrAt h 8 4 else hdrAt h 24 4
def hdrPayloadLen (h : List Byte) : Nat := if isForerunner h then hdrAt h 12 4 else hdrAt h 32 4
def hdrDigest (h : List Byte) : List Byte := (h.drop (if isForerunner h then 16 else 48)).take 48
def hdrSvn (h : List Byte) : Nat := if isForerunner h then 0 else hdrAt h 28 4
def hdrCoreLen (h : List Byte) : Nat := hdrAt h 40 4
def hdrHoFormat (h : List Byte) : Nat := hdrAt h 38 1

def memberBit : Member → Nat
  | .pvs7008 => 0 | .pvs7032 => 1 | .pvs7128 => 2

/-- MAGIC, HDR_VER and FORMAT known, reserved bytes 0, lengths in range (check 1). -/
def nativeShape (h : List Byte) : Bool :=
  decide (h.length = 256) && decide (hdrAt h 0 4 = 0x374B5A57) && decide (hdrAt h 4 1 = 1) && decide (hdrAt h 5 1 = 0) &&
    decide (hdrAt h 6 2 < 8) && decide (hdrAt h 8 1 < 2) && zeroBytes h 9 7 &&
    (decide (hdrAt h 8 1 = 1) || decide (hdrAt h 16 8 = 0)) && decide (hdrAt h 32 4 % 4 = 0) &&
    inRange (hdrAt h 32 4) 4 6287360 && inRange (hdrAt h 40 4) 4 1048576 && decide (hdrAt h 44 1 < 4) &&
    zeroBytes h 45 3 && zeroBytes h 96 64

/-- The format's checks 1 to 5; `floor` and `running` are SVN_FLOOR and the running VERSION. The answer is the number of
the check that failed with its status and DETAIL. -/
def imageChecks (m : Member) (floor running : Nat) (h : List Byte) : Option (Nat × Status × Nat) :=
  if isForerunner h then
    if !(decide (h.length = 160) && inRange (hdrAt h 12 4) 4 6287360 && decide (hdrAt h 12 4 % 4 = 0)) then some (1, .badParam, 1)
    else if !Config.headerSigOk 4 (h.take 64) ((h.drop 64).take 96) then some (2, .auth, 1)
    else if hdrAt h 6 2 ≠ memberCode m then some (3, .binding, 1)
    else if hdrAt h 8 4 < running then some (7, .rollback, 2)
    else none
  else if !nativeShape h then some (1, .badParam, 1)
  else if !Config.headerSigOk (hdrAt h 44 1) (h.take 160) ((h.drop 160).take 96) then some (2, .auth, 1)
  else if !Nat.testBit (hdrAt h 6 2) (memberBit m) then some (3, .binding, 1)
  else if hdrAt h 8 1 = 1 ∧ hdrAt h 16 8 ≠ Config.unitId.toNat then some (4, .binding, 2)
  else if hdrSvn h < floor then some (5, .rollback, 1)
  else none

/-- Check 6: the handover range includes the running image's HO_FORMAT. -/
def handoverOk (running h : List Byte) : Bool :=
  isForerunner h || inRange (hdrHoFormat running) (hdrAt h 39 1) (hdrAt h 38 1)

/-! ### Banks and the activation record (R422) -/

def getBank (s : State) (b : Bool) : Bank := if b then s.upd.bankB else s.upd.bankA

def setBank (b : Bool) (x : Bank) (s : State) : State :=
  if b then { s with upd := { s.upd with bankB := x } } else { s with upd := { s.upd with bankA := x } }

/-- The staging bank: the one that does not run. -/
def staging (s : State) : Bool := !s.upd.runB

/-- The valid copy of the activation record with the higher SEQ (R411, R422). -/
def actRecord (u : Upd) : Option ActRec :=
  match u.recA.good, u.recB.good with
  | true, true => some (if u.recB.seq < u.recA.seq then u.recA else u.recB)
  | true, false => some u.recA
  | false, true => some u.recB
  | false, false => none

/-- Writes the record into the copy with the lower SEQ, with SEQ one above the higher (R422). -/
def writeAct (x : ActRec) (s : State) : State :=
  let u := s.upd
  let seq := max u.recA.seq u.recB.seq + 1
  if u.recA.seq < u.recB.seq then { s with upd := { u with recA := { x with seq := seq, good := true } } }
  else { s with upd := { u with recB := { x with seq := seq, good := true } } }

def svnFloor (s : State) : Nat := match actRecord s.upd with
  | some r => r.svnFloor
  | none => 0

def trialCount (s : State) : Nat := match actRecord s.upd with
  | some r => r.trialCount
  | none => 0

def windowEnd (s : State) : Nat := match actRecord s.upd with
  | some r => r.windowEnd
  | none => 0

def updStateNo : UpdState → Nat
  | .idle => 0 | .open_ => 1 | .headerOk => 2 | .verifying => 3 | .verified => 4 | .activating => 5 | .trial => 6
  | .reverting => 7

/-- The session enters a state: interrupt source 20 (R64). -/
def setUpd (st : UpdState) (s : State) : State := setInt 20 { s with upd := { s.upd with state := st } }

/-- The owner's UPD commands restart the 600 s (R416). -/
def touchUpd (s : State) : State := { s with upd := { s.upd with lastUse := s.up } }

/-- Work of the session that ends with it completes; the manual names no status for it (log). -/
def dropUpdWork (s : State) : State :=
  let end_ := fun (q : Option Req) (a : State) => match q with
    | some r => complete r .state 0 [] a
    | none => a
  end_ s.upd.activateReq (end_ s.upd.verifyReq
    { s with upd := { s.upd with verifyReq := none, activateReq := none } })

/-- The session ends by an abort (R416, UPD_ABORT): EV_UPD_ABORT with the state it leaves. -/
def abortUpd (cause : Nat) (s : State) : State :=
  let s1 := raise 0x0D07 cause [wordOf (updStateNo s.upd.state)] .all s
  setUpd .idle (dropUpdWork { s1 with upd := { s1.upd with window := false, recordAt := none } })

/-- The header of the image taking over is measured into MEAS[7] (R420). -/
def measureTakeover (hdr : List Byte) (s : State) : State :=
  { s with upd := { s.upd with meas := s.upd.meas.set 7 (measure (s.upd.meas.getD 7 []) hdr) } }

/-! ### Revert (R421) -/

def confirmedRec (s : State) (bankB : Bool) : ActRec :=
  { seq := 0, bankB := bankB, prevB := bankB, trial := false, trialCount := 0, windowEnd := 0, svnFloor := svnFloor s,
    good := true }

/-- A revert begins: to the previous generation while it holds an instruction bank, otherwise by a restart. -/
def startRevert (cause : Nat) (s : State) : State :=
  let prev := !s.upd.runB
  let s1 := writeAct (confirmedRec s prev) s
  let s2 := setUpd .reverting { s1 with upd := { s1.upd with revertCause := cause, recordAt := some s1.now, attempts := 0 } }
  if s2.upd.prevHeld then s2
  else
    let s3 := raise 0x0D06 cause [wordOf (bankVersion (getBank s2 prev))] .all s2
    measureTakeover (getBank s3 prev).hdr { s3 with upd := { s3.upd with revertRestart := true } }

/-! ### Commands (R416, R424) -/

/-- The owner rule of R416 in place of check 7. -/
def ownerLock (r : Req) (s : State) : Except Fail Unit :=
  need (decide (s.upd.state = .idle) || decide (s.upd.owner = r.q)) .busy s.upd.owner

def updDesc (op : Nat) (lens : List Nat) (maxResp : Nat) (body : Req → State → Res) : Desc :=
  { Desc.std op lens maxResp (fun _ => false) body with standbyOk := fun _ => true, updOk := true, lock := ownerLock }

def sessionNo (r : Req) (s : State) : Except Fail Unit := do
  need (onlyBits (par r 0) 0xFFFF) .badParam 0
  need (decide ((par r 0).toNat = s.upd.session)) .state 1

def updOpenBody (r : Req) (s : State) : Res := do
  need (decide (s.upd.state = .idle)) .busy s.upd.owner
  let n := (s.upd.session + 1) % 65536
  let s1 := setBank (staging s) { hdr := [], payload := [], valid := false } s
  let s2 := setUpd .open_ { s1 with upd := { s1.upd with owner := r.q, session := n, next := 0, lastUse := s1.up } }
  return (raise 0x0D00 r.q [wordOf n] .all s2, .ok 0 [wordOf n])

def descUpdOpen : Desc :=
  { updDesc 0xD00 [2] 4 updOpenBody with lock := fun _ s => need (decide (s.upd.state = .idle)) .busy s.upd.owner }

def updHeaderBody (r : Req) (s : State) : Res := do
  sessionNo r s
  need (decide (s.upd.state = .open_)) .state 3
  let h := wordBytes (r.params.drop 1)
  let bad := match imageChecks s.member (svnFloor s) (bankVersion (runBank s)) h with
    | some b => some b
    | none => if handoverOk (runBank s).hdr h then none else some (6, .binding, 3)
  match bad with
  | some (k, st, d) =>
    let s1 := raise 0x0D01 k [wordOf (statusCode st * 65536 + d), wordOf (hdrVersion h)] .all (touchUpd s)
    return (s1, .done st d [])
  | none =>
    let s1 := setBank (staging s) { hdr := h, payload := [], valid := false } (touchUpd s)
    return (setUpd .headerOk { s1 with upd := { s1.upd with next := 0 } }, .ok 0 [wordOf (natOfBool (isForerunner h))])

def descUpdHeader : Desc := updDesc 0xD01 [43, 67] 4 updHeaderBody

def updDataBody (r : Req) (s : State) : Res := do
  sessionNo r s
  let off := (par r 1).toNat
  let data := wordBytes (r.params.drop 2)
  let b := getBank s (staging s)
  if s.upd.state = .headerOk then
    need (decide (off + data.length ≤ hdrPayloadLen b.hdr) || decide (off ≠ s.upd.next)) .range 1
  need (decide (s.upd.state = .headerOk)) .state 3
  if off ≠ s.upd.next then .error { status := .state, detail := 2, words := [wordOf s.upd.next] }
  else
    let s1 := setBank (staging s) { b with payload := b.payload ++ data } (touchUpd s)
    let n := off + data.length
    return ({ s1 with upd := { s1.upd with next := n } }, .ok 0 [wordOf n])

def descUpdData : Desc :=
  { updDesc 0xD02 [5] 4 updDataBody with lenOk := fun r => inRange (lenNoAt r) 5 4096 }

def updVerifyBody (r : Req) (s : State) : Res := do
  sessionNo r s
  need (decide (s.upd.state = .headerOk) &&
    decide (s.upd.next = hdrPayloadLen (getBank s (staging s)).hdr)) .state 3
  let s1 := touchUpd s
  return (setUpd .verifying { s1 with upd := { s1.upd with verifyReq := some r } }, .later false)

def descUpdVerify : Desc := updDesc 0xD03 [3] 6 updVerifyBody

/-- UPD_VERIFY_DONE (R417). -/
def execUpdVerifyDone (dt : Nat) (s : State) : Host.Outcome State Fault Refusal :=
  let s1 := begin_ dt s
  .next (if powered s1 && decide (s1.upd.state = .verifying) then
    let b := getBank s1 (staging s1)
    let good := decide (sha384 b.payload = hdrDigest b.hdr) &&
      (isForerunner b.hdr || decide (hdrCoreLen b.hdr ≤ b.payload.length))
    let s2 := { s1 with upd := { s1.upd with verifyReq := none } }
    let s3 :=
      if good then setUpd .verified (setBank (staging s2) { b with valid := true } s2)
      else
        let s3 := setBank (staging s2) { b with payload := [] } s2
        setUpd .headerOk { s3 with upd := { s3.upd with next := 0 } }
    let s4 := raise 0x0D02 (natOfBool (!good)) [wordOf (hdrVersion b.hdr)] .all s3
    match s1.upd.verifyReq with
    | some r => if good then complete r .ok 0 [] s4 else complete r .auth 3 [] s4
    | none => s4
  else s1)

/-- CONFIRM_S as operating time, rounded up to its unit. -/
def confirmUnits (sec : Nat) : Nat := ceilDiv (sec * 4096) 3600

def trialRec (s : State) : ActRec :=
  { seq := 0, bankB := staging s, prevB := s.upd.runB, trial := true, trialCount := 0,
    windowEnd := s.rec_.opTime + confirmUnits s.upd.confirmS, svnFloor := svnFloor s, good := true }

/-- UPD_ACTIVATE (R415, R418). In recovery, and for a forerunner image, the record is written and the boot stages run
again: `revertRestart` asks for that restart, which REVERT_RESTART carries out. -/
def updActivateBody (r : Req) (s : State) : Res := do
  sessionNo r s
  let sec := (par r 1).toNat
  need (inRange sec 60 86400) .range 1
  need (decide (s.upd.state = .verified)) .state 3
  let h := (getBank s (staging s)).hdr
  let fore := isForerunner h
  let recovery := decide (s.sys.boot = .fault)
  need (!fore || (latched s && !anySpindleActive s)) .state 5
  let s1 := touchUpd { s with upd := { s.upd with confirmS := sec, activateReq := some r, attempts := 0, recordAt := none } }
  let s2 := raise 0x0D03 (natOfBool (fore || recovery)) [wordOf (hdrVersion h), wordOf sec] .all s1
  if fore || recovery then
    let s3 := writeAct (trialRec s2) s2
    return (setUpd .activating { s3 with upd := { s3.upd with revertRestart := true, recordAt := some s3.now } }, .later false)
  else
    return (setUpd .activating { s2 with upd := { s2.upd with window := true } }, .later false)

def descUpdActivate : Desc := updDesc 0xD04 [4] 8 updActivateBody

/-- UPD_BANK_LOADED (R418 steps 1 and 2): the idle instruction bank is loaded; the activation record is written. -/
def execUpdBankLoaded (dt : Nat) (s : State) : Host.Outcome State Fault Refusal :=
  let s1 := begin_ dt s
  .next (if powered s1 && decide (s1.upd.state = .activating) && s1.upd.recordAt.isNone && s1.upd.window then
    let s2 := writeAct (trialRec s1) s1
    { s2 with upd := { s2.upd with recordAt := some s2.now } }
  else s1)

/-- The doff boundary: the first tick boundary at least one tick period after step 2 (R418). -/
def doffDue (s : State) : Bool :=
  match s.upd.recordAt with
  | some t => s.tick.running && decide (t + periodNs s ≤ s.tick.nextAt)
  | none => false

/-- The TICK_NUMBER of the tick that the next boundary opens (R9). -/
def nextTick (s : State) : Nat := if s.tick.started then (s.tick.number + 1) % 2 ^ 32 else 0

/-- A round that runs at a doff or a switch-over is abandoned (R229). Rounds run only on the active module: what a standby
holds of one belongs to the other module. -/
def abandonRound (s : State) : State :=
  match s.task.run with
  | none => s
  | some x =>
    if s.pair.role = .standby then s else
    let s1 := { s with task := { s.task with run := none } }
    match x.req with
    | some r => complete r .state 3 [] s1
    | none => s1

/-- The new firmware of an activation takes over: the module is in TRIAL (R418). -/
def enterTrial (tick : Nat) (h : List Byte) (s : State) : State :=
  let s1 := writeAct { trialRec { s with upd := { s.upd with runB := !s.upd.runB } } with trial := true } s
  let s2 := setUpd .trial { s1 with upd := { s1.upd with prevHeld := true, activateReq := none } }
  let s3 := raise 0x0D04 (s.upd.attempts + 1) [wordOf tick, wordOf (hdrVersion h)] .all s2
  match s.upd.activateReq with
  | some r => complete r .ok 0 [wordOf tick] s3
  | none => s3

/-- The previous firmware takes over again (R421). -/
def endRevert (h : List Byte) (s : State) : State :=
  let s1 := raise 0x0D06 s.upd.revertCause [wordOf (hdrVersion h)] .all s
  setUpd .idle { s1 with upd := { s1.upd with prevHeld := false } }

/-- The other bank's firmware imports the handover block (R418-R421). -/
def doff (act : Bool) (s : State) : State :=
  let s1 := abandonRound s
  let b := !s1.upd.runB
  let h := (getBank s1 b).hdr
  let tick := nextTick s1
  let s2 := measureTakeover h { s1 with upd := { s1.upd with
    runB := b, doffs := s1.upd.doffs + 1, doffTick := tick, recordAt := none, window := false } }
  if act then enterTrial tick h s2 else endRevert h s2

/-- An export that failed is tried again; the sixteenth ends the activation (R420). -/
def doffFailed (act : Bool) (s : State) : State :=
  let n := s.upd.attempts + 1
  let s1 := { s with upd := { s.upd with attempts := n } }
  if act && decide (16 ≤ n) then
    let s2 := writeAct (confirmedRec s1 s1.upd.runB) s1
    let s3 := raise 0x0D07 3 [wordOf 5] .all s2
    let s4 := setUpd .verified { s3 with upd := { s3.upd with window := false, recordAt := none, activateReq := none } }
    match s.upd.activateReq with
    | some r => complete r .fault 0 [] s4
    | none => s4
  else s1

/-- DOFF (R418-R421), at the doff boundary. -/
def execDoff (exported : Bool) (s : State) : Host.Outcome State Fault Refusal :=
  let act := decide (s.upd.state = .activating) && s.upd.window
  let rev := decide (s.upd.state = .reverting) && s.upd.prevHeld
  .next (if powered s && (act || rev) && doffDue s then
    let s1 := beginAt s.tick.nextAt s
    if exported then doff act s1 else doffFailed act s1
  else begin_ 0 s)

def updConfirmBody (r : Req) (s : State) : Res := do
  sessionNo r s
  need (decide (s.upd.state = .trial)) .state 3
  let h := (runBank s).hdr
  let floor := if isForerunner h then svnFloor s else max (svnFloor s) (hdrSvn h)
  let s1 := writeAct { confirmedRec s s.upd.runB with svnFloor := floor } s
  let s2 := raise 0x0D05 0 [wordOf (hdrVersion h), wordOf floor] .all s1
  return (setUpd .idle { s2 with upd := { s2.upd with prevHeld := false } }, .ok 0 [wordOf floor])

def descUpdConfirm : Desc := updDesc 0xD05 [3] 4 updConfirmBody

def updAbortBody (r : Req) (s : State) : Res := do
  sessionNo r s
  match s.upd.state with
  | .open_ | .headerOk | .verifying | .verified => return (abortUpd 0 s, .ok 0 [0])
  | .activating =>
    need s.upd.recordAt.isNone .state 4
    return (abortUpd 0 s, .ok 0 [0])
  | .trial => return (startRevert 2 (touchUpd s), .ok 0 [7])
  | _ => failWith .state 3

def descUpdAbort : Desc := updDesc 0xD06 [3] 4 updAbortBody

/-- Confirm window remaining, s. -/
def windowLeft (s : State) : Nat :=
  if s.upd.state = .trial then (windowEnd s - s.rec_.opTime) * 3600 / 4096 else 0

def updGetWords (s : State) : List Word :=
  let b := getBank s (staging s)
  let st := decide (s.upd.state ≠ .idle)
  [wordOfFields [(updStateNo s.upd.state, 0), (s.upd.owner, 3), (s.upd.session, 16)], wordOf s.upd.next,
   wordOf (if st && !b.hdr.isEmpty then hdrPayloadLen b.hdr else 0),
   wordOf (if b.hdr.isEmpty then 0 else hdrVersion b.hdr), wordOf (fwVersion s), wordOf (svnFloor s),
   wordOfFields [(trialCount s, 0), (natOfBool s.upd.runB, 2)], wordOf (windowLeft s), wordOf s.upd.doffTick,
   wordOf s.upd.attempts]

def updGetBody (r : Req) (s : State) : Res :=
  .ok (if decide (s.upd.state ≠ .idle) && decide (s.upd.owner = r.q) then touchUpd s else s, .ok 0 (updGetWords s))

def descUpdGet : Desc :=
  { Desc.read 0xD07 [2] 13 updGetBody with standbyOk := fun _ => true, updOk := true, initOk := true }

/-- UPD_IDLE_TIMEOUT (R416). -/
def execUpdIdleTimeout (s : State) : Host.Outcome State Fault Refusal :=
  .next (if powered s && [UpdState.open_, .headerOk, .verified].contains s.upd.state then
    abortUpd 1 (beginUp (s.upd.lastUse + 600 * nsPerSec) s)
  else begin_ 0 s)

/-- CONFIRM_WINDOW_EXPIRE (R421). -/
def execConfirmWindowExpire (s : State) : Host.Outcome State Fault Refusal :=
  .next (if powered s && decide (s.upd.state = .trial) then
    let left := (windowEnd s - s.rec_.opTime) * opUnit - s.rec_.opFrac
    startRevert 0 (beginUp (s.up + left) s)
  else begin_ 0 s)

/-! ### Attestation (R423) -/

def recoveryNow (s : State) : Bool := decide (s.sys.boot = .fault)

/-- Words 3 up to the last MEAS word of a report. -/
def reportWords (mask nonce : Nat) (s : State) : List Word :=
  [wordOfFields [(1, 0), (mask, 8), (natOfBool (decide (s.upd.state = .trial)), 16), (natOfBool s.upd.runB, 17),
     (tqNow s, 18), (natOfBool (recoveryNow s), 20)],
   wordOfFields [(memberCode s.member, 0), (Config.siliconRev.toNat, 16), (s.upd.lifecycle, 24)]] ++
    words64 Config.unitId.toNat ++
    [wordOf (fwVersion s), wordOf (hdrSvn (runBank s).hdr), wordOf (svnFloor s), wordOf s.rec_.cycles] ++
    words64 s.rec_.opTime ++ words64 s.now ++ [wordOf s.upd.doffs] ++ words64 nonce ++ words64 (nonce / 2 ^ 64) ++
    ((List.range 8).filter (fun i => Nat.testBit mask i)).flatMap (fun i => bytesWords (s.upd.meas.getD i []))

def certBytes (off n : Nat) : List Byte := (List.range n).map (fun i => Config.certByte (off + i))

def attestBody (r : Req) (s : State) : Res := do
  let op := fld (par r 0) 0 1
  need (decide (op ≠ 3) && onlyBits (par r 0) (if op = 0 then 0xFF03 else 3)) .badParam 0
  if op = 0 then
    let m := fld (par r 0) 8 15
    let ws := reportWords (if m = 0 then 255 else m) (keyPar r 1) s
    return (s, .ok 0 (ws ++ bytesWords (beBytes (Config.attestSig (wordBytes ws)).toNat 96)))
  if op = 1 then return (s, .ok 0 (bytesWords (beBytes Config.attestPub.toNat 97)))
  let off := (par r 1).toNat
  let total := Config.certLen.val
  need (decide (off % 4 = 0)) .badParam 0
  need (decide (off < total)) .range 1
  let n := min 1024 (total - off)
  return (s, .ok 0 ([wordOf total, wordOf n] ++ bytesWords (certBytes off n)))

def descSecAttest : Desc :=
  Desc.formLen { Desc.read 0xE00 [3, 4, 7] 261 attestBody with standbyOk := fun _ => true, initOk := true }
    (fun r =>
      let op := fld (par r 0) 0 1
      if op = 0 then some 7 else if op = 1 then some 3 else if op = 2 then some 4 else none)

end Sys2Proof.Machine
end

