-- ==== Sys2Proof/Machine/Net.lean ====
section
/-! DEFINITION. The switch (chapter 14): ports and their buffers, learning, flooding, forwarding and routing, the
module's own interfaces, link changes, and the NET commands. -/
set_option autoImplicit false

namespace Sys2Proof.Machine

def getPort (s : State) (p : Nat) : Port := tabGet s.net.ports p (Port.init p)

def setPort (p : Nat) (x : Port) (s : State) : State := { s with net := { s.net with ports := tabSet s.net.ports p x } }

def modPort (p : Nat) (f : Port → Port) (s : State) : State := setPort p (f (getPort s p)) s

def modStat (p : Nat) (f : PortStats → PortStats) (s : State) : State :=
  modPort p (fun x => { x with stats := f x.stats }) s

def getIface (s : State) (k : Nat) : Iface := tabGet s.net.ifaces k (Iface.init k)

def getVlan (s : State) (vid : Nat) : Option Vlan := tabFind s.net.vlans vid

/-- A port carries frames: it is enabled, its settings are loaded, and its link is up (R320, R339). -/
def portUp (s : State) (p : Nat) : Bool :=
  portExists s.member p && s.net.loaded && (getPort s p).cfg.en && (getPort s p).link

/-- The standby's ports forward nothing and transmit nothing of their own accord (R397). -/
def netBlocked (s : State) : Bool := decide (s.pair.role = .standby)

/-! ### The buffer (R336, R337) -/

def bufFill (reserve : Bool) (x : Port) : Nat :=
  x.queue.foldl (fun a f => if f.reserve = reserve then a + f.len else a) 0

/-- Bytes of the shared pool in use. -/
def poolFill (s : State) : Nat := s.net.ports.foldl (fun a p => a + bufFill false p.2) 0

/-- 4 MiB less ten reserves of 16 KiB. -/
def poolSize : Nat := 4194304 - 10 * 16384

def insertAfter (f : QFrame) : List QFrame → List QFrame
  | [] => [f]
  | g :: r => if g.prio < f.prio then f :: g :: r else g :: insertAfter f r

/-- A frame joins its priority behind the frame in transmission. -/
def insertFrame (f : QFrame) : List QFrame → List QFrame
  | [] => [f]
  | g :: r => g :: insertAfter f r

/-- A frame reaches an egress port (R320, R321, R337); `internal` frames are the module's own. -/
def enqueueFrame (p : Nat) (internal : Bool) (f0 : QFrame) (s : State) : State :=
  let x := getPort s p
  let len := f0.len
  if !portUp s p then modStat p (fun c => { c with linkDiscard := cnt32 c.linkDiscard }) s
  else if x.cfg.maxFrame < len then modStat p (fun c => { c with dropFilter := cnt32 c.dropFilter }) s
  else
    let fits := decide (bufFill false x + len ≤ x.cfg.bufCap * 16384) && decide (poolFill s + len ≤ poolSize)
    let reserve := internal && decide (6 ≤ f0.prio) && !fits
    if fits || (reserve && decide (bufFill true x + len ≤ 16384)) then
      let peak := bufFill false x + bufFill true x + len
      modStat p (fun c => { c with peakBuf := max c.peakBuf peak })
        (setPort p { x with queue := insertFrame { f0 with reserve := reserve } x.queue } s)
    else modStat p (fun c => { c with dropCap := cnt32 c.dropCap }) s

/-- A frame whose content the switch does not look into reaches an egress port. -/
def enqueue (p prio len : Nat) (internal : Bool) (own : Option TxFrame) (s : State) : State :=
  enqueueFrame p internal
    { prio := prio, len := len, reserve := false, own := own, fwd := none, tc := none, ready := s.now, headAt := s.now } s

def addBytes (n k : Nat) : Nat := min (n + k) 0xFFFFFFFFFFFFFFFF

/-! ### The transparent clock (R364-R366) -/

/-- The correctionField as its four 16-bit words, summed. -/
def corrSum (c : Int) : Nat := (List.range 4).foldl (fun a i => a + (c / 65536 ^ i % 65536).toNat) 0

/-- A one's complement sum in which `old` is replaced by `new`, each at most 4 * 65535. -/
def replaceSum (x old new : Nat) : Nat := (x + new + 4 * 65535 - old) % 65535

/-- The UDP part of a message whose correctionField has become `new` (R365): over IPv4 the checksum is set to 0; over IPv6
the suffix takes up the change, or the checksum is recomputed where there is no suffix. -/
def ptpUdpAfter (v6 : Bool) (old new : Int) (u : PtpUdp) : PtpUdp :=
  if v6 = false then { u with checksum := 0 }
  else match u.suffix with
    | some x => { u with suffix := some (replaceSum x (corrSum new) (corrSum old)) }
    | none => { u with checksum := 65535 - replaceSum (65535 - u.checksum) (corrSum old) (corrSum new) }

/-- The correctionField saturates. -/
def satCorr (c : Int) : Int := max (-(2 ^ 63)) (min c (2 ^ 63 - 1))

def addCorr (v6 : Bool) (c : Int) (m : PtpFrame) : PtpFrame :=
  let new := satCorr (m.corr + c)
  { m with corr := new, udp := m.udp.map (ptpUdpAfter v6 m.corr new) }

/-- PTP event messages: Sync, Delay_Req, Pdelay_Req and Pdelay_Resp. -/
def ptpEvent (kind : Nat) : Bool := decide (kind ≤ 3)

/-- The message type that carries the correction of a two-step message, for the type it follows. -/
def followUpOf (kind : Nat) : Option Nat :=
  match kind with
  | 0 => some 8
  | 3 => some 10
  | _ => none

/-- What a forwarded event message is corrected by, in 2^-16 ns: its residence time in ns, and in P2P mode for Sync the
ingress port's meanLinkDelay and its ASYM (R364, R366). -/
def tcCorrection (s : State) (t : TcMark) (residence : Nat) : Int :=
  let p := getPtpPort s t.from_
  (residence : Int) * 65536 + if t.msg.kind = 0 ∧ p.tcMode = 2 then p.linkDelay * 65536 + p.asym * 65536 / 1000 else 0

/-- A correction is counted on the egress port. -/
def countCorrected (port : Nat) (s : State) : State :=
  let p := getPtpPort s port
  setPtpPort port { p with corrected := cnt32 p.corrected } s

/-- A PTP message leaves by a port with TC_MODE other than 0 (R364): an event message is corrected in flight, or, where it is
two-step, in the message that follows it. -/
def correctPtp (port egress : Nat) (t : TcMark) (s : State) : PtpFrame × State :=
  let m := t.msg
  let x := getPort s port
  let same := fun (q : TcPending) => decide (q.domain = m.domain) && decide (q.identity = m.identity)
  if (getPtpPort s port).tcMode = 0 then (m, s)
  else if ptpEvent m.kind then
    let r := egress - t.at_
    let c := tcCorrection s t r
    let p := getPtpPort s port
    let s1 := setPtpPort port { p with maxResidence := max p.maxResidence (min r 0xFFFFFFFF) } s
    match followUpOf m.kind, m.twoStep with
    | some k, true =>
      let left := x.tcPending.filter (fun q => !(same q && decide (q.kind = k)))
      let q : TcPending := { kind := k, domain := m.domain, identity := m.identity, seq := m.seq, corr := c }
      (m, setPort port { x with tcPending := left ++ [q] } s1)
    | _, _ => (addCorr t.v6 c m, countCorrected port s1)
  else
    let hit := fun (q : TcPending) => same q && decide (q.kind = m.kind) && decide (q.seq = m.seq)
    match x.tcPending.find? hit with
    | some q =>
      (addCorr t.v6 q.corr m, countCorrected port (setPort port { x with tcPending := x.tcPending.filter (fun y => !hit y) } s))
    | none => (m, s)

/-- The PTP message of a frame that has left, as it left; `headAt` and `ready` tell when its sending began. -/
def passPtp (port : Nat) (f : QFrame) (s : State) : State :=
  match f.tc with
  | none => s
  | some t =>
    let (m, s1) := correctPtp port (max f.headAt f.ready) t s
    emit (.ptpPassed port m) s1

/-- The headers of a frame that was passed on, as it left. -/
def passHead (port : Nat) (f : QFrame) (s : State) : State :=
  match f.fwd with
  | some h => emit (.forwarded port h) s
  | none => s

/-- The queue after its head has left: the next frame begins now. -/
def nextHead (t : Nat) : List QFrame → List QFrame
  | [] => []
  | f :: r => { f with headAt := t } :: r

/-- EGRESS_FRAME_SENT (R336): the frame in transmission has left, and the next one begins. -/
def execEgressFrameSent (port dt : Nat) (s : State) : Host.Outcome State Fault Refusal :=
  if !portExists s.member port || decide (port = 15) then .fault .noSuchUnit
  else
    let s1 := begin_ dt s
    let x := getPort s1 port
    .next (match x.queue with
      | f :: r =>
        if powered s1 then
          passPtp port f (passHead port f (emit (.frame port f.len f.own)
            (modStat port (fun c => { c with txFrames := cnt32 c.txFrames, txBytes := addBytes c.txBytes f.len })
              (setPort port { x with queue := nextHead s1.now r } s1))))
        else s1
      | [] => s1)

/-! ### Links (R320) -/

/-- A port gains or loses its link: a port without link discards what is queued for it, and EV_NET_LINK goes out. -/
def linkChange (p : Nat) (up : Bool) (speed : Nat) (s : State) : State :=
  let x := getPort s p
  if x.link = up ∧ (up = false ∨ x.speed = speed) then s
  else
    let n := if up then 0 else x.queue.length
    let st := { x.stats with linkDiscard := addCnt32 x.stats.linkDiscard n }
    let y : Port := { x with link := up, speed := speed, queue := if up then x.queue else [], stats := st }
    raise 0x0902 (p + 16 * natOfBool up + 32 * speed) [] .all (setPort p y s)

/-- The module polls the PHY of this port. -/
def pollsPhy (s : State) (p : Nat) : Bool :=
  let c := (getPort s p).cfg
  decide (p < 8) && c.mdioEn && decide (1 ≤ c.mode) && decide (c.mode ≤ 4)

/-- LINK_POLL (R320): every 100 ms the link status of each polled PHY is read. -/
def execLinkPoll (links : List (Nat × Option Nat)) (dt : Nat) (s : State) : Host.Outcome State Fault Refusal :=
  let s1 := begin_ dt s
  .next (if powered s1 && s1.net.loaded then
    links.foldl (fun (a : State) (l : Nat × Option Nat) =>
      if portExists a.member l.1 && pollsPhy a l.1 && (getPort a l.1).cfg.en then
        linkChange l.1 l.2.isSome (l.2.getD (getPort a l.1).speed % 8) a
      else a) s1
  else s1)

/-- PORT_LINK_CHANGE (R320): a port whose link the module sees itself. -/
def execPortLinkChange (port : Nat) (up : Bool) (speed dt : Nat) (s : State) : Host.Outcome State Fault Refusal :=
  if !portExists s.member port || decide (port = 15) then .fault .noSuchUnit
  else
    let s1 := begin_ dt s
    .next (if powered s1 && s1.net.loaded && (getPort s1 port).cfg.en && !pollsPhy s1 port then
      linkChange port up (if up then speed % 8 else (getPort s1 port).speed) s1
    else s1)

/-! ### The MAC table (R329-R332) -/

def findFdb (s : State) (mac vid : Nat) : Option FdbEntry :=
  s.net.fdb.find? (fun e => decide (e.mac = mac) && decide (e.vid = vid))

def putFdb (e : FdbEntry) (s : State) : State :=
  { s with net := { s.net with fdb := s.net.fdb.map (fun x => if x.mac = e.mac ∧ x.vid = e.vid then e else x) } }

/-- The first free way of the bucket of an address. -/
def freeWay (s : State) (mac vid : Nat) : Option Nat :=
  let used := (s.net.fdb.filter (fun e => decide (Config.fdbBucket e.vid e.mac = Config.fdbBucket vid mac))).map (fun e => e.way)
  (List.range 4).find? (fun w => !used.contains w)

/-- A multicast or broadcast address: the group bit of its first byte. -/
def isGroup (mac : Nat) : Bool := decide (mac % 2 = 1)

def macWords (mac hi : Nat) : List Word := [wordOf mac, wordOf (mac / 2 ^ 32 % 65536 + hi * 65536)]

def portOfMask (m : Nat) : Nat := ((List.range 16).find? (fun p => Nat.testBit m p)).getD 0

/-- The source of a frame is learned at its ingress port (R329, R330). -/
def learn (p mac vid : Nat) (s : State) : State :=
  let ok := (getPort s p).cfg.learn && (match getVlan s vid with
    | some v => v.learn
    | none => false)
  if !ok || isGroup mac || netBlocked s then s
  else match findFdb s mac vid with
    | some e =>
      if e.static then s
      else if Nat.testBit e.ports p then putFdb { e with hitAt := s.now } s
      else
        let old := portOfMask e.ports
        if e.movedAt + s.net.holdoff * 100000 < s.now then
          raise 0x0900 (p + 16 * old) (macWords mac vid) .all
            (putFdb { e with ports := 2 ^ p, hitAt := s.now, movedAt := s.now, moves := min 65535 (e.moves + 1) } s)
        else
          raise 0x0901 (p + 16 * old) (macWords mac vid) .all
            { s with net := { s.net with moveConflicts := cnt32 s.net.moveConflicts } }
    | none =>
      match freeWay s mac vid with
      | some w =>
        let e : FdbEntry :=
          { mac := mac, vid := vid, way := w, static := false, drop := false, ports := 2 ^ p, hitAt := s.now,
            movedAt := s.now, moves := 0 }
        { s with net := { s.net with fdb := s.net.fdb ++ [e] } }
      | none => { s with net := { s.net with learnFull := cnt32 s.net.learnFull } }

/-- A dynamic entry whose last hit is AGE_TIME old (R332). -/
def agedOut (s : State) (e : FdbEntry) : Bool :=
  !e.static && decide (s.net.ageTime ≠ 0) && decide (e.hitAt + s.net.ageTime * nsPerSec ≤ s.now)

/-- AGE_SCAN (R332): the entries visited that have aged out are deleted. -/
def execAgeScan (dt : Nat) (s : State) : Host.Outcome State Fault Refusal :=
  let s1 := begin_ dt s
  .next (if powered s1 then { s1 with net := { s1.net with fdb := s1.net.fdb.filter (fun e => !agedOut s1 e) } } else s1)

/-! ### The module's own interfaces (R325, R326) -/

/-- The link-local address with the EUI-64 identifier of the base MAC. -/
def linkLocal (s : State) : Nat :=
  let m := leBytes s.net.baseMac 6
  leNat ([0xFE, 0x80, 0, 0, 0, 0, 0, 0, m.getD 0 0 ^^^ 2] ++ (m.drop 1).take 2 ++ [0xFF, 0xFE] ++ m.drop 3)

/-- The address belongs to this interface. -/
def ifaceHas (s : State) (i : Iface) (v6 : Bool) (addr : Nat) : Bool :=
  i.en && (if v6 then decide (addr = linkLocal s) || (decide (0 < i.v6Len) && decide (addr = i.v6))
    else decide (0 < i.v4Len) && decide (addr = i.v4))

/-- The interface, in a VLAN, that an address belongs to. -/
def ifaceOf (s : State) (vid : Nat) (v6 : Bool) (addr : Nat) : Option Nat :=
  (List.range 4).find? (fun k => decide ((getIface s k).vid = vid) && ifaceHas s (getIface s k) v6 addr)

/-- The address belongs to any interface. -/
def ownAddress (s : State) (v6 : Bool) (addr : Nat) : Bool :=
  (List.range 4).any (fun k => ifaceHas s (getIface s k) v6 addr)

/-- This module answers on interface k: in a pair IF[0..2] answer on the active module only (R397). -/
def answersOn (s : State) (k : Nat) : Bool :=
  match s.pair.role with
  | .lone | .active => true
  | _ => decide (k = 3)

/-- A reply of the module on an interface, at most 100 a second (R326). -/
def replyOn (k port kind len : Nat) (ws : List Nat) (s : State) : State :=
  let i := getIface s k
  let sec := s.now / nsPerSec
  let n := if i.repliesSec = sec then i.replies else 0
  if answersOn s k && decide (n < 100) then
    let j : Iface := { i with replies := n + 1, repliesSec := sec }
    enqueue port 4 len true none
      (emit (.netReply port kind (k :: ws)) { s with net := { s.net with ifaces := tabSet s.net.ifaces k j } })
  else s

/-- The peer-delay address 01:80:C2:00:00:0E. -/
def peerDelayMac : Nat := 0x0E0000C28001

/-- 01:80:C2:00:00:00-0F (R324). -/
def reservedMac (mac : Nat) : Bool := decide (mac % 2 ^ 40 = 0x0000C28001) && decide (mac / 2 ^ 40 < 16)

/-- The module's own addresses. -/
def ownMac (s : State) (mac : Nat) : Bool :=
  decide (mac = s.net.baseMac) || (s.pair.en && decide (mac = s.pair.mac) && decide (s.pair.role = .active))

def ipDst (f : EthFrame) : Option (Bool × Nat) := f.ip.map (fun h => (decide (h.ver = 6), h.dst))

/-- The interface whose address a frame's IP destination is. -/
def ifaceAddressed (f : EthFrame) (vid : Nat) (s : State) : Option Nat :=
  match ipDst f with
  | some (v6, a) => ifaceOf s vid v6 a
  | none => none

/-- Does a frame carry Uzoza for the module. -/
def isUzoza (f : EthFrame) (vid : Nat) (s : State) : Bool :=
  match f.kind with
  | .uzoza => true
  | .udp 47008 => (match ifaceAddressed f vid s with
    | some k => Nat.testBit (getIface s k).services 0
    | none => false)
  | _ => false

/-- What the internal port does with a frame: none when the frame is not for it (R325, R326). The contents of Uzoza,
management and PTP frames reach the module by their own events. A PTP frame is for it where it is addressed to an interface
with the PTP service or to the peer-delay address, and, of the Pdelay messages, where the port's TC_MODE is P2P (R364). -/
def deliverOwn (f : EthFrame) (vid : Nat) (s : State) : Option State :=
  match f.kind with
  | .arpRequest a => (ifaceOf s vid false a).map (fun k => replyOn k f.port 0 64 [a] s)
  | .solicit a => (ifaceOf s vid true a).map (fun k => replyOn k f.port 1 90 [a] s)
  | .echo => (ifaceAddressed f vid s).map (fun k => replyOn k f.port 2 f.len [] s)
  | .udp d =>
    match ifaceAddressed f vid s with
    | some k =>
      let i := getIface s k
      if (decide (d = 47008) && Nat.testBit i.services 0) || (decide (d = i.mgmtPort) && Nat.testBit i.services 1)
      then some s else none
    | none => none
  | .ptp m =>
    let serves := fun (k : Nat) => Nat.testBit (getIface s k).services 2
    let mine := match f.ip with
      | some _ => (match ifaceAddressed f vid s with
        | some k => serves k
        | none => false)
      | none => ownMac s f.dst && (List.range 4).any (fun k =>
          (getIface s k).en && decide ((getIface s k).vid = vid) && serves k)
    let ends := decide ((getPtpPort s f.port).tcMode = 2) && [2, 3, 10].contains m.kind
    if f.dst = peerDelayMac ∨ mine = true ∨ ends = true then some s else none
  | .uzoza => some s
  | .other => none

/-! ### Forwarding (R331, R335) -/

/-- The priority of a frame from a port other than the internal one. -/
def framePrio (q : QosCfg) (f : EthFrame) : Nat :=
  let n := match q.trust, f.tag, f.ip with
    | 1, some (_, pcp), _ => q.pcpMap.getD pcp 0
    | 2, _, some h => q.dscpMap.getD h.dscp 0
    | _, _, _ => q.defPrio
  if 4 < n ∧ q.highOk = false then 4 else n

def dropFiltered (p : Nat) (s : State) : State := modStat p (fun c => { c with dropFilter := cnt32 c.dropFilter }) s

/-- A port's rate, Mbit/s. -/
def portRate (x : Port) : Nat := [10, 100, 1000, 2500, 10000].getD x.speed 0

/-- The PTP message that a frame carries. -/
def tcMark (s : State) (f : EthFrame) : Option TcMark :=
  match f.kind with
  | .ptp m => some { from_ := f.port, at_ := s.now, v6 := match f.ip with
    | some h => decide (h.ver = 6)
    | none => false, msg := m }
  | _ => none

/-- A message that is corrected on its way over UDP on IPv6 and has no suffix is stored and forwarded (R365). -/
def storesPtp (s : State) (p : Nat) (t : TcMark) : Bool :=
  decide ((getPtpPort s p).tcMode ≠ 0) && t.v6 && (match t.msg.udp with
    | some u => u.suffix.isNone
    | none => false)

/-- Device time from which a frame may be sent by a port: at once where it is cut through, else once it has come in whole
(R338, R365). -/
def readyAt (s : State) (f : EthFrame) (p : Nat) : Nat :=
  let x := getPort s f.port
  let y := getPort s p
  let stored := match tcMark s f with
    | some t => storesPtp s p t
    | none => false
  if decide (portRate y ≤ portRate x) && y.queue.isEmpty && !stored then s.now
  else s.now + 8000 * f.len / portRate x

/-- The headers with which a frame leaves a port in a VLAN (R323): tagged unless the port is in the untag mask, with the PCP
it came with or else its priority. -/
def headOf (f : EthFrame) (p vid prio : Nat) (v : Vlan) : FwdHead :=
  { dst := f.dst, src := f.src,
    tag := if Nat.testBit v.untag p then none else some (vid, match f.tag with
      | some (_, pcp) => pcp
      | none => prio),
    ttl := f.ip.map (fun h => h.ttl), checksum := f.ip.bind (fun h => if h.ver = 4 then some h.checksum else none) }

/-- A frame of a VLAN leaves by a port; `base` is its length without a tag. -/
def sendOut (f : EthFrame) (p vid prio base : Nat) (s : State) : State :=
  match getVlan s vid with
  | none => s
  | some v =>
    if (getPort s p).cfg.blocking then dropFiltered p s
    else enqueueFrame p false
      { prio := prio, len := if Nat.testBit v.untag p then base else base + 4, reserve := false, own := none,
        fwd := some (headOf f p vid prio v), tc := tcMark s f, ready := readyAt s f p, headAt := s.now } s

/-- Bits of flooded frames a port admits in a millisecond (R331). -/
def floodBitsLimit (x : Port) : Nat := portRate x * 10 * x.cfg.floodLimit

/-- A frame is flooded to the other members of its VLAN. -/
def flood (f : EthFrame) (vid prio base : Nat) (v : Vlan) (s : State) : State :=
  let x := getPort s f.port
  let ms := s.now / 1000000
  let n := (if x.floodMs = ms then x.floodBits else 0) + 8 * f.len
  if floodBitsLimit x < n then modStat f.port (fun c => { c with floodLimited := cnt32 c.floodLimited }) s
  else
    let s1 := setPort f.port { x with floodBits := n, floodMs := ms } s
    ((List.range 10).filter (fun p => Nat.testBit v.member p && decide (p ≠ f.port) && portExists s.member p)).foldl
      (fun a p => sendOut f p vid prio base a) s1

/-- A frame goes by the MAC table in a VLAN; what its entry or its own port discards is no FILTER, and is counted nowhere. -/
def forward (f : EthFrame) (vid prio base : Nat) (v : Vlan) (s : State) : State :=
  match findFdb s f.dst vid with
  | some e =>
    if e.drop then s
    else
      ((List.range 10).filter (fun p => Nat.testBit e.ports p && decide (p ≠ f.port))).foldl (fun a p =>
        if Nat.testBit v.member p && portExists a.member p then sendOut f p vid prio base a else dropFiltered f.port a) s
  | none => flood f vid prio base v s

/-! ### Routing (R333, R334) -/

/-- An address with its first byte on the wire as the highest. -/
def ipBe (v6 : Bool) (a : Nat) : Nat := beNat (leBytes a (if v6 then 16 else 4))

def ipBits (v6 : Bool) : Nat := if v6 then 128 else 32

def prefixHits (v6 : Bool) (len pfx addr : Nat) : Bool :=
  decide (ipBe v6 pfx / 2 ^ (ipBits v6 - len) = ipBe v6 addr / 2 ^ (ipBits v6 - len))

/-- The route with the longest prefix that holds an address. -/
def lookupRoute (s : State) (v6 : Bool) (addr : Nat) : Option RouteEntry :=
  (s.net.routes.filter (fun r => decide (r.v6 = v6) && prefixHits v6 r.len r.pfx addr)).foldl (fun a r =>
    match a with
    | none => some r
    | some b => if b.len < r.len then some r else a) none

/-- The IPv4 header checksum after the TTL has fallen by 1, updated incrementally in one's complement (R334). -/
def ttlChecksum (c : Nat) : Nat := if c + 256 ≤ 65535 then c + 256 else c + 256 - 65535

/-- The frame as it leaves the router (R334). -/
def routedFrame (s : State) (f : EthFrame) (h : IpHdr) (r : RouteEntry) : EthFrame :=
  { f with src := s.net.baseMac, dst := r.mac,
           ip := some { h with ttl := h.ttl - 1, checksum := if h.ver = 4 then ttlChecksum h.checksum else h.checksum } }

/-- A frame is routed (R334). -/
def routeFrame (f : EthFrame) (h : IpHdr) (prio base : Nat) (s : State) : State :=
  if h.good = false then s
  else if h.ttl ≤ 1 then { s with net := { s.net with ttlDrops := cnt32 s.net.ttlDrops } }
  else match lookupRoute s (decide (h.ver = 6)) h.dst with
    | none => { s with net := { s.net with noRoute := cnt32 s.net.noRoute } }
    | some r =>
      match findFdb s r.mac r.vid, getVlan s r.vid with
      | some e, some v =>
        let p := portOfMask e.ports
        if e.drop then s
        else if Nat.testBit v.member p && portExists s.member p then sendOut (routedFrame s f h r) p r.vid prio base s
        else dropFiltered f.port s
      | _, _ => { s with net := { s.net with nhMiss := cnt32 s.net.nhMiss } }

/-! ### Ingress -/

/-- A frame is counted in at its port. -/
def countRx (p len : Nat) (s : State) : State :=
  modStat p (fun c => { c with rxFrames := cnt32 c.rxFrames, rxBytes := addBytes c.rxBytes len }) s

/-- The VLAN that a frame takes at a port (R323); none when the acceptance rule or the membership refuses it. -/
def ingressVid (p : Nat) (tag : Option Nat) (s : State) : Option Nat :=
  let c := (getPort s p).cfg
  let tagged := match tag with
    | some v => decide (v ≠ 0)
    | none => false
  let vid := if tagged then tag.getD 0 else c.pvid
  if (c.accept = 1 ∧ tagged = false) ∨ (c.accept = 2 ∧ tagged = true) then none
  else match getVlan s vid with
    | some v => if Nat.testBit v.member p then some vid else none
    | none => none

/-- A frame that is not for the module is routed, switched or discarded. -/
def passOn (f : EthFrame) (vid : Nat) (s : State) : State :=
  match getVlan s vid with
  | none => s
  | some v =>
    let prio := framePrio (getPort s f.port).qos f
    let base := if f.tag.isSome then f.len - 4 else f.len
    if (getPort s f.port).cfg.blocking || netBlocked s then dropFiltered f.port s
    else match f.ip with
      | some h =>
        if v.routed && decide (f.dst = s.net.baseMac) && !ownAddress s (decide (h.ver = 6)) h.dst
        then routeFrame f h prio base s
        else if ownMac s f.dst then s
        else forward f vid prio base v s
      | none => if ownMac s f.dst then s else forward f vid prio base v s

def isPtp : FrameKind → Bool
  | .ptp _ => true
  | _ => false

/-- A frame at a port's ingress (R321-R325). -/
def rxFrame (f : EthFrame) (s : State) : State :=
  if !portUp s f.port then s
  else
    let s1 := countRx f.port f.len s
    if !f.fcsOk then modStat f.port (fun c => { c with fcsErr := cnt32 c.fcsErr }) s1
    else if (getPort s1 f.port).cfg.maxFrame < f.len then dropFiltered f.port s1
    else if reservedMac f.dst ∧ ¬(f.dst = peerDelayMac ∧ isPtp f.kind = true) then
      dropFiltered f.port s1
    else match ingressVid f.port (f.tag.map (fun t => t.1)) s1 with
      | none => dropFiltered f.port s1
      | some vid =>
        let s2 := learn f.port f.src vid s1
        if isUzoza f vid s2 then
          let e := (getPort s2 f.port).cfg.uzEncap
          let right := match f.kind, f.ip with
            | .uzoza, _ => decide (e = 0) && (if (getPort s2 f.port).cfg.uzVid = 0
                then decide ((f.tag.map (fun t => t.1)).getD 0 = 0) else decide (vid = (getPort s2 f.port).cfg.uzVid))
            | _, some h => decide (e = if h.ver = 6 then 1 else 2)
            | _, none => false
          if right && decide (f.port < 8) then s2
          else modStat f.port (fun c => { c with uzWrong := cnt32 c.uzWrong }) s2
        else match deliverOwn f vid s2 with
          | some s3 => s3
          | none => passOn f vid s2

/-- ETH_FRAME_RX (R331). -/
def execEthFrameRx (f : EthFrame) (dt : Nat) (s : State) : Host.Outcome State Fault Refusal :=
  if !portExists s.member f.port || decide (f.port = 15) then .fault .noSuchUnit
  else
    let s1 := begin_ dt s
    .next (if powered s1 then rxFrame f s1 else s1)

/-! ### Commands (R340) -/

/-- A robot whose entry names the port has an ACTIVE session and an active spindle. -/
def portInUse (s : State) (p : Nat) : Bool :=
  s.uz.robots.any (fun q => decide (q.2.sess = .active) && spinActive (getSpindle s q.1) && (match q.2.addr with
    | some a => decide (a.port = p)
    | none => false))

/-- The VLAN that carries a port's Uzoza traffic. -/
def uzVlan (c : PortCfg) : Nat := if c.uzVid = 0 then c.pvid else c.uzVid

def portWords (p : Nat) (c : PortCfg) : List Word :=
  [wordOf p,
   wordOfFields [(natOfBool c.en, 0), (natOfBool c.blocking, 1), (natOfBool c.learn, 2), (c.mode, 4), (c.accept, 8),
     (c.uzEncap, 10), (c.phyAddr, 16), (natOfBool c.mdioEn, 21)],
   wordOfFields [(c.pvid, 0), (c.uzVid, 16)], wordOfFields [(c.maxFrame, 0), (c.bufCap, 16), (c.floodLimit, 24)]]

def ifaceWords (s : State) (k : Nat) : List Word :=
  let i := getIface s k
  [wordOfFields [(15, 0), (1, 4), (k, 8)],
   wordOfFields [(natOfBool i.en, 0), (i.services, 1), (i.v4Len, 8), (i.v6Len, 16)],
   wordOfFields [(i.vid, 0), (i.mgmtPort, 16)], wordOf i.v4] ++ words64 i.v6 ++ words64 (i.v6 / 2 ^ 64) ++
    macWords s.net.baseMac 0

def statWordsOf (x : Port) : List Word :=
  let c := x.stats
  wordOfFields [(natOfBool x.link, 0), (x.speed, 1)] :: (words64 c.rxBytes ++ words64 c.txBytes ++
    [c.rxFrames, c.txFrames, c.dropCap, c.dropFilter, c.fcsErr, c.floodLimited, c.uzWrong, c.linkDiscard,
      c.peakBuf].map wordOf)

def portCfgOf (r : Req) : PortCfg :=
  let a := par r 1
  let b := par r 2
  let d := par r 3
  { en := bitAt a 0, blocking := bitAt a 1, learn := bitAt a 2, mode := fld a 4 6, accept := fld a 8 9,
    uzEncap := fld a 10 11, phyAddr := fld a 16 20, mdioEn := bitAt a 21, pvid := fld b 0 11, uzVid := fld b 16 27,
    maxFrame := fld d 0 13, bufCap := fld d 16 23, floodLimit := fld d 24 31 }

/-- New settings of a port; a port that is disabled has no link. -/
def writePort (p : Nat) (c : PortCfg) (s : State) : State :=
  let s1 := modPort p (fun x => { x with cfg := c }) s
  if c.en then s1 else linkChange p false (getPort s1 p).speed s1

/-- Section 0: the settings of a port. -/
def portSection (p : Nat) (read : Bool) (r : Req) (s : State) : Res := do
  need (portExists s.member p && decide (p ≠ 15)) .range 0
  let old := (getPort s p).cfg
  if read then return (s, .ok 0 (portWords p old))
  else
    let c := portCfgOf r
    let rh := decide (p < 8)
    need ((if rh then decide (c.mode ≤ 5) else decide (c.mode = 0) && decide (c.uzEncap = 3))) .range 1
    need ((getVlan s c.pvid).isSome && decide (c.uzVid ≤ 4094)) .range 2
    need (inRange c.maxFrame 1522 9220 && (if rh then decide (c.bufCap ≤ 16) else inRange c.bufCap 4 128) &&
      inRange c.floodLimit 1 100) .range 3
    let breaks := (old.en && !c.en) || (!old.blocking && c.blocking) || decide (old.mode ≠ c.mode) ||
      decide (old.uzEncap ≠ c.uzEncap) || decide (old.uzVid ≠ c.uzVid)
    need (!(rh && breaks && portInUse s p)) .state 1
    return (writePort p c s, .ok 0 (portWords p c))

/-- Section 1: the settings of an interface. -/
def ifaceSection (p k : Nat) (read : Bool) (r : Req) (s : State) : Res := do
  need (decide (p = 15)) .range 0
  if read then return (s, .ok 0 (ifaceWords s k))
  else
    let a := par r 1
    let b := par r 2
    need (decide (fld a 8 13 ≤ 32) && decide (fld a 16 23 ≤ 128)) .range 1
    need (inRange (fld b 0 11) 1 4094) .range 2
    let i : Iface :=
      { getIface s k with
        en := bitAt a 0, services := fld a 1 3, v4Len := fld a 8 13, v6Len := fld a 16 23, vid := fld b 0 11,
        mgmtPort := fld b 16 31, v4 := (par r 3).toNat, v6 := par64 r 4 + 2 ^ 64 * par64 r 6 }
    let s1 := { s with net := { s.net with ifaces := tabSet s.net.ifaces k i } }
    return (s1, .ok 0 (ifaceWords s1 k))

/-- Section 2: the statistics of a port. -/
def statSection (p : Nat) (clear : Bool) (s : State) : Res := do
  need (portExists s.member p && decide (p ≠ 15)) .range 0
  return (if clear then modPort p (fun x => { x with stats := PortStats.zero }) s else s, .ok 0 (statWordsOf (getPort s p)))

def netPortCfgBody (r : Req) (s : State) : Res := do
  let h := par r 0
  let p := fld h 0 3
  let sec := fld h 4 5
  let read := bitAt h 6
  let mask := if sec = 1 then 0x37F else if sec = 2 then 0x47F else 0x7F
  need (onlyBits h mask && (read || decide (sec ≠ 0) || (onlyBits (par r 1) 0x3F0F77 && onlyBits (par r 2) 0x0FFF0FFF &&
    onlyBits (par r 3) 0xFFFF3FFF && decide (fld (par r 1) 8 9 ≠ 3))) &&
    (read || decide (sec ≠ 1) || (onlyBits (par r 1) 0xFF3F0F && onlyBits (par r 2) 0xFFFF0FFF))) .badParam 0
  match sec with
  | 0 => portSection p read r s
  | 1 => ifaceSection p (fld h 8 9) read r s
  | 2 => statSection p (bitAt h 10) s
  | _ => failWith .range 0

def descNetPortCfg : Desc :=
  (Desc.std 0x900 [3, 6, 10] 17 (fun r => bitAt (par r 0) 6 || decide (fld (par r 0) 4 5 = 2)) netPortCfgBody).formLen
    (fun r =>
      let sec := fld (par r 0) 4 5
      if sec = 3 then none
      else some (if bitAt (par r 0) 6 ∨ sec = 2 then 3 else if sec = 0 then 6 else 10))

/-- Mask bits of ports that the member lacks. -/
def maskOk (s : State) (m : Nat) : Bool := (List.range 16).all (fun p => !Nat.testBit m p || portExists s.member p)

def vlanWords (s : State) (vid : Nat) : List Word :=
  match getVlan s vid with
  | some v => [wordOfFields [(vid, 0), (natOfBool v.routed, 16), (natOfBool v.learn, 17)],
      wordOfFields [(v.member, 0), (v.untag, 16)]]
  | none => [wordOf vid, 0]

/-- A change of membership would take an RH port in use out of the VLAN of its Uzoza traffic. -/
def vlanBreaks (s : State) (vid member : Nat) : Bool :=
  let old := match getVlan s vid with
    | some v => v.member
    | none => 0
  (List.range 8).any (fun p => Nat.testBit old p && !Nat.testBit member p && decide (uzVlan (getPort s p).cfg = vid) &&
    portInUse s p)

def netVlanBody (r : Req) (s : State) : Res := do
  let h := par r 0
  let vid := fld h 0 11
  let op := fld h 12 13
  let m := fld (par r 1) 0 15
  let u := fld (par r 1) 16 31
  need (onlyBits h 0x33FFF && decide (op ≠ 3)) .badParam 0
  need (inRange vid 1 4094) .range 0
  need (decide (op ≠ 1) || (maskOk s m && maskOk s u)) .range 1
  match op with
  | 0 => return (s, .ok 0 (vlanWords s vid))
  | 1 =>
    need (!vlanBreaks s vid m) .state 1
    let v : Vlan := { member := m, untag := u, routed := bitAt h 16, learn := bitAt h 17 }
    let s1 := { s with net := { s.net with vlans := tabSet s.net.vlans vid v } }
    return (s1, .ok 0 (vlanWords s1 vid))
  | _ =>
    need (!vlanBreaks s vid 0) .state 1
    need (!((List.range 10).any (fun p => portExists s.member p && decide ((getPort s p).cfg.pvid = vid)) ||
      (List.range 4).any (fun k => decide ((getIface s k).vid = vid)))) .state 2
    let s1 := { s with net := { s.net with vlans := tabDel s.net.vlans vid } }
    return (s1, .ok 0 (vlanWords s1 vid))

def descNetVlan : Desc :=
  (Desc.std 0x901 [3, 4] 5 (fun r => decide (fld (par r 0) 12 13 = 0)) netVlanBody).formLen
    (fun r => if fld (par r 0) 12 13 = 3 then none else some (if fld (par r 0) 12 13 = 1 then 4 else 3))

/-- The MAC address that starts in P+k. -/
def macPar (r : Req) (k : Nat) : Nat := (par r k).toNat + 2 ^ 32 * fld (par r (k + 1)) 0 15

/-- The number of ports in a mask. -/
def maskCount (m : Nat) : Nat := ((List.range 16).filter (fun p => Nat.testBit m p)).length

def setFdb (l : List FdbEntry) (s : State) : State := { s with net := { s.net with fdb := l } }

def netFdbAddBody (r : Req) (s : State) : Res := do
  let h := par r 0
  let vid := fld h 0 11
  let op := fld h 12 13
  let mac := macPar r 1
  let ports := fld (par r 2) 16 31
  need (onlyBits h 0x13FFF && decide (op ≠ 3) && (decide (op ≠ 2) || decide (mac = 0))) .badParam 0
  need (decide (op ≠ 0) || isGroup mac || decide (maskCount ports = 1)) .badParam 1
  need (inRange vid 1 4094 || (decide (op = 2) && decide (vid = 0))) .range 0
  need (maskOk s ports) .range 2
  let e := findFdb s mac vid
  let isStatic := match e with
    | some x => x.static
    | none => false
  match op with
  | 0 =>
    need (isStatic || decide ((s.net.fdb.filter (fun x => x.static)).length < 1024)) .noResource 1
    let x : FdbEntry :=
      { mac := mac, vid := vid, way := 0, static := true, drop := bitAt h 16, ports := ports, hitAt := s.now,
        movedAt := s.now, moves := 0 }
    match e with
    | some y => return (putFdb { x with way := y.way } s, .ok 0 [1])
    | none =>
      match freeWay s mac vid with
      | some w => return (setFdb (s.net.fdb ++ [{ x with way := w }]) s, .ok 0 [1])
      | none => failWith .noResource 2
  | 1 =>
    need isStatic .state 1
    return (setFdb (s.net.fdb.filter (fun x => !(decide (x.mac = mac) && decide (x.vid = vid)))) s, .ok 0 [1])
  | _ =>
    let hit := fun (x : FdbEntry) => !x.static && (decide (vid = 0) || decide (x.vid = vid)) &&
      (decide (ports = 0) || Nat.testBit ports (portOfMask x.ports))
    return (setFdb (s.net.fdb.filter (fun x => !hit x)) s, .ok 0 [wordOf (s.net.fdb.filter hit).length])

def descNetFdbAdd : Desc := Desc.std 0x902 [5] 4 (fun _ => false) netFdbAddBody

/-- The place of an entry in the table. -/
def fdbPlace (e : FdbEntry) : Nat := 4 * (Config.fdbBucket e.vid e.mac).val + e.way

def insertPlace (e : FdbEntry) : List FdbEntry → List FdbEntry
  | [] => [e]
  | x :: r => if fdbPlace e ≤ fdbPlace x then e :: x :: r else x :: insertPlace e r

def fdbWords (s : State) (e : FdbEntry) : List Word :=
  [wordOf e.mac, wordOfFields [(e.mac / 2 ^ 32 % 65536, 0), (e.vid, 16), (natOfBool e.static, 28), (natOfBool e.drop, 29)],
   wordOfFields [(e.ports, 0), (e.moves, 16)],
   wordOf (if e.static then 0 else min 0xFFFFFFFF ((s.now - e.hitAt) / 1000000))]

def robotEntryWords (s : State) (r : Nat) : List Word :=
  let l := getLink s r
  let a := l.addr.getD RobotAddr.init
  let seq := if l.addr.isSome then l.window.highest else 0
  wordOfFields ([(r, 0)] ++ (if l.addr.isSome then
    [(a.port, 8), (1, 12), ((getPort s a.port).cfg.uzEncap, 13), (a.vid, 16)] else [])) ::
    (words64 seq ++ [wordOf l.dups, wordOf l.roams])

def fdbHead (s : State) (n next : Nat) : List Word :=
  let st := (s.net.fdb.filter (fun x => x.static)).length
  [wordOfFields [(n, 0), (next, 16)], wordOfFields [(s.net.fdb.length - st, 0), (st, 16)], wordOf s.net.learnFull,
   wordOf s.net.moveConflicts]

/-- NET_FDB_GET (R338). MODE 2 ends at the member's last robot, and a COUNT of 0 is out of range (DESIGN CHOICE, log 174:
the manual gives COUNT no limit). -/
def netFdbGetBody (r : Req) (s : State) : Res := do
  let h := par r 0
  let mode := fld h 0 1
  let a := par r 1
  let b := par r 2
  need (onlyBits h (if mode = 0 then 0x0FFF0003 else 3) && decide (mode ≠ 3) &&
    (if mode = 0 then onlyBits b 0xFFFF else onlyBits b 0) && (decide (mode ≠ 1) || onlyBits a 0xFF1FFF) &&
    (decide (mode ≠ 2) || onlyBits a 0xFFFF)) .badParam 0
  match mode with
  | 0 =>
    need (inRange (fld h 16 27) 1 4094) .range 0
    match findFdb s (macPar r 1) (fld h 16 27) with
    | some e => return (s, .ok 0 (fdbHead s 1 0 ++ fdbWords s e))
    | none => return (s, .ok 0 (fdbHead s 0 0))
  | 1 =>
    let n := fld a 16 23
    need (inRange n 1 128) .range 1
    let l := (s.net.fdb.foldr insertPlace []).filter (fun e => decide (fld a 0 12 ≤ fdbPlace e))
    let t := l.take n
    let next := match l.drop n with
      | e :: _ => fdbPlace e
      | [] => 0
    return (s, .ok 0 (fdbHead s t.length next ++ t.flatMap (fdbWords s)))
  | _ =>
    let first := fld a 0 7
    let n := min (fld a 8 15) (nRobots s.member - first)
    need (decide (first < nRobots s.member) && decide (1 ≤ fld a 8 15)) .range 1
    let next := if first + n < nRobots s.member then first + n else 0
    return (s, .ok 0 (fdbHead s n next ++ (List.range n).flatMap (fun i => robotEntryWords s (first + i))))

def descNetFdbGet : Desc := Desc.read 0x903 [5] (7 + 5 * 128) netFdbGetBody

def routeCount (s : State) (v6 : Bool) : Nat := (s.net.routes.filter (fun r => decide (r.v6 = v6))).length

def lenCount (s : State) (v6 : Bool) : Nat :=
  ((List.range 129).filter (fun n => s.net.routes.any (fun r => decide (r.v6 = v6) && decide (r.len = n)))).length

def routeReply (s : State) : List Word :=
  [wordOfFields [(routeCount s false, 0), (routeCount s true, 16)],
   wordOfFields [(lenCount s false, 0), (lenCount s true, 16)]]

/-- The prefix that starts in P+k. -/
def prefixPar (r : Req) (v6 : Bool) (k : Nat) : Nat :=
  if v6 then par64 r k + 2 ^ 64 * par64 r (k + 2) else (par r k).toNat

/-- No bit beyond LEN is set. -/
def prefixClean (v6 : Bool) (len pfx : Nat) : Bool := decide (ipBe v6 pfx % 2 ^ (ipBits v6 - len) = 0)

def sameRoute (v6 : Bool) (len pfx : Nat) (x : RouteEntry) : Bool :=
  decide (x.v6 = v6) && decide (x.len = len) && decide (x.pfx = pfx)

def netRouteAddBody (r : Req) (s : State) : Res := do
  let h := par r 0
  let v6 := bitAt h 0
  let len := fld h 8 15
  let vid := fld h 16 27
  let pfx := prefixPar r v6 3
  need (onlyBits h 0x0FFFFF01 && onlyBits (par r 2) 0xFFFF) .badParam 0
  need (decide (ipBits v6 < len) || prefixClean v6 len pfx) .badParam 1
  need (decide (len ≤ ipBits v6)) .range 0
  need (match getVlan s vid with
    | some v => v.routed
    | none => false) .state 2
  let x : RouteEntry := { v6 := v6, len := len, pfx := pfx, vid := vid, mac := macPar r 1 }
  let same := s.net.routes.any (sameRoute v6 len pfx)
  if same then
    let s1 := { s with net := { s.net with routes := s.net.routes.map (fun y => if sameRoute v6 len pfx y then x else y) } }
    return (s1, .ok 0 (routeReply s1))
  else
    need (decide (routeCount s v6 < if v6 then 1024 else 4096)) .noResource 1
    let held := (s.net.routes.filter (fun y => decide (y.v6 = v6) && decide (y.len = len))).map (fun y => y.pfx)
    need (held.isEmpty || !Config.routeBucketFull v6 len pfx held) .noResource 2
    let s1 := { s with net := { s.net with routes := s.net.routes ++ [x] } }
    return (s1, .ok 0 (routeReply s1))

def descNetRouteAdd : Desc :=
  (Desc.std 0x904 [6, 9] 5 (fun _ => false) netRouteAddBody).formLen (fun r => some (if bitAt (par r 0) 0 then 9 else 6))

def netRouteDelBody (r : Req) (s : State) : Res := do
  let h := par r 0
  let v6 := bitAt h 0
  let len := fld h 8 15
  let pfx := prefixPar r v6 1
  need (onlyBits h 0xFF01) .badParam 0
  need (decide (ipBits v6 < len) || prefixClean v6 len pfx) .badParam 1
  need (decide (len ≤ ipBits v6)) .range 0
  need (s.net.routes.any (sameRoute v6 len pfx)) .state 1
  let s1 := { s with net := { s.net with routes := s.net.routes.filter (fun y => !sameRoute v6 len pfx y) } }
  return (s1, .ok 0 (routeReply s1))

def descNetRouteDel : Desc :=
  (Desc.std 0x905 [4, 7] 5 (fun _ => false) netRouteDelBody).formLen (fun r => some (if bitAt (par r 0) 0 then 7 else 4))

def netAgeCfgBody (r : Req) (s : State) : Res := do
  let read := bitAt (par r 0) 0
  let age := (par r 1).toNat
  let off := fld (par r 2) 0 15
  need (onlyBits (par r 0) 1 && (read || onlyBits (par r 2) 0xFFFF)) .badParam 0
  need (read || decide (age = 0) || inRange age 10 1000000) .range 1
  need (read || decide (off ≤ 10000)) .range 2
  let s1 := if read then s else { s with net := { s.net with ageTime := age, holdoff := off } }
  return (s1, .ok 0 [0, wordOf s1.net.ageTime, wordOf s1.net.holdoff])

def descNetAgeCfg : Desc :=
  (Desc.std 0x906 [3, 5] 6 (fun r => bitAt (par r 0) 0) netAgeCfgBody).formLen (readForm 0 3 5)

/-- Fields of three bits, the first in the lowest. -/
def mapBits (l : List Nat) : Nat := l.foldr (fun x a => x + 8 * a) 0

def mapOf (n count : Nat) : List Nat := (List.range count).map (fun i => n / 8 ^ i % 8)

def qosWords (p : Nat) (q : QosCfg) : List Word :=
  wordOfFields [(p, 0), (q.trust, 8), (q.defPrio, 12), (natOfBool q.highOk, 15)] :: wordOf (mapBits q.pcpMap) ::
    (List.range 6).map (fun i => wordOf (mapBits q.dscpMap / 2 ^ (32 * i)))

def netQosCfgBody (r : Req) (s : State) : Res := do
  let h := par r 0
  let p := fld h 0 3
  let read := bitAt h 4
  need (onlyBits h 0xF31F && decide (fld h 8 9 ≠ 3) && (read || onlyBits (par r 1) 0xFFFFFF)) .badParam 0
  need (portExists s.member p && decide (p ≠ 15)) .range 0
  if read then return (s, .ok 0 (qosWords p (getPort s p).qos))
  else
    let d := par64 r 2 + 2 ^ 64 * par64 r 4 + 2 ^ 128 * par64 r 6
    let q : QosCfg :=
      { trust := fld h 8 9, defPrio := fld h 12 14, highOk := bitAt h 15, pcpMap := mapOf (par r 1).toNat 8,
        dscpMap := mapOf d 64 }
    return (modPort p (fun x => { x with qos := q }) s, .ok 0 (qosWords p q))

def descNetQosCfg : Desc :=
  (Desc.std 0x907 [3, 10] 11 (fun r => bitAt (par r 0) 4) netQosCfgBody).formLen (readForm 4 3 10)

end Sys2Proof.Machine
end

