-- ==== Sys2Proof/Machine/Motion.lean ====
section
/-! DEFINITION. The stepping arithmetic of a spindle (R239-R243), bit for bit: the braking curve, the next step, and the
commanded motion between steps. -/
set_option autoImplicit false

namespace Sys2Proof.Machine

/-- allowed2 of R239: the highest squared speed that can still brake to w within s mm. -/
def allowed2 (p : Profile) (w : Nat) (s : Int) : Nat :=
  if s < 0 then 0
  else
    let n := s.toNat
    let k2 := p.vKnee * p.vKnee
    let w2 := w * w
    if p.vKnee ≤ w then w2 + 2 * p.d2 * n
    else
      let r2 := w2 + 2 * p.d1 * n
      if r2 ≤ k2 then r2 else k2 + 2 * p.d2 * (n - (k2 - w2 + 2 * p.d1 - 1) / (2 * p.d1))

/-- The least s with v2 at most allowed2(V_STOP, s) (R243). -/
def brakeDistOf (p : Profile) (v2 : Nat) : Nat :=
  let k2 := p.vKnee * p.vKnee
  let w2 := p.vStop * p.vStop
  if v2 ≤ w2 then 0
  else if p.vKnee ≤ p.vStop then ceilDiv (v2 - w2) (2 * p.d2)
  else if v2 ≤ k2 then ceilDiv (v2 - w2) (2 * p.d1)
  else ceilDiv (k2 - w2) (2 * p.d1) + ceilDiv (v2 - k2) (2 * p.d2)

/-- What bounds the steps of a tick: the target, other limit points with their speeds, and the cap over a stretch of the
route. -/
structure Bounds where
  target : Int
  points : List (Int × Nat)
  cap : Int → Int → Nat
  /-- the target is the stop point of a controlled stop (R246) -/
  stop : Bool

/-- brake2 of R239. -/
def brake2 (p : Profile) (b : Bounds) (p1 : Int) : Nat :=
  (b.points.filter (fun x => decide (p1 ≤ x.1))).foldl (fun a x => min a (allowed2 p x.2 (x.1 - p1)))
    (allowed2 p p.vStop (b.target - p1))

/-- The squared speed after braking over ds mm from v2: with the deceleration of the segment in which the step begins
(dn2 of R239), or, on the way to the stop point of a controlled stop, with D2 down to the knee and D1 below it (R246). -/
def braked2 (p : Profile) (stop : Bool) (v2 ds : Nat) : Nat :=
  let k2 := p.vKnee * p.vKnee
  if stop && decide (p.vKnee < isqrt v2) && decide (v2 < k2 + 2 * p.d2 * ds) then
    max 1 (k2 + p.d1 * (v2 - k2) / p.d2 - 2 * p.d1 * ds)
  else max 1 (v2 - 2 * (if p.vKnee < isqrt v2 then p.d2 else p.d1) * ds)

/-- A step as R239 works it out. -/
structure NextStep where
  p1 : Int
  n2 : Nat
  vn : Nat
  interval : Nat
  stretched : Bool
  /-- dn2 exceeds what the target allows (R248) -/
  missed : Bool
  deriving DecidableEq, Repr

/-- One round of the loop of R239, with the quantum qs. -/
def tryStep (p : Profile) (b : Bounds) (p0 : Int) (v2 qs q : Nat) : NextStep :=
  let v := isqrt v2
  let p1 := min (p0 + qs) b.target
  let ds := (p1 - p0).toNat
  let c := b.cap p0 p1
  let up2 := v2 + 2 * (if v < p.vKnee then p.a1 else p.a2) * ds
  let dn2 := braked2 p b.stop v2 ds
  let n2 := max (min (min up2 (c * c)) (brake2 p b p1)) dn2
  let vn := max 1 (isqrt n2)
  { p1 := p1, n2 := n2, vn := vn, interval := (2 * ds * 1000000000 + (v + vn) / 2) / (v + vn),
    stretched := decide (q < qs), missed := decide (allowed2 p p.vStop (b.target - p1) < dn2) }

/-- The quantum is doubled while the interval stays below P/64, up to 8 q (R239, R240). -/
def stretchStep (p : Profile) (b : Bounds) (p0 : Int) (v2 q period : Nat) : Nat → Nat → NextStep
  | 0, qs => tryStep p b p0 v2 qs q
  | n + 1, qs =>
    let x := tryStep p b p0 v2 qs q
    if period ≤ 64 * x.interval ∨ x.p1 = b.target then x else stretchStep p b p0 v2 q period n (2 * qs)

/-- The step after position p0 with squared speed v2 (R239, R240). -/
def nextStep (p : Profile) (b : Bounds) (p0 : Int) (v2 q period : Nat) : NextStep :=
  let x := stretchStep p b p0 v2 q period 3 q
  if 64 * x.interval < period then
    let least := period / 64
    let vn := max 1 (2 * (x.p1 - p0).toNat * 1000000000 / least - isqrt v2)
    { x with interval := least, vn := vn, n2 := vn * vn }
  else x

/-- The rounded position and speed and the position rounded up at an instant (R243): halves away from zero. -/
structure CmdMotion where
  pos : Int
  speed : Nat
  up : Int
  deriving DecidableEq, Repr

def ceilInt (a : Int) (b : Nat) : Int := -((-a) / (b : Int))

/-- The commanded motion `tau` ns after a step, on the way to the step after it. -/
def motionBetween (x : Step) (vn : Nat) (interval tau : Nat) : CmdMotion :=
  if interval = 0 then { pos := x.p, speed := vn, up := x.p }
  else
    let den := 2 * interval * 1000000000
    let num : Int := x.p * (den : Int) + 2 * x.v * tau * interval + ((vn : Int) - x.v) * tau * tau
    let spd : Int := x.v * interval + ((vn : Int) - x.v) * tau
    { pos := roundHalf num den, speed := (roundHalf spd interval).toNat, up := ceilInt num den }
where
  roundHalf (a : Int) (b : Nat) : Int :=
    let m : Int := ((2 * a.natAbs + b) / (2 * b) : Nat)
    if a < 0 then -m else m

/-- The commanded motion of a run of steps at an instant: before the first it stands at `base`, after the last of a stream
it stands there, and up to the starting state of a flush it is that of the steps sent before. -/
def motionAt (base : Int) (t : Nat) : List Step → CmdMotion
  | [] => { pos := base, speed := 0, up := base }
  | x :: r =>
    if t < x.due then { pos := base, speed := 0, up := base }
    else match r with
      | [] => if x.last then { pos := x.p, speed := 0, up := x.p } else motionBetween x x.v (t - x.due + 1) (t - x.due)
      | y :: _ =>
        if t < y.due then
          if x.last then { pos := x.p, speed := 0, up := x.p }
          else
            let (v, due) := y.toward.getD (y.v, y.due)
            motionBetween x v (due - x.due) (t - x.due)
        else motionAt x.p t r

end Sys2Proof.Machine
end

