-- ==== Sys2Proof/Machine/Geo.lean ====
section
/-! DEFINITION. Plane geometry of chapter 08: distances, slivers as centrelines, polygons and the permitted region. -/
set_option autoImplicit false

namespace Sys2Proof.Machine

abbrev Pt := Int × Int

def subPt (a b : Pt) : Pt := (a.1 - b.1, a.2 - b.2)
def dotPt (a b : Pt) : Int := a.1 * b.1 + a.2 * b.2
def crossPt (a b : Pt) : Int := a.1 * b.2 - a.2 * b.1
def norm2 (a : Pt) : Nat := (dotPt a a).toNat

/-- A ratio of natural numbers, denominator above 0. -/
structure Ratio where
  num : Nat
  den : Nat
  deriving DecidableEq, Repr

def ratioLt (a b : Ratio) : Bool := decide (a.num * b.den < b.num * a.den)

def minRatio (l : List Ratio) : Option Ratio :=
  l.foldl (fun a r => match a with
    | none => some r
    | some m => if ratioLt r m then some r else some m) none

/-- The square root of a ratio, rounded down and rounded up. -/
def floorSqrt (r : Ratio) : Nat := isqrt (r.num / r.den)
def ceilSqrt (r : Ratio) : Nat := csqrt (ceilDiv r.num r.den)

/-- Squared distance of a point to a segment. -/
def pointSeg2 (p a b : Pt) : Ratio :=
  let r := subPt b a
  let t := dotPt (subPt p a) r
  if t ≤ 0 then { num := norm2 (subPt p a), den := 1 }
  else if dotPt r r ≤ t then { num := norm2 (subPt p b), den := 1 }
  else
    let c := (crossPt r (subPt p a)).natAbs
    { num := c * c, den := norm2 r }

/-- The point lies on the segment. -/
def onSeg (p a b : Pt) : Bool :=
  decide (crossPt (subPt b a) (subPt p a) = 0) && decide (dotPt (subPt p a) (subPt p b) ≤ 0)

/-- The segments have a point in common. -/
def segsMeet (a b c d : Pt) : Bool :=
  let o1 := (crossPt (subPt b a) (subPt c a)).sign
  let o2 := (crossPt (subPt b a) (subPt d a)).sign
  let o3 := (crossPt (subPt d c) (subPt a c)).sign
  let o4 := (crossPt (subPt d c) (subPt b c)).sign
  (decide (o1 * o2 < 0) && decide (o3 * o4 < 0)) || onSeg c a b || onSeg d a b || onSeg a c d || onSeg b c d

/-- Squared distance of two segments. -/
def segSeg2 (a b c d : Pt) : Ratio :=
  if segsMeet a b c d then { num := 0, den := 1 }
  else (minRatio [pointSeg2 a c d, pointSeg2 b c d, pointSeg2 c a b, pointSeg2 d a b]).getD { num := 0, den := 1 }

def segsOf (l : List Pt) : List (Pt × Pt) := l.zip l.tail

/-! ### Slivers (R192, R194) -/

/-- Units of 2^-16 mm, in which centrelines are worked. -/
def geoU : Nat := 65536

def ptOf (n : Node) : Pt := (n.e, n.n)

/-- The centre of an arc, in units of 2^-16 mm: to the left of the way from START to END when RADIUS is positive. -/
def arcCentre (a b : Pt) (radius : Int) : Pt :=
  let d := subPt b a
  let c2 := norm2 d
  let k : Int := ((isqrt ((4 * radius.natAbs * radius.natAbs - c2) * 2 ^ 128 / (4 * c2)) : Nat) : Int) * radius.sign
  ((a.1 + b.1) * geoU / 2 - roundQ (k * d.2 * geoU) (2 ^ 64), (a.2 + b.2) * geoU / 2 + roundQ (k * d.1 * geoU) (2 ^ 64))

/-- The angle of a minor arc of the given chord (squared), in radians at the scale of the circular functions. -/
def arcAngle (c2 : Nat) (radius : Int) : Int :=
  2 * atan2Q (isqrt (c2 * 2 ^ 128) : Nat) (isqrt ((4 * radius.natAbs * radius.natAbs - c2) * 2 ^ 128) : Nat)

/-- L of a sliver, rounded to the nearest millimetre (R192). -/
def sliverLen (a b : Pt) (radius : Int) : Nat :=
  let c2 := norm2 (subPt b a)
  if radius = 0 then rsqrt c2 else (roundQ (radius.natAbs * arcAngle c2 radius) fixQ).toNat

/-- The largest angle whose chord has a sagitta of 2 mm. -/
def chordAngle (radius : Nat) : Int :=
  2 * atan2Q (2 * (isqrt ((radius - 1) * 2 ^ 128) : Nat)) (((radius : Int) - 2) * 2 ^ 64)

/-- The point on an arc at an angle from the START node, in units of 2^-16 mm. -/
def arcPoint (a b : Pt) (radius : Int) (angle : Int) : Pt :=
  let c := arcCentre a b radius
  let phi0 := atan2Q (a.2 * geoU - c.2) (a.1 * geoU - c.1)
  let phi := phi0 + radius.sign * angle
  let phi' := if piQ < phi then phi - 2 * piQ else if phi < -piQ then phi + 2 * piQ else phi
  (c.1 + roundQ (radius.natAbs * (geoU : Int) * cosQ phi') fixQ, c.2 + roundQ (radius.natAbs * (geoU : Int) * sinQ phi') fixQ)

def scalePt (k : Int) (p : Pt) : Pt := (p.1 * k, p.2 * k)

/-- The centreline as chords of sagitta at most 2 mm, in units of 2^-16 mm: the fewest equal chords (R194). -/
def centreline (a b : Pt) (radius : Int) : List Pt :=
  if radius = 0 then [scalePt geoU a, scalePt geoU b]
  else
    let th := arcAngle (norm2 (subPt b a)) radius
    let m := chordAngle radius.natAbs
    let n : Nat := max 1 (ceilDiv th.toNat m.toNat)
    scalePt geoU a :: (((List.range (n - 1)).map (fun (i : Nat) => arcPoint a b radius (th * ((i : Int) + 1) / n))) ++ [scalePt geoU b])

/-- Squared distance of two centrelines, in units of 2^-32 mm^2. -/
def lineLine2 (x y : List Pt) : Ratio :=
  (minRatio ((segsOf x).flatMap (fun p => (segsOf y).map (fun q => segSeg2 p.1 p.2 q.1 q.2)))).getD { num := 0, den := 1 }

/-- The point of a sliver at an offset from START, in units of 2^-16 mm, and the direction from START to END there as an
angle in radians at the scale, counter-clockwise from east. Offsets 0 and L are the nodes themselves. -/
def sliverPoint (a b : Pt) (radius : Int) (len : Nat) (off : Int) : Pt × Int :=
  let d := subPt b a
  if radius = 0 then
    ((a.1 * geoU + roundQ (d.1 * off * geoU) len, a.2 * geoU + roundQ (d.2 * off * geoU) len), atan2Q d.2 d.1)
  else
    let th := arcAngle (norm2 d) radius
    let ang := th * off / len
    let chord := atan2Q d.2 d.1
    (arcPoint a b radius ang, chord + radius.sign * (ang - th / 2))

/-- An angle counter-clockwise from east, in radians at the scale, as a heading in 2^-16 turn clockwise from north. -/
def headingAngle (angle : Int) : Nat := ((16384 - roundQ (angle * 65536) (2 * piQ).toNat) % 65536).toNat

/-- Turns an angle into the range from -pi to pi. -/
def wrapAngle (x : Int) : Int := (x + piQ) % (2 * piQ) - piQ

/-- The nearest point of a sliver's centreline to a point given in mm: its offset from START in mm, and the distance to
it in units of 2^-16 mm (R205). -/
def projectSliver (a b : Pt) (radius : Int) (len : Nat) (p : Pt) : Int × Nat :=
  let dist := fun (q : Pt) => isqrt (norm2 (subPt p q) * geoU * geoU)
  if radius = 0 then
    let d := subPt b a
    let t := dotPt (subPt p a) d
    if t ≤ 0 then (0, dist a)
    else if dotPt d d ≤ t then ((len : Int), dist b)
    else
      let k := (crossPt d (subPt p a)).natAbs
      (roundQ (t * len) (norm2 d), isqrt (k * k * geoU * geoU / norm2 d))
  else
    let c := arcCentre a b radius
    let q := subPt (scalePt geoU p) c
    let th := arcAngle (norm2 (subPt b a)) radius
    let phi0 := atan2Q (a.2 * geoU - c.2) (a.1 * geoU - c.1)
    let w := wrapAngle (radius.sign * (atan2Q q.2 q.1 - phi0) - th / 2)
    if th < 2 * w then ((len : Int), dist b)
    else if 2 * w < -th then (0, dist a)
    else (roundQ ((w + th / 2) * len) th.toNat, ((isqrt (norm2 q) : Int) - radius.natAbs * geoU).natAbs)

/-! ### Polygons (R198) -/

def edgesOf (vs : List Pt) : List (Pt × Pt) :=
  match vs with
  | [] => []
  | v :: r => vs.zip (r ++ [v])

/-- Twice the signed area. -/
def area2 (vs : List Pt) : Int := (edgesOf vs).foldl (fun a e => a + crossPt e.1 e.2) 0

/-- The DETAIL of a polygon that is not simple: 2 repeated consecutive vertex or zero area, 1 self-intersection. -/
def polyFault (vs : List Pt) : Option Nat :=
  let es := edgesOf vs
  let n := es.length
  let ixs := es.zip (List.range n)
  if es.any (fun e => decide (e.1 = e.2)) || decide (area2 vs = 0) then some 2
  else
    let bad := fun (p q : (Pt × Pt) × Nat) =>
      if p.2 + 1 = q.2 then onSeg q.1.2 p.1.1 p.1.2 || onSeg p.1.1 q.1.1 q.1.2
      else if p.2 = 0 ∧ q.2 + 1 = n then onSeg p.1.2 q.1.1 q.1.2 || onSeg q.1.1 p.1.1 p.1.2
      else segsMeet p.1.1 p.1.2 q.1.1 q.1.2
    if ixs.any (fun p => ixs.any (fun q => decide (p.2 < q.2) && bad p q)) then some 1 else none

/-- A point near a rational point: coordinates (x, y) / d, displaced by an arbitrarily small multiple of (nx, ny). -/
structure NearPt where
  x : Int
  y : Int
  d : Int
  nx : Int
  ny : Int
  deriving DecidableEq, Repr

def posNear (a b : Int) : Bool := decide (0 < a) || (decide (a = 0) && decide (0 < b))

/-- Inside a polygon whose boundary does not hold the point: an odd number of edges crossed. -/
def nearInside (vs : List Pt) (p : NearPt) : Bool :=
  let crossing := fun (e : Pt × Pt) =>
    let up := fun (v : Pt) => posNear (v.2 * p.d - p.y) (-p.ny)
    if up e.1 = up e.2 then false
    else
      let r := subPt e.2 e.1
      let o := r.1 * (p.y - e.1.2 * p.d) - r.2 * (p.x - e.1.1 * p.d)
      decide (e.1.2 < e.2.2) = posNear o (r.1 * p.ny - r.2 * p.nx)
  decide (((edgesOf vs).filter crossing).length % 2 = 1)

/-- In a polygon, its boundary included. -/
def inClosed (vs : List Pt) (p : Pt) : Bool :=
  (edgesOf vs).any (fun e => onSeg p e.1 e.2) || nearInside vs { x := p.1, y := p.2, d := 1, nx := 0, ny := 0 }

/-- A place on an edge: the fraction n / d of its length, d above 0. -/
abbrev Frac := Int × Int

def fracLt (a b : Frac) : Bool := decide (a.1 * b.2 < b.1 * a.2)
def fracUnit (a : Frac) : Bool := decide (0 ≤ a.1) && decide (a.1 ≤ a.2)

def insertFrac (x : Frac) : List Frac → List Frac
  | [] => [x]
  | y :: r => if fracLt x y then x :: y :: r else if fracLt y x then y :: insertFrac x r else y :: r

/-- The places at which an edge meets another. -/
def cutsOf (e f : Pt × Pt) : List Frac :=
  let r := subPt e.2 e.1
  let q := subPt f.2 f.1
  let den := crossPt r q
  if den = 0 then
    if crossPt r (subPt f.1 e.1) = 0 then
      [(dotPt (subPt f.1 e.1) r, dotPt r r), (dotPt (subPt f.2 e.1) r, dotPt r r)].filter fracUnit
    else []
  else
    let s := den.sign
    let t : Frac := (s * crossPt (subPt f.1 e.1) q, s * den)
    let u : Frac := (s * crossPt (subPt f.1 e.1) r, s * den)
    if fracUnit t && fracUnit u then [t] else []

/-- Parts of the edges of polygons that bound the set told by `ins`: on one side inside, on the other not. A part is an
edge and the fractions between which it lies. -/
def boundaryParts (polys : List (List Pt)) (ins : NearPt → Bool) : List ((Pt × Pt) × Frac × Frac) :=
  let es := polys.flatMap edgesOf
  es.flatMap (fun e =>
    let r := subPt e.2 e.1
    let cuts := es.foldl (fun a f => (cutsOf e f).foldl (fun b t => insertFrac t b) a) [((0 : Int), (1 : Int)), (1, 1)]
    let parts := cuts.zip cuts.tail
    (parts.filter (fun p =>
      let d := 2 * p.1.2 * p.2.2
      let n := p.1.1 * p.2.2 + p.2.1 * p.1.2
      let m := fun (k : Int) =>
        ({ x := e.1.1 * d + n * r.1, y := e.1.2 * d + n * r.2, d := d, nx := -k * r.2, ny := k * r.1 } : NearPt)
      ins (m 1) != ins (m (-1)))).map (fun p => (e, p)))

/-- The part's end points, both over the common divisor that comes with them. -/
def partEnds (x : (Pt × Pt) × Frac × Frac) : Pt × Pt × Int :=
  let (e, t, u) := x
  let r := subPt e.2 e.1
  let d := t.2 * u.2
  ((e.1.1 * d + t.1 * u.2 * r.1, e.1.2 * d + t.1 * u.2 * r.2), (e.1.1 * d + u.1 * t.2 * r.1, e.1.2 * d + u.1 * t.2 * r.2), d)

/-- Squared distance of a point to a part of an edge. -/
def pointPart2 (p : Pt) (x : (Pt × Pt) × Frac × Frac) : Ratio :=
  let (a, b, d) := partEnds x
  let q := pointSeg2 (scalePt d p) a b
  { num := q.num, den := q.den * d.natAbs * d.natAbs }

/-- Squared distance of a centreline (units of 2^-16 mm) to a part of an edge, in units of 2^-32 mm^2. -/
def linePart2 (line : List Pt) (x : (Pt × Pt) × Frac × Frac) : Ratio :=
  let (a, b, d) := partEnds x
  let f := fun (s : Pt × Pt) =>
    segSeg2 (scalePt d s.1) (scalePt d s.2) (scalePt geoU a) (scalePt geoU b)
  let q := (minRatio ((segsOf line).map f)).getD { num := 0, den := 1 }
  { num := q.num, den := q.den * d.natAbs * d.natAbs }

/-! ### Arcs against edges (R199) -/

/-- A minor arc about a centre: its ends in the counter-clockwise sense, and its radius. -/
structure Arc where
  centre : Pt
  from_ : Pt
  to_ : Pt
  radius : Nat
  deriving DecidableEq, Repr

/-- The arc of a sliver, in units of 2^-16 mm (R192). -/
def arcOf (a b : Pt) (radius : Int) : Arc :=
  let (p, q) := if 0 < radius then (a, b) else (b, a)
  { centre := arcCentre a b radius, from_ := scalePt geoU p, to_ := scalePt geoU q, radius := radius.natAbs * geoU }

def scaleArc (k : Nat) (x : Arc) : Arc :=
  { centre := scalePt k x.centre, from_ := scalePt k x.from_, to_ := scalePt k x.to_, radius := k * x.radius }

/-- The way from the centre lies between those to the arc's ends. -/
def inSector (x : Arc) (v : Pt) : Bool :=
  decide (0 ≤ crossPt (subPt x.from_ x.centre) v) && decide (0 ≤ crossPt v (subPt x.to_ x.centre))

/-- Squared distance of a point to an arc. -/
def pointArc2 (x : Arc) (p : Pt) : Nat :=
  let v := subPt p x.centre
  if inSector x v then let k := ((isqrt (norm2 v) : Int) - x.radius).natAbs; k * k
  else min (norm2 (subPt p x.from_)) (norm2 (subPt p x.to_))

/-- The segment from a to b and the arc have a point in common. -/
def arcMeets (x : Arc) (a b : Pt) : Bool :=
  let r := subPt b a
  let v := subPt a x.centre
  let alpha := dotPt r r
  let beta := dotPt v r
  let disc := beta * beta - alpha * (dotPt v v - (x.radius : Int) * x.radius)
  let hit := fun (t : Int) => decide (0 ≤ t) && decide (t ≤ alpha) &&
    inSector x (alpha * v.1 + t * r.1, alpha * v.2 + t * r.2)
  decide (0 ≤ disc) && (hit (-beta - isqrt disc.toNat) || hit (-beta + isqrt disc.toNat))

/-- Squared distance of an arc to the segment from a to b: 0 where they meet, else the least of those of its ends, of the
segment's ends, and of the foot of the perpendicular from the centre. -/
def arcSeg2 (x : Arc) (a b : Pt) : Ratio :=
  if arcMeets x a b then { num := 0, den := 1 }
  else
    let r := subPt b a
    let v := subPt a x.centre
    let alpha := dotPt r r
    let beta := dotPt v r
    let one := fun (n : Nat) => ({ num := n, den := 1 } : Ratio)
    let gap := (isqrt ((crossPt r v).natAbs ^ 2 / alpha.toNat) : Int) - x.radius
    let foot := decide (0 < -beta) && decide (-beta < alpha) && decide (0 ≤ gap) &&
      inSector x (alpha * v.1 - beta * r.1, alpha * v.2 - beta * r.2)
    (minRatio ([pointSeg2 x.from_ a b, pointSeg2 x.to_ a b, one (pointArc2 x a), one (pointArc2 x b)] ++
      (if foot then [one (gap.toNat ^ 2)] else []))).getD (one 0)

/-- Squared distance of an arc (units of 2^-16 mm) to a part of an edge, in units of 2^-32 mm^2. -/
def arcPart2 (arc : Arc) (x : (Pt × Pt) × Frac × Frac) : Ratio :=
  let (a, b, d) := partEnds x
  let q := arcSeg2 (scaleArc d.natAbs arc) (scalePt (geoU * d.sign) a) (scalePt (geoU * d.sign) b)
  { num := q.num, den := q.den * d.natAbs * d.natAbs }

/-! ### The permitted region (R198-R201) -/

/-- The permitted region: the enabled keep-in and keep-out polygons, the parts that bound the union of the keep-in ones,
and those that bound the region. -/
structure Region where
  keepIn : List (List Pt)
  keepOut : List (List Pt)
  outer : List ((Pt × Pt) × Frac × Frac)
  border : List ((Pt × Pt) × Frac × Frac)
  deriving DecidableEq, Repr

def regionOf (deckle : Tab Poly) : Region :=
  let ins := (deckle.filter (fun p => p.2.en && !p.2.keepOut)).map (fun p => p.2.verts)
  let outs := (deckle.filter (fun p => p.2.en && p.2.keepOut)).map (fun p => p.2.verts)
  { keepIn := ins, keepOut := outs, outer := boundaryParts ins (fun p => ins.any (fun v => nearInside v p)),
    border := boundaryParts (ins ++ outs)
      (fun p => ins.any (fun v => nearInside v p) && !outs.any (fun v => nearInside v p)) }

def regionEmpty (g : Region) : Bool := g.border.isEmpty

def permitted (g : Region) (p : Pt) : Bool := g.keepIn.any (fun v => inClosed v p) && !g.keepOut.any (fun v => inClosed v p)

/-- d of R201, in whole millimetres rounded towards minus infinity. -/
def regionDistance (g : Region) (p : Pt) : Int :=
  if permitted g p then
    let ds := g.outer.map (pointPart2 p) ++ (g.keepOut.flatMap edgesOf).map (fun e => pointSeg2 p e.1 e.2)
    match minRatio ds with
    | some r => (floorSqrt r : Int)
    | none => 0
  else
    match minRatio (g.border.map (pointPart2 p)) with
    | some r => -(ceilSqrt r : Int)
    | none => 0

/-- The corridor of a sliver lies wholly in the permitted region (R199): its centreline, straight or the arc itself,
starts in the region, lies at least WIDTH / 2 from what bounds the keep-in polygons, and farther than that from every
keep-out polygon. -/
def corridorInside (g : Region) (a b : Pt) (radius : Int) (width : Nat) : Bool :=
  let gap := if radius = 0 then linePart2 [scalePt geoU a, scalePt geoU b] else arcPart2 (arcOf a b radius)
  let lim : Ratio := { num := width * width * geoU * geoU, den := 4 }
  permitted g a && g.outer.all (fun x => !ratioLt (gap x) lim) &&
    (g.keepOut.flatMap edgesOf).all (fun e => ratioLt lim (gap (e, (0, 1), (1, 1))))

end Sys2Proof.Machine
end

