-- ==== Sys2Proof/Machine/Track.lean ====
section
/-! DEFINITION. The track graph, the deckle, routes and reservations (chapter 08): their operations on the state, the
reservation phase of R12, and the TRACK commands. -/
set_option autoImplicit false

namespace Sys2Proof.Machine

/-! ### Access -/

def getTr (s : State) (r : Nat) : TrackRobot := tabGet s.track.robots r TrackRobot.init

def setTr (r : Nat) (x : TrackRobot) (s : State) : State :=
  { s with track := { s.track with robots := tabSet s.track.robots r x } }

def modTr (r : Nat) (f : TrackRobot → TrackRobot) (s : State) : State := setTr r (f (getTr s r)) s

def sliverAt (s : State) (n : Nat) : Option Sliver := tabFind s.track.active.slivers n

def nodePt (g : Graph) (n : Nat) : Pt := ptOf (tabGet g.nodes n { e := 0, n := 0, u := 0 })

def lenAt (s : State) (n : Nat) : Nat := tabGet s.track.active.lens n 0

def conflictSet (s : State) (n : Nat) : List Nat := tabGet s.track.active.conflicts n [n]

/-- An entry of a route laid out in route distance: sliver, REVERSE, entry end and exit end. -/
structure Span where
  sliver : Nat
  rev : Bool
  d0 : Int
  d1 : Int
  deriving DecidableEq, Repr

/-- The entries of a route from route distance d on. -/
def spansFrom (s : State) (d : Int) : List (Nat × Bool) → List Span
  | [] => []
  | (n, rev) :: r => { sliver := n, rev := rev, d0 := d, d1 := d + lenAt s n } :: spansFrom s (d + lenAt s n) r

def spansOf (s : State) (x : Route) : List Span := spansFrom s 0 x.entries

/-- The route distance of END_OFFSET. -/
def endDist (x : Route) (sp : List Span) : Int :=
  match sp.getLast? with
  | some e => if e.rev then e.d1 - x.endOffset else e.d0 + x.endOffset
  | none => 0

/-- The offset on its sliver, from START, of a route distance within a span. -/
def offsetIn (e : Span) (d : Int) : Int := if e.rev then e.d1 - d else d - e.d0

def spanNear (s : State) (e : Span) (p : Pt) : Option (Int × Nat × Int) :=
  match sliverAt s e.sliver with
  | some v =>
    let g := s.track.active
    let (off, lat) := projectSliver (nodePt g v.start) (nodePt g v.end_) v.radius (lenAt s e.sliver) p
    some (if e.rev then e.d1 - off else e.d0 + off, lat, (v.width : Int) * (geoU / 2 : Nat))
  | none => none

/-- The nearest place of some spans to a point: route distance, lateral offset and half the sliver's width, the latter two
in units of 2^-16 mm; the earlier in route order on a tie (R202, R205). -/
def locate (s : State) (sp : List Span) (p : Pt) : Option (Int × Nat × Int) :=
  sp.foldl (fun a e => match spanNear s e p, a with
    | none, _ => a
    | some q, none => some q
    | some q, some b => if q.2.1 < b.2.1 then some q else a) none

/-- The span in which a route distance lies: the first whose exit end is beyond it, else the last. -/
def curIdx (sp : List Span) (x : Int) : Nat := min (sp.findIdx (fun e => decide (x < e.d1))) (sp.length - 1)

def enteredIdx (t : TrackRobot) : List Nat := (t.windows.filter (fun w => w.entered)).filterMap (fun w => w.idx)

/-! ### Windows -/

def isOverdue (t : Nat) (w : RWindow) : Bool := decide (w.until_ < t)

/-- The unreleased windows of other robots on slivers in the conflict set of n, with their robots (R208). -/
def rivals (s : State) (r n : Nat) : List (Nat × RWindow) :=
  let cs := conflictSet s n
  s.track.robots.flatMap (fun p =>
    if p.1 = r then [] else (p.2.windows.filter (fun w => cs.contains w.sliver)).map (fun w => (p.1, w)))

def windowsOn (s : State) (n : Nat) : List (Nat × RWindow) :=
  s.track.robots.flatMap (fun p => (p.2.windows.filter (fun w => decide (w.sliver = n))).map (fun w => (p.1, w)))

def dropUnentered (t : TrackRobot) : TrackRobot := { t with windows := t.windows.filter (fun w => w.entered) }

/-- What a change of the route leaves of the windows that are not entered: they are released (R206 case 3), or, while the
stop latch is set, kept without a place (R213). -/
def unenteredLeft (s : State) (t : TrackRobot) : List RWindow :=
  if latched s then (t.windows.filter (fun w => !w.entered)).map (fun w => { w with idx := none }) else []

/-- The k-th entered window in route order goes to the k-th entry, which has its sliver and direction (R203). -/
def tieWindows : List (Nat × Bool) → Nat → List RWindow → List RWindow
  | _, _, [] => []
  | [], k, w :: ws => { w with idx := none } :: tieWindows [] k ws
  | e :: es, k, w :: ws =>
    if e = (w.sliver, w.rev) then { w with idx := some k } :: tieWindows es (k + 1) ws
    else { w with idx := none } :: tieWindows (e :: es) k ws

/-! ### Route states -/

def routeNo : RouteState → Nat
  | .none => 0 | .moving => 2 | .done => 3 | .reroute => 4

/-- ROUTE_STATE as RESV_GET and ROUTE_SET report it: a moving route is WAITING while the last check found its robot
waiting on another (R214). -/
def routeStateNo (t : TrackRobot) : Nat :=
  if t.off then 5 else if t.state = .moving ∧ t.waitsOn ≠ [] then 1 else routeNo t.state

/-- EV_ROUTE_STATE of a robot, with its state as it now is. -/
def routeEvent (r cause : Nat) (s : State) : State :=
  let t := getTr s r
  raise 0x0402 (r + 256 * routeStateNo t + 4096 * cause) [wordOf t.routeId] .all s

/-- A route is cleared (ROUTE_SET OP 2, R466): windows that are not entered are released as far as R213 lets them,
entered ones keep no place. -/
def clearRoute (r cause : Nat) (s : State) : State :=
  let t := getTr s r
  if t.route.isNone then s
  else
    let entered := (t.windows.filter (fun w => w.entered)).map (fun w => { w with idx := none })
    routeEvent r cause (setTr r { t with
      windows := unenteredLeft s t ++ entered, route := none, state := .none, off := false,
      offCount := 0, limitIdx := none, oldRoute := none, failed := false } s)

/-- A route takes effect (R202, R203): the windows that are not entered are released as far as R213 lets them, the entered
ones tied to the new entries, and x is taken from the standing sliver; `old` is the route and origin on which x is still measured (R250). -/
def applyRoute (r : Nat) (x : Route) (cause : Nat) (old : Option (Route × Int × Nat)) (delta : Int) (s : State) : State :=
  let t := getTr s r
  let ws := tieWindows x.entries 0 (t.windows.filter (fun w => w.entered))
  let sp := spansOf s x
  let n := max 1 (ws.filter (fun w => w.idx.isSome)).length
  let (x', lat, lim) := match usableFix s r with
    | some f => match locate s (sp.take n) (f.e, f.n) with
      | some q => q
      | none => (t.x - delta, t.lateral, t.lateralMax)
    | none => (t.x - delta, t.lateral, t.lateralMax)
  let t1 := { t with windows := unenteredLeft s t ++ ws, route := some x, state := .moving, off := false, offCount := 0, oldRoute := old }
  let s1 := setTr r (if old.isSome then t1 else { t1 with x := x', lateral := lat, lateralMax := lim }) s
  if cause = 0 ∧ routeStateNo t = routeStateNo t1 then s1 else routeEvent r cause s1

/-! ### The deckle and blocked slivers -/

/-- The slivers of a graph whose corridor does not lie wholly in the permitted region of a deckle (R199). -/
def blockedSet (deckle : Tab Poly) (a : Graph) : List Nat :=
  let g := regionOf deckle
  (a.slivers.filter (fun p =>
    !corridorInside g (nodePt a p.2.start) (nodePt a p.2.end_) p.2.radius p.2.width)).map (fun p => p.1)

/-- EV_TRACK_BLOCKED where the count of blocked slivers is no longer n (R199). -/
def noteBlocked (n : Nat) (s : State) : State :=
  if s.track.blocked.length = n then s else raise 0x0401 s.track.blocked.length [] .all s

/-- The blocked set of the active graph, recomputed; the event when its count changes (R199). -/
def refreshBlocked (s : State) : State :=
  noteBlocked s.track.blocked.length
    { s with track := { s.track with blocked := blockedSet s.track.deckle s.track.active } }

/-! ### The graph commit (R193-R197) -/

/-- Two slivers conflict (R194). -/
def conflictOf (clearance : Nat) (x y : Sliver × List Pt) : Bool :=
  let k := x.1.width + y.1.width + 2 * clearance + 4
  decide (x.1.start = y.1.start) || decide (x.1.start = y.1.end_) || decide (x.1.end_ = y.1.start) ||
    decide (x.1.end_ = y.1.end_) || ratioLt (lineLine2 x.2 y.2) { num := k * k * geoU * geoU, den := 4 }

/-- The conflict table of a graph. -/
def conflictTable (g : Graph) : Tab (List Nat) :=
  let ls := g.slivers.map (fun p =>
    (p.1, (p.2, centreline (nodePt g p.2.start) (nodePt g p.2.end_) p.2.radius)))
  ls.map (fun p => (p.1, (ls.filter (fun q => decide (p.1 = q.1) || conflictOf g.clearance p.2 q.2)).map (fun q => q.1)))

/-- The first sliver of a staged graph that breaks R192: the status DETAIL, the sliver and the node at fault. -/
def sliverFault (g : Graph) : Option (Nat × Nat × Nat) :=
  g.slivers.findSome? (fun p =>
    let v := p.2
    let c2 := norm2 (subPt (nodePt g v.end_) (nodePt g v.start))
    let len := sliverLen (nodePt g v.start) (nodePt g v.end_) v.radius
    if !tabHas g.nodes v.start then some (2, p.1, v.start)
    else if !tabHas g.nodes v.end_ then some (2, p.1, v.end_)
    else if v.start = v.end_ then some (5, p.1, 0xFFFF)
    else if v.radius ≠ 0 ∧ 4 * v.radius.natAbs * v.radius.natAbs < c2 then some (3, p.1, 0xFFFF)
    else if len < 100 ∨ 1000000 < len then some (4, p.1, 0xFFFF)
    else none)

def maxConflicts (g : Graph) : Nat := g.conflicts.foldl (fun a p => max a p.2.length) 0

/-- Words 7 to 12 of TRACK_COMMIT's completion. -/
def commitWords (s : State) (g : Graph) (faultSliver faultNode duration : Nat) : List Word :=
  [wordOf s.track.commitId, wordOfFields [(g.nodes.length, 0), (g.slivers.length, 16)],
   wordOf (g.conflicts.foldl (fun a p => a + p.2.length) 0),
   wordOfFields [(maxConflicts g, 0), (s.track.blocked.length, 16)],
   wordOfFields [(faultSliver, 0), (faultNode, 16)], wordOf duration]

/-- A commit ends without a swap. -/
def failCommit (st : Status) (detail : Nat) (ws : List Word) (s : State) : State :=
  match s.track.commit with
  | some c =>
    let s1 := { s with track := { s.track with commit := none } }
    match c.req with
    | some r => complete r st detail ws s1
    | none => s1
  | none => s

/-- COMMIT_COMPUTE_DONE (R193-R197): the computation ends; a failure completes here, a success waits for the next
snapshot. The recomputation after boot or SOFT_RESET restores the table of the stored graph. -/
def execCommitComputeDone (dt : Nat) (s : State) : Host.Outcome State Fault Refusal :=
  let s1 := begin_ dt s
  .next (match s1.track.commit with
    | none => s1
    | some c =>
      if !powered s1 || c.computed.isSome then s1
      else if c.req.isNone then
        let a := s1.track.active
        { s1 with track := { s1.track with commit := none, active := { a with conflicts := conflictTable a } } }
      else
        let ms := (s1.up - c.startUp) / 1000000
        let g0 := { s1.track.staged with clearance := c.clearance, lens := [], conflicts := [] }
        match sliverFault g0 with
        | some (d, n, k) => failCommit .state d (commitWords s1 g0 n k ms) s1
        | none =>
          let lens := g0.slivers.map (fun p =>
            (p.1, sliverLen (nodePt g0 p.2.start) (nodePt g0 p.2.end_) p.2.radius))
          let g1 := { g0 with lens := lens }
          let g := { g1 with conflicts := conflictTable g1 }
          match g.conflicts.find? (fun p => decide (256 < p.2.length)) with
          | some p => failCommit .overflow 1 (commitWords s1 g p.1 0xFFFF ms) s1
          | none => { s1 with track := { s1.track with commit := some { c with computed := some g, duration := ms } } })

/-- The sliver, its attributes and its nodes are the same in both graphs. -/
def sameSliver (a b : Graph) (n : Nat) : Bool :=
  match tabFind a.slivers n, tabFind b.slivers n with
  | some x, some y =>
    decide (x = y) && decide (tabFind a.nodes x.start = tabFind b.nodes x.start) &&
      decide (tabFind a.nodes x.end_ = tabFind b.nodes x.end_)
  | _, _ => false

/-- Two windows overlap: each begins before the other ends, by their recorded times (R206, R208). -/
def windowsOverlap (a b : RWindow) : Bool := decide (a.from_ < b.until_) && decide (b.from_ < a.until_)

/-- Windows of different robots that overlap in time come to conflict under a table: their slivers do not conflict in the
active graph and do in the new one (R196). -/
def newConflict (s : State) (g : Graph) : Bool :=
  let ws := s.track.robots.flatMap (fun p => p.2.windows.map (fun w => (p.1, w)))
  ws.any (fun p => ws.any (fun q => decide (p.1 < q.1) && windowsOverlap p.2 q.2 &&
    !(conflictSet s p.2.sliver).contains q.2.sliver &&
    (tabGet g.conflicts p.2.sliver [p.2.sliver]).contains q.2.sliver))

/-- The swap of a computed commit at a snapshot (R193, R196, R466); the answer names the robots whose
routes it cleared. -/
def swapGraph (s : State) : State × List Nat :=
  match s.track.commit with
  | none => (s, [])
  | some c => match c.computed with
    | none => (s, [])
    | some g =>
      let a := s.track.active
      let named := s.track.robots.flatMap (fun p =>
        (match p.2.route with
          | some x => x.entries.map (fun e => e.1)
          | none => []) ++ p.2.windows.map (fun w => w.sliver))
      let bad := if anySpindleActive s then (sortNat named).find? (fun n => !sameSliver a g n) else none
      match bad with
      | some n => (failCommit .state 1 (commitWords s g n 0xFFFF c.duration) s, [])
      | none =>
        if anySpindleActive s && newConflict s g then
          (failCommit .state 6 (commitWords s g 0xFFFF 0xFFFF c.duration) s, [])
        else
          let hit := (s.track.robots.filter (fun p => match p.2.route with
            | some x => x.entries.any (fun e => !sameSliver a g e.1)
            | none => false)).map (fun p => p.1)
          let s1 := hit.foldl (fun b r => clearRoute r 6 b) s
          let keep := fun (x : TrackRobot) =>
            { x with windows := x.windows.filter (fun w => tabHas g.slivers w.sliver) }
          let s2 := { s1 with track := { s1.track with
            active := g, staged := g, commitId := (s1.track.commitId + 1) % 2 ^ 32, commit := none,
            robots := s1.track.robots.map (fun p => (p.1, keep p.2)) } }
          let s3 := refreshBlocked s2
          (match c.req with
            | some r => complete r .ok 0 (commitWords s3 g 0xFFFF 0xFFFF c.duration) s3
            | none => s3, hit)

/-- A different origin, or none, comes in force (R191): graphs, deckle, routes and windows are cleared. -/
def applyOrigin (o : Option Origin) (s : State) : State :=
  if s.track.origin = o then s
  else
    let rs := s.track.robots.map (fun p => p.1)
    let s1 := rs.foldl (fun a r => clearRoute r 0 a) s
    let empty := { Graph.empty with clearance := s.track.active.clearance }
    let commit := s1.track.commit.map (fun c => if c.computed.isSome then { c with computed := some { empty with clearance := c.clearance } } else c)
    moveOrigin s.track.origin o (refreshBlocked { s1 with track := { s1.track with
      origin := o, active := empty, staged := empty, deckle := [], commit := commit,
      robots := s1.track.robots.map (fun p => (p.1, { p.2 with windows := [] })) } })

/-! ### Progress at a snapshot (R205) -/

/-- The entries among which the projection searches: the entered slivers and the next one; where the robot holds no
entered window, the sliver it is on and the next one. -/
def searchRange (t : TrackRobot) (sp : List Span) : Nat × Nat :=
  match enteredIdx t with
  | [] => let c := curIdx sp t.x; (c, c + 1)
  | i :: r => (r.foldl min i, r.foldl max i + 1)

/-- One robot's progress, OFF_TRACK and DONE at a snapshot. -/
def progressRobot (r : Nat) (s : State) : State :=
  let t := getTr s r
  match t.route, usableFix s r with
  | some x, some f =>
    let base := match t.oldRoute with
      | some (o, _, _) => o
      | none => x
    let sp := spansOf s base
    let (lo, hi) := if t.oldRoute.isSome then let c := curIdx sp t.x; (c, c + 1) else searchRange t sp
    match locate s ((sp.drop lo).take (hi + 1 - lo)) (f.e, f.n) with
    | none => s
    | some (x', lat, half) =>
      let lim := half - t.prof.halfWidth * (geoU : Int)
      let beyond := decide (lim < lat)
      let t1 := { t with x := x', lateral := lat, lateralMax := lim, offCount := if beyond then t.offCount + 1 else 0 }
      if !t.off && beyond && decide (3 ≤ t1.offCount) then routeEvent r 4 (setTr r { t1 with off := true } s)
      else
        let s1 := if t.off && !beyond then routeEvent r 5 (setTr r { t1 with off := false } s) else setTr r t1 s
        let t2 := getTr s1 r
        if !t2.off && decide (t2.state = .moving) && t.oldRoute.isNone && decide (endDist x sp ≤ t2.x) then
          routeEvent r 1 (setTr r { t2 with state := .done } s1)
        else s1
  | _, _ => s

/-- x as the reservation phase uses it: on the robot's present route. -/
def progressOn (t : TrackRobot) : Int := match t.oldRoute with
  | some (_, d, _) => t.x - d
  | none => t.x

/-- How many entries of the route the progress enters and leaves: while it is measured on the old route, those of the
common prefix (R250). -/
def servedEntries (t : TrackRobot) (n : Nat) : Nat := match t.oldRoute with
  | some (_, _, k) => min n k
  | none => n

/-- BND input of a robot (R201). -/
def bndInput (g : Region) (r : Nat) (s : State) : Int :=
  let x := getRover s r
  let p := (getTr s r).prof
  match x.binding, x.tickFix with
  | some _, some f =>
    if f.status = 0 ∨ regionEmpty g then -2147483647
    else
      let reach := max p.footFront p.footRear
      sat32 (regionDistance g (f.e, f.n) - csqrt (reach * reach + p.halfWidth * p.halfWidth) - x.sigmaExt)
  | _, _ => -2147483647

/-! ### The reservation phase (R206-R215) -/

/-- The robot is at rest under a per-robot stop in force. -/
def restStopped (s : State) (r : Nat) : Bool := robotStopped s r && (getSpindle s r).atRest

/-- Windows whose sliver the robot's front has reached are entered. -/
def enterWindows (s : State) (p : Nat × TrackRobot) : TrackRobot :=
  let t := p.2
  match t.route, usableFix s p.1 with
  | some x, some _ =>
    let sp := spansOf s x
    let k := servedEntries t sp.length
    let hit := fun (w : RWindow) => match w.idx with
      | some i => decide (i < k) && (match sp[i]? with
        | some e => decide (e.d0 ≤ progressOn t + t.prof.footFront)
        | none => false)
      | none => false
    { t with windows := t.windows.map (fun w => { w with entered := w.entered || hit w }) }
  | _, _ => t

def marginMm (p : RobotProfile) : Nat := p.releaseMargin * 10

/-- Release case 1 of R206. -/
def passWindows (s : State) (p : Nat × TrackRobot) : TrackRobot :=
  let t := p.2
  match t.route, usableFix s p.1 with
  | some x, some _ =>
    if t.off then t
    else
      let sp := spansOf s x
      let k := servedEntries t sp.length
      let passed := fun (w : RWindow) => match w.idx with
        | some i => decide (i < k) && (match sp[i]? with
          | some e => decide (e.d1 + t.prof.footRear + marginMm t.prof ≤ progressOn t)
          | none => false)
        | none => false
      { t with windows := t.windows.filter (fun w => !passed w) }
  | _, _ => t

/-- The releases of a tick: case 1, and the stop rule of R213. -/
def releasePhase (s : State) : State :=
  let rs := s.track.robots.map (fun p => let t := enterWindows s p; (p.1, passWindows s (p.1, t)))
  let resting := (rs.map (fun p => p.1)).filter (restStopped s)
  let stopped := s.track.stopReleased.filter (robotStopped s)
  if latched s then
    { s with track := { s.track with
        robots := rs, wasLatched := true, stopReleased := stopped ++ resting.filter (fun r => !stopped.contains r) } }
  else
    let due := fun (r : Nat) => s.track.wasLatched || (resting.contains r && !stopped.contains r)
    { s with track := { s.track with
        robots := rs.map (fun p => (p.1, if due p.1 then dropUnentered p.2 else p.2)), wasLatched := false,
        stopReleased := stopped ++ resting.filter (fun r => !stopped.contains r) } }

/-- v_plan of a sliver (R207). -/
def vPlan (s : State) (n vSpin : Nat) : Nat :=
  max 100 (min (match sliverAt s n with
    | some v => v.vmax
    | none => 65535) vSpin)

/-- time_at of R207, less t_snapshot: over the route pieces between x and x + d; beyond the route's end the last sliver's
v_plan. -/
def timeOver (s : State) (sp : List Span) (vSpin : Nat) (x d : Int) : Nat :=
  if d ≤ 0 then 0
  else
    let piece := fun (a b : Int) (n : Nat) => if a < b then ceilDiv ((b - a).toNat * nsPerSec) (vPlan s n vSpin) else 0
    let tail := match sp.getLast? with
      | some e => piece (max x e.d1) (x + d) e.sliver
      | none => 0
    sp.foldl (fun a e => a + piece (max x e.d0) (min (x + d) e.d1) e.sliver) tail

/-- The earliest start from f of a window of a length that overlaps none of the given ones (R208). -/
def shiftWindow (len : Int) (ws : List (Int × Int)) : Nat → Int → Int
  | 0, f => f
  | n + 1, f =>
    match (ws.filter (fun w => decide (w.1 < f + len) && decide (f < w.2))).map (fun w => w.2) with
    | [] => f
    | u :: us => shiftWindow len ws n (us.foldl max u)

/-- The outcome of one request: the window's start, or a failure with the robots waited on (R208, R214). -/
inductive Placing
  | placed (from_ : Int)
  | failed (waits : List Nat)
  deriving DecidableEq, Repr

def placeWindow (s : State) (t r n : Nat) (f u : Int) : Placing :=
  let rv := rivals s r n
  let late := (rv.filter (fun p => isOverdue t p.2)).map (fun p => p.1)
  let here := windowsOn s n
  if !late.isEmpty then .failed late
  else if 8 ≤ here.length then .failed ((here.map (fun p => p.1)).filter (fun k => decide (k ≠ r)))
  else if s.track.blocked.contains n then .failed []
  else
    let f' := shiftWindow (u - f) (rv.map (fun p => ((p.2.from_ : Int), (p.2.until_ : Int)))) (rv.length + 1) f
    if 600 * (nsPerSec : Int) < f' - f then .failed [] else .placed f'

/-- Windows kept in route order; those without a place first. -/
def insertWindow (w : RWindow) : List RWindow → List RWindow
  | [] => [w]
  | v :: vs => match v.idx, w.idx with
    | some i, some j => if j < i then w :: v :: vs else v :: insertWindow w vs
    | _, _ => v :: insertWindow w vs

/-- The place of the next request: the first from the current sliver on for which the robot holds no window (R207). -/
def nextPlace (t : TrackRobot) (cur n : Nat) : Option Nat :=
  let held := t.windows.filterMap (fun w => w.idx)
  (List.range n).find? (fun i => decide (cur ≤ i) && !held.contains i)

/-- A robot's requests of a tick (R207): the answer is the state, and where they ended with a failure, whether it was the
first request, and the robots waited on. -/
def requestWindows (t r : Nat) : Nat → Int → Bool → State → State × Option (Bool × List Nat)
  | 0, _, _, s => (s, none)
  | n + 1, shift, first, s =>
    let x := getTr s r
    match x.route with
    | none => (s, none)
    | some rt =>
      let sp := spansOf s rt
      let p := progressOn x
      match nextPlace x (curIdx sp p) sp.length with
      | none => (s, none)
      | some i =>
        match sp[i]? with
        | none => (s, none)
        | some e =>
          if 32 ≤ x.windows.length ∨ (x.prof.lookahead * 100 : Nat) < e.d0 - p then (s, none)
          else
            let v := (getSpindle s r).live.vMax
            let g : Int := (x.prof.tGuard * 10000000 : Nat)
            let f : Int := (t : Int) + timeOver s sp v p (e.d0 - p - x.prof.footFront) - g + shift
            let u : Int := (t : Int) + timeOver s sp v p (e.d1 - p + x.prof.footRear + marginMm x.prof) + g + shift
            match placeWindow s t r e.sliver f u with
            | .failed ws => (s, some (first, ws))
            | .placed f' =>
              let w : RWindow :=
                { sliver := e.sliver, rev := e.rev, idx := some i, from_ := f'.toNat, until_ := (f' + (u - f)).toNat,
                  entered := decide (i = 0), live := false }
              requestWindows t r n (shift + (f' - f)) false (setTr r { x with windows := insertWindow w x.windows } s)

/-- The order of service (R209). -/
def servedBefore (a b : Nat × Nat × Nat) : Bool :=
  decide (b.1 < a.1) || (decide (a.1 = b.1) && (decide (a.2.1 < b.2.1) || (decide (a.2.1 = b.2.1) && decide (a.2.2 < b.2.2))))

def insertServed (x : Nat × Nat × Nat) : List (Nat × Nat × Nat) → List (Nat × Nat × Nat)
  | [] => [x]
  | y :: r => if servedBefore x y then x :: y :: r else y :: insertServed x r

/-- The grant phase (R207-R209): the robots whose requests failed, with what they wait on. -/
def grantPhase (t : Nat) (s : State) : State × List (Nat × Bool × List Nat) :=
  let asks := fun (p : Nat × TrackRobot) => p.2.route.isSome && decide (p.2.state ≠ .reroute)
  let s1 := { s with track := { s.track with robots := s.track.robots.map (fun p =>
    if asks p ∧ p.2.failed = false then (p.1, { p.2 with waitSince := s.tick.number }) else p) } }
  let order := (s1.track.robots.filter asks).foldr
    (fun p l => insertServed ((match p.2.route with
      | some x => x.prio
      | none => 0), p.2.waitSince, p.1) l) []
  order.foldl (fun a k =>
    let (s2, f) := requestWindows t k.2.2 33 0 true a.1
    let s3 := modTr k.2.2 (fun x => { x with failed := f.isSome }) s2
    (s3, match f with
      | some g => a.2 ++ [(k.2.2, g)]
      | none => a.2)) (s1, [])

/-- A window is live (R210). -/
def windowLive (s : State) (r : Nat) (w : RWindow) : Bool :=
  (w.entered || !s.track.blocked.contains w.sliver) &&
    !(rivals s r w.sliver).any (fun p => decide (p.2.until_ ≤ w.from_))

/-- How many places from i on hold live windows one after another. -/
def liveRun (ws : List RWindow) : Nat → Nat → Nat
  | 0, i => i
  | n + 1, i => if ws.any (fun w => decide (w.idx = some i) && w.live) then liveRun ws n (i + 1) else i

/-- One robot's grant limit and SEP input (R210, R211). -/
def limitRobot (s : State) (r : Nat) (t : TrackRobot) : TrackRobot :=
  match t.route with
  | none => { t with limitIdx := none, limitDist := 0, sepIn := 0 }
  | some x =>
    let sp := spansOf s x
    let p := progressOn t
    let cur := curIdx sp p
    let k := liveRun t.windows sp.length cur
    if k = cur then { t with limitIdx := none, limitDist := 0, sepIn := 0 }
    else
      let d := if k = sp.length then endDist x sp else (match sp[k - 1]? with
        | some e => e.d1
        | none => 0)
      let fixOk := match (getRover s r).tickFix with
        | some f => decide (f.status ≠ 0)
        | none => false
      { t with limitIdx := some (k - 1), limitDist := d,
               sepIn := if t.off || !fixOk then 0 else sat32 (d - p - t.prof.footFront) }

def limitPhase (s : State) : State :=
  let live := fun (p : Nat × TrackRobot) =>
    (p.1, { p.2 with windows := p.2.windows.map (fun w => { w with live := windowLive s p.1 w }) })
  let s1 := { s with track := { s.track with robots := s.track.robots.map live } }
  { s1 with track := { s1.track with robots := s1.track.robots.map (fun p => (p.1, limitRobot s1 p.1 p.2)) } }

/-- LIMIT_SLIVER, LIMIT_OFFSET and the entries of RESV (R212). -/
def resvContent (s : State) (r : Nat) : Nat × Nat × List (Nat × Bool × Nat) :=
  let t := getTr s r
  match t.route with
  | none => (0xFFFF, 0, [])
  | some x =>
    let sp := spansOf s x
    let cur := curIdx sp (progressOn t)
    let ws := t.windows.filter (fun w => match w.idx with
      | some i => decide (cur ≤ i)
      | none => false)
    let es := ws.map (fun w => (w.sliver, w.rev, w.until_))
    match t.limitIdx with
    | none => (0xFFFF, 0, es)
    | some i => match sp[i]? with
      | some e => (e.sliver, (offsetIn e t.limitDist).toNat, es)
      | none => (0xFFFF, 0, es)

/-! ### Wait-for check and deadlock (R214, R215) -/

/-- The robots that each robot waits on. -/
def waitEdges (s : State) (fails : List (Nat × Bool × List Nat)) : List (Nat × List Nat) :=
  s.track.robots.filterMap (fun p =>
    match p.2.windows.find? (fun w => !w.live) with
    | some w => some (p.1, ((rivals s p.1 w.sliver).filter (fun q => decide (q.2.until_ ≤ w.from_))).map (fun q => q.1))
    | none => match fails.find? (fun f => decide (f.1 = p.1)) with
      | some (_, first, ws) => if first then some (p.1, ws) else none
      | none => none)

def edgesFrom (es : List (Nat × List Nat)) (r : Nat) : List Nat :=
  match es.find? (fun e => decide (e.1 = r)) with
  | some e => e.2
  | none => []

/-- The robots reached from some robots in at most n steps. -/
def reachable (es : List (Nat × List Nat)) : Nat → List Nat → List Nat
  | 0, l => l
  | n + 1, l =>
    let l' := (l.flatMap (edgesFrom es)).foldl (fun a r => if a.contains r then a else a ++ [r]) l
    if l'.length = l.length then l else reachable es n l'

/-- The strongly connected groups of two or more robots, each ascending, by lowest member. -/
def deadlockGroups (es : List (Nat × List Nat)) : List (List Nat) :=
  let rs := es.map (fun e => e.1)
  let reach := fun (r : Nat) => reachable es (rs.length + 1) (edgesFrom es r)
  let group := fun (r : Nat) => rs.filter (fun q => (reach r).contains q && (reach q).contains r)
  (rs.filter (fun r => decide (2 ≤ (group r).length) && decide ((group r).head? = some r))).map group

/-- WAIT_SINCE of a robot: one whose last requests did not fail carries the present tick (R209). -/
def waitSinceOf (s : State) (r : Nat) : Nat := if (getTr s r).failed then (getTr s r).waitSince else s.tick.number

/-- The victim: lowest PRIO, then the latest WAIT_SINCE, then the highest robot. -/
def victimOf (s : State) (g : List Nat) : Nat :=
  let prio := fun (r : Nat) => match (getTr s r).route with
    | some x => x.prio
    | none => 0
  let worse := fun (a b : Nat) =>
    decide (prio a < prio b) || (decide (prio a = prio b) && (decide (waitSinceOf s b < waitSinceOf s a) ||
      (decide (waitSinceOf s a = waitSinceOf s b) && decide (b < a))))
  g.foldl (fun v r => if worse r v then r else v) (g.headD 0)

def deadlockEvent (v stage : Nat) (g : List Nat) (s : State) : State :=
  let m := g.foldl (fun a r => a + 2 ^ r) 0
  raise 0x0400 (v + 256 * stage) (words64 m ++ words64 (m / 2 ^ 64) ++ [wordOf s.tick.number]) .all s

/-- One deadlock found by a tick's check (R215). -/
def actDeadlock (prev : List Deadlock) (s : State) (g : List Nat) : State :=
  let before := (prev.find? (fun d => decide (d.members = g))).map (fun d => d.stage)
  let note := fun (n : Nat) (a : State) =>
    { a with track := { a.track with deadlocks := a.track.deadlocks ++ [{ members := g, stage := n }] } }
  let v := victimOf s g
  if before = some 2 then note 2 s
  else if latched s then (if before = some 0 then note 0 s else deadlockEvent v 0 g (note 0 s))
  else if before = some 1 then
    let t := getTr s v
    let s1 := setTr v { t with state := .reroute } (note 2 s)
    let s2 := { s1 with track := { s1.track with stage2 := cnt32 s1.track.stage2 } }
    let s3 :=
      if t.prof.autoReroute then
        { s2 with track := { s2.track with rerouteAsked := addOnce s2.track.rerouteAsked v } }
      else routeEvent v 3 s2
    deadlockEvent v 2 g s3
  else
    let s1 := modTr v (fun t => { dropUnentered t with waitSince := s.tick.number }) (note 1 s)
    deadlockEvent v 1 g { s1 with track := { s1.track with stage1 := cnt32 s1.track.stage1 } }

def deadlockPhase (fails : List (Nat × Bool × List Nat)) (s : State) : State :=
  let es := waitEdges s fails
  let s1 := { s with track := { s.track with
    robots := s.track.robots.map (fun p => (p.1, { p.2 with waitsOn := edgesFrom es p.1 })), deadlocks := [] } }
  (deadlockGroups es).foldl (actDeadlock s.track.deadlocks) s1

/-- The table of conflicts stands: no recomputation after boot or SOFT_RESET runs (R197). -/
def tableReady (s : State) : Bool := match s.track.commit with
  | some c => c.req.isSome
  | none => true

/-- The reservation phase of a tick whose snapshot was taken at device time t (R12, R206-R215). -/
def reservePhase (t : Nat) (s : State) : State :=
  let s1 := releasePhase s
  let (s2, fails) := if latched s1 || !tableReady s1 then (s1, []) else grantPhase t s1
  deadlockPhase fails (limitPhase s2)

/-! ### Route checks (R202, R203) -/

/-- A route that fails a check: the status DETAIL and the entry at fault. -/
abbrev RouteFail := Nat × Nat

/-- The checks on the entries, in order, from entry i on; `prev` is the node at which the entry before ends. -/
def checkEntries (s : State) (p : RobotProfile) : Nat → Option Nat → List (Nat × Bool) → Option RouteFail
  | _, _, [] => none
  | i, prev, (n, rev) :: r =>
    match sliverAt s n with
    | none => some (7, i)
    | some v =>
      let (a, b) := if rev then (v.end_, v.start) else (v.start, v.end_)
      if prev.isSome ∧ prev ≠ some a then some (1, i)
      else if v.dir = (if rev then 1 else 2) then some (2, i)
      else if !Nat.testBit v.classMask p.trackClass then some (3, i)
      else if v.width < 2 * p.halfWidth + 200 then some (4, i)
      else checkEntries s p (i + 1) (some b) r

/-- The slivers and directions of the windows the robot has entered, in route order. -/
def enteredEntries (t : TrackRobot) : List (Nat × Bool) :=
  (t.windows.filter (fun w => w.entered && w.idx.isSome)).map (fun w => (w.sliver, w.rev))

/-- The first entry at which a route does not begin with the entered slivers. -/
def prefixFault : Nat → List (Nat × Bool) → List (Nat × Bool) → Option Nat
  | _, [], _ => none
  | i, _ :: _, [] => some i
  | i, e :: es, f :: fs => if e = f then prefixFault (i + 1) es fs else some i

/-- The checks of R202 and R203 on a route for a robot. -/
def checkRoute (s : State) (r : Nat) (x : Route) : Option RouteFail :=
  let t := getTr s r
  let pre := if spinActive (getSpindle s r) then enteredEntries t else []
  match checkEntries s t.profSet 0 none x.entries with
  | some f => some f
  | none => match prefixFault 0 pre x.entries with
    | some i => some (6, i)
    | none => match usableFix s r with
      | none => some (5, 0)
      | some f => match locate s ((spansOf s x).take (max 1 pre.length)) (f.e, f.n) with
        | none => some (5, 0)
        | some (_, lat, half) => if half - t.profSet.halfWidth * (geoU : Int) < lat then some (5, 0) else none

/-- The route that the robot will have once the actions accepted so far have been applied. -/
def routeToCome (s : State) (r : Nat) : Option Route :=
  s.track.acts.foldl (fun x a => match a with
    | .routeSet k y => if k = r then some y else x
    | .reroute k y => if k = r then some y else x
    | .routeClear k => if k = r then none else x
    | .origin _ => none
    | _ => x) (getTr s r).route

def addTrackAct (a : TrackAct) (s : State) : State := { s with track := { s.track with acts := s.track.acts ++ [a] } }

/-! ### Commands (R216) -/

def needOrigin (s : State) : Except Fail Unit := need s.track.origin.isSome .notReady 0

def originWords (o : Option Origin) : List Word :=
  match o with
  | some x => 1 :: (wordsInt64 x.lat ++ wordsInt64 x.lon ++ [wordOfInt x.height])
  | none => [0, 0, 0, 0, 0, 0]

def trackOriginBody (r : Req) (s : State) : Res := do
  let op := fld (par r 0) 0 1
  need (onlyBits (par r 0) 3 && decide (op ≠ 3)) .badParam 0
  let o : Option Origin := if op = 1 then some { lat := spar64 r 1, lon := spar64 r 3, height := spar r 5 } else none
  need (op != 1 || betweenInt (spar64 r 1) (-90000000000) 90000000000) .range 1
  need (op != 1 || betweenInt (spar64 r 3) (-180000000000) 180000000000) .range 3
  if op = 0 ∨ o = s.track.originSet then return (s, .ok 0 (originWords s.track.originSet))
  need (!anySpindleActive s) .state 1
  let s1 := addTrackAct (.origin o) { s with track := { s.track with originSet := o, deckleSet := [] } }
  return (s1, .ok 0 (originWords o))

def descTrackOrigin : Desc :=
  Desc.formLen { Desc.std 0x400 [3, 8] 9 (fun r => decide (fld (par r 0) 0 1 = 0)) trackOriginBody with eff := true }
    (fun r => some (if fld (par r 0) 0 1 = 1 then 8 else 3))

/-- The lock of a running commit (R197); a command that waited for its time or its predecessor meets it when it runs. -/
def commitLock (_ : Req) (s : State) : Except Fail Unit := need s.track.commit.isNone .busy 0

/-- Record i of a load: its four words. -/
def record4 (r : Req) (i : Nat) : Word × Word × Word × Word :=
  (par r (1 + 4 * i), par r (2 + 4 * i), par r (3 + 4 * i), par r (4 + 4 * i))

def loadCount (r : Req) : Nat := fld (par r 0) 16 24
def loadFirst (r : Req) : Nat := fld (par r 0) 0 14

def stagedWords (s : State) : List Word :=
  [wordOfFields [(s.track.staged.nodes.length, 0), (s.track.staged.slivers.length, 16)],
   wordOf (natOfBool s.track.commit.isSome)]

/-- The staged graph emptied for a load with CLEAR. -/
def clearStaged (r : Req) (g : Graph) : Graph := if bitAt (par r 0) 15 then { g with nodes := [], slivers := [] } else g

/-- Loads one node record at an index. -/
def putNode (r : Req) (g : Graph) (i : Nat) : Graph :=
  let (a, b, c, d) := record4 r i
  let n := loadFirst r + i
  if bitAt d 0 then { g with nodes := tabSet g.nodes n { e := a.toInt, n := b.toInt, u := c.toInt } }
  else { g with nodes := tabDel g.nodes n }

/-- Loads one sliver record at an index. -/
def putSliver (r : Req) (g : Graph) (i : Nat) : Graph :=
  let (a, b, c, d) := record4 r i
  let n := loadFirst r + i
  let v : Sliver :=
    { start := fld a 0 13, end_ := fld a 16 29, radius := b.toInt, width := fld c 0 15, vmax := fld c 16 31,
      dir := fld d 0 1, classMask := fld d 8 15 }
  if bitAt a 31 then { g with slivers := tabSet g.slivers n v }
  else { g with slivers := tabDel g.slivers n }

def nodeOk (x : Word × Word × Word × Word) : Bool :=
  !bitAt x.2.2.2 0 || (betweenInt x.1.toInt (-30000000) 30000000 && betweenInt x.2.1.toInt (-30000000) 30000000 &&
    betweenInt x.2.2.1.toInt (-1000000) 1000000)

def sliverOk (m : Member) (x : Word × Word × Word × Word) : Bool :=
  let (a, _, c, d) := x
  !bitAt a 31 || (decide (fld a 0 13 < nNodes m) && decide (fld a 16 29 < nNodes m) && inRange (fld c 0 15) 500 20000 &&
    decide (1 ≤ fld c 16 31) && decide (fld d 8 15 ≠ 0))

def sliverBits (x : Word × Word × Word × Word) : Bool :=
  let (a, b, c, d) := x
  onlyBits a 0xBFFF3FFF && onlyBits d 0xFF03 && decide (fld d 0 1 ≠ 3) &&
    (bitAt a 31 || (decide (a = 0) && decide (b = 0) && decide (c = 0) && decide (d = 0)))

def loadBody (count : Nat) (p0Bits : Nat) (bitsOk ok : Word × Word × Word × Word → Bool) (put : Req → Graph → Nat → Graph)
    (r : Req) (s : State) : Res := do
  let n := loadCount r
  let ix := List.range n
  need (onlyBits (par r 0) p0Bits && (bitAt (par r 0) 15 || decide (n ≠ 0))) .badParam 0
  need (ix.all (fun i => bitsOk (record4 r i))) .badParam 0
  need (decide (n ≤ 256) && decide (loadFirst r + n ≤ count)) .range 0
  match ix.find? (fun i => !ok (record4 r i)) with
  | some i => failWith .range (0x8000 + i)
  | none =>
    needOrigin s
    commitLock r s
    let s1 := { s with track := { s.track with staged := ix.foldl (put r) (clearStaged r s.track.staged) } }
    return (s1, .ok 0 (stagedWords s1))

def loadDesc (op : Nat) (body : Req → State → Res) : Desc :=
  let lens := (List.range 512).map (fun n => 3 + 4 * n)
  Desc.formLen { Desc.std op lens 5 (fun _ => false) body with lock := commitLock }
    (fun r => some (3 + 4 * loadCount r))

def trackLoadNodesBody (r : Req) (s : State) : Res :=
  loadBody (nNodes s.member) 0x1FFBFFF (fun x => onlyBits x.2.2.2 1) nodeOk putNode r s

def descTrackLoadNodes : Desc := loadDesc 0x401 trackLoadNodesBody

def trackLoadSliversBody (r : Req) (s : State) : Res :=
  loadBody (nSlivers s.member) 0x1FFFFFF sliverBits (sliverOk s.member) putSliver r s

def descTrackLoadSlivers : Desc := loadDesc 0x402 trackLoadSliversBody

def trackCommitBody (r : Req) (s : State) : Res := do
  let c := fld (par r 0) 0 15
  need (onlyBits (par r 0) 0xFFFF) .badParam 0
  need (decide (c ≤ 5000)) .range 0
  needOrigin s
  commitLock r s
  return ({ s with track := { s.track with
    commit := some { req := some r, clearance := c, startUp := s.up, computed := none, duration := 0 } } }, .later false)

def descTrackCommit : Desc := { Desc.std 0x403 [3] 13 (fun _ => false) trackCommitBody with lock := commitLock }

/-- Word 3 of DECKLE_LOAD: the polygon as last written. -/
def polyWord (s : State) (i : Nat) : Word :=
  match tabFind s.track.deckleSet i with
  | some p => wordOfFields [(i, 0), (natOfBool p.keepOut, 12), (natOfBool p.en, 13), (p.verts.length, 16)]
  | none => wordOf i

def deckleWords (s : State) (i : Nat) : List Word :=
  [polyWord s i, wordOfFields [(s.track.blocked.length, 0), (natOfBool (regionEmpty (regionOf s.track.deckle)), 16),
    (s.track.deckleSet.length, 24)]]

def putPoly (i : Nat) (p : Option Poly) (t : Tab Poly) : Tab Poly := match p with
  | some x => tabSet t i x
  | none => tabDel t i

def deckleLoadBody (r : Req) (s : State) : Res := do
  let h := par r 0
  let i := fld h 0 5
  let op := fld h 8 9
  let nv := fld h 16 24
  let vs := (List.range nv).map (fun j => (spar r (1 + 2 * j), spar r (2 + 2 * j)))
  need (onlyBits h 0x1FF333F && (decide (op = 1) || (decide (nv = 0) && !bitAt h 12)) &&
    (decide (op = 1) || decide (op = 3) || !bitAt h 13)) .badParam 0
  need (op != 1 || inRange nv 3 256) .range 0
  match (if op = 1 then polyFault vs else none) with
  | some d => failWith .badParam d
  | none =>
    let flat := vs.flatMap (fun v => [v.1, v.2])
    match (flat.zip (List.range flat.length)).find? (fun p => !betweenInt p.1 (-30000000) 30000000) with
    | some p => failWith .range (1 + p.2)
    | none =>
      needOrigin s
      let old := tabFind s.track.deckleSet i
      need (op != 3 || old.isSome) .state 1
      let new : Option Poly := match op with
        | 1 => some { keepOut := bitAt h 12, en := bitAt h 13, verts := vs }
        | 2 => none
        | _ => old.map (fun p => { p with en := bitAt h 13 })
      if op = 0 then
        return (s, .ok 0 (deckleWords s i ++ (match old with
          | some p => p.verts.flatMap (fun v => [wordOfInt v.1, wordOfInt v.2])
          | none => [])))
      else
        let s1 := addTrackAct (.deckle i new) { s with track := { s.track with deckleSet := putPoly i new s.track.deckleSet } }
        return (s1, .ok 0 (deckleWords s1 i))

/-- LENGTH of the form that OP and NV name (R30); an NV out of range is found at check 9. -/
def deckleForm (r : Req) : Option Nat :=
  let n := fld (par r 0) 16 24
  if fld (par r 0) 8 9 = 1 then some (3 + 2 * n) else some 3

def descDeckleLoad : Desc :=
  Desc.formLen { Desc.std 0x404 ((List.range 512).map (fun n => 3 + 2 * n)) 517 (fun r => decide (fld (par r 0) 8 9 = 0))
      deckleLoadBody with eff := true }
    deckleForm

def windowWords (t : Nat) (w : RWindow) : List Word :=
  wordOfFields [(w.sliver, 0), (natOfBool w.rev, 16), (natOfBool w.live, 17), (natOfBool w.entered, 18),
    (natOfBool (isOverdue t w), 19)] :: (words64 w.from_ ++ words64 w.until_)

def insertFrom (x : Nat × RWindow) : List (Nat × RWindow) → List (Nat × RWindow)
  | [] => [x]
  | y :: r => if x.2.from_ ≤ y.2.from_ then x :: y :: r else y :: insertFrom x r

/-- RESV_GET mode 0: a robot's grant and its windows. -/
def resvRobotWords (n : Nat) (s : State) : List Word :=
  let t := getTr s n
  let (ls, lo, _) := resvContent s n
  let prio := match t.route with
    | some x => x.prio
    | none => 0
  let blocker := (sortNat t.waitsOn).headD 255
  [wordOfFields [(routeStateNo t, 0), (prio, 4), (t.windows.length, 8)],
    wordOfFields [(ls, 0), (blocker, 16)], wordOf lo, wordOfInt t.sepIn, wordOf (waitSinceOf s n)] ++
    t.windows.flatMap (windowWords s.now)

/-- RESV_GET mode 1: a sliver and the windows on it, by FROM. -/
def resvSliverWords (n : Nat) (s : State) : List Word :=
  let ws := (windowsOn s n).foldr insertFrom []
  let one := fun (p : Nat × RWindow) =>
    wordOfFields [(p.1, 0), (natOfBool p.2.live, 8), (natOfBool p.2.entered, 9), (natOfBool (isOverdue s.now p.2), 10)] ::
      (words64 p.2.from_ ++ words64 p.2.until_)
  let size := if (sliverAt s n).isSome then (conflictSet s n).length else 0
  [wordOfFields [(natOfBool (s.track.blocked.contains n), 0), (size, 16)], wordOf (lenAt s n), wordOf ws.length] ++
    ws.flatMap one

/-- RESV_GET mode 2: totals. -/
def resvTotalWords (s : State) : List Word :=
  let ws := s.track.robots.flatMap (fun p => p.2.windows)
  [wordOf (s.track.robots.filter (fun p => p.2.route.isSome)).length, wordOf ws.length,
    wordOf (ws.filter (isOverdue s.now)).length, wordOf s.track.stage1, wordOf s.track.stage2, wordOf s.track.commitId]

def resvGetBody (r : Req) (s : State) : Res := do
  let h := par r 0
  let mode := fld h 0 1
  let n := fld h 16 30
  need (onlyBits h 0x7FFF0003 && decide (mode ≠ 3) && (decide (mode ≠ 2) || decide (n = 0))) .badParam 0
  need (decide (mode = 2) || decide (n < (if mode = 0 then nRobots s.member else nSlivers s.member))) .range 0
  needOrigin s
  match mode with
  | 0 => return (s, .ok 0 (resvRobotWords n s))
  | 1 => return (s, .ok 0 (resvSliverWords n s))
  | _ => return (s, .ok 0 (resvTotalWords s))

def descResvGet : Desc := Desc.read 0x405 [3] (8 + 5 * 32) resvGetBody

/-- The windows that RESV_RELEASE names. -/
def scopeHits (scope n : Nat) (w : RWindow) : Bool :=
  match scope with
  | 0 => !w.entered
  | 1 => decide (w.sliver = n)
  | _ => true

def resvReleaseBody (r : Req) (s : State) : Res := do
  let h := par r 0
  let k := fld h 0 7
  let scope := fld h 8 9
  let n := fld h 16 30
  need (onlyBits h 0x7FFF03FF && decide (scope ≠ 3) && (decide (scope = 1) || decide (n = 0))) .badParam 0
  need (decide (k < nRobots s.member) && decide (n < nSlivers s.member)) .range 0
  needOrigin s
  let ws := (getTr s k).windows.filter (scopeHits scope n)
  need (!(decide (scope = 1) && ws.isEmpty)) .state 2
  let atRest := (getSpindle s k).atRest && (latched s || robotStopped s k)
  need (atRest || !(decide (scope = 2) || (decide (scope = 1) && ws.any (fun w => w.entered)))) .state 1
  return (addTrackAct (.release k scope n) s, .ok 0 [wordOf ws.length])

def descResvRelease : Desc := { Desc.std 0x406 [3] 4 (fun _ => false) resvReleaseBody with eff := true }

def profileWords (p : RobotProfile) : List Word :=
  [wordOfFields [(p.footFront, 0), (p.footRear, 16)],
   wordOfFields [(p.halfWidth, 0), (p.trackClass, 16), (natOfBool p.autoReroute, 19)],
   wordOfFields [(p.lookahead, 0), (p.tGuard, 16), (p.releaseMargin, 24)]]

def routeWords (s : State) (k : Nat) : List Word :=
  let t := getTr s k
  let prio := match routeToCome s k with
    | some x => x.prio
    | none => 0
  let left := match t.route with
    | some x => ((spansOf s x).filter (fun e => decide (progressOn t < e.d1))).length
    | none => 0
  wordOfFields [(routeStateNo t, 0), (prio, 4), (left, 16)] :: (profileWords t.profSet ++ [wordOf t.routeId])

/-- Entry i of ROUTE_SET OP 1. -/
def routeEntry (r : Req) (i : Nat) : Nat × Bool :=
  let w := par r (2 + i / 2)
  if i % 2 = 0 then (fld w 0 14, bitAt w 15) else (fld w 16 30, bitAt w 31)

def routeSetBody (r : Req) (s : State) : Res := do
  let h := par r 0
  let k := fld h 0 7
  let op := fld h 8 9
  let n := fld h 16 26
  let a := par r 1
  let b := par r 2
  let c := par r 3
  need (onlyBits h 0x7FF1FFF && (decide (op = 1) || (decide (n = 0) && decide (fld h 10 12 = 0))) &&
    (decide (op ≠ 1) || decide (n % 2 = 0) || decide (fld (par r (2 + n / 2)) 16 31 = 0)) &&
    (decide (op ≠ 3) || onlyBits b 0xFFFFF)) .badParam 0
  need (decide (k < nRobots s.member)) .range 0
  let es := if op = 1 then (List.range n).map (routeEntry r) else []
  let x : Route := { entries := es, endOffset := a.toNat, prio := fld h 10 12 }
  need (op != 1 || (inRange n 1 1024 && es.all (fun e => decide (e.1 < nSlivers s.member)))) .range 0
  need (op != 1 || (match es.getLast? with
    | some e => decide (a.toNat ≤ lenAt s e.1) || (sliverAt s e.1).isNone
    | none => true)) .range 1
  need (op != 3 || (decide (fld a 0 15 ≤ 20000) && decide (fld a 16 31 ≤ 20000))) .range 1
  need (op != 3 || inRange (fld b 0 15) 100 10000) .range 2
  need (op != 3 || inRange (fld c 0 15) 10 6000) .range 3
  needOrigin s
  need (tableReady s) .notReady 0
  match op with
  | 1 =>
    match checkRoute s k x with
    | some (d, i) => .error { status := .state, detail := d, words := [wordOf i] }
    | none =>
      let s1 := addTrackAct (.routeSet k x) (modTr k (fun t => { t with routeId := (t.routeId + 1) % 2 ^ 32 }) s)
      let tr := { s1.track with rerouteAsked := s1.track.rerouteAsked.filter (fun q => decide (q ≠ k)) }
      let s2 := { s1 with track := tr, task := { s1.task with acts := s1.task.acts ++ [.overridden k] } }
      return (s2, .ok 0 (routeWords s2 k))
  | 2 =>
    need (!spinActive (getSpindle s k)) .state 8
    let s1 := addTrackAct (.routeClear k) s
    let s2 := { s1 with task := { s1.task with acts := s1.task.acts ++ [.overridden k] } }
    return (s2, .ok 0 (routeWords s2 k))
  | 3 =>
    let p : RobotProfile :=
      { footFront := fld a 0 15, footRear := fld a 16 31, halfWidth := fld b 0 15, trackClass := fld b 16 18,
        autoReroute := bitAt b 19, lookahead := fld c 0 15, tGuard := fld c 16 23, releaseMargin := fld c 24 31 }
    let q := (getTr s k).profSet
    need ((routeToCome s k).isNone || (decide (p.halfWidth = q.halfWidth) && decide (p.trackClass = q.trackClass))) .state 9
    let s1 := modTr k (fun t => { t with profSet := p }) s
    return (s1, .ok 0 (routeWords s1 k))
  | _ => return (s, .ok 0 (routeWords s k))

def descRouteSet : Desc :=
  let lens := (List.range 1026).map (fun n => 3 + n)
  Desc.formLen { Desc.std 0x407 lens 8 (fun r => decide (fld (par r 0) 8 9 = 0)) routeSetBody with eff := true }
    (fun r => match fld (par r 0) 8 9 with
      | 1 => some (4 + (fld (par r 0) 16 26 + 1) / 2)
      | 3 => some 6
      | _ => some 3)

end Sys2Proof.Machine
end

