-- ==== Sys2Proof/Machine/Spindle.lean ====
section
/-! DEFINITION. The spindles (chapter 10): their states, streams and stepping, stops and re-plans, reference-post homing,
and the SPIN and POST commands. -/
set_option autoImplicit false

namespace Sys2Proof.Machine

def spinNo : SpinState → Nat
  | .idle => 0 | .run => 1 | .wait => 2 | .stopping => 3 | .hold => 4 | .homing => 5 | .manual => 6

def phaseNo : HomePhase → Nat
  | .none => 0 | .approach => 1 | .search => 2 | .backoff => 3 | .creep => 4 | .settle => 5

def resultNo : HomeResult → Nat
  | .done => 0 | .early => 1 | .chatter => 2 | .stuck => 3 | .missed => 4 | .stopped => 5 | .held => 6 | .manual => 7
  | .route => 8

/-! ### The route a spindle moves on -/

/-- The route on which progress and the commanded motion are measured: the old one during a diverged stop (R250). -/
def motionRoute (s : State) (r : Nat) : Option Route :=
  let t := getTr s r
  match t.oldRoute with
  | some (o, _, _) => some o
  | none => t.route

def motionSpans (s : State) (r : Nat) : List Span := match motionRoute s r with
  | some x => spansOf s x
  | none => []

/-- A route distance as the spindle counts it, and back: negated while it runs in reverse. -/
def turned (rev : Bool) (p : Int) : Int := if rev then -p else p

/-- The span that holds a point (R242): on a node the one that the motion enters there, at the target the one it leaves. -/
def spanAt (sp : List Span) (rev last : Bool) (d : Int) : Option Span :=
  let hit := fun (e : Span) =>
    if rev != last then decide (e.d0 < d) && decide (d ≤ e.d1) else decide (e.d0 ≤ d) && decide (d < e.d1)
  match sp.find? hit with
  | some e => some e
  | none => if d ≤ 0 then sp.head? else sp.getLast?

/-- The lowest VMAX of the slivers that a stretch of the motion touches (R236, R239). -/
def vmaxOver (s : State) (sp : List Span) (rev : Bool) (p p1 : Int) : Nat :=
  let hit := fun (e : Span) =>
    if rev then decide (e.d0 < -p) && decide (-p1 ≤ e.d1) else decide (e.d0 ≤ p1) && decide (p < e.d1)
  let es := match sp.filter hit with
    | [] => (spanAt sp rev false (turned rev p)).toList
    | l => l
  es.foldl (fun a e => match sliverAt s e.sliver with
    | some v => min a v.vmax
    | none => a) 65535

/-- The governed ceiling of a robot (R269), mm/s. -/
def ceilingOf (s : State) (r : Nat) : Nat := (getGov s r).ceiling.toNat

/-! ### State changes -/

/-- EV_SPIN_STATE. -/
def spinEvent (r cause : Nat) (s : State) : State :=
  let x := getSpindle s r
  raise 0x0601 (r + 256 * spinNo x.state) [wordOf cause, wordOf x.stream] .all s

/-- The spindle enters a state, reports it, and the following-error supervisor rests in IDLE, HOLD and MANUAL (R276). -/
def enterState (r : Nat) (st : SpinState) (cause : Nat) (s : State) : State :=
  if (getSpindle s r).state = st then s
  else
    let s1 := spinEvent r cause (modSpindle r (fun x => { x with state := st }) s)
    match st with
    | .idle | .hold | .manual => feRest r s1
    | _ => s1

/-- Nothing of the stream remains; the commanded motion stands where it was at the last snapshot. -/
def endStream (x : Spindle) : Spindle :=
  { x with starting := none, steps := [], cur := none, ahead := none, base := turned x.reverse x.cmdPos, flush := .none,
           fixed := none }

/-- Values that hold once the robot is at rest: lowered decelerations that waited (R249). -/
def restProfile (x : Spindle) : Spindle :=
  let l := { x.live with d1 := if x.d1Pending = 0 then x.live.d1 else x.d1Pending,
                         d2 := if x.d2Pending = 0 then x.live.d2 else x.d2Pending }
  { x with live := l, d1Pending := 0, d2Pending := 0, dTested := false, clamped := false }

/-! ### Homing results (R257, R258) -/

/-- FIX_AT_EDGE and RESIDUAL of a homing that succeeded. -/
def homeResidual (s : State) (h : Homing) : Int :=
  let p := tabGet s.spin.posts h.post { sliver := 0, rev := false, yard := false, input := 0, polarity := false,
                                        offset := 0, searchDist := 0, overrun := 0, backoff := 0, triggerOfs := 0,
                                        qualN := 8, chatK := 4, chatW := 100 }
  (p.offset : Int) - (h.fixAtEdge + (if p.rev then -p.triggerOfs else p.triggerOfs))

def homeWords (s : State) (h : Homing) (res : HomeResult) : List Word :=
  let ok := decide (res = .done)
  [wordOfFields [(resultNo res, 0), (phaseNo h.phase, 8)]] ++ words64 h.tSearch ++ words64 h.tCreep ++
    [wordOfInt (if ok then h.fixAtEdge else 0), wordOfInt (if ok then homeResidual s h else 0), wordOfInt h.cmdAtEdge]

/-- A homing ends: its result, event and completion (POST_HOME). -/
def endHoming (r : Nat) (res : HomeResult) (s : State) : State :=
  match (getSpindle s r).homing with
  | none => s
  | some h =>
    let ws := homeWords s h res
    let s1 := modSpindle r (fun x => { x with homing := none, lastResult := resultNo res }) s
    let s2 := raise 0x0603 (r + 256 * h.post) ws .all s1
    match res with
    | .done => complete h.req .ok 0 ws s2
    | .stopped => complete h.req .stopped 0 ws s2
    | _ => complete h.req .state (resultNo res) ws s2

/-! ### Stops (R246, R251, R252) -/

/-- The flush instant of a flush decided in the tick in progress (R245). -/
def flushInstant (s : State) : Nat := s.tick.nextAt + periodNs s

/-- A stream has begun, and its final step, where it was sent, falls due at or after the flush instant. -/
def flushable (s : State) (x : Spindle) : Bool := match x.cur with
  | some c => !(c.last && decide (c.due < flushInstant s))
  | none => false

/-- A controlled stop: the spindle goes to STOPPING and at rest to `after`; a stream that still moves at the flush instant
is flushed. -/
def orderStop (r : Nat) (after : SpinState) (cause : Nat) (s : State) : State :=
  let x := getSpindle s r
  let flush := if flushable s x then FlushKind.stop else .none
  let kind := fun (y : Spindle) =>
    { y with after := after, afterCause := cause, orderedIn := s.tick.number, stopKind := .controlled, starting := none }
  if x.state = .stopping then
    if x.stopKind = .controlled ∧ x.afterCause ≠ 4 then modSpindle r (fun y => { y with after := after, afterCause := cause }) s
    else s
  else enterState r .stopping cause (modSpindle r (fun y => { kind y with flush := flush }) s)

/-- The result with which a stop ends a homing. -/
def stopResult (cause : Nat) : HomeResult := if cause = 0 then .held else .stopped

/-- A controlled stop ordered for a robot (R251), or a hold. -/
def controlledStop (r : Nat) (after : SpinState) (cause : Nat) (s : State) : State :=
  let x := getSpindle s r
  match x.state with
  | .idle | .manual => s
  | .homing => orderStop r after cause (endHoming r (stopResult cause) s)
  | .hold => if after = .hold then s else orderStop r after cause s
  | _ => orderStop r after cause s

/-- An immediate stop (R252): the stream ends at once; rest is judged from TELEM. -/
def immediateStop (r : Nat) (s : State) : State :=
  let x := getSpindle s r
  if x.state = .idle ∨ x.state = .manual ∨ (x.state = .stopping ∧ x.stopKind = .immediate) then s
  else
    let s1 := endHoming r .stopped s
    let put := fun (y : Spindle) =>
      { endStream y with after := .idle, afterCause := 4, orderedIn := s.tick.number, stopKind := .immediate,
                         slowTelem := 0, telemRest := false, atRest := false }
    enterState r .stopping 4 (modSpindle r put s1)

/-- A LOCAL report (R253): the stream ends with no final step and the spindle is MANUAL at once. -/
def localReport (r : Nat) (s : State) : State :=
  if (getSpindle s r).state = .manual then s
  else
    enterState r .manual 5
      (modSpindle r (fun y => { endStream y with stopKind := .none }) (endHoming r .manual s))

/-! ### Motion starts (R238) -/

/-- A new stream opens (R238): its STEP 0 falls due at the given time. -/
def openStream (r : Nat) (due : Nat) (transfer : Bool) (s : State) : State :=
  modSpindle r (fun x =>
    let y := { endStream x with base := x.cmdPos, d1Pending := 0, d2Pending := 0, dTested := false, clamped := false }
    { y with stream := (x.stream + 1) % 65536, live := x.due, starting := some (due, transfer), cur := none,
             short_ := false, shortTarget := none, stopKind := .none, reverse := false, atRest := false }) s

/-- The first instant of a stepping window (R14): due time of a STEP 0 produced in the tick in progress. -/
def windowStart (s : State) (lead : Nat) : Nat := s.tick.nextAt + lead * periodNs s

/-- A new stream of a homing's phase; BACKOFF runs backwards. -/
def openPhase (r : Nat) (ph : HomePhase) (s : State) : State :=
  let rev := decide (ph = .backoff)
  let s1 := openStream r (windowStart s (getSpindle s r).due.lead) false s
  modSpindle r (fun x => { x with
    reverse := rev, base := turned rev x.cmdPos,
    homing := x.homing.map (fun h => { h with
      phase := ph, stop := .none, paused := false, cleared := false, edgesFrom := s.now }) }) s1

/-! ### Contacts (R256) -/

/-- The contact that a post uses: a yard input, or an input of the robot. -/
def contactKey (p : Post) (r : Nat) : Nat := if p.yard then p.input else 256 + 16 * r + p.input

def samplePeriod : Nat := 100000

/-- The QUAL_N that a contact is judged by: of the post whose homing uses it, else of the first post defined on it. -/
def qualN (s : State) (key : Nat) : Nat :=
  let homing := s.spin.spindles.findSome? (fun q => match q.2.homing with
    | some h => match tabFind s.spin.posts h.post with
      | some p => if contactKey p q.1 = key then some p.qualN else none
      | none => none
    | none => none)
  let defined := s.spin.posts.findSome? (fun q =>
    if (if q.2.yard then decide (key = q.2.input) else decide (256 ≤ key ∧ key % 16 = q.2.input)) then some q.2.qualN
    else none)
  (homing.or defined).getD 8

/-- An edge at a sample instant. -/
def addEdge (t : Nat) (level : Bool) (c : Contact) : Contact :=
  if c.raw = level then c
  else
    let es := c.edges ++ [(t, level)]
    { c with raw := level, edges := es.drop (es.length - 40) }

/-- The qualified changes by an instant that a contact has not shown yet: edge time, qualification time, level. -/
def qualChanges (n t : Nat) (after : Nat) (level : Bool) : List (Nat × Bool) → List (Nat × Nat × Bool)
  | [] => []
  | (e, l) :: r =>
    let q := e + (n - 1) * samplePeriod
    let cut := match r with
      | (e2, _) :: _ => decide (e2 ≤ q)
      | [] => false
    if cut || decide (t < q) || decide (q ≤ after) || l == level then qualChanges n t after level r
    else (e, q, l) :: qualChanges n t after l r

/-- A contact is judged up to an instant; its qualified changes wait for the snapshot. -/
def judgeContact (t : Nat) (s : State) (key : Nat) : State :=
  let c := tabGet s.spin.contacts key Contact.init
  let put := fun (a : State) (x : Nat × Nat × Bool) =>
    let c := tabGet a.spin.contacts key Contact.init
    let q : QualEvent :=
      { owner := if key < 256 then 256 else (key - 256) / 16, contact := key % 16, level := x.2.2, edgeAt := x.1,
        qualAt := x.2.1 }
    let a1 := { a with spin := { a.spin with
      contacts := tabSet a.spin.contacts key { c with qual := x.2.2, edgeAt := x.1, qualAt := x.2.1 },
      quals := a.spin.quals ++ [q] } }
    laneSend 1 [2, q.owner, q.contact, natOfBool q.level, q.edgeAt, q.qualAt] a1
  (qualChanges (qualN s key) t c.qualAt c.qual c.edges).foldl put s

def judgeContacts (t : Nat) (s : State) : State :=
  (s.spin.contacts.map (fun p => p.1)).foldl (judgeContact t) s

/-- CONTACT_QUALIFIED (R256): the samples of a yard input (owner 256) at the last instants of the 100 us grid up to now,
or of a robot's contact; the contact is judged on them. -/
def execContactQualified (owner contact : Nat) (samples : List Bool) (dt : Nat) (s : State) :
    Host.Outcome State Fault Refusal :=
  if 15 < contact ∨ (owner ≠ 256 ∧ nRobots s.member ≤ owner) then .fault .noSuchUnit
  else
    let s1 := beginInput dt s
    if !powered s1 then .next s1
    else
      let key := if owner = 256 then contact else 256 + 16 * owner + contact
      let last := s1.now / samplePeriod * samplePeriod
      let at_ := samples.zip ((List.range samples.length).map (fun i => last - (samples.length - 1 - i) * samplePeriod))
      let c := at_.foldl (fun c x => addEdge x.2 x.1 c) (tabGet s1.spin.contacts key Contact.init)
      .next (judgeContact s1.now { s1 with spin := { s1.spin with contacts := tabSet s1.spin.contacts key c } } key)

/-! ### Route changes (R203, R250) -/

/-- The spindle's distances counted from a new origin, d further along. -/
def shiftSpindle (d : Int) (x : Spindle) : Spindle :=
  let k := turned x.reverse d
  let mv := fun (y : Step) => { y with p := y.p - k }
  { x with steps := x.steps.map mv, cur := x.cur.map mv, ahead := x.ahead.map mv, base := x.base - k,
           cmdPos := x.cmdPos - d, target := x.target - d, shortTarget := x.shortTarget.map (fun t => t - k),
           fixed := x.fixed.map (fun t => t - k) }

/-- The commanded motion of a spindle at an instant, in its own count. -/
def cmdMotion (x : Spindle) (t : Nat) : CmdMotion := motionAt x.base t (x.steps ++ x.ahead.toList)

/-- A new route takes effect for a robot (R203, R250). -/
def changeRoute (r : Nat) (x : Route) (cause : Nat) (s : State) : State :=
  let t := getTr s r
  let sp := getSpindle s r
  match t.route with
  | none => applyRoute r x cause none 0 s
  | some cur =>
    if sp.state = .idle then applyRoute r x cause none 0 s
    else
      let spans := spansOf s cur
      let ids := enteredIdx t
      let first := match ids with
        | [] => curIdx spans (progressOn t)
        | i :: is => is.foldl min i
      let last := ids.foldl max first
      let d0 := match spans[first]? with
        | some e => e.d0
        | none => 0
      let (base, before) := match t.oldRoute with
        | some (o, d, _) => (o, d)
        | none => (cur, 0)
      let delta := before + d0
      let stopAt := turned sp.reverse (cmdMotion sp (flushInstant s)).pos
      let reach := match sp.state with
        | .stopping => sp.fixed.getD stopAt
        | _ => stopAt
      let prefixEnd := match spans[last]? with
        | some e => before + e.d1
        | none => 0
      let moving := decide (sp.cur.isSome) && !(match sp.cur with
        | some c => c.last && decide (c.due ≤ s.now)
        | none => false) && (decide (sp.state = .run) || decide (sp.state = .stopping) || decide (sp.state = .homing))
      let must := ids.length
      if moving && decide (prefixEnd < reach) then
        let s1 := applyRoute r x cause (some (base, delta, must)) delta s
        if sp.state = .run then orderStop r .hold 6 s1
        else if sp.state = .homing then orderStop r .idle 7 (endHoming r .route s1)
        else s1
      else
        let s1 := modSpindle r (shiftSpindle delta) (applyRoute r x cause none delta s)
        match sp.state with
        | .run => modSpindle r (fun y => { y with flush := if moving ∧ flushable s y ∧ y.flush = .none then .route must else y.flush }) s1
        | .homing => orderStop r .idle 7 (endHoming r .route s1)
        | _ => s1

/-- At rest after a diverged stop everything is measured on the new route (R250). -/
def rejoinRoute (r : Nat) (s : State) : State :=
  let t := getTr s r
  match t.oldRoute with
  | some (_, d, _) =>
    progressRobot r (modSpindle r (shiftSpindle d) (setTr r { t with oldRoute := none, x := t.x - d } s))
  | none => s

/-! ### Actions at the snapshot (R17, R237) -/

/-- A profile comes in force (R237): V_MAX, A1, A2 and raised decelerations at once, lowered ones under R249, the rest at
the next motion start. -/
def applyProfile (p : Profile) (x : Spindle) : Spindle :=
  let l := { x.live with vMax := p.vMax, a1 := p.a1, a2 := p.a2, d1 := max x.live.d1 p.d1, d2 := max x.live.d2 p.d2 }
  let y := { x with
    due := p, live := l, d1Pending := if p.d1 < x.live.d1 then p.d1 else 0, d2Pending := if p.d2 < x.live.d2 then p.d2 else 0,
    dTested := false, clamped := x.clamped && (decide (p.d1 < x.live.d1) || decide (p.d2 < x.live.d2)) }
  if x.atRest then restProfile y else y

/-- A homing begins (R257): it ends as EARLY where its contact is active at the start. -/
def beginHoming (r : Nat) (h : Homing) (s : State) : State :=
  match tabFind s.spin.posts h.post with
  | none => s
  | some p =>
    let s1 := openStream r (windowStart s (getSpindle s r).due.lead) false s
    let s2 := modSpindle r (fun x => { x with homing := some { h with edgesFrom := s.now } }) s1
    let s3 := enterState r .homing 0 s2
    if (tabGet s.spin.contacts (contactKey p r) Contact.init).qual = p.polarity then
      orderStop r .idle 7 (endHoming r .early s3)
    else s3

/-- A motion start is still allowed when it acts (R45, R259). -/
def mayStart (s : State) (r : Nat) : Bool :=
  !motionStopped s && !robotStopped s r && (getTr s r).route.isSome && sessActive s r

def applySpinAct (s : State) (a : SpinAct) : State :=
  match a with
  | .profile r p => modSpindle r (applyProfile p) s
  | .start r transfer =>
    let st := (getSpindle s r).state
    if mayStart s r ∧ (st = .idle ∨ st = .hold ∨ st = .wait ∨ (transfer ∧ st = .manual)) then
      enterState r .run 0 (openStream r (windowStart s (getSpindle s r).due.lead) (transfer && decide (st = .manual)) s)
    else s
  | .hold r op => controlledStop r (if op = 0 then .hold else .idle) 0 s
  | .home r h =>
    let st := (getSpindle s r).state
    if mayStart s r ∧ (st = .idle ∨ st = .hold ∨ st = .wait) then beginHoming r h s
    else
      let ws := homeWords s h .stopped
      complete h.req .stopped 0 ws s
  | .manual r =>
    let st := (getSpindle s r).state
    if st = .run ∨ st = .wait then orderStop r .manual 0 s
    else if st = .manual then s
    else enterState r .manual 0 (modSpindle r (fun y => { endStream y with stopKind := .none }) (endHoming r .manual s))
  | .idle r => if (getSpindle s r).state = .manual then enterState r .idle 0 (modSpindle r endStream s) else s

/-- An action of the TRACK group at the snapshot (R17). -/
def applyTrackAct (s : State) (a : TrackAct) : State :=
  match a with
  | .origin o => applyOrigin o s
  | .deckle i p => refreshBlocked { s with track := { s.track with deckle := putPoly i p s.track.deckle } }
  | .release r scope n =>
    let drop := fun (t : TrackRobot) => { t with windows := t.windows.filter (fun w => !scopeHits scope n w) }
    let s1 := modTr r drop s
    if scope = 2 then clearRoute r 0 s1 else s1
  | .routeSet r x => changeRoute r x 0 s
  | .routeClear r => clearRoute r 0 s
  | .reroute r x => if (getTr s r).state = .reroute then changeRoute r x 2 s else s

/-- The actions accepted since the last snapshot, and robot profiles, come in force. -/
def applyMotionActs (s : State) : State :=
  let s1 := { s with track := { s.track with
    robots := s.track.robots.map (fun (p : Nat × TrackRobot) => (p.1, { p.2 with prof := p.2.profSet })) } }
  let s2 := s1.track.acts.foldl applyTrackAct { s1 with track := { s1.track with acts := [] } }
  s2.spin.acts.foldl applySpinAct { s2 with spin := { s2.spin with acts := [] } }

/-! ### The snapshot (R235, R243, R253, R257) -/

/-- The telemetry test of rest (R235). -/
def telemStill (x : Spindle) : Bool := x.telemRest || decide (3 ≤ x.slowTelem)

/-- The robot is at rest at a snapshot at device time t (R235), and since when. -/
def restNow (t : Nat) (x : Spindle) : Option Nat :=
  match x.state with
  | .idle | .wait | .hold => some (if x.atRest then x.restAt else t)
  | .manual => if telemStill x then some t else none
  | _ =>
    if x.state = .stopping ∧ x.stopKind = .immediate then (if telemStill x then some t else none)
    else if x.starting.isSome then none
    else match x.cur with
      | some c => if c.last && decide (c.due ≤ t) then some c.due else none
      | none => some t

/-- More than CHAT_K raw edges within CHAT_W (R257). -/
def chatters (k w : Nat) : List Nat → Bool
  | [] => false
  | t :: r => (match r[k - 1]? with
    | some u => decide (u - t ≤ w)
    | none => false) || chatters k w r

/-- A qualified active change of a homing's contact at this snapshot: its edge time. -/
def foundEdge (s : State) (key : Nat) (level : Bool) : Option Nat :=
  let own := fun (q : QualEvent) => decide ((if q.owner = 256 then q.contact else 256 + 16 * q.owner + q.contact) = key)
  (s.spin.quals.find? (fun q => own q && (q.level == level))).map (fun q => q.edgeAt)

/-- BACKOFF at a snapshot: has the contact qualified inactive, and has it then qualified active again (R257). -/
def backoffChanges (s : State) (key : Nat) (active cleared : Bool) : Bool × Bool :=
  let own := s.spin.quals.filter (fun q =>
    decide ((if q.owner = 256 then q.contact else 256 + 16 * q.owner + q.contact) = key))
  own.foldl (fun a q => if q.level == active then (a.1, a.2 || a.1) else (true, a.2)) (cleared, false)

/-- A homing is aborted with a controlled stop (R257). -/
def abortHoming (r : Nat) (res : HomeResult) (s : State) : State := orderStop r .idle 7 (endHoming r res s)

/-- FIX_AT_EDGE: the record of the tick fix at T, carried to the edge time, as an offset on the post's sliver (R258). -/
def fixAtEdge (s : State) (r n edge t : Nat) : Int :=
  let x := getRover s r
  match recordAt x t, sliverAt s n with
  | some f, some v =>
    let (g, _) := extrapolate x.cfg edge f
    let a := s.track.active
    (projectSliver (nodePt a v.start) (nodePt a v.end_) v.radius (lenAt s n) (g.e, g.n)).1
  | _, _ => 0

/-- The contact was found in SEARCH or CREEP: a controlled stop, then SETTLE (R257). -/
def contactFound (t r : Nat) (h : Homing) (p : Post) (edge : Nat) (s : State) : State :=
  let x := getSpindle s r
  let at_ := turned x.reverse (cmdMotion x edge).pos
  let off := match (motionSpans s r).getLast? with
    | some e => offsetIn e at_
    | none => 0
  let h1 := if h.phase = .creep then { h with tCreep := edge, cmdAtEdge := off, fixAtEdge := fixAtEdge s r p.sliver edge t }
    else { h with tSearch := edge }
  setSpindle r { x with homing := some { h1 with stop := .found, paused := false }, flush := .stop } s

/-- One homing at a snapshot at device time t: findings in their order, then the phases (R257, R258). -/
def homingSnap (t r : Nat) (s : State) : State :=
  let x := getSpindle s r
  match x.homing with
  | none => s
  | some h => match tabFind s.spin.posts h.post with
    | none => s
    | some p =>
      let key := contactKey p r
      let c := tabGet s.spin.contacts key Contact.init
      let on := foundEdge s key p.polarity
      let moving := decide (h.phase = HomePhase.approach) || decide (h.phase = HomePhase.search) || decide (h.phase = HomePhase.creep)
      let edges := (c.edges.map (fun e => e.1)).filter (fun e => decide (h.edgesFrom ≤ e))
      let early := match on with
        | some e => (decide (h.phase = HomePhase.approach) || decide (h.phase = HomePhase.search)) &&
            decide (turned x.reverse (cmdMotion x e).pos < h.startAt)
        | none => false
      let (cleared, again) := backoffChanges s key p.polarity h.cleared
      let ended := x.atRest && decide (h.stop = HomeStop.none) && !h.paused && decide (h.phase ≠ HomePhase.settle)
      let stuck := decide (h.phase = HomePhase.backoff) && (again || (ended && c.qual == p.polarity))
      if moving && (chatters p.chatK (p.chatW * 1000000) edges || c.crowded) then abortHoming r .chatter s
      else if early then abortHoming r .early s
      else if stuck then abortHoming r .stuck s
      else if moving && ended && on.isNone then abortHoming r .missed s
      else
        let h1 : Homing := { h with
          phase := if h.phase = HomePhase.approach ∧ h.startAt ≤ x.cmdPos then HomePhase.search else h.phase,
          cleared := if h.phase = HomePhase.backoff then cleared else h.cleared }
        let s1 := setSpindle r { x with homing := some h1 } s
        match on with
        | some e =>
          if moving && decide (h1.stop ≠ HomeStop.found) && decide (h1.phase ≠ HomePhase.approach) then contactFound t r h1 p e s1 else s1
        | none =>
          if x.atRest && decide (h1.stop = HomeStop.found) then
            setSpindle r { x with homing := some { h1 with
              phase := HomePhase.settle, stop := .none, settleAt := x.restAt, backTo := x.cmdPos - p.backoff,
              next := if h1.phase = HomePhase.creep then HomePhase.none else HomePhase.backoff } } s1
          else if x.atRest && decide (h1.stop = HomeStop.ceiling) then
            setSpindle r { x with homing := some { h1 with stop := .none, paused := true } } s1
          else if ended && decide (h1.phase = HomePhase.backoff) then
            setSpindle r { x with homing := some { h1 with phase := HomePhase.settle, settleAt := x.restAt, next := HomePhase.creep } } s1
          else if h1.phase = HomePhase.settle then
            let due := h1.settleAt + h1.settleMs * 1000000
            if h1.next = HomePhase.none then
              if due ≤ t then enterState r .idle 7 (endHoming r .done s1) else s1
            else if due ≤ windowStart s1 x.due.lead then openPhase r h1.next s1
            else s1
          else s1

/-- One spindle at a snapshot at device time t: commanded motion, rest, and what follows from it. -/
def spinSnap (t r : Nat) (s : State) : State :=
  let x := getSpindle s r
  if x.state = .manual then
    let spd := match (getLink s r).telem with
      | some m => m.speed.natAbs
      | none => 0
    setSpindle r { x with cmdPos := (getTr s r).x, cmdSpeed := spd, brakeDist := 0,
                          atRest := telemStill x, restAt := t, steps := [], reverse := false } s
  else
    let m := cmdMotion x t
    let keep := x.steps.zip (x.steps.tail.map (fun y => decide (y.due + nsPerSec ≤ t)) ++ [false])
    let rest := restNow t x
    let y := { x with
      steps := (keep.filter (fun p => !p.2)).map (fun p => p.1), cmdPos := turned x.reverse m.pos, cmdSpeed := m.speed,
      brakeDist := brakeDistOf x.live (m.speed * m.speed), atRest := rest.isSome, restAt := rest.getD x.restAt }
    let s1 := setSpindle r (if rest.isSome then restProfile y else y) s
    if rest.isNone then homingSnap t r s1
    else
      let s2 := rejoinRoute r s1
      match x.state with
      | .run =>
        let at_ := (getSpindle s2 r).cmdPos
        let end_ := match (getTr s2 r).route with
          | some rt => decide (endDist rt (spansOf s2 rt) ≤ at_)
          | none => true
        if end_ then enterState r .idle 1 s2
        else enterState r .wait 2 (modSpindle r (fun z => { z with waitCause := 2 }) s2)
      | .stopping =>
        if x.orderedIn = s.tick.number then s2
        else
          let s3 := modSpindle r (fun z => { z with stopKind := .none, fixed := none, waitCause := x.afterCause }) s2
          enterState r x.after x.afterCause s3
      | .homing => homingSnap t r s2
      | _ => s2

/-- Every spindle at the snapshot; the qualified contact changes have then been taken. -/
def spinSnapshot (t : Nat) (s : State) : State :=
  let s1 := (s.spin.spindles.map (fun p => p.1)).foldl (fun a r => spinSnap t r a) (judgeContacts t s)
  { s1 with spin := { s1.spin with
    quals := [], contacts := s1.spin.contacts.map (fun p => (p.1, { p.2 with crowded := false })) } }

/-! ### The stepping phase (R14, R238-R249) -/

/-- The target's goal, in the spindle's own count, before R248 (R239, R246, R257). -/
def goalOf (s : State) (r : Nat) (x : Spindle) : Int :=
  match x.fixed with
  | some f => f
  | none => match x.homing with
    | some h => if h.phase = .backoff then -h.backTo else h.endAt
    | none =>
      let t := getTr s r
      match t.route with
      | none => x.cmdPos
      | some rt =>
        let e := endDist rt (spansOf s rt)
        match t.limitIdx with
        | some _ => min e (t.limitDist - t.prof.footFront)
        | none => min e (progressOn t)

/-- The bounds of a spindle's steps from position p on, with the target given. -/
def boundsOf (s : State) (r : Nat) (x : Spindle) (target : Int) : Bounds :=
  let sp := motionSpans s r
  let lims := if x.reverse then sp.dropLast else sp.drop 1
  let pts := lims.filterMap (fun e => (sliverAt s e.sliver).map (fun v => (if x.reverse then -e.d1 else e.d0, v.vmax)))
  let top := min x.live.vMax (ceilingOf s r)
  match x.homing with
  | none =>
    { target := target, points := pts, stop := x.fixed.isSome, cap := fun p p1 => min top (vmaxOver s sp x.reverse p p1) }
  | some h =>
    let slow := fun (p1 : Int) => match h.phase with
      | .backoff | .creep => h.vCreep
      | _ => if h.startAt < p1 then h.vSearch else 65535
    { target := target, points := if h.phase = .approach then (h.startAt, h.vSearch) :: pts else pts,
      stop := x.fixed.isSome,
      cap := fun p p1 => min (slow p1) (min top (vmaxOver s sp x.reverse p p1)) }

/-- A set-point record of a step (R242). -/
def setPointOf (s : State) (r : Nat) (x : Spindle) (y : Step) : SetPoint :=
  let d := turned x.reverse y.p
  let base : SetPoint :=
    { step := y.num, due := y.due, e := 0, n := 0, speed := if y.last then 0 else min y.v 65535, heading := 0, sliver := 0,
      rest := y.last, stretch := y.stretched, homing := x.homing.isSome, last := y.last }
  match spanAt (motionSpans s r) x.reverse y.last d with
  | none => base
  | some e => match sliverAt s e.sliver with
    | none => { base with sliver := e.sliver }
    | some v =>
      let g := s.track.active
      let (p, a) := sliverPoint (nodePt g v.start) (nodePt g v.end_) v.radius (lenAt s e.sliver) (offsetIn e d)
      { base with e := roundQ p.1 geoU, n := roundQ p.2 geoU, sliver := e.sliver,
                  heading := (headingAngle a + (if e.rev != x.reverse then 32768 else 0)) % 65536 }

/-- A spindle at work in a tick, with the set-points it has made. -/
structure Producing where
  x : Spindle
  pts : List SetPoint
  deriving DecidableEq, Repr

/-- A step is sent. -/
def pushStep (s : State) (r : Nat) (y : Step) (w : Producing) : Producing :=
  { x := { w.x with cur := some y, steps := w.x.steps ++ [y], ahead := none, stretch := y.stretched,
                    stepsSent := (w.x.stepsSent + 1) % 2 ^ 32 },
    pts := w.pts ++ [setPointOf s r w.x y] }

/-- The target for the next step from p with squared speed v2 (R239): the goal, no nearer than p, or as R248 moved it. -/
def targetFrom (goal p : Int) (x : Spindle) : Int := max p (match x.shortTarget with
  | some t => max t goal
  | none => goal)

/-- The number of the step after this one, or after a starting state. -/
def stepAfter (c : Step) : Nat := if c.ghost then c.num else c.num + 1

/-- The next step, the target moved while it is missed (R248); the stop point of a controlled stop stands (R246). -/
def planStep (s : State) (r : Nat) (x : Spindle) (p : Int) (v2 q : Nat) : Nat → Int → NextStep × Int
  | 0, tg => (nextStep x.live (boundsOf s r x tg) p v2 q (periodNs s), tg)
  | n + 1, tg =>
    let y := nextStep x.live (boundsOf s r x tg) p v2 q (periodNs s)
    if y.missed && x.fixed.isNone then
      planStep s r x p v2 q n (max (tg + 1) (y.p1 + brakeDistOf x.live (braked2 x.live false v2 (y.p1 - p).toNat)))
    else (y, tg)

/-- A lowered D1 or D2 is tested at the first step it would govern (R249). -/
def testLower (s : State) (r : Nat) (goal p : Int) (v2 : Nat) (x : Spindle) : Spindle × Bool :=
  if x.dTested ∨ (x.d1Pending = 0 ∧ x.d2Pending = 0) then (x, false)
  else
    let l := (restProfile x).live
    if v2 ≤ brake2 l (boundsOf s r { x with live := l } (targetFrom goal p x)) p then
      ({ x with live := l, d1Pending := 0, d2Pending := 0 }, false)
    else ({ x with dTested := true, clamped := true }, true)

/-- Steps from the cursor on, as long as they fall due before `stop` or carry a number below `upTo` (R239-R241, R244,
R245); `q1` is the quantum of the first. The answer tells which events are due: target short by so much, clamped with so
much braking distance. -/
def runSteps (s : State) (r stop upTo : Nat) : Nat → Option Nat → Producing → Option Int × Option Nat →
    Producing × (Option Int × Option Nat)
  | 0, _, w, ev => (w, ev)
  | n + 1, q1, w, ev =>
    match w.x.cur with
    | none => (w, ev)
    | some c =>
      if c.last then (w, ev)
      else
        let goal := goalOf s r w.x
        let (x, hit) := testLower s r goal c.p c.v2 w.x
        let ev1 := if hit then (ev.1, some (brakeDistOf x.live c.v2)) else ev
        let tg0 := targetFrom goal c.p x
        let (y, tg) := planStep s r x c.p c.v2 (q1.getD x.live.q) 8 tg0
        let moved := decide (tg ≠ tg0)
        let ev2 := if moved ∧ x.short_ = false then (some (tg - goal), ev1.2) else ev1
        let x1 := { x with target := turned x.reverse tg, short_ := x.short_ || moved,
                           shortTarget := if moved then some tg else x.shortTarget }
        let last := decide (y.p1 = tg)
        let st : Step :=
          { num := stepAfter c, due := c.due + y.interval, p := y.p1, v := y.vn, v2 := y.n2, stretched := y.stretched,
            last := last, ghost := false, toward := none }
        if stop ≤ st.due ∧ upTo ≤ st.num then ({ w with x := { x1 with ahead := some st } }, ev2)
        else runSteps s r stop upTo n none (pushStep s r st { w with x := x1 }) ev2

/-- STEP 0 of a stream (R238). -/
def firstStep (s : State) (r : Nat) (x : Spindle) (due : Nat) (transfer : Bool) : Producing :=
  let t := getTr s r
  let p0 := turned x.reverse (progressOn t)
  let spd := match (getLink s r).telem with
    | some m => m.speed.natAbs
    | none => 0
  let t0 := s.tick.nextAt - periodNs s
  let p := if transfer then p0 + ((spd * (due - t0) + nsPerSec / 2) / nsPerSec : Nat) else p0
  let b := boundsOf s r x (max p (goalOf s r x))
  let v := if transfer then max x.live.vStart (min spd (min (b.cap p p) (isqrt (brake2 x.live b p)))) else x.live.vStart
  let pre : List Step := if transfer then
      [{ num := 0, due := t0, p := p0, v := spd, v2 := spd * spd, stretched := false, last := false, ghost := true,
         toward := none }]
    else []
  pushStep s r { num := 0, due := due, p := p, v := v, v2 := v * v, stretched := false, last := false, ghost := false, toward := none }
    { x := { x with starting := none, base := p0, steps := pre }, pts := [] }

/-- What a flush re-issues: the steps with numbers below `upTo`, and the quantum of the first (R245, R246). -/
structure FlushPlan where
  upTo : Nat
  q1 : Option Nat
  deriving DecidableEq, Repr

/-- The speed and due time of the step that the motion leads to at the flush instant; past the last step it goes on at its
speed. -/
def leadsTo (x : Spindle) (tf : Nat) (keep : List Step) : Option (Nat × Nat) :=
  match (x.steps ++ x.ahead.toList).find? (fun y => decide (tf ≤ y.due)) with
  | some y => some (y.v, y.due)
  | none => keep.getLast?.map (fun k => (k.v, tf))

/-- A flush re-plan from t_f = T(n+2) (R245, R246). A re-plan before STEP 0 falls due starts from it, for the robot has not
moved. -/
def flushSteps (s : State) (r : Nat) (w : Producing) : Producing × FlushPlan :=
  let x := w.x
  let tf := flushInstant s
  let m := cmdMotion x tf
  let sent := x.steps.filter (fun y => !y.ghost && decide (tf ≤ y.due))
  let next := match x.cur with
    | some c => stepAfter c
    | none => 0
  let first := (sent.head?.map (fun y => y.num)).getD next
  let upTo := (sent.getLast?.map (fun y => y.num + 1)).getD next
  let keep := x.steps.filter (fun y => decide (y.due < tf))
  let real := (keep.filter (fun y => !y.ghost)).getLast?
  let isStop := decide (x.flush = .stop)
  let x0 := { x with steps := keep, cur := none, ahead := none, flush := .none, flushes := (x.flushes + 1) % 2 ^ 32 }
  match (if isStop then none else sent.find? (fun y => decide (y.num = 0))) with
  | some y0 => (pushStep s r y0 { x := x0, pts := [] }, { upTo := upTo, q1 := none })
  | none =>
    let v2 := max 1 (m.speed * m.speed)
    let bd := brakeDistOf x.live v2
    let ghost : Step :=
      { num := first, due := tf, p := m.pos, v := m.speed, v2 := v2, stretched := false, last := false, ghost := true,
        toward := leadsTo x tf keep }
    let x1 := { x0 with
      steps := keep ++ [ghost], cur := some ghost,
      fixed := if isStop then some (m.up + bd) else x.fixed, shortTarget := if isStop then none else x.shortTarget }
    let w1 : Producing := { x := x1, pts := w.pts.filter (fun p => decide (p.step < first)) }
    if isStop && decide (bd = 0) then
      let least := match real with
        | some k => k.due + periodNs s / 64
        | none => tf
      let y : Step := { num := first, due := max tf least, p := m.up, v := max 1 m.speed, v2 := v2, stretched := false,
                        last := true, ghost := false, toward := none }
      (pushStep s r y w1, { upTo := first + 1, q1 := none })
    else
      let q := x.live.q
      let lastP := match real with
        | some k => k.p
        | none => m.pos
      let k := (m.pos - lastP).toNat / q + 1
      (w1, { upTo := upTo, q1 := some (lastP + (k * q : Nat) - m.pos).toNat })

/-- A spindle in WAIT resumes (R247). -/
def mayResume (s : State) (r : Nat) : Bool :=
  let x := getSpindle s r
  let t := getTr s r
  match t.route with
  | none => false
  | some rt =>
    let e := endDist rt (spansOf s rt)
    let g := goalOf s r { x with fixed := none, homing := none }
    let p := progressOn t
    decide (x.due.vStart ≤ ceilingOf s r) && (decide (p + x.due.q ≤ g) || (decide (g = e) && decide (p < g)))

/-- WAIT and paused homings resume on this tick's ceiling and grant. -/
def resumeSpindle (r : Nat) (s : State) : State :=
  let x := getSpindle s r
  match x.state with
  | .wait =>
    if mayResume s r then enterState r .run x.waitCause (openStream r (windowStart s x.due.lead) false s) else s
  | .homing => match x.homing with
    | some h => if h.paused && decide (x.due.vStart ≤ ceilingOf s r) then openPhase r h.phase s else s
    | none => s
  | _ => s

/-- A governed ceiling of 0 (R247). -/
def ceilingStop (r : Nat) (s : State) : State :=
  let x := getSpindle s r
  if ceilingOf s r = 0 ∧ flushable s x = true ∧ x.flush ≠ FlushKind.stop then
    match x.state with
    | .run => orderStop r .wait 3 s
    | .homing => match x.homing with
      | some h => if h.stop = .none then
          setSpindle r { x with flush := .stop, homing := some { h with stop := .ceiling } } s
        else s
      | none => s
    | _ => s
  else s

/-- The set-points of a tick as SETPOINT frames of at most 32, START and FLUSH on the first (R172, R173). -/
def setPointFrames (stream : Nat) (start flush : Bool) (pts : List SetPoint) : List FrameBody :=
  let cs := chunksOf 32 pts.length pts
  (cs.zip (List.range cs.length)).map (fun c =>
    .setpoint stream (start && decide (c.2 = 0)) (flush && decide (c.2 = 0)) ((c.1.head?.map (fun p => p.step)).getD 0) c.1)

/-- The steps that a spindle produces in a tick, what they come upon, and whether they begin with a flush. -/
def produceSteps (r : Nat) (w : Producing) (s : State) : Producing × (Option Int × Option Nat) × Bool :=
  let flushed := decide (w.x.flush ≠ .none) && flushable s w.x
  let (w1, plan) := if flushed then flushSteps s r w
    else (w, { upTo := 0, q1 := none })
  let stop := s.tick.nextAt + (1 + w1.x.live.lead) * periodNs s
  let (w2, ev) := runSteps s r stop plan.upTo 8192 plan.q1 w1 (none, none)
  (w2, ev, flushed)

/-- The spindle after its steps, with the events of what they came upon. -/
def noteSteps (r : Nat) (x : Spindle) (ev : Option Int × Option Nat) (s : State) : State :=
  let s1 := setSpindle r x s
  let s2 := match ev.2 with
    | some b => raise 0x0600 r [wordOfFields [(x.due.d1, 0), (x.due.d2, 16)], wordOf b] .all s1
    | none => s1
  match ev.1 with
  | some d => raise 0x0602 r [wordOfInt d] .all s2
  | none => s2

/-- The stepping phase of one spindle: the state and the frames it makes. -/
def stepSpindle (r : Nat) (s0 : State) : State × List FrameBody :=
  let s1 := resumeSpindle r s0
  let x1 := getSpindle s1 r
  if (x1.state ≠ .run ∧ x1.state ≠ .homing ∧ x1.state ≠ .stopping) ∨ x1.stopKind = .immediate then (s1, [])
  else
    let (w0, started) := match x1.starting with
      | some (due, transfer) => (firstStep s1 r x1 due transfer, true)
      | none => (({ x := x1, pts := [] } : Producing), false)
    let s2 := ceilingStop r (setSpindle r w0.x s1)
    let (w3, ev, flushed) := produceSteps r { w0 with x := getSpindle s2 r } s2
    (noteSteps r w3.x ev s2, setPointFrames w3.x.stream started flushed w3.pts)

/-- Spindle stepping for every robot (R12). -/
def stepPhase (s : State) : State × List (Nat × FrameBody) :=
  (s.spin.spindles.map (fun p => p.1)).foldl (fun a r =>
    let (s1, fs) := stepSpindle r a.1
    (s1, a.2 ++ fs.map (fun f => (r, f)))) (s, [])

/-! ### Commands (R259) -/

def addSpinAct (a : SpinAct) (s : State) : State := { s with spin := { s.spin with acts := s.spin.acts ++ [a] } }

/-- The state of a spindle once the actions accepted so far have been applied. -/
def stateToCome (s : State) (r : Nat) : SpinState :=
  s.spin.acts.foldl (fun st a => match a with
    | .start k _ => if k = r ∧ (st = .idle ∨ st = .hold ∨ st = .wait ∨ st = .manual) then .run else st
    | .home k _ => if k = r ∧ (st = .idle ∨ st = .hold ∨ st = .wait) then .homing else st
    | .hold k op =>
      if k = r ∧ st ≠ .idle ∧ st ≠ .manual ∧ (st ≠ .hold ∨ op = 1) then .stopping else st
    | .manual k => if k = r then (if st = .run ∨ st = .wait then .stopping else .manual) else st
    | .idle k => if k = r ∧ st = .manual then .idle else st
    | .profile _ _ => st) (getSpindle s r).state

/-- The refusals of a motion start (R259); `auto` is SPIN_MODE MODE 0. -/
def startRefusal (s : State) (r : Nat) (auto : Bool) : Except Fail Unit := do
  let t := getTr s r
  let l := getLink s r
  let st := stateToCome s r
  let transfer := auto && decide (st = .manual)
  need (t.route.isSome && decide (t.state ≠ .done) && decide (t.state ≠ .reroute) && !t.off) .state 1
  need (decide (st = .idle) || decide (st = .hold) || decide (st = .wait) || transfer) .state 2
  need ((usableFix s r).isSome && ((getSpindle s r).atRest || transfer)) .state 3
  need (sessActive s r && (match l.telem with
    | some m => m.sync
    | none => false)) .state 4
  need (match l.telem with
    | some m => decide (m.mode ≠ 3) && (auto || decide (m.mode ≠ 2))
    | none => false) .state 5

/-- The stop checks of a motion start (R45, R259). -/
def startStopped (s : State) (r : Nat) : Except Fail Unit := need (!motionStopped s && !robotStopped s r) .stopped 0

def profileWordsOf (p : Profile) : List Word :=
  [wordOfFields [(p.vStart, 0), (p.vStop, 16)], wordOfFields [(p.vKnee, 0), (p.vMax, 16)], wordOfFields [(p.a1, 0), (p.a2, 16)],
   wordOfFields [(p.d1, 0), (p.d2, 16)], wordOfFields [(p.q, 0), (p.lead, 16)]]

/-- Values wait for the next motion start (R237). -/
def profileWaits (x : Spindle) : Bool :=
  let a := x.live
  let b := x.due
  !(decide (a.vStart = b.vStart) && decide (a.vStop = b.vStop) && decide (a.vKnee = b.vKnee) &&
    decide (a.q = b.q) && decide (a.lead = b.lead))

def spinProfileWords (s : State) (r : Nat) : List Word :=
  let x := getSpindle s r
  wordOfFields [(spinNo x.state, 0), (natOfBool x.clamped, 4), (natOfBool (profileWaits x), 5)] :: profileWordsOf x.prof

def spinProfileSetBody (r : Req) (s : State) : Res := do
  let h := par r 0
  let k := fld h 0 7
  let read := bitAt h 8
  need (onlyBits h 0x1FF && (read || onlyBits (par r 5) 0xF01FF)) .badParam 0
  need (!(read && decide (k = 255))) .badParam 0
  let p : Profile :=
    { vStart := fld (par r 1) 0 15, vStop := fld (par r 1) 16 31, vKnee := fld (par r 2) 0 15, vMax := fld (par r 2) 16 31,
      a1 := fld (par r 3) 0 15, a2 := fld (par r 3) 16 31, d1 := fld (par r 4) 0 15, d2 := fld (par r 4) 16 31,
      q := fld (par r 5) 0 8, lead := fld (par r 5) 16 19 }
  need (read || (decide (p.vStart ≤ p.vKnee) && decide (p.vKnee ≤ p.vMax) && decide (p.vStop ≤ p.vKnee))) .badParam 1
  robotField s k true
  if read then
    needOrigin s
    return (s, .ok 0 (spinProfileWords s k))
  need (inRange p.vStart 10 5000 && inRange p.vStop 10 5000) .range 1
  need (decide (10 ≤ p.vMax)) .range 2
  need (inRange p.a1 100 20000 && inRange p.a2 100 20000) .range 3
  need (inRange p.d1 100 20000 && inRange p.d2 100 20000) .range 4
  need (inRange p.q 10 500 && inRange p.lead 1 8) .range 5
  needOrigin s
  let put := fun (a : State) (i : Nat) => addSpinAct (.profile i p) (modSpindle i (fun x => { x with prof := p }) a)
  let s1 := (robotsOf s k).foldl put s
  return (s1, .ok 0 (spinProfileWords s1 (if k = 255 then 0 else k)))

def descSpinProfileSet : Desc :=
  Desc.formLen { Desc.std 0x600 [3, 8] 9 (fun r => bitAt (par r 0) 8) spinProfileSetBody with eff := true }
    (readForm 8 3 8)

/-- Words 3 to 5 of SPIN_START_AT: the stream that opens, and the due time of its STEP 0. -/
def startWords (s : State) (k : Nat) : List Word :=
  let x := getSpindle s k
  wordOf ((x.stream + 1) % 65536) :: words64 (s.tick.nextAt + (1 + x.prof.lead) * periodNs s)

def spinStartAtBody (r : Req) (s : State) : Res := do
  let k := fld (par r 0) 0 7
  need (onlyBits (par r 0) 0xFF) .badParam 0
  robotField s k false
  needOrigin s
  startStopped s k
  startRefusal s k false
  return (addSpinAct (.start k false) s, .ok 0 (startWords s k))

def descSpinStartAt : Desc :=
  { Desc.std 0x601 [3] 6 (fun _ => false) spinStartAtBody with eff := true, cls := fun _ => .motion }

def spinHoldBody (r : Req) (s : State) : Res := do
  let h := par r 0
  let k := fld h 0 7
  let op := fld h 8 9
  need (onlyBits h 0x3FF && decide (op ≤ 1)) .badParam 0
  robotField s k true
  needOrigin s
  let hit := (robotsOf s k).filter (fun i =>
    let st := stateToCome s i
    decide (st ≠ .idle) && decide (st ≠ .manual))
  return (hit.foldl (fun a i => addSpinAct (.hold i op) a) s, .ok 0 [wordOf hit.length])

def descSpinHold : Desc :=
  { Desc.std 0x602 [3] 4 (fun _ => false) spinHoldBody with eff := true, cls := fun _ => .stop }

/-- Words 3 to 14 of SPIN_GET. -/
def spinGetWords (s : State) (k : Nat) : List Word :=
  let x := getSpindle s k
  let phase := match x.homing with
    | some h => phaseNo h.phase
    | none => 0
  let next := match x.starting, x.cur with
    | some _, _ => 0
    | none, some c => stepAfter c
    | none, none => 0
  let due := match x.starting, x.ahead with
    | some (d, _), _ => d
    | none, some y => y.due
    | none, none => 0
  [wordOfFields [(spinNo x.state, 0), (phase, 4), (natOfBool x.clamped, 7), (natOfBool x.stretch, 8),
      (natOfBool x.short_, 9), (x.stream, 16)], wordOf next] ++ words64 due ++
    [wordOfInt x.cmdPos, wordOfFields [(min x.cmdSpeed 65535, 0), (min (ceilingOf s k) 65535, 16)], wordOfInt x.target,
     wordOf x.brakeDist,
     wordOfFields [(x.d1Pending, 0), (x.d2Pending, 16)], wordOf x.stepsSent, wordOf x.flushes, wordOf x.lastResult]

def spinGetBody (r : Req) (s : State) : Res := do
  let k := fld (par r 0) 0 7
  need (onlyBits (par r 0) 0xFF) .badParam 0
  robotField s k false
  needOrigin s
  return (s, .ok 0 (spinGetWords s k))

def descSpinGet : Desc := Desc.read 0x603 [3] 15 spinGetBody

/-- Words 3 to 8 of POST_DEFINE. -/
def postWords (s : State) (n : Nat) : List Word :=
  wordOf n :: match tabFind s.spin.posts n with
    | some p =>
      [wordOfFields [(p.sliver, 0), (natOfBool p.rev, 15), (natOfBool p.yard, 16), (p.input, 17), (natOfBool p.polarity, 21)],
       wordOf p.offset, wordOfFields [(p.searchDist, 0), (p.overrun, 16)],
       wordOfFields [(p.backoff, 0), (uint 16 p.triggerOfs, 16)], wordOfFields [(p.qualN, 0), (p.chatK, 8), (p.chatW, 16)]]
    | none => [0, 0, 0, 0, 0]

/-- A homing uses the post, or is to begin on it. -/
def postInUse (s : State) (n : Nat) : Bool :=
  s.spin.spindles.any (fun p => match p.2.homing with
    | some h => decide (h.post = n)
    | none => false) ||
  s.spin.acts.any (fun a => match a with
    | .home _ h => decide (h.post = n)
    | _ => false)

def postDefineBody (r : Req) (s : State) : Res := do
  let h := par r 0
  let n := fld h 0 4
  let op := fld h 8 9
  need (onlyBits h 0x31F && decide (op ≠ 3) && (decide (op ≠ 1) || (onlyBits (par r 1) 0x3FFFFF && onlyBits (par r 5) 0xFFFF3F3F)))
    .badParam 0
  let p : Post :=
    { sliver := fld (par r 1) 0 14, rev := bitAt (par r 1) 15, yard := bitAt (par r 1) 16, input := fld (par r 1) 17 20,
      polarity := bitAt (par r 1) 21, offset := (par r 2).toNat, searchDist := fld (par r 3) 0 15,
      overrun := fld (par r 3) 16 31, backoff := fld (par r 4) 0 15, triggerOfs := sfld (par r 4) 16 31,
      qualN := fld (par r 5) 0 5, chatK := fld (par r 5) 8 13, chatW := fld (par r 5) 16 31 }
  let def_ := decide (op = 1)
  need (!def_ || decide (p.sliver < nSlivers s.member)) .range 1
  need (!def_ || !(sliverAt s p.sliver).isSome || decide (p.offset ≤ lenAt s p.sliver)) .range 2
  need (!def_ || (inRange p.searchDist 100 20000 && inRange p.overrun 10 5000 && (!(sliverAt s p.sliver).isSome ||
    (if p.rev then decide (p.overrun ≤ p.offset) else decide (p.offset + p.overrun ≤ lenAt s p.sliver))))) .range 3
  need (!def_ || inRange p.backoff 10 2000) .range 4
  need (!def_ || (inRange p.qualN 1 64 && inRange p.chatK 2 32 && inRange p.chatW 1 1000)) .range 5
  needOrigin s
  match op with
  | 0 => return (s, .ok 0 (postWords s n))
  | 1 =>
    match sliverAt s p.sliver with
    | none => failWith .state 1
    | some v =>
      need (decide (v.dir = 0)) .state 2
      need (!postInUse s n) .state 3
      let s1 := { s with spin := { s.spin with posts := tabSet s.spin.posts n p } }
      return (s1, .ok 0 (postWords s1 n))
  | _ =>
    need (!postInUse s n) .state 3
    let s1 := { s with spin := { s.spin with posts := tabDel s.spin.posts n } }
    return (s1, .ok 0 (postWords s1 n))

def descPostDefine : Desc :=
  Desc.formLen { Desc.std 0x604 [3, 8] 9 (fun r => decide (fld (par r 0) 8 9 = 0)) postDefineBody with eff := true }
    (fun r => some (if fld (par r 0) 8 9 = 1 then 8 else 3))

def postHomeBody (r : Req) (s : State) : Res := do
  let h := par r 0
  let k := fld h 0 7
  let n := fld h 8 12
  let vS := fld (par r 1) 0 15
  let vC := fld (par r 1) 16 31
  let settle := fld (par r 2) 0 15
  let pf := (getSpindle s k).prof
  need (onlyBits h 0x1FFF && onlyBits (par r 2) 0xFFFF) .badParam 0
  need (inRange vS pf.vStart pf.vMax && inRange vC pf.vStart vS) .badParam 2
  robotField s k false
  need (decide (settle ≤ 5000)) .range 2
  needOrigin s
  need (!postInUse s n) .busy 0
  startStopped s k
  startRefusal s k false
  match tabFind s.spin.posts n, (getTr s k).route with
  | some p, some rt =>
    let sp := spansOf s rt
    match sp.getLast? with
    | none => failWith .state 1
    | some e =>
      let at_ := if e.rev then e.d1 - p.offset else e.d0 + p.offset
      need (decide (e.sliver = p.sliver) && decide (e.rev = p.rev) && decide (at_ + p.overrun ≤ endDist rt sp)) .state 6
      need (decide (progressOn (getTr s k) < at_ - p.searchDist)) .state 7
      let hm : Homing :=
        { req := r, post := n, vSearch := vS, vCreep := vC, settleMs := settle, phase := .approach, next := .none,
          settleAt := 0, tSearch := 0, tCreep := 0, cmdAtEdge := 0, fixAtEdge := 0, edgesFrom := 0, cleared := false,
          stop := .none, paused := false, startAt := at_ - p.searchDist, endAt := at_ + p.overrun, backTo := 0 }
      return (addSpinAct (.home k hm) s, .later false)
  | none, _ => failWith .state 8
  | _, none => failWith .state 1

def descPostHome : Desc :=
  { Desc.std 0x605 [5] 15 (fun _ => false) postHomeBody with
    eff := true, cls := fun _ => .motion, lock := fun r s => need (!postInUse s (fld (par r 0) 8 12)) .busy 0 }

def spinModeBody (r : Req) (s : State) : Res := do
  let h := par r 0
  let k := fld h 0 7
  let mode := fld h 8 9
  need (onlyBits h 0x3FF && decide (mode ≠ 3)) .badParam 0
  robotField s k false
  needOrigin s
  let st := stateToCome s k
  match mode with
  | 0 =>
    startStopped s k
    startRefusal s k true
    return (addSpinAct (.start k true) s, .ok 0 [wordOf 1])
  | 1 =>
    if st = .manual then return (s, .ok 0 [wordOf (spinNo (getSpindle s k).state)])
    return (addSpinAct (.manual k) s, .ok 0 [wordOf (if st = .run ∨ st = .wait then 3 else 6)])
  | _ =>
    if st = .idle then return (s, .ok 0 [wordOf (spinNo (getSpindle s k).state)])
    need (decide (st = .manual) && (getSpindle s k).atRest) .state 2
    return (addSpinAct (.idle k) s, .ok 0 [0])

def descSpinMode : Desc :=
  { Desc.std 0x606 [3] 4 (fun _ => false) spinModeBody with
    eff := true, cls := fun r => if fld (par r 0) 8 9 = 0 then .motion else .other }

end Sys2Proof.Machine
end

