-- ==== Sys2Proof/Machine/Uzoza.lean ====
section
/-! DEFINITION. The Uzoza robot link (chapter 07): the checks of an uplink frame, sessions and keys, the robot table, and
the signing and sending of downlink frames. -/
set_option autoImplicit false

namespace Sys2Proof.Machine

/-! ### Frames as bytes -/

def byteAt (bs : List Byte) (i : Nat) : Nat := (bs.getD i 0).toNat

/-- The little-endian field of n bytes at an offset. -/
def bytesAt (bs : List Byte) (off n : Nat) : Nat := leNat ((bs.drop off).take n)

/-- A signed value in n bytes. -/
def leInt (i : Int) (n : Nat) : List Byte := leBytes (uint (8 * n) i) n

def sbytesAt (bs : List Byte) (off n : Nat) : Int :=
  let v : Int := (bytesAt bs off n : Nat)
  if v < 2 ^ (8 * n - 1) then v else v - 2 ^ (8 * n)

/-- The Uzoza header (24 bytes). -/
def uzHeader (kind robot : Nat) (rekey : Bool) (len epoch seq tick : Nat) : List Byte :=
  [1, BitVec.ofNat 8 kind, BitVec.ofNat 8 robot, BitVec.ofNat 8 (natOfBool rekey)] ++ leBytes len 2 ++ leBytes epoch 2 ++
    leBytes seq 8 ++ leBytes tick 4 ++ leBytes 0 4

/-- The session key (R180). -/
def sessionKey (root robot epoch : Nat) (rNonce mNonce : List Byte) : Nat :=
  leNat (cmac (keyBytes root)
    ([0x01, 0x55, 0x5A, 0x53, 0x31, 0x00, BitVec.ofNat 8 robot] ++ leBytes epoch 2 ++ rNonce ++ mNonce ++ [0x00, 0x80]))

/-! ### Sessions -/

def sessNo : SessState → Nat
  | .noKey => 0 | .keyed => 1 | .joining => 2 | .active => 3

/-- EV_UZOZA_SESSION. -/
def sessEvent (r cause : Nat) (s : State) : State :=
  raise 0x0E11 (r + 256 * sessNo (getLink s r).sess + 1024 * cause) [] .all s

/-- A session ends (R183): the robot-table entry is cleared with it (R328), and its spindle stops at the next snapshot
(R252). -/
def endSession (r cause : Nat) (s : State) : State :=
  let l := getLink s r
  if l.sess = .joining ∨ l.sess = .active then
    let l1 : Link :=
      { l with
        sess := if l.rootKey.isSome then .keyed else .noKey, addr := none, addrSnap := none, rekey := none, rekeyDue := false,
        ackPending := false, telem := none, telemIn := none, unacked := [], ackMax := 0, resvSent := none,
        window := Window.init, ended := true }
    let s1 := setLink r l1 s
    sessEvent r cause { s1 with uz := { s1.uz with waiting := s1.uz.waiting.filter (fun h => decide (h.robot ≠ r)) } }
  else if l.rootKey.isSome then s
  else setLink r { l with sess := .noKey } s

/-- A frame for the next assembly. -/
def awaitFrame (r : Nat) (body : FrameBody) (dest : Option RobotAddr) (s : State) : State :=
  { s with uz := { s.uz with waiting := s.uz.waiting ++ [{ port := 0, robot := r, tick := 0, body := body, dest := dest }] } }

/-- SESSION_TIMEOUT (R183). -/
def execSessionTimeout (r : Nat) (s : State) : Host.Outcome State Fault Refusal :=
  if nRobots s.member ≤ r then .fault .noSuchUnit
  else
    let l := getLink s r
    .next (if powered s && (decide (l.sess = .active) || decide (l.sess = .joining)) then
      endSession r 1 (beginUp (l.lastValid + s.uz.sessTimeout * 100000000) s)
    else begin_ 0 s)

/-! ### The robot table (R327) -/

/-- Every field of the entry is written; a change of port is reported. -/
def writeEntry (r seq : Nat) (a : RobotAddr) (s : State) : State :=
  let l := getLink s r
  let s1 := setLink r { l with addr := some a } s
  match l.addr with
  | some old =>
    if old.port = a.port then s1
    else
      let s2 := modLink r (fun l => { l with roams := cnt32 l.roams }) s1
      raise 0x0903 (r + 256 * a.port + 4096 * old.port) (words64 seq) .all s2
  | none => s1

/-! ### The checks of R176 -/

/-- Check 3: LENGTH matches the kind and lies within the frame received. -/
def uplinkLength (bs : List Byte) : Bool :=
  let n := bytesAt bs 4 2
  let fits := match byteAt bs 1 with
    | 0x41 => decide (n = 112)
    | 0x42 => inRange n 45 1444
    | 0x43 => (List.range 8).any (fun i => decide (n = 40 + 16 * (i + 1)))
    | 0x44 => decide (n = 64)
    | _ => false
  fits && decide (n ≤ bs.length)

/-- Check 6: the key that KEY_EPOCH names and that the robot may use. -/
def uplinkKey (l : Link) (bs : List Byte) : Option Nat :=
  let epoch := bytesAt bs 6 2
  if byteAt bs 1 = 0x44 then
    if byteAt bs 3 % 2 = 1 then (if l.sess = .active ∧ epoch = l.keyEpoch then some l.key else none)
    else if epoch = 0 then l.rootKey else none
  else if epoch = 0 then none
  else
    let new := match l.rekey with
      | some k => if epoch = k.newEpoch then k.newKey else none
      | none => none
    let old := match l.rekey with
      | some k => if k.acked then none else some l.key
      | none => some l.key
    if epoch = l.keyEpoch then old else new

/-- Check 7: the TAG verifies. -/
def tagOk (key : Nat) (bs : List Byte) : Bool :=
  let n := bytesAt bs 4 2 - 8
  decide ((bs.drop n).take 8 = cmacTag (keyBytes key) (bs.take n) 8)

/-- Checks 1 to 7 for a robot of the member. -/
def firstChecks (l : Link) (bs : List Byte) : Bool :=
  let sess := decide (l.sess = .active) || decide (l.sess = .joining) || decide (byteAt bs 1 = 0x44)
  decide (byteAt bs 0 % 16 = 1) && uplinkLength bs && sess && (match uplinkKey l bs with
    | some k => tagOk k bs
    | none => false)

/-- The replay rule (R177, R178): above the highest, or within the 64 below it and not seen. -/
def windowOk (w : Window) (seq : Nat) : Bool :=
  decide (w.highest < seq) || (decide (w.highest ≤ seq + 64) && !w.seen.contains seq)

def windowTake (w : Window) (seq : Nat) : Window :=
  let h := max w.highest seq
  { highest := h, seen := (seq :: w.seen).filter (fun x => decide (h ≤ x + 64)) }

/-! ### Payloads -/

def contactOk (bs : List Byte) (c : Nat) : Bool := decide (byteAt bs (64 + 12 * c) ≤ 15)

/-- Check 9: what the kinds ask of their payloads. -/
def kindChecks (bs : List Byte) : Bool :=
  match byteAt bs 1 with
  | 0x41 => decide (byteAt bs 34 ≤ 3) && decide (byteAt bs 54 ≤ 4) && (List.range (byteAt bs 54)).all (contactOk bs)
  | 0x42 => decide (bytesAt bs 34 2 + 44 = bytesAt bs 4 2)
  | 0x43 => decide (40 + 16 * byteAt bs 24 = bytesAt bs 4 2)
  | _ => true

def telemOf (bs : List Byte) : Telem :=
  let f := byteAt bs 35
  { tSample := bytesAt bs 24 8, stream := bytesAt bs 32 2, mode := byteAt bs 34, sync := Nat.testBit f 0,
    permit := Nat.testBit f 1, braking := Nat.testBit f 2, stopped := Nat.testBit f 3, goLost := Nat.testBit f 4,
    starved := Nat.testBit f 5, lateSp := Nat.testBit f 6, fault := Nat.testBit f 7, stepDone := bytesAt bs 36 4,
    queued := bytesAt bs 40 2, speed := sbytesAt bs 42 2, odo := bytesAt bs 44 4, ptpOffset := sbytesAt bs 48 4,
    faults := bytesAt bs 52 2, stopBad := byteAt bs 55 }

/-- The contact reports of a TELEM: T_EDGE, contact, level. -/
def contactReports (bs : List Byte) : List (Nat × Nat × Bool) :=
  (List.range (byteAt bs 54)).map (fun c =>
    (bytesAt bs (56 + 12 * c) 8, byteAt bs (64 + 12 * c), Nat.testBit (byteAt bs (65 + 12 * c)) 0))

/-- A contact edge reported by a robot, merged by T_EDGE (R187) and sampled on the grid of R256. -/
def takeEdge (r : Nat) (s : State) (e : Nat × Nat × Bool) : State :=
  let l := getLink s r
  if l.edges.contains (e.1, e.2.1) then s
  else
    let key := 256 + 16 * r + e.2.1
    let c := addEdge (ceilDiv e.1 samplePeriod * samplePeriod) e.2.2 (tabGet s.spin.contacts key Contact.init)
    let s1 := setLink r { l with edges := ((e.1, e.2.1) :: l.edges).take 64 } s
    { s1 with spin := { s1.spin with contacts := tabSet s1.spin.contacts key c } }

/-- A TELEM that carries four reports of one contact may leave edges out (R256). -/
def noteCrowd (r : Nat) (es : List (Nat × Nat × Bool)) (s : State) : State :=
  match es with
  | [a, b, c, d] =>
    if a.2.1 = b.2.1 ∧ b.2.1 = c.2.1 ∧ c.2.1 = d.2.1 then
      let key := 256 + 16 * r + a.2.1
      let x := tabGet s.spin.contacts key Contact.init
      { s with spin := { s.spin with contacts := tabSet s.spin.contacts key { x with crowded := true } } }
    else s
  | _ => s

def takeTelem (r : Nat) (bs : List Byte) (s : State) : State :=
  let t := telemOf bs
  let l := getLink s r
  let before := l.telemIn.or l.telem
  let lapse := match before with
    | some o => (o.permit && !t.permit) || (t.goLost && !o.goLost)
    | none => false
  let s1 := setLink r { l with telemIn := some t, ended := l.ended || lapse } s
  let still := fun (x : Spindle) =>
    { x with slowTelem := if t.speed.natAbs ≤ 10 then x.slowTelem + 1 else 0, telemRest := t.stopped && !t.braking }
  let es := contactReports bs
  noteCrowd r es (es.foldl (takeEdge r) (modSpindle r still s1))

/-- The RTCM 3 frames of a payload whose preamble, length and CRC-24Q hold (R176): their bodies. -/
def rtcmFrames : Nat → List Byte → List (List Byte)
  | 0, _ => []
  | n + 1, bs =>
    let k := (byteAt bs 1 % 4) * 256 + byteAt bs 2
    if bs.length < k + 6 then []
    else
      let good := decide (byteAt bs 0 = 0xD3) &&
        decide ((crc24q (bs.take (k + 3))).toNat = beNat ((bs.drop (k + 3)).take 3))
      let rest := rtcmFrames n (bs.drop (k + 6))
      if good then (bs.drop 3).take k :: rest else rest

def takeObs (r : Nat) (bs : List Byte) (s : State) : State :=
  let p := (bs.drop 36).take (bytesAt bs 34 2)
  rseFrame r (rtcmFrames p.length p) (roverHeard r s)

/-- One acknowledged frame: its ack latency (R188). -/
def ackOne (l : Link) (stamp seq : Nat) : Link :=
  match l.unacked.find? (fun p => decide (p.1 = seq)) with
  | some p => { l with unacked := l.unacked.filter (fun q => decide (q.1 ≠ seq)), ackMax := max l.ackMax (stamp - p.2) }
  | none => l

/-- An ACK (R188); the one that names the KEY of a join makes the session ACTIVE at the next snapshot, and one under the
new epoch completes a rekey (R181, R182). -/
def takeAck (r : Nat) (bs : List Byte) (s : State) : State :=
  let l := getLink s r
  let seqs := (List.range (byteAt bs 24)).map (fun a => bytesAt bs (32 + 16 * a) 8)
  let names := seqs.any (fun q => l.unacked.any (fun p => decide (p.1 = q)))
  let l1 := seqs.foldl (fun a q => ackOne a s.now q) l
  let l2 := if l.sess = .joining ∧ names then { l1 with ackPending := true } else l1
  let l3 := match l.rekey with
    | some k => if k.newKey.isSome ∧ bytesAt bs 6 2 = k.newEpoch then { l2 with rekey := some { k with acked := true } } else l2
    | none => l2
  setLink r l3 s

/-- What every valid uplink frame does: it is counted and forwarded to a standby with its ingress stamp (R393); `u` and `w`
are the times since power-on and the device time at which it came. -/
def noteValid (r : Nat) (f : Uplink) (u w : Nat) (s : State) : State :=
  laneSend 1 ([1, f.port, w] ++ f.bytes.map (fun b => b.toNat))
    (modLink r (fun l => { l with framesIn := cnt32 l.framesIn, lastValid := u }) s)

/-! ### JOIN (R181, R182) -/

def nextEpochNo (n : Nat) : Nat := if n = 0 ∨ 65535 ≤ n then 1 else n + 1

/-- What a JOIN that came at `u` since power-on and device time `w` declares. -/
def declare (bs : List Byte) (u w : Nat) (l : Link) : Link :=
  { l with
    qDepth := bytesAt bs 40 2, corrWanted := decide (byteAt bs 42 % 2 = 1), proto := byteAt bs 43,
    robotFw := bytesAt bs 44 4, lastJoin := w / nsPerSec, joinAt := some u }

/-- RESULT of a JOIN. -/
def joinResult (bs : List Byte) : Nat := if bytesAt bs 40 2 < 576 then 1 else if byteAt bs 43 ≠ 1 then 2 else 0

/-- A JOIN that the module answers, stamped as for `declare`. -/
def answerJoin (r : Nat) (f : Uplink) (u w : Nat) (s : State) : State :=
  let bs := f.bytes
  let seq := bytesAt bs 8 8
  let rekey := decide (byteAt bs 3 % 2 = 1)
  let here : RobotAddr := { f.src with port := f.port }
  let (n, s0) := drawFresh s
  let nonce := (Config.freshNonce n).toNat
  if rekey then
    if joinResult bs ≠ 0 then
      let again := fun (x : Rekey) => { x with joinSeq := none }
      awaitFrame r (.key true (joinResult bs) 0 0) (some here)
        (modLink r (fun l => { l with joinAt := some u, rekey := l.rekey.map again }) s)
    else
      let l := getLink s0 r
      let e := nextEpochNo l.keyEpoch
      let k := sessionKey (l.rootKey.getD 0) r e ((bs.drop 24).take 16) (leBytes nonce 16)
      let l1 := declare bs u w l
      let rk := l.rekey.map (fun x => { x with newKey := some k, newEpoch := e })
      awaitFrame r (.key true 0 nonce e) none (setLink r { l1 with rekey := rk } s0)
  else
    let s1 := if (getLink s0 r).sess = .active then endSession r 3 s0 else s0
    if joinResult bs ≠ 0 then
      sessEvent r 4 (awaitFrame r (.key false (joinResult bs) 0 0) (some here)
        (modLink r (fun l => { l with joinAt := some u }) s1))
    else
      let l := getLink s1 r
      let e := nextEpochNo l.lastEpoch
      let k := sessionKey (l.rootKey.getD 0) r e ((bs.drop 24).take 16) (leBytes nonce 16)
      let l1 : Link :=
        { declare bs u w l with
          sess := .joining, key := k, keyEpoch := e, lastEpoch := e, epochAt := s1.up, epochDown := 0,
          rekey := none, rekeyDue := false, rekeyFrom := 0, ackPending := false, telem := none, telemIn := none,
          unacked := [], ackMax := 0, resvSent := none, window := { highest := seq, seen := [seq] } }
      awaitFrame r (.key false 0 nonce e) none (sessEvent r 0 (writeEntry r seq here (setLink r l1 s1)))

/-- The rekey awaits its JOIN (R178). -/
def awaitsJoin (l : Link) : Bool := match l.rekey with
  | some k => k.newKey.isNone && k.joinSeq.isNone
  | none => false

/-- The JOIN that the rekey took. -/
def isRekeyJoin (l : Link) (seq : Nat) : Bool := match l.rekey with
  | some k => k.newKey.isNone && decide (k.joinSeq = some seq)
  | none => false

/-- A JOIN within 100 ms of the last one answered (R181). -/
def tooSoon (l : Link) (u : Nat) : Bool := match l.joinAt with
  | some t => decide (u < t + 100000000)
  | none => false

/-- A JOIN that passed checks 1 to 7, stamped as for `declare`. -/
def takeJoin (r : Nat) (f : Uplink) (u w : Nat) (s : State) : State :=
  let l := getLink s r
  let seq := bytesAt f.bytes 8 8
  let dup := modLink r (fun l => { l with dups := cnt32 l.dups }) s
  let open_ := decide (l.sess = .active) || decide (l.sess = .joining)
  if tooSoon l u then (if open_ && decide (seq = l.window.highest) then dup else s)
  else if byteAt f.bytes 3 % 2 = 0 ∨ isRekeyJoin l seq then answerJoin r f u w (noteValid r f u w s)
  else if seq = l.window.highest then dup
  else if windowOk l.window seq then setLink r { l with window := windowTake l.window seq } s
  else setLink r { l with replay := cnt32 l.replay } s

/-- The snapshot captures a JOIN (R10, R181): it is verified there, and acts there. -/
def captureJoin (s : State) (j : JoinIn) : State :=
  let r := byteAt j.frame.bytes 2
  let l := getLink s r
  if !firstChecks l j.frame.bytes then setLink r { l with authFail := cnt32 l.authFail } s
  else takeJoin r j.frame j.up j.now s

/-- The JOINs that came since the last snapshot, in the order they came. -/
def captureJoins (s : State) : State := s.uz.joins.foldl captureJoin { s with uz := { s.uz with joins := [] } }

/-! ### Uplink frames -/

/-- A frame that passed checks 1 to 7 and is no JOIN. -/
def takeFrame (r : Nat) (f : Uplink) (s : State) : State :=
  let bs := f.bytes
  let l := getLink s r
  let seq := bytesAt bs 8 8
  if seq = l.window.highest then setLink r { l with dups := cnt32 l.dups } s
  else if !windowOk l.window seq then setLink r { l with replay := cnt32 l.replay } s
  else
    let s1 := setLink r { l with window := windowTake l.window seq } s
    let s2 := if l.window.highest < seq then writeEntry r seq { f.src with port := f.port } s1 else s1
    if !kindChecks bs then modLink r (fun l => { l with badKind := cnt32 l.badKind }) s2
    else
      let s3 := noteValid r f s2.up s2.now s2
      match byteAt bs 1 with
      | 0x41 => takeTelem r bs s3
      | 0x42 => takeObs r bs s3
      | _ => takeAck r bs s3

/-- A JOIN comes. It waits for the snapshot (R10); a rekey JOIN that the rekey awaits starts the fresh window of its counter
at once, since the frames that follow it count on from it, and writes the robot-table entry unless it will be refused (R178,
R181). A second copy of it is counted (R178). -/
def joinArrives (r : Nat) (f : Uplink) (s : State) : State :=
  let l := getLink s r
  let seq := bytesAt f.bytes 8 8
  let rekey := decide (byteAt f.bytes 3 % 2 = 1)
  if rekey && firstChecks l f.bytes && isRekeyJoin l seq then setLink r { l with dups := cnt32 l.dups } s
  else
    let s1 := { s with uz := { s.uz with joins := s.uz.joins ++ [{ frame := f, up := s.up, now := s.now }] } }
    if rekey && firstChecks l f.bytes && awaitsJoin l && !tooSoon l s.up then
      let took := fun (x : Rekey) => { x with joinSeq := some seq }
      let s2 := setLink r { l with rekey := l.rekey.map took, window := { highest := seq, seen := [seq] } } s1
      if joinResult f.bytes = 0 then writeEntry r seq { f.src with port := f.port } s2 else s2
    else s1

/-- An uplink frame that the internal port received (R176). -/
def uplinkFrame (f : Uplink) (s : State) : State :=
  let r := byteAt f.bytes 2
  if nRobots s.member ≤ r then { s with uz := { s.uz with ffDiscards := cnt32 s.uz.ffDiscards } }
  else
    let l := getLink s r
    if byteAt f.bytes 1 = 0x44 then joinArrives r f s
    else if !firstChecks l f.bytes then setLink r { l with authFail := cnt32 l.authFail } s
    else takeFrame r f s

/-- Bytes of a frame on the wire with the FCS, in an encapsulation (R168): 0 Ethernet, 1 IPv6, 2 IPv4. -/
def wireLength (encap vid n : Nat) : Nat :=
  max 64 (n + 18 + [0, 48, 28, 0].getD encap 0 + (if vid = 0 then 0 else 4))

/-- The UDP port of Uzoza (R168). -/
def uzPort : Nat := 47008

/-- The port delivers an Uzoza frame to the internal port (R325): its encapsulation is the port's, and over UDP it is
addressed to port 47008 of an interface with the Uzoza service. -/
def uzCarriage (f : Uplink) (s : State) : State × Bool :=
  let c := (getPort s f.port).cfg
  if !portUp s f.port || netBlocked s || decide (s.pair.role = .arbitrating) then (s, false)
  else
    let kind := if f.udp.isNone then 0 else if f.src.ip6 then 1 else 2
    let s1 := countRx f.port (wireLength kind f.src.vid f.bytes.length) s
    match ingressVid f.port (if f.src.vid = 0 then none else some f.src.vid) s1 with
    | none => (dropFiltered f.port s1, false)
    | some vid =>
      let s2 := learn f.port f.src.mac vid s1
      let forUs := match f.udp with
        | some (ip, port) => decide (port = uzPort) && (match ifaceOf s2 vid f.src.ip6 ip with
          | some k => Nat.testBit (getIface s2 k).services 0
          | none => false)
        | none => true
      let right := decide (f.port < 8) && decide (kind = c.uzEncap) && (f.udp.isSome || decide (f.src.vid = c.uzVid))
      if !forUs then (dropFiltered f.port s2, false)
      else if right then (s2, true) else (modStat f.port (fun c => { c with uzWrong := cnt32 c.uzWrong }) s2, false)

/-- An uplink frame at a port. -/
def uplinkAt (f : Uplink) (dt : Nat) (s : State) : State :=
  let s1 := beginInput dt s
  if powered s1 && (decide (s1.sys.boot = .init) || decide (s1.sys.boot = .ready)) then
    let x := uzCarriage f s1
    if x.2 then uplinkFrame f x.1 else x.1
  else s1

/-- TELEM (R187). -/
def execTelem (f : Uplink) (dt : Nat) (s : State) : Host.Outcome State Fault Refusal :=
  if portExists s.member f.port then .next (uplinkAt f dt s) else .fault .noSuchUnit

/-- OBS (R136). -/
def execObs (f : Uplink) (dt : Nat) (s : State) : Host.Outcome State Fault Refusal :=
  if portExists s.member f.port then .next (uplinkAt f dt s) else .fault .noSuchUnit

/-- ACK (R188). -/
def execAck (f : Uplink) (dt : Nat) (s : State) : Host.Outcome State Fault Refusal :=
  if portExists s.member f.port then .next (uplinkAt f dt s) else .fault .noSuchUnit

/-- JOIN (R181). -/
def execJoin (f : Uplink) (dt : Nat) (s : State) : Host.Outcome State Fault Refusal :=
  if portExists s.member f.port then .next (uplinkAt f dt s) else .fault .noSuchUnit

/-! ### Rekeys (R182) -/

/-- A rekey is due: REKEY_H since the epoch began, or a counter of the epoch at 2^40: the robot's SEQ, or the tags made under
its key. -/
def rekeyIsDue (s : State) (l : Link) : Bool :=
  decide (l.sess = .active) && l.rekey.isNone && !l.rekeyDue &&
    (decide (max l.epochAt l.rekeyFrom + s.uz.rekeyH * 3600 * nsPerSec ≤ s.up) ||
      (decide (l.rekeyFrom ≤ l.epochAt) && (decide (2 ^ 40 ≤ l.window.highest) || decide (2 ^ 40 ≤ l.epochDown))))

/-- REKEY_DUE (R182): the rekey starts with the frames of the next tick that has room for it. -/
def execRekeyDue (r dt : Nat) (s : State) : Host.Outcome State Fault Refusal :=
  if nRobots s.member ≤ r then .fault .noSuchUnit
  else
    let s1 := begin_ dt s
    .next (if powered s1 && rekeyIsDue s1 (getLink s1 r) then modLink r (fun l => { l with rekeyDue := true }) s1 else s1)

/-- REKEY_ABANDON (R182). -/
def execRekeyAbandon (r : Nat) (s : State) : Host.Outcome State Fault Refusal :=
  if nRobots s.member ≤ r then .fault .noSuchUnit
  else .next (match (getLink s r).rekey with
    | some k =>
      if powered s && !k.acked then
        let s1 := beginUp (k.since + nsPerSec) s
        modLink r (fun l => { l with rekey := none, rekeyFrom := s1.up }) s1
      else begin_ 0 s
    | none => begin_ 0 s)

/-- At most 4 rekeys start in a tick, in ascending robot (R182). -/
def startRekeys (s : State) : State :=
  let due := (s.uz.robots.filter (fun p => p.2.rekeyDue && decide (p.2.sess = .active))).map (fun p => p.1)
  (due.take 4).foldl (fun a r =>
    let l := getLink a r
    let k : Rekey := { since := a.up, newKey := none, newEpoch := 0, joinSeq := none, acked := false }
    awaitFrame r (.key true 3 0 0) none (setLink r { l with rekeyDue := false, rekey := some k } a)) s

/-! ### The input snapshot -/

/-- One robot at the snapshot of tick n: sessions that became ACTIVE, rekeys completed, telemetry captured. -/
def captureLink (n : Nat) (s : State) (r : Nat) : State :=
  let l := getLink s r
  let s1 := if l.ackPending then sessEvent r 0 (setLink r { l with ackPending := false, sess := .active } s) else s
  let s2 := match l.rekey with
    | some k =>
      if k.acked then
        let l1 := getLink s1 r
        let l2 : Link :=
          { l1 with key := k.newKey.getD l1.key, keyEpoch := k.newEpoch, lastEpoch := k.newEpoch, epochAt := s1.up,
                    epochDown := 0, rekey := none, rekeyFrom := 0 }
        raise 0x0E10 (r + 512) [wordOf k.newEpoch] .all (setLink r l2 s1)
      else s1
    | none => s1
  modLink r (fun l => match l.telemIn with
    | some t => { l with telem := some t, telemTick := n, telemIn := none }
    | none => l) s2

/-- Every robot's link at the snapshot, and then the JOINs (R10); the robot table as it then stands is the one that beacons
go by (R328). -/
def captureLinks (s : State) : State :=
  let s1 := captureJoins ((s.uz.robots.map (fun p => p.1)).foldl (captureLink s.tick.number) s)
  { s1 with uz := { s1.uz with robots := s1.uz.robots.map (fun p => (p.1, { p.2 with addrSnap := p.2.addr })) } }

/-- Robots whose session ended or whose permission lapsed, and those that report LOCAL, act on their spindles
(R252, R253). -/
def actOnLinks (s : State) : State :=
  (s.uz.robots.map (fun p => p.1)).foldl (fun a r =>
    let l := getLink a r
    let b := if l.ended then immediateStop r (setLink r { l with ended := false } a) else a
    match l.telem with
    | some t => if t.mode = 2 ∧ l.telemTick = a.tick.number ∧ l.sess = .active then localReport r b else b
    | none => b) s

/-- The ack latency of a robot at a snapshot (R188): the largest since the last one, a frame not acknowledged counting with
its age. -/
def ackLatency (t : Nat) (l : Link) : Nat := l.unacked.foldl (fun a p => max a (t - p.2)) l.ackMax

/-- A robot is stale (R310). -/
def isStale (s : State) (r : Nat) : Bool :=
  let l := getLink s r
  let k := max 4 (ceilDiv 20 s.tick.period)
  match l.telem with
  | none => true
  | some _ =>
    if l.telemTick = s.tick.number ∧ l.sess = .active then false
    else decide (l.sess ≠ .active) || decide (k < (s.tick.number + 2 ^ 32 - l.telemTick) % 2 ^ 32)

/-! ### Downlink frames -/

/-- The next SEQ of the downlink counter (R177). -/
def takeSeq (s : State) : Nat × State := (s.uz.seq, { s with uz := { s.uz with seq := s.uz.seq + 1 } })

/-- Addresses of a broadcast (R168), their lowest byte first on the wire: ff:ff:ff:ff:ff:ff and 255.255.255.255, ff02::1 and
the MAC address of that group. -/
def macAll : Nat := 2 ^ 48 - 1

def ip4All : Nat := 2 ^ 32 - 1

def ip6All : Nat := 0x02FF + 2 ^ 120

def macGroup6 : Nat := 0x3333 + 2 ^ 40

/-- The frame in a port's encapsulation (0 Ethernet, 1 IPv6, 2 IPv4), to a robot or to all (R168). -/
def uzFrame (encap vid prio : Nat) (dst : Option RobotAddr) (bytes : List Byte) : TxFrame :=
  let head := fun (v6 : Bool) (all : Nat) =>
    ({ ip6 := v6, ip := (dst.map (fun a => a.ip)).getD all, srcPort := uzPort,
       dstPort := (dst.map (fun a => a.udp)).getD uzPort } : UdpHead)
  let mac := fun (all : Nat) => (dst.map (fun a => a.mac)).getD all
  match encap with
  | 0 => { prio := prio, vid := vid, etherType := 0x88B5, mac := mac macAll, udp := none, bytes := bytes }
  | 1 => { prio := prio, vid := vid, etherType := 0x86DD, mac := mac macGroup6, udp := some (head true ip6All), bytes := bytes }
  | _ => { prio := prio, vid := vid, etherType := 0x0800, mac := mac macAll, udp := some (head false ip4All), bytes := bytes }

/-- A frame goes out by a radio-head port. -/
def uzSend (port prio : Nat) (dst : Option RobotAddr) (bytes : List Byte) (s : State) : State :=
  let c := (getPort s port).cfg
  if netBlocked s || decide (c.uzEncap = 3) then s
  else
    enqueue port prio (wireLength c.uzEncap c.uzVid bytes.length) true
      (some (uzFrame c.uzEncap c.uzVid prio dst bytes)) s

/-- Tags have been made under the keys of robots: they count towards a rekey (R182). -/
def noteSigned (rs : List Nat) (s : State) : State :=
  rs.foldl (fun a r => modLink r (fun l => { l with epochDown := l.epochDown + 1 }) a) s

/-- KIND, priority (R169) and payload of a unicast frame. -/
def framePayload (s : State) : FrameBody → Nat × Nat × List Byte
  | .go .. => (1, 6, [])
  | .setpoint stream start flush first pts =>
    (3, 5, leBytes stream 2 ++ [BitVec.ofNat 8 pts.length, BitVec.ofNat 8 (natOfBool start + 2 * natOfBool flush)] ++
      leBytes first 4 ++ pts.flatMap (fun p =>
        leBytes p.due 8 ++ leInt p.e 4 ++ leInt p.n 4 ++ leBytes p.speed 2 ++ leBytes p.heading 2 ++ leBytes p.sliver 2 ++
          leBytes (flagBits [p.rest, p.stretch, p.homing, p.last]) 2))
  | .resv sliver offset es =>
    (4, 5, leBytes sliver 2 ++ leBytes es.length 2 ++ leBytes offset 4 ++ es.flatMap (fun e =>
      leBytes e.1 2 ++ leBytes (natOfBool e.2.1) 2 ++ leBytes e.2.2 8))
  | .task slot op tag node action early late data =>
    (5, 5, leBytes slot 2 ++ [BitVec.ofNat 8 op, 0] ++ leBytes tag 4 ++ leBytes node 2 ++ leBytes action 2 ++
      leBytes early 8 ++ leBytes late 8 ++ (data ++ List.replicate 32 0).take 32)
  | .corr epoch part parts rtcm =>
    (6, 4, leBytes epoch 8 ++ [BitVec.ofNat 8 part, BitVec.ofNat 8 parts] ++ leBytes rtcm.length 2 ++ rtcm)
  | .key _ result nonce epoch =>
    (7, 5, leBytes nonce 16 ++ leBytes epoch 2 ++ [BitVec.ofNat 8 result, BitVec.ofNat 8 s.stop.cfg.goTimeout] ++
      leBytes s.uz.dueGrace 4 ++ leBytes (s.uz.sessTimeout * 100) 2 ++ leBytes 0 6)

/-- A unicast frame with its trailing TAG. -/
def uniFrame (kind robot : Nat) (rekey : Bool) (epoch seq tick key : Nat) (payload : List Byte) : List Byte :=
  let b := uzHeader kind robot rekey (24 + payload.length + 8) epoch seq tick ++ payload
  b ++ cmacTag (keyBytes key) b 8

/-- The key and KEY_EPOCH that a unicast frame is signed under at its release, and where it goes (R465). -/
def signUnder (s : State) (h : Held) : Option (Nat × Nat × RobotAddr) :=
  let l := getLink s h.robot
  match h.body, h.dest with
  | .key _ _ _ _, some d => l.rootKey.map (fun k => (k, 0, d))
  | b, _ =>
    if l.sess = .joining ∨ l.sess = .active then
      l.addr.bind (fun a => match b with
        | .key true 0 _ e => (match l.rekey with
          | some k => if k.newEpoch = e then k.newKey.map (fun x => (x, e, a)) else none
          | none => none)
        | _ => some (l.key, l.keyEpoch, a))
    else none

/-- Frames that the robot acknowledges. -/
def wantsAck : FrameBody → Bool
  | .setpoint .. | .resv .. | .task .. => true
  | .key _ result _ _ => decide (result = 0)
  | _ => false

/-- A unicast frame is released: signed and sent, or discarded unsigned (R465). SETPOINT frames need the key-valid line
(R15). -/
def releaseUnicast (s : State) (h : Held) : State :=
  let gated := match h.body with
    | .setpoint .. => !keyValid s
    | _ => false
  match signUnder s h with
  | some (k, e, a) =>
    if gated then s
    else
      let (seq, s1) := takeSeq s
      let (kind, prio, pay) := framePayload s1 h.body
      let rekey := match h.body with
        | .key x _ _ _ => x
        | _ => false
      let s2 := modLink h.robot (fun l =>
        { l with epochDown := l.epochDown + 1,
                 unacked := if wantsAck h.body then l.unacked ++ [(seq, s1.now)] else l.unacked }) s1
      uzSend a.port prio (some a) (uniFrame kind h.robot rekey e seq h.tick k pay) s2
  | none => s

/-- An entry of a broadcast GO or STOP with its TAG (R170). -/
def taggedEntry (s : State) (head : List Byte) (r flags : Nat) : List Byte :=
  let b := [BitVec.ofNat 8 r, BitVec.ofNat 8 flags]
  b ++ cmacTag (keyBytes (getLink s r).key) (head ++ b) 8

/-- A broadcast GO or STOP: header, bytes 24-39, entries. -/
def broadcast (s : State) (kind seq tick : Nat) (pay : List Byte) (entries : List (Nat × Nat)) : List Byte :=
  let head := uzHeader kind 0xFF false (40 + 10 * entries.length) 0 seq tick ++ pay
  head ++ entries.flatMap (fun e => taggedEntry s head e.1 e.2)

/-- EXPIRY of a beacon: the release time plus GO_TIMEOUT ticks (R171, R308). -/
def goExpiry (timeout : Nat) (s : State) : Nat := s.tick.boundary + s.tick.offset * 1000 + timeout * periodNs s

/-- A GO beacon as it is released (R171, R288): entries whose session has ended are left out, and per-robot stops in force
now show. It is not signed while the key-valid line is closed. -/
def releaseGo (s : State) (h : Held) : State :=
  match h.body with
  | .go tick period timeout es =>
    if !keyValid s then s
    else
      let live := (es.filter (fun e => sessActive s e.1)).map (fun e =>
        (e.1, if robotStopped s e.1 then 2 else natOfBool e.2.1 + 2 * natOfBool e.2.2))
      let pay := leBytes (goExpiry timeout s) 8 ++
        [BitVec.ofNat 8 period, BitVec.ofNat 8 timeout, BitVec.ofNat 8 live.length, 0] ++
        leBytes s.tick.offset 2 ++ leBytes 0 2
      let (seq, s1) := takeSeq s
      let s2 := noteSigned (live.map (fun e => e.1)) (uzSend h.port 6 none (broadcast s1 1 seq tick pay live) s1)
      { s2 with uz := { s2.uz with
          lastBeacons := s2.uz.lastBeacons ++ [h],
          granted := s2.uz.granted ++ (live.filter (fun e => decide (e.2 = 1))).map (fun e => e.1) } }
  | _ => s

/-- The payload of a STOP frame. -/
def stopPayload (b : Burst) (n : Nat) : List Byte :=
  leBytes b.stopTime 8 ++ [BitVec.ofNat 8 b.cause, BitVec.ofNat 8 b.next, BitVec.ofNat 8 n, 0] ++ leBytes 0 4

/-- The burst after one frame: 100 frames, 1 ms apart. -/
def burstNext (b : Burst) : Option Burst :=
  if 99 ≤ b.next then none else some { b with next := b.next + 1, nextAt := b.nextAt + 1000000 }

/-- The next frame of the fleet's burst: on every radio-head port, with the entries it was built with (R172). -/
def fleetBurst (b : Burst) (s : State) : State :=
  let (seq, s1) := takeSeq s
  let bytes := broadcast s1 2 seq b.tick (stopPayload b b.entries.length) (b.entries.map (fun r => (r, 0)))
  let s2 := (List.range (nRh s1.member)).foldl (fun a p => uzSend p 7 none bytes a) s1
  noteSigned b.entries { s2 with stop := { s2.stop with burst := burstNext b } }

/-- The next frame of a robot's burst: unicast, N = 0. -/
def robotBurst (r : Nat) (x : RobotStop) (b : Burst) (s : State) : State :=
  let done := setRobotStop r { x with burst := burstNext b } s
  let l := getLink s r
  match l.addr with
  | some a =>
    let (seq, s1) := takeSeq done
    noteSigned [r] <| uzSend a.port 7 (some a) (uniFrame 2 r false l.keyEpoch seq b.tick l.key (stopPayload b 0)) s1
  | none => done

/-- The burst ends with the SerDes (R449). -/
def lastBurst (s : State) : State := { s with stop := { s.stop with burst := none } }

/-- STOP_BURST_FRAME (R172): of the fleet's burst, or of a robot's. -/
def execStopBurstFrame (r : Option Nat) (s : State) : Host.Outcome State Fault Refusal :=
  match r with
  | none => .next (match s.stop.burst with
    | some b =>
      if powered s then afterBurst (fleetBurst b (beginUp b.nextAt s))
      else if decide (s.sys.power = .poweringDown) && decide (b.nextAt ≤ serdesOff s) then
        lastBurst (fleetBurst b (beginUp b.nextAt s))
      else begin_ 0 s
    | none => begin_ 0 s)
  | some k =>
    if nRobots s.member ≤ k then .fault .noSuchUnit
    else .next (match getRobotStop s k with
      | some x => (match x.burst with
        | some b => if powered s then robotBurst k x b (beginUp b.nextAt s) else begin_ 0 s
        | none => begin_ 0 s)
      | none => begin_ 0 s)

/-! ### Assembly (R12, R171, R174, R175) -/

/-- The GO bit of an entry (R171, R287, R288). -/
def goBit (s : State) (r : Nat) : Bool :=
  let x := getSpindle s r
  let sync := match (getLink s r).telem with
    | some t => t.sync
    | none => false
  let moving := !(decide (x.state = .idle) || decide (x.state = .hold) || decide (x.state = .manual)) && !x.atRest
  !latched s && !robotStopped s r && sync && (!s.stop.controlled || moving)

/-- The beacon of a port: robots by the table as the snapshot left it (R328). -/
def assembleGo (s : State) (p : Nat) : Held :=
  let es := (s.uz.robots.filter (fun q => decide (q.2.sess = .active) && (match q.2.addrSnap with
    | some a => decide (a.port = p)
    | none => false))).map (fun q => (q.1, goBit s q.1, robotStopped s q.1))
  { port := p, robot := 255, tick := s.tick.number, dest := none,
    body := .go s.tick.number s.tick.period s.stop.cfg.goTimeout es }

/-- A robot's RESV of the tick, if one is due (R174). -/
def assembleResv (s : State) (r : Nat) : State × List Held :=
  let l := getLink s r
  let t := getTr s r
  let c := resvContent s r
  let flat := c.1 :: c.2.1 :: c.2.2.flatMap (fun e => [e.1, natOfBool e.2.1, e.2.2])
  let h : Held := { port := 0, robot := r, tick := s.tick.number, body := .resv c.1 c.2.1 c.2.2, dest := none }
  if l.sess ≠ .active then (s, [])
  else if t.route.isSome || !t.windows.isEmpty then
    if l.resvSent ≠ some flat ∨ l.resvAt + nsPerSec ≤ s.up then
      (setLink r { l with resvSent := some flat, resvAt := s.up } s, [h])
    else (s, [])
  else match l.resvSent with
    | some (n :: _) => (setLink r { l with resvSent := none } s, if n = 0xFFFF then [] else [h])
    | _ => (s, [])

/-- RTCM messages packed into parts of at most 1,400 bytes, never split. -/
def packParts (cur : List Byte) : List (List Byte) → List (List Byte)
  | [] => if cur.isEmpty then [] else [cur]
  | m :: r =>
    if cur.length + m.length ≤ 1400 then packParts (cur ++ m) r
    else if cur.isEmpty then packParts m r
    else cur :: packParts m r

/-- CORR frames of an epoch of STREAM 2 for the robots that want them (R175). -/
def assembleCorr (s : State) (x : Nat × List (List Byte)) : List Held :=
  let mask := (getStream s 2).cfg.rhMask
  let rs := (s.uz.robots.filter (fun q => decide (q.2.sess = .active) && q.2.corrWanted && (match q.2.addr with
    | some a => Nat.testBit mask a.port
    | none => false))).map (fun q => q.1)
  let ps := packParts [] x.2
  rs.flatMap (fun r => (ps.zip (List.range ps.length)).map (fun p =>
    { port := 0, robot := r, tick := s.tick.number, dest := none, body := .corr x.1 p.2 ps.length p.1 }))

/-- Frame assembly of the tick: GO beacons, then SETPOINT, RESV, TASK, KEY and CORR frames (R13); of STREAM 2 the epochs
whose encoding, 3.0 ms long, had ended at the snapshot (R122). -/
def assemble (pts : List (Nat × FrameBody)) (s : State) : State :=
  let s0 := startRekeys s
  let n := s0.tick.number
  let go := (List.range (nRh s0.member)).map (assembleGo s0)
  let set : List Held := pts.map (fun p => { port := 0, robot := p.1, tick := n, body := p.2, dest := none })
  let rs := (s0.uz.robots.map (fun p => p.1)).foldl (fun (a : State × List Held) r =>
    let x := assembleResv a.1 r
    (x.1, a.2 ++ x.2)) (s0, [])
  let s1 := rs.1
  let waits := s1.uz.waiting.map (fun h => { h with tick := n })
  let isTask := fun (h : Held) => match h.body with
    | .task .. => true
    | _ => false
  let ready := fun (x : Nat × List (List Byte)) => decide (x.1 + 3000000 ≤ s1.tick.boundary)
  let corr := (s1.corr.corrOut.filter ready).flatMap (assembleCorr s1)
  { s1 with
    corr := { s1.corr with corrOut := s1.corr.corrOut.filter (fun x => !ready x) },
    uz := { s1.uz with
      waiting := [], staged := go ++ set ++ rs.2 ++ waits.filter isTask ++ waits.filter (fun h => !isTask h) ++ corr } }

/-! ### SEC_ROBOT_KEY (R189) -/

def keySettings (s : State) : Word := wordOfFields [(s.uz.rekeyH, 0), (s.uz.sessTimeout, 8), (s.uz.dueGrace, 16)]

def robotKeyWords (s : State) (r : Nat) : List Word :=
  let l := getLink s r
  if r = 255 then [0, 0, wordOf s.uz.ffDiscards, 0, 0, 0, 0, 0]
  else
    [wordOfFields [(sessNo l.sess, 0), (natOfBool l.rekey.isSome, 2), (natOfBool l.corrWanted, 3),
       (match l.addr with
        | some a => a.port
        | none => 0, 4), (l.keyEpoch, 16)],
     wordOf l.framesIn, wordOf l.authFail, wordOf l.replay, wordOf l.lastJoin,
     wordOfFields [(l.qDepth, 0), (l.proto, 16)], keySettings s, wordOf l.robotFw]

def secRobotKeyBody (q : Req) (s : State) : Res := do
  let h := par q 0
  let r := fld h 0 7
  let op := fld h 8 10
  let a := par q 1
  need (onlyBits h 0x7FF && decide (op ≤ 4) && (decide (r ≠ 255) || (decide (op ≠ 1) && decide (op ≠ 2))) &&
    (decide (op ≠ 4) || decide (r = 255))) .badParam 0
  need (decide (r = 255) || decide (r < nRobots s.member)) .range 0
  need (decide (op ≠ 4) || (inRange (fld a 0 7) 1 168 && inRange (fld a 8 15) 1 255 && decide (fld a 16 31 ≤ 5000)))
    .range 0
  match op with
  | 0 => return (s, .ok 0 (robotKeyWords s r))
  | 1 =>
    need (sessionOpen s q.q) .state 3
    need (decide (q.q < 16)) .state 4
    let l := getLink s r
    need (!(decide (l.sess = .joining) || decide (l.sess = .active))) .state 2
    let s1 := touchSession (setLink r { l with rootKey := some (keyPar q 1), sess := .keyed } s)
    return (raise 0x0E10 r [wordOf l.keyEpoch] .all s1, .ok 0 [])
  | 2 =>
    need (sessionOpen s q.q) .state 3
    need (!spinActive (getSpindle s r) || latched s || robotStopped s r) .state 1
    let e := (getLink s r).keyEpoch
    let s1 := endSession r 2 (touchSession (modLink r (fun l => { l with rootKey := none }) s))
    return (raise 0x0E10 (r + 256) [wordOf e] .all s1, .ok 0 [])
  | 3 =>
    need (decide (r = 255) || sessActive s r) .state 5
    let mark := fun (p : Nat × Link) =>
      if (r = 255 ∨ p.1 = r) ∧ p.2.sess = .active ∧ p.2.rekey = none then (p.1, { p.2 with rekeyDue := true }) else p
    return ({ s with uz := { s.uz with robots := s.uz.robots.map mark } }, .ok 0 [])
  | _ =>
    return ({ s with uz := { s.uz with
      rekeyH := fld a 0 7, sessTimeout := fld a 8 15, dueGrace := fld a 16 31 } }, .ok 0 [])

def descSecRobotKey : Desc :=
  (Desc.std 0xE03 [3, 4, 7] 11 (fun r => decide (fld (par r 0) 8 10 = 0)) secRobotKeyBody).formLen
    (fun r => match fld (par r 0) 8 10 with
      | 0 | 2 | 3 => some 3
      | 1 => some 7
      | 4 => some 4
      | _ => none)

end Sys2Proof.Machine
end

