-- ==== Sys2Proof/Machine/Task.lean ====
section
/-! DEFINITION. Task allotment (chapter 09): tasks and their frames, the distance engine, the auction, rounds and their
commits, routes from tasks, and the TASK commands. -/
set_option autoImplicit false

namespace Sys2Proof.Machine

/-! ### Tasks -/

def taskNo : TaskState → Nat
  | .free => 0 | .open_ => 1 | .proposed => 2 | .assigned => 3 | .active => 4 | .reached => 5 | .expired => 6

def getTask (s : State) (k : Nat) : TaskSlot := tabGet s.task.slots k TaskSlot.init

/-- A slot that becomes FREE is no longer listed. -/
def putSlot (k : Nat) (x : TaskSlot) (t : Tab TaskSlot) : Tab TaskSlot :=
  if x.state = .free then tabDel t k else tabSet t k x

def setTask (k : Nat) (x : TaskSlot) (s : State) : State :=
  { s with task := { s.task with slots := putSlot k x s.task.slots } }

/-- The task is ASSIGNED or ACTIVE (R218). -/
def heldTask (x : TaskSlot) : Bool := decide (x.state = .assigned) || decide (x.state = .active)

/-- The tasks that a robot holds, in the order of their assignment. -/
def robotTasks (s : State) (r : Nat) : List (Nat × TaskSlot) :=
  (s.task.slots.filter (fun p => heldTask p.2 && decide (p.2.robot = r))).foldr insertOrder []
where
  insertOrder (x : Nat × TaskSlot) : List (Nat × TaskSlot) → List (Nat × TaskSlot)
    | [] => [x]
    | y :: l => if x.2.order ≤ y.2.order then x :: y :: l else y :: insertOrder x l

/-- EV_TASK_STATE: the slot's new state, the robot concerned, the cause. -/
def taskEvent (k robot cause : Nat) (x : TaskSlot) (s : State) : State :=
  raise 0x0501 (k + 2048 * taskNo x.state) [wordOfFields [(robot, 0), (cause, 8)], wordOf x.task.hostTag] .all s

/-- A TASK frame for the robot (R174): OP 0 assign, 1 cancel, 2 update. -/
def taskFrame (k op robot : Nat) (x : TaskRec) (s : State) : State :=
  awaitFrame robot (.task k op x.hostTag x.node x.action x.tEarliest x.tLatest x.data) none s

/-- A task comes to a state, for a cause; OPEN, FREE and EXPIRED tasks have no robot. -/
def moveTask (k : Nat) (st : TaskState) (cause : Nat) (s : State) : State :=
  let x := getTask s k
  let keep := decide (st = .active) || decide (st = .reached)
  let y := { x with state := st, robot := if keep then x.robot else 255 }
  taskEvent k x.robot cause y (setTask k y s)

/-- The tasks that a robot holds return to OPEN, with TASK frames of OP 1 (R218, R466). -/
def overrideTasks (s : State) (r : Nat) : State :=
  let s1 := (robotTasks s r).foldl (fun a p => taskFrame p.1 1 r p.2.task (moveTask p.1 .open_ 6 a)) s
  { s1 with task := { s1.task with
    taskRoutes := s1.task.taskRoutes.filter (fun q => decide (q ≠ r)), serviceUntil := tabDel s1.task.serviceUntil r,
    serviceDone := s1.task.serviceDone.filter (fun q => decide (q ≠ r)) } }

/-- A task action at the snapshot (R17). -/
def applyTaskAct (s : State) (a : TaskAct) : State :=
  match a with
  | .post k r =>
    let x := { TaskSlot.init with state := .open_, task := r, post := s.task.posts }
    taskEvent k 255 0 x (setTask k x { s with task := { s.task with posts := s.task.posts + 1 } })
  | .update k r =>
    let x := getTask s k
    let s1 := setTask k { x with task := r } s
    if heldTask x then taskFrame k 2 x.robot r s1 else s1
  | .cancel k =>
    let x := getTask s k
    let s1 := if heldTask x then taskFrame k 1 x.robot x.task s else s
    moveTask k .free 0 s1
  | .close k => moveTask k .free 0 s
  | .overridden r => overrideTasks s r

def applyTaskActs (s : State) : State :=
  s.task.acts.foldl applyTaskAct { s with task := { s.task with acts := [] } }

/-- The slots as they will be once the actions accepted so far have been applied. -/
def slotsToCome (s : State) : Tab TaskSlot :=
  s.task.acts.foldl (fun t a => match a with
    | .post k r => tabSet t k { TaskSlot.init with state := .open_, task := r }
    | .update k r => tabSet t k { tabGet t k TaskSlot.init with task := r }
    | .cancel k => tabDel t k
    | .close k => tabDel t k
    | .overridden r => t.map (fun p =>
        if heldTask p.2 && decide (p.2.robot = r) then (p.1, { p.2 with state := .open_, robot := 255 }) else p))
    s.task.slots

/-! ### The distance engine (R221) -/

/-- A fastest path found so far: its time in us, and its slivers with their directions. -/
structure Label where
  time : Nat
  path : List (Nat × Bool)
  deriving DecidableEq, Repr

/-- Ties by the lower sliver number at the first point of difference. -/
def lowerPath : List (Nat × Bool) → List (Nat × Bool) → Bool
  | [], _ => false
  | _ :: _, [] => false
  | a :: as, b :: bs => if a.1 = b.1 then lowerPath as bs else decide (a.1 < b.1)

/-- The order of paths (R221): faster, then fewer slivers, then the lower sliver number. -/
def betterLabel (a b : Label) : Bool :=
  decide (a.time < b.time) || (decide (a.time = b.time) && (decide (a.path.length < b.path.length) ||
    (decide (a.path.length = b.path.length) && lowerPath a.path b.path)))

def offerLabel (n : Nat) (x : Label) (t : Tab Label) : Tab Label :=
  match tabFind t n with
  | some y => if betterLabel x y then tabSet t n x else t
  | none => tabSet t n x

/-- Weight in us of a length on a sliver (R221). -/
def pieceUs (len vmax : Nat) : Nat := ceilDiv (len * 1000000) (max 100 vmax)

/-- A sliver that the paths of a class may use: its class admits it and it is not blocked. -/
def usableSliver (s : State) (cls : Nat) (p : Nat × Sliver) : Bool :=
  Nat.testBit p.2.classMask cls && !s.track.blocked.contains p.1

/-- One sliver extends the paths that end at its nodes, in the directions that DIR permits. -/
def relaxSliver (s : State) (t : Tab Label) (p : Nat × Sliver) : Tab Label :=
  let w := pieceUs (lenAt s p.1) p.2.vmax
  let go := fun (a b : Nat) (rev : Bool) (u : Tab Label) =>
    match tabFind u a with
    | some x => offerLabel b { time := x.time + w, path := x.path ++ [(p.1, rev)] } u
    | none => u
  let t1 := if p.2.dir = 2 then t else go p.2.start p.2.end_ false t
  if p.2.dir = 1 then t1 else go p.2.end_ p.2.start true t1

/-- Paths are extended until none improves. -/
def relaxAll (s : State) (es : List (Nat × Sliver)) : Nat → Tab Label → Tab Label
  | 0, t => t
  | n + 1, t =>
    let t' := es.foldl (relaxSliver s) t
    if t' = t then t else relaxAll s es n t'

/-- Where a robot starts its next task (chapter 09, Cost model): at a node, or on a sliver at an offset from START. -/
inductive Place
  | node (n : Nat)
  | sliver (n off : Nat)
  deriving DecidableEq, Repr

/-- The first pieces of the paths from a place over the slivers that `ok` admits. -/
def firstLabels (s : State) (ok : Nat × Sliver → Bool) (o : Place) : Tab Label :=
  match o with
  | .node n => [(n, { time := 0, path := [] })]
  | .sliver n off => match sliverAt s n with
    | none => []
    | some v =>
      if !ok (n, v) then []
      else
        let t1 := if v.dir = 2 then [] else
          offerLabel v.end_ { time := pieceUs (lenAt s n - off) v.vmax, path := [(n, false)] } []
        if v.dir = 1 then t1 else offerLabel v.start { time := pieceUs off v.vmax, path := [(n, true)] } t1

/-- The fastest paths from a place to every node that can be reached over the slivers that `ok` admits (R221). -/
def distancesOver (s : State) (ok : Nat × Sliver → Bool) (o : Place) : Tab Label :=
  relaxAll s (s.track.active.slivers.filter ok) (s.track.active.nodes.length + 1) (firstLabels s ok o)

/-- The fastest paths of a track class (R221). -/
def distances (s : State) (cls : Nat) (o : Place) : Tab Label := distancesOver s (usableSliver s cls) o

/-- travel_us of R222. -/
def travelUs (s : State) (vSpin : Nat) (o : Place) (path : List (Nat × Bool)) : Nat :=
  let us := fun (n len : Nat) => let v := vPlan s n vSpin; (len * 1000000 + v - 1) / v
  match o, path with
  | .sliver n off, (_, rev) :: rest =>
    rest.foldl (fun a e => a + us e.1 (lenAt s e.1)) (us n (if rev then off else lenAt s n - off))
  | _, es => es.foldl (fun a e => a + us e.1 (lenAt s e.1)) 0

/-! ### Robots in a round (R219) -/

/-- The sliver a robot stands on, with the offset of its tick fix: the last entry of its DONE route, the present one of a
route that is under way, or the sliver whose corridor holds the fix with the least lateral offset. -/
def standingPlace (s : State) (r : Nat) : Option Place :=
  let t := getTr s r
  match usableFix s r with
  | none => none
  | some f =>
    let on := fun (n : Nat) => match sliverAt s n with
      | none => none
      | some v =>
        let g := s.track.active
        let (off, lat) := projectSliver (nodePt g v.start) (nodePt g v.end_) v.radius (lenAt s n) (f.e, f.n)
        some (min off.toNat (lenAt s n), lat, v.width * (geoU / 2))
    match t.route with
    | some x =>
      let sp := spansOf s x
      let e := if t.state = .done then sp.getLast? else sp[curIdx sp (progressOn t)]?
      e.bind (fun e => (on e.sliver).map (fun q => .sliver e.sliver q.1))
    | none =>
      let near := s.track.active.slivers.foldl (fun (a : Option (Nat × Nat × Nat)) p =>
        match on p.1, a with
        | some (off, lat, half), none => if lat ≤ half then some (lat, p.1, off) else none
        | some (off, lat, half), some b => if lat ≤ half ∧ lat < b.1 then some (lat, p.1, off) else a
        | none, _ => a) none
      near.map (fun q => .sliver q.2.1 q.2.2)

/-! ### The way out of a deadlock (R215) -/

/-- The slivers in the conflict set of any sliver held by another member of the victim's deadlock. -/
def heldByOthers (s : State) (r : Nat) : List Nat :=
  let others := (s.track.deadlocks.filter (fun d => d.members.contains r)).flatMap
    (fun d => d.members.filter (fun q => decide (q ≠ r)))
  (others.flatMap (fun q => (getTr s q).windows.map (fun w => w.sliver))).flatMap (conflictSet s)

/-- The ways of ending on a sliver at an offset from START: from either end that DIR permits to travel from, with the
fastest path to it; and at once where the paths start on the sliver short of the offset. -/
def endings (s : State) (o : Place) (t : Tab Label) (n : Nat) (v : Sliver) (off : Nat) : List Label :=
  let way : Bool → List Label := fun rev =>
    if v.dir = (if rev then 1 else 2) then []
    else
      let after := (tabFind t (if rev then v.end_ else v.start)).map (fun (x : Label) =>
        ({ time := x.time + pieceUs (if rev then lenAt s n - off else off) v.vmax, path := x.path ++ [(n, rev)] } : Label))
      let here := match o with
        | .sliver k at_ =>
          if k = n ∧ (if rev then off ≤ at_ else at_ ≤ off) then
            [({ time := pieceUs (if rev then at_ - off else off - at_) v.vmax, path := [(n, rev)] } : Label)]
          else []
        | .node _ => []
      here ++ after.toList
  way false ++ way true

def bestLabel (l : List Label) : Option Label :=
  l.foldl (fun a x => match a with
    | none => some x
    | some y => if betterLabel x y then some x else some y) none

/-- The route that the distance engine finds for a victim (R215): after its entered slivers the fastest path of R221 to
its route's final sliver and END_OFFSET, which keeps off what the other members hold. A victim that has entered the final
sliver keeps its entered slivers; one that has entered none starts where it stands. -/
def findReroute (s : State) (r : Nat) : Option Route :=
  let t := getTr s r
  let avoid := heldByOthers s r
  let ok := fun (p : Nat × Sliver) => usableSliver s t.prof.trackClass p && !avoid.contains p.1
  t.route.bind (fun old => old.entries.getLast?.bind (fun e => (sliverAt s e.1).bind (fun v =>
    let pre := enteredEntries t
    let place := match pre.getLast? with
      | some (n, rev) => (sliverAt s n).map (fun (w : Sliver) => Place.node (if rev then w.start else w.end_))
      | none => standingPlace s r
    let path :=
      if pre.getLast?.map (fun q => q.1) = some e.1 then some []
      else if !ok (e.1, v) then none
      else (place.bind (fun o => bestLabel (endings s o (distancesOver s ok o) e.1 v old.endOffset))).map (fun x => x.path)
    path.map (fun p => { old with entries := pre ++ p }))))

/-- The route passes the checks of R202 and R203 and holds 1 to 1,024 entries. -/
def routeAdmitted (s : State) (r : Nat) (x : Route) : Bool :=
  inRange x.entries.length 1 1024 && decide (prefixFault 0 (enteredEntries (getTr s r)) x.entries = none) &&
    (checkRoute s r x).isNone

/-- REROUTE_RESULT (R215): the distance engine answers for a victim whose route had ROUTE_ID when it was asked; the route
applies at the next snapshot. -/
def execRerouteResult (r routeId dt : Nat) (s : State) : Host.Outcome State Fault Refusal :=
  if nRobots s.member ≤ r then .fault .noSuchUnit
  else
    let s1 := begin_ dt s
    .next (if powered s1 && s1.track.rerouteAsked.contains r && decide ((getTr s1 r).routeId = routeId) then
      let s2 := { s1 with track := { s1.track with rerouteAsked := s1.track.rerouteAsked.filter (fun k => decide (k ≠ r)) } }
      match findReroute s2 r with
      | some x =>
        if routeAdmitted s2 r x then
          addTrackAct (.reroute r x) (modTr r (fun t => { t with routeId := (t.routeId + 1) % 2 ^ 32 }) s2)
        else routeEvent r 3 s2
      | none => routeEvent r 3 s2
    else s1)

def serviceNs (x : TaskRec) : Nat := x.service * 100000000

/-- The place and time from which a robot would start its next task, at a snapshot at device time t. -/
def originOf (t r : Nat) (s : State) : Option (Place × Nat) :=
  match (robotTasks s r).getLast? with
  | some (_, x) => some (.node x.task.node, max t (x.arrival + serviceNs x.task))
  | none => (standingPlace s r).map (fun p => (p, t))

def allotOf (s : State) (r : Nat) : AllotRobot := tabGet s.task.robots r AllotRobot.init

/-- R219: the robot is eligible, and where it starts. -/
def eligibleAt (t r : Nat) (s : State) : Option (Place × Nat) :=
  let a := allotOf s r
  let tr := getTr s r
  let routeOk := tr.route.isNone || decide (tr.state = .done) || s.task.taskRoutes.contains r
  if a.en && decide ((robotTasks s r).length < a.tasksMax) && sessActive s r && (usableFix s r).isSome &&
      !robotStopped s r && decide (tr.state ≠ .reroute) && !tr.off && routeOk then originOf t r s
  else none

/-- The slivers of a path with their nodes, as they are now. -/
def laidOf (s : State) (path : List (Nat × Bool)) : List (Sliver × Node × Node) :=
  let g := s.track.active
  let pt := fun (n : Nat) => tabGet g.nodes n { e := 0, n := 0, u := 0 }
  path.filterMap (fun e => (sliverAt s e.1).map (fun v => (v, pt v.start, pt v.end_)))

/-! ### Candidates (R220-R223) -/

/-- A candidate pair: its task, the task's PRIO and T_LATEST, what it costs and brings, and its path. -/
structure Cand where
  task : Nat
  prio : Nat
  latest : Nat
  cost : Nat
  benefit : Int
  arrival : Nat
  path : List (Nat × Bool)
  deriving DecidableEq, Repr

/-- CAP and PIN_ROBOT admit the robot (R220). -/
def mayTake (s : State) (r : Nat) (x : TaskRec) : Bool :=
  decide (x.reqCap &&& (allotOf s r).cap = x.reqCap) && (decide (x.pin = 255) || decide (x.pin = r))

/-- A robot of a round: where and when it starts, its track class, and its distance tables. -/
structure Bidder where
  robot : Nat
  place : Place
  start : Nat
  cls : Nat
  dist : Tab Label
  deriving DecidableEq, Repr

def bidders (t : Nat) (s : State) : List Bidder :=
  (List.range (nRobots s.member)).filterMap (fun r => (eligibleAt t r s).map (fun o =>
    let cls := (getTr s r).prof.trackClass
    { robot := r, place := o.1, start := o.2, cls := cls, dist := distances s cls o.1 }))

/-- The pairs that a round computes (R223), 8,192 at most, and the slots of the tasks left out. -/
def tablePairs (s : State) (bs : List Bidder) (tasks : List (Nat × TaskSlot)) : List (Nat × Nat) × List Nat :=
  tasks.foldl (fun a p =>
    let cs := (List.range 8).filter (fun c => bs.any (fun b => decide (b.cls = c) && mayTake s b.robot p.2.task))
    let new := (cs.map (fun c => (p.2.task.node, c))).filter (fun q => !a.1.contains q)
    if a.1.length + new.length ≤ 8192 then (a.1 ++ new, a.2)
    else (a.1 ++ new.take (8192 - a.1.length), a.2 ++ [p.1])) ([], [])

/-- R222 for one pair, where it is a candidate. -/
def candOf (t : Nat) (s : State) (b : Bidder) (p : Nat × TaskSlot) : Option Cand :=
  let x := p.2.task
  if !mayTake s b.robot x || !tabHas s.track.active.nodes x.node then none
  else (tabFind b.dist x.node).bind (fun l =>
    let arrival := b.start + travelUs s (getSpindle s b.robot).live.vMax b.place l.path * 1000
    let cost := (max arrival x.tEarliest - t + 999999) / 1000000
    let benefit : Int := ((s.task.cfg.valueBase + x.prio * s.task.cfg.prioStep) * 1000 : Nat) - (cost : Int)
    if (x.tLatest ≠ 0 ∧ x.tLatest < arrival) ∨ benefit ≤ 0 then none
    else some { task := p.1, prio := x.prio, latest := x.tLatest, cost := cost, benefit := benefit, arrival := arrival,
                path := l.path })

/-! ### The auction (R224) -/

/-- The state of an auction: prices, who holds which task, the robots dropped, and the bids made. -/
structure Auction where
  prices : Tab Int
  held : Tab Nat
  dropped : List Nat
  bids : Nat
  truncated : Bool
  deriving DecidableEq, Repr

def netOf (a : Auction) (c : Cand) : Int := c.benefit - tabGet a.prices c.task 0

/-- T_LATEST with 0 as the latest. -/
def latestKey (c : Cand) : Nat := if c.latest = 0 then 2 ^ 64 else c.latest

/-- The better of two candidates: higher net, then PRIO, then earlier T_LATEST, then the lower slot. -/
def betterCand (a : Auction) (x y : Cand) : Bool :=
  decide (netOf a y < netOf a x) || (decide (netOf a y = netOf a x) && (decide (y.prio < x.prio) ||
    (decide (y.prio = x.prio) && (decide (latestKey x < latestKey y) ||
      (decide (latestKey x = latestKey y) && decide (x.task < y.task))))))

def bestCand (a : Auction) : List Cand → Option Cand
  | [] => none
  | x :: l => match bestCand a l with
    | none => some x
    | some y => if betterCand a x y then some x else some y

/-- One bid of a robot. -/
def makeBid (eps : Nat) (r : Nat) (cs : List Cand) (best : Cand) (a : Auction) : Auction :=
  let second := (cs.filter (fun c => decide (c.task ≠ best.task))).foldl (fun m c => max m (netOf a c)) 0
  let price := tabGet a.prices best.task 0 + (netOf a best - second) + eps
  { a with prices := tabSet a.prices best.task price, held := tabSet a.held best.task r, bids := a.bids + 1 }

/-- The auction: robots with their candidates, ascending; the fuel covers every bid and every drop. -/
def auction (eps maxBids : Nat) (rs : List (Nat × List Cand)) : Nat → Auction → Auction
  | 0, a => a
  | n + 1, a =>
    match rs.find? (fun p => !p.2.isEmpty && !a.dropped.contains p.1 && !a.held.any (fun h => decide (h.2 = p.1))) with
    | none => a
    | some (r, cs) =>
      if maxBids ≤ a.bids then { a with truncated := true }
      else match bestCand a cs with
        | none => a
        | some best =>
          if netOf a best ≤ 0 then auction eps maxBids rs n { a with dropped := a.dropped ++ [r] }
          else auction eps maxBids rs n (makeBid eps r cs best a)

/-- The result of a round on the state of its start snapshot at device time t (R225). -/
def roundResult (t id : Nat) (s : State) : Round :=
  let tasks := s.task.slots.filter (fun p => decide (p.2.state = .open_) || decide (p.2.state = .proposed))
  let bs := bidders t s
  let (_, skipped) := tablePairs s bs tasks
  let offered := tasks.filter (fun p => !skipped.contains p.1)
  let rs := bs.map (fun b => (b.robot, offered.filterMap (candOf t s b)))
  let c := s.task.cfg
  let a := auction c.eps c.maxBids rs (c.maxBids + rs.length + 1)
    { prices := [], held := [], dropped := [], bids := 0, truncated := false }
  let assigns := rs.filterMap (fun p => (p.2.find? (fun x => decide (tabFind a.held x.task = some p.1))).map (fun x =>
    ({ robot := p.1, task := x.task, outcome := 0, reason := 0, cost := x.cost, arrival := x.arrival, path := x.path,
       laid := laidOf s x.path, post := (getTask s x.task).post } : Assign)))
  let benefit : Int := rs.foldl (fun m p => p.2.foldl (fun m x =>
    if tabFind a.held x.task = some p.1 then m + x.benefit else m) m) 0
  { id := id, assigns := assigns, tasks := tasks.length, robots := bs.length, skipped := skipped.length, bids := a.bids,
    benefit := min 0xFFFFFFFF benefit.toNat, duration := 0, truncated := a.truncated, committed := false, dropped := 0,
    roundsSkipped := 0, endUp := 0 }

/-! ### Rounds (R217, R226-R229) -/

/-- Words 7 to 13 of a round's results. -/
def roundWords (x : Round) : List Word :=
  [wordOf x.id, wordOfFields [(x.assigns.length, 0), (x.tasks, 16)], wordOfFields [(x.robots % 256, 0), (x.skipped, 16)],
   wordOf x.bids, wordOf x.benefit, wordOf x.duration,
   wordOfFields [(natOfBool x.truncated, 0), (natOfBool x.committed, 1), (x.dropped, 8), (min x.roundsSkipped 65535, 16)]]

/-- The results go to the command that asked for the round, or out as EV_ALLOT_ROUND. -/
def reportRound (req : Option Req) (x : Round) (s : State) : State :=
  match req with
  | some r => complete r .ok 0 (roundWords x) s
  | none => raise 0x0500 x.assigns.length (statusWord .ok false 0 :: roundWords x) .all s

/-- The proposal lapses (R227): its PROPOSED tasks return to OPEN. -/
def lapseProposal (s : State) : State :=
  let s1 := { s with task := { s.task with proposalAt := none } }
  (s1.task.slots.filter (fun p => decide (p.2.state = .proposed))).foldl (fun a p => moveTask p.1 .open_ 7 a) s1

/-- A result becomes the proposal, whose time to live counts from the end of its round (R227). -/
def propose (req : Option Req) (x : Round) (s : State) : State :=
  let mark := fun (a : State) (y : Assign) =>
    let k := getTask a y.task
    if k.state = .open_ ∧ k.post = y.post then setTask y.task { k with state := .proposed } a else a
  let s1 := x.assigns.foldl mark { s with task := { s.task with last := some x, proposalAt := some x.endUp } }
  reportRound req x s1

/-- ALLOT_ROUND_END (R225-R229): the round that runs ends; a standby runs none. -/
def execAllotRoundEnd (dt : Nat) (s : State) : Host.Outcome State Fault Refusal :=
  let s1 := begin_ dt s
  .next (match s1.task.run with
    | none => s1
    | some x =>
      if !powered s1 || decide (s1.pair.role = .standby) then s1
      else
        let res := { x.result with duration := (s1.up - x.startUp) / 1000000, roundsSkipped := s1.task.roundsSkipped, endUp := s1.up }
        let s2 := { s1 with task := { s1.task with run := none, roundsSkipped := 0 } }
        if x.commit && !latched s2 then
          { s2 with task := { s2.task with
            last := some res, proposalAt := none,
            commits := s2.task.commits ++ [{ req := x.req, byCommand := false, robots := res.assigns.map (fun a => a.robot) }] } }
        else propose x.req res s2)

/-- A periodic round falls due (R226). -/
def allotDue (p : Nat) (s : State) : State :=
  let s1 := { s with task := { s.task with periodAt := s.now / p * p } }
  if s1.task.run.isSome then { s1 with task := { s1.task with roundsSkipped := s1.task.roundsSkipped + 1 } }
  else { s1 with task := { s1.task with periodic := true } }

/-- ALLOT_PERIOD (R226): device time reaches a whole multiple of PERIOD; a round that falls due while one runs is skipped
and counted. -/
def execAllotPeriod (s : State) : Host.Outcome State Fault Refusal :=
  let p := s.task.cfg.period * 10000000
  let due := (s.task.periodAt / p + 1) * p
  .next (if p = 0 ∨ ticking s = false ∨ reaches due s = false then begin_ 0 s
    else allotDue p (beginAt due s))

/-- PROPOSAL_LAPSE (R227): PROPOSAL_TTL has passed since the round ended. -/
def execProposalLapse (s : State) : Host.Outcome State Fault Refusal :=
  .next (match s.task.proposalAt with
    | none => begin_ 0 s
    | some t =>
      let due := t + s.task.cfg.ttl * nsPerSec
      if powered s then lapseProposal (beginUp due s) else begin_ 0 s)

/-- EXPIRED tasks, the proposal and closed tasks at the snapshot that starts a round (R217, R227). -/
def clearForRound (t : Nat) (s : State) : State :=
  let late := fun (x : TaskSlot) => (decide (x.state = .open_) || decide (x.state = .proposed)) &&
    decide (x.task.tLatest ≠ 0) && decide (x.task.tLatest < t)
  let s1 := (s.task.slots.filter (fun p => late p.2)).foldl (fun a p => moveTask p.1 .expired 4 a) s
  let s2 := lapseProposal s1
  if s2.task.cfg.autoClose then
    (s2.task.slots.filter (fun p => decide (p.2.state = .reached) || decide (p.2.state = .expired))).foldl
      (fun a p => moveTask p.1 .free 0 a) s2
  else s2

/-- A round starts at this snapshot, where none runs (R226). -/
def roundStarts (s : State) : Bool := s.task.run.isNone && (s.task.runReq.isSome || s.task.periodic)

/-- ALLOT_CFG comes in force at the snapshot that starts a round (R230, ALLOT_CFG). -/
def allotSettings (s : State) : State :=
  if roundStarts s then { s with task := { s.task with cfg := s.task.cfgSet, robots := s.task.robotsSet } } else s

/-- The round that starts at this snapshot, if one does (R226), under the settings in force. -/
def startRound (t : Nat) (s : State) : State :=
  let go := fun (req : Option Req) (mode : Bool) (s : State) =>
    let s1 := { s with task := { s.task with roundId := (s.task.roundId + 1) % 2 ^ 32 } }
    let s2 := clearForRound t s1
    { s2 with task := { s2.task with
      run := some { req := req, commit := mode || s2.task.cfg.autoCommit, startUp := s2.up,
                    result := roundResult t s2.task.roundId s2 } } }
  if s.task.run.isSome then s
  else match s.task.runReq with
    | some (r, mode) =>
      let skip := natOfBool s.task.periodic
      go (some r) (decide (mode = 1)) { s with task := { s.task with
        runReq := none, periodic := false, roundsSkipped := s.task.roundsSkipped + skip } }
    | none => if s.task.periodic then go none false { s with task := { s.task with periodic := false } } else s

/-! ### Routes from tasks (R230-R232) -/

/-- The route to a node from where the robot stands (R231). -/
def routeTo (s : State) (r : Nat) (x : TaskRec) : Option Route :=
  (standingPlace s r).bind (fun o =>
    (tabFind (distances s (getTr s r).prof.trackClass o) x.node).bind (fun l =>
      l.path.getLast?.map (fun e =>
        { entries := l.path, endOffset := if e.2 then 0 else lenAt s e.1, prio := x.prio })))

/-- The route to a node as it may be applied: it exists and passes the checks of R202 and R203. -/
def taskRoute (s : State) (r : Nat) (x : TaskRec) : Option Route :=
  (routeTo s r x).bind (fun y =>
    if tableReady s && decide (y.entries.length ≤ 1024) && (checkRoute s r y).isNone then some y else none)

/-- With AUTO_START the spindle starts with its route (R232). -/
def autoStart (r : Nat) (s : State) : State :=
  if s.task.cfg.autoStart then
    match startStopped s r, startRefusal s r false with
    | .ok _, .ok _ => applySpinAct s (.start r false)
    | _, _ => s
  else s

/-- A task's route is applied (R231): the task becomes ACTIVE. -/
def takeRoute (k r : Nat) (y : Route) (s : State) : State :=
  let s1 := modTr r (fun t => { t with routeId := (t.routeId + 1) % 2 ^ 32 }) s
  let s2 := changeRoute r y 0 s1
  let s3 := { s2 with task := { s2.task with
    taskRoutes := addOnce s2.task.taskRoutes r, serviceUntil := tabDel s2.task.serviceUntil r } }
  autoStart r (moveTask k .active 2 s3)

/-- The robot's next ASSIGNED task gets its route; a task whose route is refused returns to OPEN, and the one after it is
tried (R218, R231). -/
def nextTask (r : Nat) (s : State) : State :=
  let hold := robotTasks s r
  if hold.any (fun p => decide (p.2.state = .active)) then s
  else (hold.foldl (fun (a : Bool × State) p =>
    if a.1 then a
    else match taskRoute a.2 r p.2.task with
      | some y => (true, takeRoute p.1 r y a.2)
      | none => (false, moveTask p.1 .open_ 5 a.2)) (false, s)).2

def serviceEnds (r : Nat) (s : State) : State :=
  { s with task := { s.task with serviceUntil := tabDel s.task.serviceUntil r, serviceDone := addOnce s.task.serviceDone r } }

/-- TASK_SERVICE_ELAPSED (R218): the next route is built at the next snapshot. -/
def execTaskServiceElapsed (r : Nat) (s : State) : Host.Outcome State Fault Refusal :=
  if nRobots s.member ≤ r then .fault .noSuchUnit
  else .next (match tabFind s.task.serviceUntil r with
    | none => begin_ 0 s
    | some t =>
      if powered s && reaches t s then serviceEnds r (beginAt t s) else begin_ 0 s)

/-- Robots whose SERVICE has elapsed go on to their next task. -/
def serviceRoutes (s : State) : State :=
  s.task.serviceDone.foldl (fun a r => nextTask r a) { s with task := { s.task with serviceDone := [] } }

/-- A robot's route has reached DONE at a snapshot at device time t (R218): its ACTIVE task is REACHED, and SERVICE
begins. -/
def reachTask (t r : Nat) (s : State) : State :=
  match (robotTasks s r).find? (fun p => decide (p.2.state = .active)) with
  | some (k, x) =>
    let s1 := moveTask k .reached 3 (setTask k { x with reachedAt := t } s)
    { s1 with task := { s1.task with serviceUntil := tabSet s1.task.serviceUntil r (t + serviceNs x.task) } }
  | none =>
    if (robotTasks s r).isEmpty || tabHas s.task.serviceUntil r then s
    else { s with task := { s.task with serviceDone := addOnce s.task.serviceDone r } }

/-- The reason for which an assignment is dropped (R230), 0 where it is kept. -/
def dropReason (t : Nat) (x : Assign) (s : State) : Nat :=
  let k := getTask s x.task
  if (k.state ≠ .open_ ∧ k.state ≠ .proposed) ∨ k.post ≠ x.post then 1
  else if (eligibleAt t x.robot s).isNone then 2
  else if (robotTasks s x.robot).isEmpty && (taskRoute s x.robot k.task).isNone then 3
  else if laidOf s x.path ≠ x.laid ∨ x.path.any (fun e => s.track.blocked.contains e.1) then 4
  else 0

/-- One assignment is committed or dropped. -/
def commitOne (t : Nat) (a : List Assign × State) (x : Assign) : List Assign × State :=
  let s := a.2
  let why := dropReason t x s
  if why = 0 then
    let k := getTask s x.task
    let y := { k with state := .assigned, robot := x.robot, order := s.task.nextOrder, arrival := x.arrival }
    let first := (robotTasks s x.robot).isEmpty
    let s1 := setTask x.task y { s with task := { s.task with nextOrder := s.task.nextOrder + 1 } }
    let s2 := taskFrame x.task 0 x.robot k.task (taskEvent x.task x.robot 1 y s1)
    (a.1 ++ [{ x with outcome := 1 }], if first then nextTask x.robot s2 else s2)
  else
    let s1 := if (getTask s x.task).state = .proposed ∧ (getTask s x.task).post = x.post then moveTask x.task .open_ (if why = 3 then 5 else 7) s else s
    (a.1 ++ [{ x with outcome := 2, reason := why }], s1)

/-- A commit at the snapshot (R228, R230). -/
def applyCommit (t : Nat) (s : State) (c : CommitReq) : State :=
  match s.task.last with
  | none => s
  | some res =>
    if latched s then
      if c.byCommand then (match c.req with
        | some r => complete r .stopped 0 [] s
        | none => s)
      else propose c.req res s
    else
      let (as, s1) := (res.assigns.filter (fun x => c.robots.contains x.robot)).foldl (commitOne t) ([], s)
      let dropped := (as.filter (fun x => decide (x.outcome = 2))).length
      let put := fun (x : Assign) => (as.find? (fun y => decide (y.robot = x.robot))).getD x
      let res' := { res with assigns := res.assigns.map put, committed := true, dropped := dropped }
      let s2 := lapseProposal { s1 with task := { s1.task with last := some res' } }
      if c.byCommand then (match c.req with
        | some r => complete r .ok 0 [wordOf (as.length - dropped), wordOf dropped] s2
        | none => s2)
      else reportRound c.req res' s2

/-- What the snapshot at device time t does for tasks, after every command that takes effect at it (R217, R218, R226,
R230): commits, the start of a round, and the routes of robots whose SERVICE has elapsed. -/
def taskSnapshot (t : Nat) (s : State) : State :=
  let s0 := allotSettings s
  let s1 := s0.task.commits.foldl (applyCommit t) { s0 with task := { s0.task with commits := [] } }
  serviceRoutes (startRound t s1)

/-! ### Commands (R233) -/

/-- The task record of TASK_POST. -/
def taskOf (r : Req) : TaskRec :=
  { prio := fld (par r 0) 16 18, pin := fld (par r 0) 24 31, hostTag := (par r 1).toNat, node := fld (par r 2) 0 13,
    action := fld (par r 2) 16 31, reqCap := fld (par r 3) 0 15, service := fld (par r 3) 16 31, tEarliest := par64 r 4,
    tLatest := par64 r 6, data := (List.range 32).map (fun i => byteOf ((par r (8 + i / 4)).toNat / 256 ^ (i % 4))) }

def taskWords (k : Nat) (x : TaskRec) : List Word :=
  [wordOfFields [(k, 0), (x.prio, 16), (x.pin, 24)], wordOf x.hostTag, wordOfFields [(x.node, 0), (x.action, 16)],
   wordOfFields [(x.reqCap, 0), (x.service, 16)]] ++ words64 x.tEarliest ++ words64 x.tLatest ++
    (List.range 8).map (fun i => wordOf (((List.range 4).foldl (fun a j => a + (x.data.getD (4 * i + j) 0).toNat * 256 ^ j) 0)))

def slotWord (x : TaskSlot) : Word := wordOfFields [(taskNo x.state, 0), (if x.state = .free then 255 else x.robot, 8)]

def addTaskAct (a : TaskAct) (s : State) : State := { s with task := { s.task with acts := s.task.acts ++ [a] } }

def taskPostBody (r : Req) (s : State) : Res := do
  let h := par r 0
  let k := fld h 0 10
  let op := fld h 12 13
  let x := taskOf r
  need (onlyBits h 0xFF0737FF && decide (op ≠ 3) &&
    (decide (op = 2) || onlyBits (par r 2) 0xFFFF3FFF)) .badParam 0
  need (decide (op = 2) || decide (x.tLatest = 0) || decide (x.tEarliest < x.tLatest)) .badParam 1
  need (decide (k < nTasks s.member)) .range 0
  need (decide (op = 2) || decide (x.pin = 255) || decide (x.pin < nRobots s.member)) .range 0
  need (decide (op = 2) || decide (x.node < nNodes s.member)) .range 2
  needOrigin s
  let y := tabGet (slotsToCome s) k TaskSlot.init
  match op with
  | 0 =>
    need (decide (y.state = .free)) .state 1
    need (tabHas s.track.active.nodes x.node) .state 3
    return (addTaskAct (.post k x) s, .ok 0 [slotWord { TaskSlot.init with state := .open_ }])
  | 1 =>
    need (decide (y.state ≠ .free)) .state 2
    need (tabHas s.track.active.nodes x.node) .state 3
    need (!heldTask y || (decide (x.node = y.task.node) && decide (x.reqCap = y.task.reqCap) && decide (x.pin = y.task.pin)))
      .state 4
    return (addTaskAct (.update k x) s, .ok 0 [slotWord y])
  | _ =>
    let z := getTask s k
    return (s, .ok 0 (slotWord z :: taskWords k z.task))

def descTaskPost : Desc :=
  Desc.formLen { Desc.std 0x500 [3, 18] 20 (fun r => decide (fld (par r 0) 12 13 = 2)) taskPostBody with eff := true }
    (fun r => some (if fld (par r 0) 12 13 < 2 then 18 else 3))

def taskCancelBody (r : Req) (s : State) : Res := do
  let h := par r 0
  let k := fld h 0 10
  let op := fld h 12 13
  need (onlyBits h 0x37FF && decide (op ≤ 1)) .badParam 0
  need (decide (k < nTasks s.member)) .range 0
  needOrigin s
  let y := tabGet (slotsToCome s) k TaskSlot.init
  let ended := decide (y.state = .reached) || decide (y.state = .expired)
  need (decide (y.state = .free) || (ended == decide (op = 1))) .state 1
  need (decide (y.state ≠ .free)) .state 2
  return (addTaskAct (if op = 1 then .close k else .cancel k) s, .ok 0 [wordOf (taskNo y.state)])

def descTaskCancel : Desc := { Desc.std 0x501 [3] 4 (fun _ => false) taskCancelBody with eff := true }

/-- ALLOT_CFG words 4 to 6: the settings in force are those accepted last (R467). -/
def allotWords (s : State) (robot : Option Nat) : List Word :=
  match robot with
  | none =>
    let c := s.task.cfgSet
    [wordOfFields [(c.period, 0), (natOfBool c.autoCommit, 16), (natOfBool c.autoStart, 17), (natOfBool c.autoClose, 18),
      (c.eps, 24)], wordOfFields [(c.valueBase, 0), (c.prioStep, 16)], wordOfFields [(c.maxBids, 0), (c.ttl, 24)]]
  | some r =>
    let a := tabGet s.task.robotsSet r AllotRobot.init
    [wordOfFields [(a.cap, 0), (natOfBool a.en, 16), (a.tasksMax, 17)], 0, 0]

def allotCfgBody (r : Req) (s : State) : Res := do
  let h := par r 0
  let k := fld h 8 15
  let one := bitAt h 1
  let a := par r 1
  let b := par r 2
  let c := par r 3
  let read := bitAt h 0
  need (onlyBits h 0xFF03 && (one || decide (k = 0)) && (read || (if one then onlyBits a 0xFFFFF && decide (b = 0) && decide (c = 0)
    else onlyBits a 0xFF07FFFF && onlyBits c 0xFF0FFFFF))) .badParam 0
  need (decide (k < nRobots s.member)) .range 0
  let g : AllotCfg :=
    { period := fld a 0 15, autoCommit := bitAt a 16, autoStart := bitAt a 17, autoClose := bitAt a 18, eps := fld a 24 31,
      valueBase := fld b 0 15, prioStep := fld b 16 31, maxBids := fld c 0 19, ttl := fld c 24 31 }
  let x : AllotRobot := { cap := fld a 0 15, en := bitAt a 16, tasksMax := fld a 17 19 }
  need (read || (if one then inRange x.tasksMax 1 4 else (decide (g.period = 0) || inRange g.period 10 6000) && decide (1 ≤ g.eps)))
    .range 1
  need (read || one || decide (1 ≤ g.valueBase)) .range 2
  need (read || one || (decide (1024 ≤ g.maxBids) && decide (1 ≤ g.ttl))) .range 3
  needOrigin s
  let s1 :=
    if read then s
    else if one then { s with task := { s.task with robotsSet := tabSet s.task.robotsSet k x } }
    else { s with task := { s.task with cfgSet := g } }
  return (s1, .ok 0 (wordOfFields [(natOfBool one, 1), (k, 8)] :: allotWords s1 (if one then some k else none)))

def descAllotCfg : Desc :=
  Desc.formLen { Desc.std 0x502 [3, 6] 7 (fun r => bitAt (par r 0) 0) allotCfgBody with eff := true }
    (readForm 0 3 6)

/-- The lock of a round that runs or starts at the next snapshot (R226); a command that waited for its time or its
predecessor meets it when it runs. -/
def roundLock (_ : Req) (s : State) : Except Fail Unit := need (s.task.run.isNone && s.task.runReq.isNone) .busy 0

def allotRunBody (r : Req) (s : State) : Res := do
  need (onlyBits (par r 0) 1) .badParam 0
  needOrigin s
  roundLock r s
  return ({ s with task := { s.task with runReq := some (r, fld (par r 0) 0 0) } }, .later false)

def descAllotRun : Desc :=
  { Desc.std 0x503 [3] 13 (fun _ => false) allotRunBody with lock := roundLock }

def assignWords (x : Assign) : List Word :=
  [wordOfFields [(x.robot, 0), (x.task, 8), (x.outcome, 19), (x.reason, 24)], wordOf x.cost] ++ words64 x.arrival

def allotGetBody (r : Req) (s : State) : Res := do
  let h := par r 0
  let n := fld h 16 23
  need (onlyBits h 0xFFFFFF) .badParam 0
  need (inRange n 1 128) .range 0
  needOrigin s
  match s.task.last with
  | none => failWith .notReady 0
  | some x =>
    let es := (x.assigns.drop (fld h 0 15)).take n
    return (s, .ok 0 ([wordOf x.id, wordOfFields [(x.assigns.length, 0), (natOfBool s.task.proposalAt.isSome, 16),
      (natOfBool x.committed, 17)], wordOf es.length] ++ es.flatMap assignWords))

def descAllotGet : Desc := Desc.read 0x504 [3] 518 allotGetBody

def allotCommitBody (r : Req) (s : State) : Res := do
  let m := (List.range 4).foldl (fun a i => a + (par r (1 + i)).toNat * 2 ^ (32 * i)) 0
  need (decide (m < 2 ^ nRobots s.member)) .range 0
  needOrigin s
  let here := match s.task.last with
    | some x => decide (x.id = (par r 0).toNat)
    | none => false
  let done := here && ((match s.task.last with
    | some x => x.committed
    | none => false) || !s.task.commits.isEmpty)
  need (done || (here && s.task.proposalAt.isSome)) .state 1
  need (!done) .state 2
  need (!latched s) .stopped 0
  let c : CommitReq := { req := some r, byCommand := true, robots := (List.range 128).filter (Nat.testBit m) }
  return ({ s with task := { s.task with commits := s.task.commits ++ [c] } }, .later false)

def descAllotCommit : Desc := { Desc.std 0x505 [7] 9 (fun _ => false) allotCommitBody with eff := true }

end Sys2Proof.Machine
end

