-- ==== Sys2Proof/Machine/Yard.lean ====
section
/-! DEFINITION. The yard outputs (chapter 10, R260 and R261). -/
set_option autoImplicit false

namespace Sys2Proof.Machine

def getYard (s : State) (k : Nat) : YardOut := tabGet s.spin.yardOut k YardOut.init

/-- What the refreshed sources say now: GO, TIME_OK and HOMING (R260). -/
def yardLevel (s : State) (y : YardOut) : Bool :=
  match y.source with
  | 2 => s.uz.granted.contains y.robot
  | 3 => decide (tqNow s = 3)
  | _ => decide ((getSpindle s y.robot).state = .homing)

/-- Sources 2 to 4 are refreshed (R260). -/
def refreshYard (s : State) : State :=
  { s with spin := { s.spin with
      yardOut := s.spin.yardOut.map (fun p => if p.2.source < 2 then p else (p.1, { p.2 with on := yardLevel s p.2 })) } }

/-- The state of a yard output (R260). -/
def yardOn (s : State) (k : Nat) : Bool :=
  let y := getYard s k
  s.spin.driven && decide (s.pair.role ≠ .standby) &&
    (match y.source with
      | 0 => y.level && !(y.stopOff && latched s)
      | 1 => !latched s && !s.stop.controlled
      | _ => y.on)

/-- The eight outputs as YARD_OUT_SET reports them. -/
def yardBits (s : State) : Nat := (List.range 8).foldl (fun a k => a + natOfBool (yardOn s k) * 2 ^ k) 0

/-- P+1 of a yard output in force. -/
def yardWord (y : YardOut) : Word :=
  wordOfFields [(y.source, 0), (natOfBool y.level, 3), (natOfBool y.stopOff, 4), (y.robot, 8)]

def yardOutSetBody (r : Req) (s : State) : Res := do
  let k := fld (par r 0) 0 2
  let v := par r 1
  let src := fld v 0 2
  let read := bitAt (par r 0) 8
  need (onlyBits (par r 0) 0x107 && (read || (onlyBits v 0xFF1F && (decide (src = 0) || decide (fld v 3 4 = 0)) &&
    (decide (src = 2) || decide (src = 4) || decide (fld v 8 15 = 0))))) .badParam 0
  need (read || decide (src ≤ 4)) .range 1
  need (read || decide (fld v 8 15 < nRobots s.member)) .range 0
  let y : YardOut := { source := src, level := bitAt v 3, stopOff := bitAt v 4, robot := fld v 8 15, on := false }
  let s1 := if read then s else
    { s with spin := { s.spin with yardOut := tabSet s.spin.yardOut k { y with on := yardLevel s y } } }
  return (s1, .ok 0 [wordOf k, yardWord (getYard s1 k), wordOf (yardBits s1)])

def descYardOutSet : Desc := (Desc.std 0x607 [3, 4] 6 (fun r => bitAt (par r 0) 8) yardOutSetBody).formLen (readForm 8 3 4)

end Sys2Proof.Machine
end

