-- ==== Sys2Proof/Machine/Tick.lean ====
section
/-! DEFINITION. The fleet tick (chapter 01, R307-R310): the input snapshot and the phases of R12, completion, overruns, and
the GO emission point. -/
set_option autoImplicit false

namespace Sys2Proof.Machine

/-! ### Overruns (R307) -/

/-- The present tick overruns: it commits nothing more, and EV_TICK_OVERRUN names the phase abandoned. -/
def markOverrun (s : State) : State :=
  let n := s.tick.number
  let c := s.sched.consec + 1
  let s1 := { s with
    tick := { s.tick with overrun := true },
    sched := { s.sched with
      overruns := s.sched.overruns + 1, consec := c, lastOverrun := n,
      ovrRecent := n :: s.sched.ovrRecent.filter (fun t => decide (n < t + 64)) } }
  raise 0x0F01 c [wordOf n, wordOf (min s.tick.phases 4 + 1)] .all s1

/-- The tick in progress has neither been completed nor been found to overrun. -/
def tickOpen (s : State) : Bool := !s.tick.completed && !s.tick.overrun

/-- TICK_DEADLINE (R307): the deadline passes and the tick has not been completed. -/
def execTickDeadline (s : State) : Host.Outcome State Fault Refusal :=
  .next (if ticking s && tickOpen s && reaches s.tick.deadline s then markOverrun (beginAt s.tick.deadline s)
    else begin_ 0 s)

/-! ### The boundary (R7-R10, R18, R355) -/

/-- The settings that apply at a boundary at device time t (R18). -/
def applyChanges (t : Nat) (k : Tick) : Tick :=
  let due := k.changes.filter (fun c => decide (c.second * nsPerSec ≤ t))
  let put := fun (a : Tick) (c : TickChange) =>
    { a with period := if c.period = 0 then a.period else c.period, guardSet := if c.guard = 0 then a.guardSet else c.guard,
             offset := if c.offset = 0 then a.offset else c.offset }
  due.foldl put { k with changes := k.changes.filter (fun c => !decide (c.second * nsPerSec ≤ t)) }

/-- The tick that opens at device time t (R9, R10, R12). -/
def newTick (t phases : Nat) (s : State) : Tick :=
  let k := applyChanges t s.tick
  let p := k.period * 1000000
  let next := ceilDiv (t + p / 2) p * p
  { k with
    started := true, number := if k.started then (k.number + 1) % 2 ^ 32 else 0, boundary := t, nextAt := next,
    deadline := next - p * max k.guardSet s.health.margins.guardReplan / 100, phases := phases, completed := false,
    overrun := false, missed := if s.tick.overrun then s.tick.missed + 1 else 0, emitted := false }

/-- The frames that the last tick assembled are held for the new one's GO emission point (R13); the watchdog is armed. -/
def startTick (k : Tick) (s : State) : State :=
  { s with
    tick := k, uz := { s.uz with held := s.uz.staged, staged := [] },
    stop := if s.stop.wdogArmed then s.stop else { s.stop with wdogArmed := true, wdogFrom := s.up } }

/-- The time that a tick has, added to what the cores could have worked (R305). -/
def addBudget (s : State) : State := { s with sched := { s.sched with budget := s.sched.budget + (s.tick.deadline - s.tick.boundary) } }

/-- A new tick opens at device time t. -/
def openTick (t phases : Nat) (s : State) : State :=
  let new := t / nsPerSec ≠ s.tick.boundary / nsPerSec
  let s1 := startTick (newTick t phases s) s
  periodicJobs (addBudget (if new then secondStats (applySolve s1) else s1))

/-! ### The input snapshot -/

def spinRobots (s : State) : List Nat := s.spin.spindles.map (fun p => p.1)

/-- A pending motion start (R45): SPIN_START_AT, POST_HOME, and SPIN_MODE with MODE 0. -/
def isMotionStart (r : Req) : Bool :=
  decide (r.op = 0x601) || decide (r.op = 0x605) || (decide (r.op = 0x606) && decide (fld (par r 0) 8 9 = 0))

/-- Pending motion starts complete with ST_STOPPED (R45, R287). -/
def cancelStarts (s : State) : State :=
  (s.execs.filter isMotionStart).foldl (fun a r => complete r .stopped 0 [] a)
    { s with execs := s.execs.filter (fun r => !isMotionStart r) }

/-- Firmware takes up a latch set (R284): its record, R252 for every spindle, R45 for motion starts. -/
def followLatch (s : State) : State :=
  if !s.stop.followUp then s
  else
    let st := s.stop
    let s1 := raise 0x0800 (st.cause + 8 * natOfBool st.immediate + 256 * st.icode) [wordOf st.stopTick] .all
      { s with stop := { s.stop with followUp := false } }
    cancelStarts ((spinRobots s1).foldl (fun a r => immediateStop r a) s1)

/-- The spindle is at work in a state that a controlled stop ends (R287). -/
def stoppable (x : Spindle) : Bool := decide (x.state = .run) || decide (x.state = .wait) || decide (x.state = .homing)

/-- The controlled phase at a snapshot (R287): stops are ordered, and once every spindle is at rest the latch sets. -/
def followPhase (s : State) : State :=
  if !s.stop.controlled then s
  else
    let s1 := (spinRobots s).foldl (fun a r => if stoppable (getSpindle a r) then controlledStop r .idle 4 a else a) s
    let s2 := cancelStarts s1
    if s2.spin.spindles.all (fun p => p.2.atRest) then endPhase false s2 else s2

/-- Per-robot stops at a snapshot (R288): the spindle follows R252 or R251, and a controlled one comes in force at rest. -/
def followRobot (s : State) (p : Nat × RobotStop) : State :=
  let r := p.1
  let x := p.2
  if x.inForce then (if x.immediate then immediateStop r s else s)
  else
    let s1 := if stoppable (getSpindle s r) then controlledStop r .idle 4 s else s
    if (getSpindle s1 r).atRest then forceRobot r x.cause false s1 else s1

/-- Where the stop chain stands at the snapshot, and what the spindles do about it. -/
def stopSnapshot (s : State) : State :=
  let s1 := followPhase (followLatch s)
  applyResets (s1.stop.robots.foldl followRobot s1)

/-- The swap of a committed graph, and what it brings for tasks and the proposal (R193, R227, R466). -/
def graphSnapshot (s : State) : State :=
  let (s1, hit) := swapGraph s
  let s2 := hit.foldl overrideTasks s1
  if s2.track.commitId = s.track.commitId then s2 else lapseProposal s2

/-- Progress along the routes (R205), and the tasks that are REACHED (R218). -/
def progressSnapshot (t : Nat) (s : State) : State :=
  let rs := s.track.robots.map (fun p => p.1)
  let s1 := rs.foldl (fun a r => progressRobot r a) s
  rs.foldl (fun a r => if (getTr a r).state = .done then reachTask t r a else a) s1

/-- The input snapshot at device time t (R10, R11, R17). -/
def snapshot (t : Nat) (s : State) : State :=
  let s1 := tickFixes t (shiftArp (applyPendingArp s))
  let s2 := applyGovCfg { s1 with
    corr := { s1.corr with levelSnap := actingLevel s1.corr }, stop := { s1.stop with cfg := s1.stop.cfgSet } }
  let s3 := applyTaskActs (graphSnapshot (applyMotionActs s2))
  let s4 := progressSnapshot t (captureLinks s3)
  let s5 := stopSnapshot (spinSnapshot t (actOnLinks s4))
  taskSnapshot t s5

/-! ### The governor phase (R268-R277) -/

/-- The following error is evaluated for this spindle (R275). -/
def feApplies (s : State) (r : Nat) : Bool :=
  let x := getSpindle s r
  (stoppable x || (decide (x.state = .stopping) && decide (x.stopKind = .controlled))) && (usableFix s r).isSome

/-- A robot's inputs of the governor phase at a snapshot at device time t. -/
def govInput (t : Nat) (g : Region) (r : Nat) (s : State) : GovIn :=
  let x := getSpindle s r
  let rest := decide (x.state = .idle) || decide (x.state = .hold) || decide (x.state = .manual)
  let l := getLink s r
  { sep := (getTr s r).sepIn, bnd := bndInput g r s, qual := qualInput s r, lat := ackLatency t l / 1000,
    brake := if rest then 0 else x.brakeDist,
    ref := if x.state = .manual then some (match l.telem with
      | some m => min m.speed.natAbs 65535
      | none => 0) else none,
    stale := isStale s r }

/-- The governor phase of a robot: its laws, then its supervisor; the stop that a FAULT asks for acts on the spindle in the
same tick (R12, R277). -/
def governOne (t : Nat) (g : Region) (s : State) (r : Nat) : State :=
  let i := govInput t g r s
  let s1 := governRobot r i s
  let s2 := if tabHas s1.track.robots r then modTr r (fun x => { x with bndIn := i.bnd }) s1 else s1
  let s3 := if tabHas s2.uz.robots r then modLink r (fun l => { l with ackMax := 0 }) s2 else s2
  if feApplies s3 r then
    let s4 := feEvaluate r ((getSpindle s3 r).cmdPos - (getTr s3 r).x) s3
    if (getGov s3 r).feState ≠ .fault ∧ (getGov s4 r).feState = .fault then
      match getRobotStop s4 r with
      | some x => followRobot s4 (r, x)
      | none => s4
    else s4
  else s3

def governPhase (t : Nat) (s : State) : State :=
  let g := regionOf s.track.deckle
  (List.range (nRobots s.member)).foldl (governOne t g) s

/-- The input snapshot at a boundary, and the phases that finish before the deadline (R10, R12): 0 only the capture, 1 the
governors too, 2 the reservations, 3 stepping, 4 and above assembly. What a phase that does not finish would have written
stays as it was (R307); stepping and assembly write at the tick's completion. -/
def tickPhases (phases : Nat) (s : State) : State :=
  let s1 := if tickOpen s then markOverrun s else s
  let t := s1.now
  let s2 := snapshot t (recordSwitch (openTick t phases s1))
  let s3 := if 1 ≤ phases then governPhase t s2 else s2
  if 2 ≤ phases then reservePhase t s3 else s3

/-- TICK_BOUNDARY (R10, R12). -/
def execTickBoundary (phases : Nat) (s : State) : Host.Outcome State Fault Refusal :=
  .next (if ticking s then tickPhases phases (beginAt s.tick.nextAt s) else begin_ 0 s)

/-! ### Completion (R12, R394, R406) -/

/-- A PAIR_SWITCH takes effect in this tick (R17, R406). -/
def handsOver (s : State) : Bool :=
  !s.pair.switchReqs.isEmpty && decide (s.pair.role = .active) && decide (s.tick.number ≠ s.pair.switchAfter)

/-- The settings that a pair shares. -/
def sharedOf (s : State) : Shared :=
  { ports := s.net.ports.map (fun p => (p.1, p.2.cfg, p.2.qos)), ifaces := s.net.ifaces.filter (fun p => decide (p.1 < 3)),
    vlans := s.net.vlans, statics := s.net.fdb.filter (fun e => e.static), routes := s.net.routes, ageTime := s.net.ageTime,
    holdoff := s.net.holdoff, src := s.time.srcSet, servo := s.time.servoSet, pps := s.time.pps, ptp := s.time.ptpSet,
    ptpPorts := ptpPortsSet s.time }

/-- The MIRROR record of the tick (R394). -/
def mirrorOf (s : State) : MirrorData :=
  { up := s.up, tick := s.tick, stop := s.stop, gov := s.gov, spin := s.spin, track := s.track, task := s.task,
    uz := { s.uz with joins := [] },
    execs := s.execs ++ (s.time.waiting.filter (fun p => p.req.at_ && decide (p.req.q ≤ 16))).map
      (fun p => { p.req with accepted := true }), jobs := s.sched.jobs, rse := s.rse, shared := sharedOf s,
    major := Config.mirrorMajor (runBank s).payload,
    minor := Config.mirrorMinor (runBank s).payload, bytes := (Config.freeWord s.fresh).toNat % 1048577,
    digestsMatch := true, handOver := handsOver s }

/-- The active module of a pair hands its MIRROR record to the Hexlux lane; with the lane down it is discarded. -/
def sendMirror (s : State) : State :=
  if s.pair.role = .active ∧ s.pair.laneUp = true then
    let (_, s1) := drawFresh s
    let m := mirrorOf s
    emit (.mirror m) { s1 with pair := { s1.pair with
      laneOut := (s1.pair.laneOut + 1) % 2 ^ 32, lastMirror := s.tick.number, mirrorBytes := m.bytes } }
  else s

/-- PAIR_SWITCH acts at the completion of the tick in which it takes effect (R406). -/
def handOver (s : State) : State :=
  if handsOver s then
    s.pair.switchReqs.foldl (fun a r => complete r .ok 0 [wordOf s.tick.number] a)
      (becomeStandby { s with pair := { s.pair with switchReqs := [] } })
  else s

/-- The tick is completed: ICODE 1 and ICODE 2 cease, and the watchdog counts from here (R464). -/
def completeTick (s : State) : State :=
  let s1 := ceaseFault 2 (ceaseFault 1 { s with
    tick := { s.tick with completed := true, toggle := !s.tick.toggle, lastCompleted := some s.up },
    spin := { s.spin with driven := s.spin.driven || s.sys.everReady } })
  handOver (sendMirror (noteSlack s1))

/-- TICK_COMPLETE (R12): spindle stepping, which also catches up the windows of overrun ticks (R309), frame assembly, the
mirror record, and completion; past the deadline the tick overruns instead. -/
def execTickComplete (dt : Nat) (s : State) : Host.Outcome State Fault Refusal :=
  let s1 := begin_ dt s
  .next (if ticking s1 && tickOpen s1 && decide (4 ≤ s1.tick.phases) then
    if s1.tick.deadline < s1.now then markOverrun s1
    else
      let (s2, pts) := stepPhase s1
      completeTick (assemble pts s2)
  else s1)

/-! ### The GO emission point (R13, R79, R308) -/

/-- FSP HEALTH (FSP words). -/
def fspHealth (s : State) : Nat :=
  flagBits [s.health.ueSeen, decide (0 < tickOvr64 s), decide (quarantinedMask s ≠ 0), s.health.spareFailed,
    s.health.margins.replanned, decide (s.corr.level = 3), s.time.holdover, s.time.asymSuspect]

/-- The device time within which FW_ALIVE stays 1 after a completed tick. -/
def aliveNs (s : State) : Nat := 4 * periodNs s

/-- The fields of the FSP that are refreshed together (R79). -/
def refreshFsp (s : State) : State :=
  let alive := match s.tick.lastCompleted with
    | some t => decide (s.up < t + aliveNs s)
    | none => false
  { s with fsp :=
    { discrepancy := s.stop.discrepancy, stopOut := !latched s, active := signsGo s, tq := tqNow s, toggle := s.tick.toggle,
      fwAlive := alive, feFault := s.gov.robots.any (fun p => decide (p.2.feState = .fault)),
      tick := s.tick.number % 65536, robotsGo := s.uz.granted.length,
      stopCause := if latched s then s.stop.cause else 0,
      robotsStopped := (s.stop.robots.filter (fun p => p.2.inForce)).length, roversFixed := roversFixed s,
      roversStale := roversStale s, health := fspHealth s, sec := (s.now / nsPerSec) % 65536 } }

/-- The last beacons with TICK of the overrun tick; their EXPIRY is that of the release (R308). -/
def carryBeacons (s : State) : List Held :=
  let n := (s.tick.number + 2 ^ 32 - 1) % 2 ^ 32
  s.uz.lastBeacons.map (fun h => match h.body with
    | .go _ period timeout es => { h with tick := n, body := .go n period timeout es }
    | _ => h)

def isGo (h : Held) : Bool := match h.body with
  | .go .. => true
  | _ => false

/-- Beacons are released, where the key-valid line lets them be signed; they are the last ones released from then on. -/
def releaseBeacons (hs : List Held) (s : State) : State :=
  if keyValid s && !hs.isEmpty then
    hs.foldl (fun a h => releaseGo a h) { s with uz := { s.uz with lastBeacons := [], granted := [] } }
  else s

/-- The frames of the last tick are released, GO first; after an overrun its carry beacons, and after two overruns in a
row nothing (R13, R308). -/
def releaseTick (s : State) : State :=
  match s.tick.missed with
  | 0 =>
    let hs := s.uz.held
    let s1 := releaseBeacons (hs.filter isGo) s
    (hs.filter (fun h => !isGo h)).foldl releaseUnicast { s1 with uz := { s1.uz with held := [] } }
  | 1 =>
    let hs := carryBeacons s
    let s1 := releaseBeacons hs s
    if keyValid s && !hs.isEmpty then
      { s1 with sched := { s1.sched with carryBeacons := s1.sched.carryBeacons + hs.length } }
    else s1
  | _ => s

/-- GO_EMISSION (R13, R79, R260): releases, FSP and yard outputs, and the RELEASED record of the lane. -/
def emitGo (s : State) : State :=
  let s1 := releaseTick { s with tick := { s.tick with emitted := true } }
  laneSend 3 [(s.tick.number + 2 ^ 32 - 1) % 2 ^ 32] (refreshYard (refreshFsp s1))

def execGoEmission (s : State) : Host.Outcome State Fault Refusal :=
  let due := s.tick.boundary + s.tick.offset * 1000
  .next (if ticking s && s.tick.started && !s.tick.emitted && reaches due s then emitGo (beginAt due s) else begin_ 0 s)

def notAlive (s : State) : State := { s with fsp := { s.fsp with fwAlive := false } }

/-- FW_ALIVE_TIMEOUT (R80): no tick has completed for 4 tick periods. -/
def execFwAliveTimeout (s : State) : Host.Outcome State Fault Refusal :=
  .next (match s.tick.lastCompleted with
    | some t =>
      notAlive (beginUp (t + aliveNs s) s)
    | none => begin_ 0 s)

end Sys2Proof.Machine
end

