-- ==== Sys2Proof/Machine/Health.lean ====
section
/-! DEFINITION. Health (chapter 19): ECC and scrub, spares, margin re-planning, self-tests, and their commands. -/
set_option autoImplicit false

namespace Sys2Proof.Machine

def dayNs : Nat := 86400 * nsPerSec

def getMem (s : State) (k : Nat) : EccMem := tabGet s.health.mems k EccMem.init

def setMem (k : Nat) (x : EccMem) (s : State) : State :=
  { s with health := { s.health with mems := tabSet s.health.mems k x } }

/-- Spare rows of a memory (R434): 8 in each 256 KiB of on-die SRAM; none in DRAM and MRAM. -/
def spareRows (k : Nat) : Nat := [256, 128, 32, 32, 128, 8, 8, 8, 8, 0, 0].getD k 0

/-- A health, spare or margin event, with interrupt source 21 (R64). -/
def healthEvent (code detail : Nat) (ws : List Word) (s : State) : State := setInt 21 (raise code detail ws .all s)

/-! ### ECC (R433) -/

/-- Corrected errors of the last 24 h. -/
def recentErrors (s : State) (m : EccMem) : List (Nat × Nat) := m.recent.filter (fun p => decide (s.up < p.1 + dayNs))

/-- A corrected error in a row: counted, and with the fourth in 24 h the row is replaced by a spare. -/
def correctedError (k row : Nat) (s : State) : State :=
  let m := getMem s k
  let es := recentErrors s m ++ [(s.up, row)]
  let hot := decide (4 ≤ (es.filter (fun p => decide (p.2 = row))).length) && decide (m.sparesUsed < spareRows k)
  setMem k { m with
    ce := cnt32 m.ce, recent := if hot then es.filter (fun p => decide (p.2 ≠ row)) else es,
    sparesUsed := if hot then m.sparesUsed + 1 else m.sparesUsed } s

/-- SCRUB (R433): a word is scrubbed; a corrected error is written back and counted; the end of a full pass is noted. -/
def execScrub (mem row : Nat) (corrected endPass : Bool) (dt : Nat) (s : State) : Host.Outcome State Fault Refusal :=
  if 10 < mem then .fault .noSuchUnit
  else
    let s1 := begin_ dt s
    if !powered s1 then .next s1
    else
      let s2 := if corrected then correctedError mem row s1 else s1
      .next (if endPass then setMem mem { getMem s2 mem with scrubEnd := s2.now / nsPerSec } s2 else s2)

/-- An error of ICODE 2, which in a pair also asserts PFAULT_OUT (R389). -/
def criticalError (s : State) : State := if s.pair.en then assertPfault (raiseFault 2 s) else raiseFault 2 s

/-- What an uncorrectable error does where it lies (R433). -/
def errorAt (place : EccPlace) (s : State) : State :=
  match place with
  | .tickState => criticalError s
  | .solver r => if (getRover s r).binding.isSome then modRover r (fun x => { x with resets := x.resets ++ [(3, 0, 0)] }) s else s
  | .packet p i => modPort p (fun x => { x with queue := x.queue.eraseIdx i }) s
  | .instruction executing => if executing then criticalError s else s
  | .mramRecord audit n =>
    let g := getRing s audit
    setRing audit { g with recs := g.recs.map (fun x => if x.seq = n then { x with crcBad := true } else x) } s
  | .mramAct b =>
    if b then { s with upd := { s.upd with recB := { s.upd.recB with good := false } } }
    else { s with upd := { s.upd with recA := { s.upd.recA with good := false } } }
  | .other => s

/-- An uncorrectable error is counted and recorded, and acts where it lies. -/
def uncorrectable (mem off : Nat) (place : EccPlace) (s : State) : State :=
  let m := getMem s mem
  let s1 := setMem mem { m with ue := cnt32 m.ue } { s with health := { s.health with ueSeen := true } }
  errorAt place (healthEvent 0x0F12 (mem + 16) [wordOf off] s1)

/-- ECC_UNCORRECTABLE (R433). -/
def execEccUncorrectable (mem off : Nat) (place : EccPlace) (dt : Nat) (s : State) : Host.Outcome State Fault Refusal :=
  if 10 < mem then .fault .noSuchUnit
  else
    let s1 := begin_ dt s
    .next (if powered s1 then uncorrectable mem off place s1 else s1)

/-! ### Spares (R434) -/

/-- The next untested spare of a pool is taken; a bad one, or none, leaves the unit retired without replacement. -/
def takeSpare (good : Bool) (p : Pool) : Pool × Bool :=
  if p.spares = 0 then ({ p with lost := p.lost + 1 }, false)
  else if good then ({ p with spares := p.spares - 1 }, true)
  else ({ p with spares := p.spares - 1, failed := p.failed + 1, lost := p.lost + 1 }, false)

/-- EV_SPARE_FAIL: the unit is retired without replacement. -/
def spareFail (pool unit left : Nat) (s : State) : State :=
  healthEvent 0x0F11 pool [wordOf unit, wordOf left] { s with health := { s.health with
    spareFailed := true, replanDue := s.health.replanDue ++ [2] } }

/-- A lane of a cluster fails. -/
def laneFails (unit cluster : Nat) (good : Bool) (s : State) : State :=
  let (p, kept) := takeSpare good (s.health.lanePools.getD cluster { spares := 0, failed := 0, lost := 0 })
  let s1 := { s with health := { s.health with lanePools := s.health.lanePools.set cluster p } }
  if kept then s1
  else capacityChange (spareFail 0 unit p.spares { s1 with rse := { s1.rse with lanes := s1.rse.lanes - 1 } })

/-- A correlator channel fails (R96). -/
def channelFails (unit : Nat) (good : Bool) (s : State) : State :=
  let (p, kept) := takeSpare good s.health.chanPool
  let s1 := { s with health := { s.health with chanPool := p } }
  if kept then s1
  else
    let s2 := if unit < nChannels s.member then setChan unit { getChan (releaseChan unit s1) unit with state := .retired } (releaseChan unit s1) else s1
    spareFail 1 unit p.spares s2

/-- A row of a memory fails. -/
def rowFails (mem row : Nat) (place : EccPlace) (good : Bool) (s : State) : State :=
  let m := getMem s mem
  if m.sparesUsed < spareRows mem ∧ good = true then setMem mem { m with sparesUsed := m.sparesUsed + 1 } s
  else
    let used := if m.sparesUsed < spareRows mem then m.sparesUsed + 1 else m.sparesUsed
    let s1 := setMem mem { m with sparesUsed := used, rowsLost := m.rowsLost + 1 } s
    uncorrectable mem row place (spareFail 2 row (spareRows mem - used) s1)

/-- UNIT_FAILURE (R434): a unit in service fails. -/
def execUnitFailure (u : UnitFail) (dt : Nat) (s : State) : Host.Outcome State Fault Refusal :=
  let known := match u.pool with
    | 0 => decide (u.cluster < 4)
    | 1 => decide (u.unit < nChannels s.member)
    | 2 => decide (u.cluster ≤ 8)
    | _ => false
  if !known then .fault .noSuchUnit
  else
    let s1 := begin_ dt s
    .next (if !powered s1 then s1
      else match u.pool with
        | 0 => laneFails u.unit u.cluster u.spareGood s1
        | 1 => channelFails u.unit u.spareGood s1
        | _ => rowFails u.cluster u.unit u.place u.spareGood s1)

/-! ### Margins (R435, R436) -/

/-- Words 4 to 10 of MARGIN_GET. -/
def marginWords (s : State) : List Word :=
  let m := s.health.margins
  [wordOf m.vcore, wordOfFields [(m.sC % 65536, 0), (m.sS % 65536, 16)],
   wordOfFields [(m.guardReplan, 0), (s.tick.guardSet, 8)], wordOf s.rse.mhz, wordOf (servoSetOf s).ageing,
   wordOfInt (sat32 m.ageingMeas), wordOf m.replanAt]

/-- The linear trend of law 0's output (R435), in ppt per day: the slope of the line of least squares through the samples;
0 where they give none. -/
def ageingTrend (l : List (Nat × Int)) : Int :=
  let n : Int := l.length
  let sum := fun (f : Int → Int → Int) => l.foldl (fun a p => a + f p.1 p.2) 0
  let den := n * sum (fun x _ => x * x) - sum (fun x _ => x) * sum (fun x _ => x)
  if den = 0 then 0
  else roundQ ((n * sum (fun x y => x * y) - sum (fun x _ => x) * sum (fun _ y => y)) * 86400) den.toNat

/-- The re-plan (R435): supply, guard, SOLVE clock and holdover, from what the monitors read and the trend shows. -/
def replan (cause sC sS : Nat) (s : State) : State :=
  let m := s.health.margins
  let ageing := ageingTrend s.time.trend
  let excess := fun (x : Nat) => ceilDiv (x - 800) 100
  let vcore := max m.vcore (min 40 (5 * ceilDiv (max sC sS) 100))
  let guard := 12 + excess sC
  let drop := 50 * excess sS
  let f := max 700 (1000 - drop)
  let plan := match m.solvePending with
    | some (g, _) => g
    | none => m.solveMhz
  let age := max (servoSetOf s).ageing (ceilDiv (2 * ageing.natAbs) 100 * 100)
  let tired := decide (50 < guard) || decide (300 < drop)
  let newGuard := max m.guardReplan (min 50 guard)
  let changed := decide (vcore ≠ m.vcore) || decide (newGuard ≠ m.guardReplan) || decide (f < plan) ||
    decide (age ≠ (servoSetOf s).ageing)
  let m1 := { m with
    sC := sC, sS := sS, ageingMeas := ageing, ageing := if age = (servoSetOf s).ageing then m.ageing else age, vcore := vcore, guardReplan := newGuard,
    solvePending := if f < plan then some (f, s.now / nsPerSec + 1) else m.solvePending,
    exhausted := m.exhausted || tired, replans := if changed then m.replans + 1 else m.replans,
    cause := if changed then cause else m.cause, replanAt := if changed then s.rec_.opTime % 2 ^ 32 else m.replanAt,
    replanned := m.replanned || changed }
  let s1 := { s with health := { s.health with margins := m1 } }
  if changed then healthEvent 0x0F10 cause (marginWords s1) s1 else s1

/-- The instant of the timers' clock at which the next hour of operating time ends. -/
def nextHourUp (s : State) : Nat := s.up + (((s.health.replanHour + 1) * 4096 - s.rec_.opTime) * opUnit - s.rec_.opFrac)

/-- The hour that ends now is planned for. -/
def noteHour (s : State) : State := { s with health := { s.health with replanHour := s.rec_.opTime / 4096 } }

/-- A cause that waits is planned for. -/
def takeCause (cause : Nat) (s : State) : State :=
  { s with health := { s.health with replanDue := s.health.replanDue.erase cause } }

/-- MARGIN_REPLAN (R435): after an hour of operating time (cause 0), a core quarantine (1) or a spare failure (2); of the
first, `hour` names the hour that ends. -/
def execMarginReplan (cause sC sS hour dt : Nat) (s : State) : Host.Outcome State Fault Refusal :=
  if 2 < cause then .fault .noSuchUnit
  else if cause = 0 then
    .next (if powered s && decide (s.health.replanHour = hour) then
        replan 0 sC sS (noteHour (applySolve (beginUp (nextHourUp s) s)))
      else begin_ dt s)
  else
    let s1 := begin_ dt s
    .next (if powered s1 && s1.health.replanDue.contains cause then
      replan cause sC sS (takeCause cause (applySolve s1))
    else s1)

/-! ### Self-tests (R402, R434) -/

/-- A fault that a self-test found retires the unit: bit 0 a tick core, 1 an SRAM row (the memory's number times 65,536,
and the row), 3 an RSE lane, 4 a correlator channel; numbers from those in service on are spares. -/
def retireTested (bit unit : Nat) (s : State) : State :=
  match bit with
  | 0 => if unit < nCores s.member then quarantine unit 0 s else s
  | 1 =>
    let m := getMem s (unit / 65536)
    if m.sparesUsed < spareRows (unit / 65536) then setMem (unit / 65536) { m with sparesUsed := m.sparesUsed + 1 } s else s
  | 3 =>
    if unit < nLanes s.member then laneFails unit (unit / (nLanes s.member / 4) % 4) true s
    else
      let c := (unit - nLanes s.member) / 4 % 4
      let p := s.health.lanePools.getD c { spares := 0, failed := 0, lost := 0 }
      { s with health := { s.health with lanePools := s.health.lanePools.set c { p with spares := p.spares - 1, failed := p.failed + 1 } } }
  | 4 =>
    if unit < nChannels s.member then channelFails unit true s
    else
      let p := s.health.chanPool
      { s with health := { s.health with chanPool := { p with spares := p.spares - 1, failed := p.failed + 1 } } }
  | _ => s

/-- The mask of a self-test: 0 means all. -/
def testMask (m : Nat) : Nat := if m = 0 then 0x7F else m

/-- The bits of a mask. -/
def maskBits (m : Nat) : List Nat := (List.range 7).filter (Nat.testBit m)

/-- Quarantined cores that pass return to service (R311). -/
def returnCores (s : State) : State :=
  { s with sched := { s.sched with cores := s.sched.cores.map (fun p => (p.1, { p.2 with quarantined := false })) } }

/-- SELFTEST_RUN ends: PASS, FAIL, the units retired, and the duration. -/
def endSelftest (r : Req) (mask fail unit : Nat) (s : State) : State :=
  let bad := maskBits (mask &&& fail)
  let s1 := match bad with
    | b :: _ => retireTested b unit s
    | [] => s
  let s2 := if Nat.testBit mask 0 && !Nat.testBit fail 0 then returnCores s1 else s1
  let s3 := { s2 with health := { s2.health with selftest := none } }
  let good := mask - (mask &&& fail)
  let ws := [wordOf good, wordOf (mask &&& fail), wordOf (if bad.isEmpty then 0 else 1),
    wordOf ((s3.up - s3.health.selftestAt) / 1000000)]
  complete r (if bad.isEmpty then .ok else .fault) 0 ws s3

/-- A cycle of the standby's self-test ends (R402). -/
def endCycle (fail unit duration : Nat) (s : State) : State :=
  let bad := maskBits (s.pair.mask &&& fail)
  let s := if Nat.testBit s.pair.mask 0 && !Nat.testBit fail 0 then returnCores s else s
  match bad with
  | [] => { s with pair := { s.pair with selftestPass := true, cover := duration } }
  | b :: _ =>
    raise 0x0C02 b [wordOf unit] .all
      (retireTested b unit { s with pair := { s.pair with
        selftestPass := false, selftestFaults := cnt32 s.pair.selftestFaults, cover := duration } })

/-- SELFTEST_CYCLE_DONE (R402): the test that runs ends, with the mask of the tests that failed and the unit at fault of
the first of them: SELFTEST_RUN's, or a cycle of the standby. -/
def execSelftestCycleDone (fail unit duration dt : Nat) (s : State) : Host.Outcome State Fault Refusal :=
  let s1 := begin_ dt s
  .next (if !powered s1 then s1
    else match s1.health.selftest with
      | some (r, mask) => endSelftest r mask fail unit s1
      | none => if s1.pair.role = .standby then endCycle fail unit duration s1 else s1)

/-! ### Commands (R437) -/

def sumOf (l : List Nat) : Nat := l.foldl (· + ·) 0

def healthSummary (s : State) : List Word :=
  let ms := s.health.mems.map (fun p => p.2)
  let ce := sumOf (ms.map (fun m => (recentErrors s m).length))
  let spares := sumOf ((List.range 9).map spareRows) - sumOf (ms.map (fun m => m.sparesUsed))
  let ps := s.health.lanePools
  [wordOfFields [(fspHealth s, 0), (natOfBool s.health.margins.exhausted, 8)],
   wordOf (sumOf (ms.map (fun m => m.ue))), wordOf ce,
   wordOfFields [(s.rse.lanes, 0), (sumOf (ps.map (fun p => p.spares)), 8), (sumOf (ps.map (fun p => p.lost)), 16)],
   wordOfFields [(nChannels s.member - s.health.chanPool.lost, 0), (s.health.chanPool.spares, 16), (s.health.chanPool.lost, 24)],
   wordOfFields [(spares, 0), (sumOf (ms.map (fun m => m.rowsLost)), 16)],
   wordOfFields [(uint 16 s.health.lidTemp, 0), (s.health.vin % 65536, 16)]]

def healthMemory (s : State) (k : Nat) : List Word :=
  let m := getMem s k
  [wordOfFields [(1, 0), (k, 8)], wordOf m.ce, wordOf (recentErrors s m).length, wordOf m.ue,
   wordOfFields [(spareRows k - m.sparesUsed, 0), (m.sparesUsed, 16)], wordOf m.scrubEnd]

def healthGetBody (r : Req) (s : State) : Res := do
  let h := par r 0
  let sec := fld h 0 0
  need (onlyBits h (if sec = 1 then 0xF01 else 1)) .badParam 0
  need (decide (fld h 8 11 ≤ 10)) .range 0
  return (s, .ok 0 (if sec = 0 then healthSummary s else healthMemory s (fld h 8 11)))

def descHealthGet : Desc := { Desc.read 0xF02 [3] 10 healthGetBody with standbyOk := fun _ => true, updOk := true }

def selftestRunBody (r : Req) (s : State) : Res := do
  need (onlyBits (par r 0) 0x7F) .badParam 0
  need s.health.selftest.isNone .busy 0
  return ({ s with health := { s.health with selftest := some (r, testMask (fld (par r 0) 0 6)), selftestAt := s.up } }, .later false)

def descSelftestRun : Desc :=
  { Desc.std 0xF03 [3] 11 (fun _ => false) selftestRunBody with
    standbyOk := fun _ => true, lock := fun _ s => need s.health.selftest.isNone .busy 0 }

def marginGetBody (_ : Req) (s : State) : Res :=
  let m := s.health.margins
  .ok (s, .ok 0 ([wordOfFields [(m.replans % 65536, 0), (m.cause, 16)]] ++ marginWords s ++
    [wordOf (natOfBool m.exhausted), wordOf (uint 16 s.health.lidTempMax)]))

def descMarginGet : Desc := { Desc.read 0xF04 [2] 13 marginGetBody with standbyOk := fun _ => true, updOk := true }

end Sys2Proof.Machine
end

