-- ==== Sys2Proof/Machine/Pair.lean ====
section
/-! DEFINITION. The redundant pair (chapter 17): arbitration, switch-over, the Hexlux lane, and the PAIR commands. -/
set_option autoImplicit false

namespace Sys2Proof.Machine

/-- What a command does, with EV_PAIR_STATE where ROLE stays and anything else of PAIR_GET word 3 changes (R407). -/
def reportPair (f : State → State) (s : State) : State :=
  let s1 := f s
  if s1.pair.role = s.pair.role ∧ pairWord3 s1 ≠ pairWord3 s then pairState s1 else s1

def modPair (f : Pair → Pair) (s : State) : State := { s with pair := f s.pair }

/-! ### Roles (R388-R391) -/

/-- A boundary that passed with no tick: the i-th since tick n, at device time t. -/
def missTick (n i t : Nat) (s : State) : State :=
  let p := periodNs s
  { s with tick := { s.tick with
    number := (n + i + 1) % 2 ^ 32, boundary := t, nextAt := t + p, missed := i, phases := 0,
    deadline := t + p - p * guardNow s / 100, completed := false, emitted := decide (t + s.tick.offset * 1000 < s.now) } }

/-- The next boundary lies at t. -/
def aimAt (t : Nat) (s : State) : State := { s with tick := { s.tick with nextAt := t } }

/-- Boundaries that lie before the present time are counted, and are ticks that overran (R9, R401); the answer is how
many they are. -/
def passBoundaries (s : State) : Nat × State :=
  let p := periodNs s
  if !s.tick.running ∨ s.now ≤ s.tick.nextAt then (0, s)
  else if !s.tick.started then (0, aimAt (boundaryFrom s s.now) s)
  else
    let k := ceilDiv (s.now - s.tick.nextAt) p
    let missed := fun (a : State) (i : Nat) => markOverrun (missTick s.tick.number i (s.tick.nextAt + i * p) a)
    (k, (List.range k).foldl missed s)

/-- The module becomes ACTIVE; EV_PAIR_SWITCH follows at the first snapshot. The watchdog is armed anew (R464), and the
source list takes effect (R346). -/
def becomeActive (cause gap n passed : Nat) (s : State) : State :=
  let s1 := setRole .active { s with
    pair := { s.pair with
      synced := false, resync := false, deadFrom := none, loaded := false, interlockFault := false,
      switches := cnt32 s.pair.switches, lastGap := gap, switchEvent := some (cause, latched s, n, gap, passed) },
    stop := { s.stop with wdogArmed := false } }
  partnerTime s1

/-- The module arbitrates: it waits with ACT_IN inactive (R391). -/
def arbitrate (wait : Nat) (s : State) : State :=
  if s.pair.actIn then becomeStandby s
  else setRole .arbitrating (dropFrames (modPair (fun p => { p with arbWait := wait, arbUntil := s.up + wait }) s))

/-- The wait of an arbitration after boot. -/
def bootWait (s : State) : Nat := if s.pair.prefer then 2000000 else 6000000

/-- ARBITRATION_TIMEOUT (R391): the wait ends with ACT_IN inactive. -/
def execArbitrationTimeout (s : State) : Host.Outcome State Fault Refusal :=
  .next (if powered s && decide (s.pair.role = .arbitrating) && s.sys.everReady && !s.pair.actIn then
    let s1 := beginUp s.pair.arbUntil s
    let (k, s2) := passBoundaries s1
    abandonRound (becomeActive 3 0 s.pair.lastMirror k s2)
  else begin_ 0 s)

/-- ACT_COLLISION (R390, R391): both modules are ACTIVE; the latch sets with ICODE 7, and the module arbitrates again: it
waits from when ACT_IN falls silent. -/
def execActCollision (dt : Nat) (s : State) : Host.Outcome State Fault Refusal :=
  let s1 := begin_ dt s
  .next (if powered s1 && decide (s1.pair.role = .active) && s1.pair.actIn && decide (s1.pair.actInAt + 8000 < s1.up) then
    let (i, s2) := drawFresh (dropSwitch (raiseFault 7 s1))
    let wait := 1000000 + 20000 * (Config.freshDelay i).toNat
    setRole .arbitrating (dropFrames (modPair (fun p => { p with arbWait := wait, arbUntil := s2.up + wait }) s2))
  else s1)

/-- The instant at which an active module has completed no tick for SWITCH_TICKS tick periods (R389); it counts as the
watchdog of ICODE 1 does. -/
def switchAt (s : State) : Option Nat :=
  if s.stop.wdogArmed && decide (s.pair.role = .active) then
    some (max (s.tick.lastCompleted.getD 0) s.stop.wdogFrom + s.pair.switchTicks * periodNs s)
  else none

/-- SWITCH_TICKS_EXPIRE (R389): the hardware stops ACT_OUT and the module leaves the ACTIVE role. -/
def execSwitchTicksExpire (s : State) : Host.Outcome State Fault Refusal :=
  .next (match switchAt s with
    | some t => if powered s then leaveActive (beginUp t s) else begin_ 0 s
    | none => begin_ 0 s)

/-! ### ACT_IN and PFAULT_IN (R398) -/

/-- Why a standby takes over: 0 a hand-over, 1 the partner's fault, 2 its silence. -/
def takeoverCause (s : State) : Nat :=
  match s.pair.mirror with
  | some m => if m.handOver then 0 else if s.pair.pfaultIn then 1 else 2
  | none => if s.pair.pfaultIn then 1 else 2

/-- ACT_IN_LOSS (R398): ACT_IN ceases to be active; a standby with AUTO = 1 begins its dead time, and a module that
arbitrates begins its wait. -/
def execActInLoss (dt : Nat) (s : State) : Host.Outcome State Fault Refusal :=
  .next (reportPair (fun s1 =>
    let s2 := modPair (fun p => { p with actIn := false, actInAt := s1.up, interlockFault := false }) s1
    match s2.pair.role with
    | .standby =>
      if powered s2 && s2.pair.auto then modPair (fun p => { p with deadFrom := some s2.up, takeoverCause := takeoverCause s2 }) s2
      else s2
    | .arbitrating => modPair (fun p => { p with arbUntil := s2.up + p.arbWait }) s2
    | _ => s2) (begin_ dt s))

/-- ACT_IN_ACTIVE (R391, R398): ACT_IN becomes active; a module that arbitrates becomes STANDBY, a dead time ends. -/
def execActInActive (dt : Nat) (s : State) : Host.Outcome State Fault Refusal :=
  .next (reportPair (fun s1 =>
    let s2 := modPair (fun p => { p with actIn := true, actInAt := s1.up, deadFrom := none, loaded := false }) s1
    match s2.pair.role with
    | .arbitrating => if powered s2 && s2.sys.everReady then becomeStandby s2 else s2
    | .standby => modPair (fun p => { p with interlockFault := p.pfaultIn }) s2
    | _ => s2) (begin_ dt s))

/-- PFAULT_IN_CHANGE (R398): the partner's fault pad; it records the cause of a takeover. -/
def execPfaultInChange (fault : Bool) (dt : Nat) (s : State) : Host.Outcome State Fault Refusal :=
  .next (reportPair (fun s1 =>
    let s2 := modPair (fun p => { p with pfaultIn := fault, interlockFault := fault && p.actIn && decide (p.role = .standby) }) s1
    if s2.pair.deadFrom.isSome then modPair (fun p => { p with takeoverCause := takeoverCause s2 }) s2 else s2) (begin_ dt s))

/-! ### What a standby takes from the mirror (R393-R396) -/

/-- The governor laws of the record among the module's own laws. -/
def mirrorLaws (s : State) (m : MirrorData) : Tab Law :=
  (m.gov.laws.filter (fun p => decide (slotUse s.member p.1 = 1))).foldl (fun a p => tabSet a p.1 p.2) s.gov.laws

/-- Bindings and settings of the rovers (R394). -/
def mirrorRovers (s : State) (m : MirrorData) : Tab Rover :=
  m.rse.rovers.map (fun p =>
    let x := tabGet s.rse.rovers p.1 Rover.init
    let y := if x.binding.isSome = p.2.binding.isSome then x else Rover.init
    (p.1, { y with
      binding := p.2.binding, cfg := p.2.cfg, cfgBiases := p.2.cfgBiases,
      biases := if p.2.cfg = x.cfg ∧ y.biases.isSome then y.biases
        else if p.2.cfgBiases then some (p.2.cfg.gloBias1, p.2.cfg.gloBias2) else none }))

/-- An instant of a clock that reads `a` as one that reads `b` at the same moment counts it. -/
def onClock (a b t : Nat) : Nat := t + b - a

/-- A per-robot stop, its timer and its burst carried over to another clock. -/
def robotStopOn (f : Nat → Nat) (x : RobotStop) : RobotStop :=
  { x with deadline := f x.deadline, burst := x.burst.map (fun b => { b with nextAt := f b.nextAt }) }

/-- A robot's link, its timers carried over to another clock. -/
def linkOn (f : Nat → Nat) (l : Link) : Link :=
  { l with epochAt := f l.epochAt, rekeyFrom := f l.rekeyFrom, rekey := l.rekey.map (fun k => { k with since := f k.since }),
           joinAt := l.joinAt.map f, lastValid := f l.lastValid, resvAt := f l.resvAt }

/-- The allotment and its proposal on another clock. -/
def taskOn (f : Nat → Nat) (t : Task) : Task :=
  { t with run := t.run.map (fun x => { x with startUp := f x.startUp }), proposalAt := t.proposalAt.map f,
           last := t.last.map (fun x => { x with endUp := f x.endUp }) }

/-- A MIRROR record with its timers on the clock of the module that receives it, whose time since power-on is `up`. -/
def mirrorOn (up : Nat) (m : MirrorData) : MirrorData :=
  let f := onClock m.up up
  { m with
    up := up, stop := { m.stop with robots := m.stop.robots.map (fun p => (p.1, robotStopOn f p.2)) },
    uz := { m.uz with robots := m.uz.robots.map (fun p => (p.1, linkOn f p.2)) }, task := taskOn f m.task,
    track := { m.track with commit := m.track.commit.map (fun c => { c with startUp := f c.startUp }) },
    jobs := m.jobs.map (fun p => (p.1, { p.2 with readyAt := f p.2.readyAt })),
    rse := { m.rse with rovers := m.rse.rovers.map (fun p =>
      (p.1, { p.2 with lastHeard := p.2.lastHeard.map f, gloSince := p.2.gloSince.map f })) } }

/-- The shared settings of the switch; learned entries, links, queues and statistics stay the module's own, as does IF[3]. -/
def sharedNet (x : Shared) (n : Net) : Net :=
  { n with
    ports := x.ports.foldl (fun t p => tabSet t p.1 { tabGet t p.1 (Port.init p.1) with cfg := p.2.1, qos := p.2.2 }) n.ports,
    ifaces := x.ifaces.foldl (fun t p => tabSet t p.1 p.2) (n.ifaces.filter (fun p => decide (3 ≤ p.1))),
    vlans := x.vlans, fdb := n.fdb.filter (fun e => !e.static) ++ x.statics, routes := x.routes, ageTime := x.ageTime,
    holdoff := x.holdoff }

/-- The shared settings of one port for PTP; what the port measures stays its own. -/
def sharedPtp (own x : PtpPort) : PtpPort :=
  { own with tcMode := x.tcMode, oneStep := x.oneStep, fleet := x.fleet, src := x.src, delayMech := x.delayMech,
             transport := x.transport, asym := x.asym }

/-- The shared settings of time. -/
def sharedTime (x : Shared) (t : Timebase) : Timebase :=
  { t with
    srcSet := x.src, servoSet := x.servo, pps := x.pps, ptpSet := x.ptp,
    ptpPorts := x.ptpPorts.foldl (fun a p => tabSet a p.1 (sharedPtp (tabGet a p.1 (PtpPort.init p.1)) p.2)) t.ptpPorts }

/-- The state that a MIRROR record carries, as the standby holds it, its timers on the standby's clock; its own latch, its
own clocks and its own yard outputs stay. -/
def takeMirror (m0 : MirrorData) (s : State) : State :=
  let m := mirrorOn s.up m0
  { s with
    tick := { m.tick with lastCompleted := s.tick.lastCompleted },
    stop := { s.stop with cfgSet := m.stop.cfgSet, cfg := m.stop.cfg, robots := m.stop.robots },
    gov := { laws := mirrorLaws s m, robots := m.gov.robots }, spin := { m.spin with driven := s.spin.driven },
    track := m.track, task := m.task, uz := m.uz, sched := { s.sched with jobs := m.jobs },
    rse := { s.rse with rovers := mirrorRovers s m }, net := sharedNet m.shared s.net, time := sharedTime m.shared s.time }

/-- The mirror format of a record can be read (R396). -/
def readable (s : State) (m : MirrorData) : Bool :=
  decide (m.major = Config.mirrorMajor (runBank s).payload) && decide (m.minor ≤ Config.mirrorMinor (runBank s).payload)

/-- The module's own conditions for a reset hold (R290, R296). -/
def stopOk (s : State) : Bool := decide ((refuseFleet s) &&& 0x7F = 0)

/-- The standby's latch clears with the active module's as soon as its own conditions hold (R296). -/
def followReset (s : State) : State :=
  let s1 := modPair (fun p => { p with resetOwed := latched s && !stopOk s }) s
  if latched s && stopOk s then
    { s1 with stop := { s1.stop with chanX := false, chanY := false, cause := 0, icode := 0, seen := [], followUp := false } }
  else s1

def latchedIn (x : Stop) : Bool := x.chanX || x.chanY

/-- The time transfer holds the standby within 20 ns. -/
def timeLocked (s : State) : Bool := decide (s.time.selected = 5) && decide (s.time.theta.natAbs ≤ 20)

def digestsOk (s : State) : Bool := match s.pair.mirror with
  | some m => m.digestsMatch
  | none => false

/-- READY of a standby (R395). -/
def standbyReady (s : State) : Bool :=
  s.pair.synced && timeLocked s && s.pair.selftestPass && !s.pair.mirrorIncompat

/-- The standby health word (PAIR_GET word 6), with SYNCED in bit 8. -/
def healthWord (s : State) : Nat :=
  flagBits [s.pair.selftestPass, stopOk s, timeLocked s, digestsOk s, s.health.ueSeen, s.health.spareFailed] +
    64 * tqNow s + 256 * natOfBool s.pair.synced

/-- The HEALTH record of a tick. -/
def sendHealth (s : State) : State :=
  emit (.lane 4 [s.pair.laneOut, healthWord s, roleNo s.pair.role, natOfBool (standbyReady s), fwVersion s])
    (modPair (fun p => { p with laneOut := (p.laneOut + 1) % 2 ^ 32 }) s)

/-- SYNCED clears and a resync begins (R393, R395). -/
def startResync (s : State) : State := emit (.lane 5 []) (modPair (fun p => { p with synced := false, resync := true }) s)

/-- A lane record with its sequence number: a gap starts a resync (R393). -/
def laneIn (seq : Nat) (s : State) : State :=
  let ok := decide (seq = s.pair.laneSeq)
  let s1 := modPair (fun p => { p with laneSeq := (seq + 1) % 2 ^ 32 }) s
  if ok then s1 else startResync s1

/-- Records of the lane come in on a standby. -/
def laneIsIn (s : State) : Bool := powered s && s.pair.laneUp && decide (s.pair.role = .standby)

/-- The PAIR master may write its core data (R25, R27). -/
def pairWrites (s : State) : Bool := aclAllows s 8 0x1011 0 2

/-- The standby receives lane records: they are written into the core data. -/
def listens (s : State) : Bool := laneIsIn s && pairWrites s

/-- A record that is not received: the access tables deny its write, or the module is no standby. -/
def unheard (s : State) : State := if laneIsIn s && !pairWrites s then deny 8 0x1011 0 2 s else s

/-- MIRROR (R394-R396). -/
def execMirror (seq : Nat) (m : MirrorData) (dt : Nat) (s : State) : Host.Outcome State Fault Refusal :=
  let s1 := begin_ dt s
  .next (if !listens s1 then unheard s1
    else reportPair (fun s1 =>
      let s2 := modPair (fun p => { p with lastMirror := m.tick.number, mirrorBytes := m.bytes }) (laneIn seq s1)
      if !readable s2 m then modPair (fun p => { p with mirrorIncompat := true, synced := false }) s2
      else
        let was := match s2.pair.mirror with
          | some o => latchedIn o.stop
          | none => false
        let s3 := takeMirror m (modPair (fun p => { p with mirrorIncompat := false, mirror := some m }) s2)
        let s4 := modPair (fun p => { p with synced := !p.resync && m.digestsMatch }) s3
        let s5 := if latchedIn m.stop then modPair (fun p => { p with resetOwed := false }) s4
          else if was || s4.pair.resetOwed then followReset s4 else s4
        sendHealth s5) s1)

/-- RESYNC_COMPLETE (R395): the full state has come. -/
def execResyncComplete (m : MirrorData) (dt : Nat) (s : State) : Host.Outcome State Fault Refusal :=
  let s1 := begin_ dt s
  .next (if !(listens s1 && s1.pair.resync) then unheard s1
    else reportPair (fun s1 =>
      if !readable s1 m then modPair (fun p => { p with mirrorIncompat := true, synced := false }) s1
      else
        let s2 := takeMirror m (modPair (fun p => { p with mirrorIncompat := false, mirror := some m, resync := false }) s1)
        let s3 := { s2 with rse := { (mirrorOn s1.up m).rse with lanes := s2.rse.lanes, mhz := s2.rse.mhz, subs := s2.rse.subs } }
        let s4 := modPair (fun p => { p with synced := m.digestsMatch }) s3
        if latchedIn m.stop then s4 else followReset s4) s1)

/-- BASE (R162): a base epoch of the active module's ANT_A, and its ARP. -/
def execBase (seq : Nat) (b : BaseEpoch) (arp : Option Arp) (dt : Nat) (s : State) : Host.Outcome State Fault Refusal :=
  let s1 := begin_ dt s
  .next (if !listens s1 then unheard s1
    else reportPair (fun s1 =>
      takeBase b.time b.recs (setArp arp (laneIn seq s1))) s1)

/-- RELEASED (R401): the frames of a tick have been released; the beacons among them are the last ones released. -/
def execReleased (seq tick : Nat) (dt : Nat) (s : State) : Host.Outcome State Fault Refusal :=
  let s1 := begin_ dt s
  .next (if !listens s1 then unheard s1
    else reportPair (fun s1 =>
      let s2 := modPair (fun p => { p with released := some tick }) (laneIn seq s1)
      let gone := (s2.uz.held ++ s2.uz.staged).filter (fun h => decide (h.tick = tick))
      let gos := gone.filter isGo
      let keep := fun (l : List Held) => l.filter (fun h => decide (h.tick ≠ tick))
      let granted := gos.flatMap (fun h => match h.body with
        | .go _ _ _ es => (es.filter (fun e => e.2.1 && !e.2.2)).map (fun e => e.1)
        | _ => [])
      { s2 with
        tick := { s2.tick with emitted := s2.tick.emitted || decide ((tick + 1) % 2 ^ 32 = s2.tick.number) },
        uz := { s2.uz with
          held := keep s2.uz.held, staged := keep s2.uz.staged,
          lastBeacons := if gos.isEmpty then s2.uz.lastBeacons else gos,
          granted := if gos.isEmpty then s2.uz.granted else granted } }) s1)

/-- LANE_ERROR (R393): a CRC failure or a gap. -/
def execLaneError (dt : Nat) (s : State) : Host.Outcome State Fault Refusal :=
  let s1 := begin_ dt s
  .next (if laneIsIn s1 then reportPair startResync s1 else s1)

/-- HEALTH (R402): the standby's health word, its role and firmware; ICODE 7 ceases once one module is a standby. -/
def execHealth (seq word role : Nat) (ready : Bool) (fw : Nat) (dt : Nat) (s : State) : Host.Outcome State Fault Refusal :=
  let s1 := begin_ dt s
  .next (if !(powered s1 && s1.pair.laneUp && decide (s1.pair.role = .active)) then s1
    else if !pairWrites s1 then deny 8 0x1011 0 2 s1
    else
      let s2 := reportPair (modPair (fun p => { p with
        laneSeq := (seq + 1) % 2 ^ 32, health := word % 256, synced := Nat.testBit word 8, partnerRole := role % 4,
        partnerReady := ready, partnerFw := fw })) s1
      let s3 := if role % 4 = s1.pair.partnerRole then s2 else setInt 19 s2
      if role % 4 = 1 then ceaseFault 7 s3 else s3)

/-- HEXLUX_LANE_CHANGE (R12, R391, R395): the lane goes down or comes up; with it come the partner's PREFER and
PAIR_MAC. -/
def execHexluxLaneChange (up prefer : Bool) (mac dt : Nat) (s : State) : Host.Outcome State Fault Refusal :=
  let s1 := begin_ dt s
  .next (if !powered s1 || !s1.pair.en then s1
    else
      let put := modPair (fun p => { p with
        laneUp := up, partnerCfg := if up then some (prefer, mac) else none, laneSeq := 0, laneOut := 0, synced := false,
        resync := decide (p.role = .standby), partnerReady := false, partnerRole := 0, health := 0 })
      reportPair (fun s1 =>
        let s2 := put s1
        if s2.pair.role = .standby then partnerTime (if up then startResync s2 else s2) else s2) s1)

/-! ### Takeover (R398-R401) -/

/-- DEAD_TIME_EXPIRE (R398): ACT_IN has stayed inactive; the last MIRROR record is the running state. -/
def execDeadTimeExpire (s : State) : Host.Outcome State Fault Refusal :=
  .next (match s.pair.deadFrom with
    | some t =>
      if powered s && decide (s.pair.role = .standby) && !s.pair.actIn then
        modPair (fun p => { p with loaded := true }) (beginUp (t + 8000) s)
      else begin_ 0 s
    | none => begin_ 0 s)

/-- The first SETPOINT frame of each robot carries FLUSH (R401). -/
def flushFirst : List Nat → List Held → List Held
  | _, [] => []
  | seen, h :: hs =>
    match h.body with
    | .setpoint st start _ first pts =>
      if seen.contains h.robot then h :: flushFirst seen hs
      else { h with body := .setpoint st start true first pts } :: flushFirst (h.robot :: seen) hs
    | _ => h :: flushFirst seen hs

/-- Gratuitous ARP and unsolicited Neighbour Advertisements of the pair interfaces (R401). -/
def announcePair (s : State) : State :=
  let ports := fun (vid : Nat) =>
    let v := match tabFind s.net.vlans vid with
      | some v => v.member
      | none => 0
    (List.range 10).filter (fun p => Nat.testBit v p && portUp s p)
  let say := fun (k : Nat) (a : State) =>
    let i := getIface s k
    let one := fun (kind len ip : Nat) (b : State) =>
      (ports i.vid).foldl (fun c p => enqueue p 4 len true none (emit (.netReply p kind [k, ip, s.pair.mac]) c)) b
    if !i.en then a
    else
      let b := if i.v4 = 0 then a else one 3 64 i.v4 a
      if i.v6 = 0 then b else one 4 90 i.v6 b
  (List.range 3).foldl (fun a k => say k a) s

/-- The stop chain at a switch-over (R296, R400): a standby that is not SYNCED sets its own latch; a controlled phase
ends with the latch set. -/
def takeoverStop (s : State) : State :=
  let s1 := if s.pair.synced || latched s then s else latchSet 3 0 true true false s
  match s1.pair.mirror with
  | some m =>
    if m.stop.controlled && !latched s1 then latchSet m.stop.cause m.stop.icode true true true s1 else s1
  | none => s1

/-- The frames of the last mirrored tick, and how the boundaries that passed leave them (R401). -/
def takeoverFrames (k : Nat) (s : State) : State :=
  let s1 := { s with uz := { s.uz with held := flushFirst [] s.uz.held, staged := flushFirst [] s.uz.staged } }
  if k = 0 then s1
  else
    let s2 := { s1 with uz := { s1.uz with held := s1.uz.staged, staged := [] } }
    if k = 1 then s2
    else
      let s3 := releaseTick { s2 with tick := { s2.tick with missed := 0 } }
      { s3 with tick := { s3.tick with missed := k - 1 } }

/-- TAKEOVER_COMPLETE (R398-R401): the ACTIVE role, and what the new active module resumes with. -/
def execTakeoverComplete (dt : Nat) (s : State) : Host.Outcome State Fault Refusal :=
  let s1 := begin_ dt s
  .next (if !(powered s1 && s1.pair.loaded && decide (s1.pair.role = .standby) && !s1.pair.actIn) then s1
    else
      let n := s1.pair.lastMirror
      let gap := 4000 + (s1.up - s1.pair.deadFrom.getD s1.up)
      let more := match s1.pair.mirror with
        | some m => m.execs
        | none => []
      let hand := fun (p : Nat × Rover) =>
        let back := match p.2.solving with
          | some (e, _) => e :: p.2.ready
          | none => p.2.ready
        (p.1, { p.2 with
          handover := p.2.binding.isSome, rebase := p.2.binding.isSome && p.2.filter.isSome, handoverEpochs := 0,
          ready := back, solving := none, baseSlips := [], gap := false })
      let s2 := takeoverStop s1
      let s3 := { s2 with
        execs := s2.execs ++ more,
        time := { s2.time with waiting := s2.time.waiting.filter (fun p => !(p.req.at_ && decide (p.req.q = 17))) },
        uz := { s2.uz with seq := s2.uz.seq + 2 ^ 20 },
        rse := { s2.rse with
          rovers := s2.rse.rovers.map hand, clusters := [none, none, none, none], bases := s2.rse.own,
          arp := s2.gnss.arp, arpRef := s2.gnss.arp },
        spin := { s2.spin with driven := false } }
      let (k, s4) := passBoundaries s3
      let s5 := becomeActive s1.pair.takeoverCause gap n k s4
      announcePair (abandonRound (takeoverFrames k s5)))

/-! ### Commands (R404-R407) -/

def pairCfgWords (s : State) : List Word :=
  [wordOfFields [(natOfBool s.pair.en, 0), (natOfBool s.pair.prefer, 1), (s.pair.switchTicks, 4), (natOfBool s.pair.auto, 8)]] ++
    words64 s.pair.mac

/-- The module leaves the pair: it is LONE, from a standby with its latch set (R405). -/
def becomeLone (s : State) : State :=
  let s1 := if s.pair.role = .standby ∧ latched s = false then latchSet 3 0 true true false s else s
  let s2 := dropSwitch (setRole .lone (modPair (fun p => { p with en := false, synced := false, resync := false }) s1))
  if s.pair.role = .lone then s2 else partnerTime (passBoundaries s2).2

def pairCfgBody (r : Req) (s : State) : Res := do
  let read := bitAt (par r 0) 0
  let a := par r 1
  let en := bitAt a 0
  let ticks := fld a 4 5
  let mac := par64 r 2
  need (onlyBits (par r 0) 1 && (read || (onlyBits a 0x133 && onlyBits (par r 3) 0xFFFF))) .badParam 0
  need (read || decide (ticks < s.stop.cfgSet.wdogTicks)) .badParam 1
  need (read || decide (mac % 4 = 2)) .badParam 2
  need (read || inRange ticks 1 3) .range 1
  if read then return (s, .ok 0 (wordOf 0 :: pairCfgWords s))
  need (en || !s.pair.en || decide (s.pair.role ≠ .active) || !anySpindleActive s) .state 1
  need (!en || s.pair.en || !s.pair.actIn) .state 2
  needSession r s
  let s1 := modPair (fun p => { p with prefer := bitAt a 1, switchTicks := ticks, auto := bitAt a 8, mac := mac }) (touchSession s)
  let s2 :=
    if en && !s.pair.en then
      setRole .active (modPair (fun p => { p with en := true }) s1)
    else if !en && s.pair.en then becomeLone s1
    else s1
  return (s2, .ok 0 (wordOf 0 :: pairCfgWords s2))

def descPairCfg : Desc :=
  Desc.formLen { Desc.std 0xC00 [3, 6] 7 (fun r => bitAt (par r 0) 0) pairCfgBody with standbyOk := fun _ => true }
    (readForm 0 3 6)

def pairGetBody (_ : Req) (s : State) : Res :=
  let h := if s.pair.role = .standby then healthWord s % 256 else s.pair.health
  .ok (s, .ok 0 [wordOf (pairWord3 s), wordOf s.pair.lastMirror, wordOf s.pair.mirrorBytes, wordOf h, wordOf s.pair.partnerFw,
    wordOfInt (sat32 (-(getSource s 5).theta)), wordOf s.pair.switches, wordOf s.pair.lastSwitch, wordOf s.pair.lastGap,
    wordOf s.pair.cover, wordOf s.pair.selftestFaults])

def descPairGet : Desc := { Desc.read 0xC01 [2] 14 pairGetBody with standbyOk := fun _ => true }

def pairSwitchBody (r : Req) (s : State) : Res := do
  need (onlyBits (par r 0) 1) .badParam 0
  need (decide (s.pair.role ≠ .lone)) .state 4
  need (decide (s.pair.role = .active)) .state 1
  need s.pair.laneUp .state 2
  need (s.pair.partnerReady || bitAt (par r 0) 0) .state 3
  return (modPair (fun p => { p with switchReqs := p.switchReqs ++ [r], switchAfter := s.tick.number }) s, .later false)

def descPairSwitch : Desc := { Desc.std 0xC02 [3] 8 (fun _ => false) pairSwitchBody with standbyOk := fun _ => true }

def pairSelftestCfgBody (r : Req) (s : State) : Res := do
  let read := bitAt (par r 0) 0
  need (onlyBits (par r 0) 1 && (read || onlyBits (par r 1) 0x7F00FF)) .badParam 0
  need (read || inRange (fld (par r 1) 0 7) 1 50) .range 1
  let s1 := if read then s else modPair (fun p => { p with share := fld (par r 1) 0 7, mask := fld (par r 1) 16 22 }) s
  return (s1, .ok 0 [wordOf 0, wordOfFields [(s1.pair.share, 0), (s1.pair.mask, 16)], wordOf s1.pair.cover])

def descPairSelftestCfg : Desc :=
  Desc.formLen { Desc.std 0xC03 [3, 4] 6 (fun r => bitAt (par r 0) 0) pairSelftestCfgBody with standbyOk := fun _ => true }
    (readForm 0 3 4)

end Sys2Proof.Machine
end

