-- ==== Sys2Proof/Machine/Boot.lean ====
section
/-! DEFINITION. Boot (chapter 18): what the MRAM keeps, the choice of the bank, the stages, READY, SOFT_RESET and the
restart into another image. -/
set_option autoImplicit false

namespace Sys2Proof.Machine

/-! ### What the MRAM configuration area keeps (R26) -/

/-- Laws: the coefficient sets stay; running state starts at 0; governor laws start on set A (R272); the laws of the
correlator channels start from their reset contents. -/
def storedLaws (m : Member) (t : Tab Law) : Tab Law :=
  (t.filter (fun p => decide (slotUse m p.1 ≠ 0))).map (fun p =>
    (p.1, { p.2 with
      activeB := if slotUse m p.1 = 1 then false else p.2.activeB, i := 0, uPrev := 0, ePrev := 0, swap := false }))

def storedGov (s : State) : Gov :=
  { laws := storedLaws s.member s.gov.laws,
    robots := s.gov.robots.map (fun p => (p.1, { GovRobot.init with cfgSet := p.2.cfgSet, cfg := p.2.cfgSet })) }

/-- TIME settings (R370); device time starts at 0 in RAW mode (R343), and REF is to be selected (R453). -/
def storedTime (s : State) : Timebase :=
  let port := fun (p : Nat × PtpPort) =>
    (p.1, { PtpPort.init p.1 with
      tcMode := p.2.tcMode, oneStep := p.2.oneStep, fleet := p.2.fleet, src := p.2.src, delayMech := p.2.delayMech,
      transport := p.2.transport, asym := p.2.asym })
  { Timebase.init with
    bootAt := s.up, srcSet := s.time.srcSet, src := s.time.srcSet, servoSet := s.time.servoSet, servo := servoSetOf s,
    pps := s.time.pps, ptpSet := s.time.ptpSet, ptp := s.time.ptpSet,
    ptpPorts := (ptpPortsSet s.time).map port, refRetry := some 0 }

/-- BIAS_EN and the cable delay (R448), the ARP (R107), ephemerides (chapter 04), and retired channels. -/
def storedGnss (s : State) : Gnss :=
  let ant := fun (p : Nat × Antenna) =>
    { Antenna.init with
      biasEn := p.2.biasEn, cableDelay := p.2.cableDelay, onSince := s.up,
      bias := if p.2.biasEn && decide (p.1 < nAntennas s.member) then .ok else .off }
  let gone := s.gnss.channels.filter (fun p => decide (p.2.state = .retired))
  { Gnss.init s.gnss.spares with
    antennas := ((List.range 2).zip s.gnss.antennas).map ant, arp := s.gnss.arp, ephemeris := s.gnss.ephemeris,
    channels := gone.map (fun p => (p.1, { Channel.init with state := .retired })) }

/-- Rover bindings and settings (R82, ROVER_CFG). -/
def storedRovers (s : State) : Tab Rover :=
  s.rse.rovers.map (fun p => (p.1, { clearedRover p.2 with binding := p.2.binding }))

/-- Origin, committed graph and deckle (R191, R193, DECKLE_LOAD); the conflict table is to be recomputed (R197), and the
staged graph starts as a copy of the active one. Its blocked set holds from the first (R199). -/
def storedTrack (s : State) : Track :=
  let g := { s.track.active with conflicts := [] }
  { Track.init with
    originSet := s.track.originSet, origin := s.track.originSet, active := g, staged := g, commitId := s.track.commitId,
    commit := some { req := none, clearance := g.clearance, startUp := s.up, computed := none, duration := 0 },
    deckleSet := s.track.deckleSet, deckle := s.track.deckleSet, blocked := blockedSet s.track.deckleSet g }

/-- Allotment settings (ALLOT_CFG). -/
def storedTask (s : State) : Task :=
  { Task.init with
    cfgSet := s.task.cfgSet, cfg := s.task.cfgSet, robotsSet := s.task.robotsSet, robots := s.task.robotsSet }

/-- Speed profiles, reference posts and the settings of the yard outputs (chapter 10). -/
def storedSpin (s : State) : Spin :=
  { Spin.init with
    spindles := s.spin.spindles.map (fun p => (p.1, { Spindle.init with prof := p.2.prof, due := p.2.prof, live := p.2.prof })),
    posts := s.spin.posts, yardOut := s.spin.yardOut.map (fun p => (p.1, { p.2 with on := false })) }

/-- Root keys (chapter 07). -/
def storedUz (s : State) : Uz :=
  { Uz.init with
    robots := s.uz.robots.map (fun p =>
      (p.1, { Link.init with rootKey := p.2.rootKey, sess := if p.2.rootKey.isSome then .keyed else .noKey })) }

/-- Definitions and counters of host jobs, disarmed (R316). -/
def storedJobs (s : State) : Tab HostJob :=
  s.sched.jobs.map (fun p => (p.1, { p.2 with armed := false, ready := false, running := false, result := none }))

/-- Switch settings (R339, R340): ports, interfaces, VLANs, static entries and routes; learned entries and counts go. -/
def storedNet (s : State) : Net :=
  { Net.init s.net.baseMac with
    ports := s.net.ports.map (fun p => (p.1, { Port.init p.1 with cfg := p.2.cfg, qos := p.2.qos })),
    ifaces := s.net.ifaces.map (fun p => (p.1, { p.2 with replies := 0, repliesSec := 0 })),
    vlans := s.net.vlans, fdb := s.net.fdb.filter (fun e => e.static), routes := s.net.routes, ageTime := s.net.ageTime,
    holdoff := s.net.holdoff }

/-- A ring after the boot's scan: a final record whose CRC fails is dropped (R377). -/
def scannedRing (g : Ring) : Ring :=
  match g.recs.getLast? with
  | some x =>
    if x.crcBad then
      { g with recs := g.recs.dropLast, lastSeq := (g.recs.dropLast.getLast?.map (fun y => y.seq)).getD 0, writeOff := x.offset }
    else g
  | none => g

/-- Rings, marks, LIMITs, operating time and the power-cycle count (R373-R377, R381, R383); staged events are lost. -/
def storedRec (s : State) : Recorder :=
  { Recorder.init with
    audit := scannedRing s.rec_.audit, diag := scannedRing s.rec_.diag, marks := s.rec_.marks, opTime := s.rec_.opTime,
    opFrac := s.rec_.opFrac, cycles := s.rec_.cycles, limits := s.rec_.limits }

/-- PAIR_CFG; the role is open until the arbitration (R391). ACT_IN and PFAULT_IN are pads. -/
def storedPair (s : State) : Pair :=
  let p := s.pair
  { Pair.init with
    en := p.en, prefer := p.prefer, switchTicks := p.switchTicks, auto := p.auto, mac := p.mac, actIn := p.actIn,
    pfaultIn := p.pfaultIn, actInAt := p.actInAt, role := if p.en then .arbitrating else .lone }

/-- The stop block at a boot: the latch is set with cause 4 and ICODE 0 (R281, R408), which firmware records at the first
snapshot. -/
def bootStop (s : State) : Stop :=
  { Stop.init with
    estopA := s.stop.estopA, estopBN := s.stop.estopBN, cfgSet := s.stop.cfgSet, cfg := s.stop.cfgSet, followUp := true }

/-- At a restart the latch stays set as it was (R415), and ICODE 0 holds it as at every boot. -/
def restartStop (s : State) : Stop :=
  let st := s.stop
  { bootStop s with
    cause := st.cause, immediate := st.immediate, icode := st.icode, stopTime := st.stopTime, stopTick := st.stopTick,
    seen := addOnce st.seen 4, followUp := st.followUp, faults := addOnce (st.faults.filter (fun x => decide (x ≠ 1 ∧ x ≠ 3))) 0,
    flags := st.flags, occ := st.occ, proofFailed := st.proofFailed, lastPass := st.lastPass, lastPassUp := st.lastPassUp }

/-- Spares, retired units and margins (R434, R436). -/
def storedHealth (s : State) : Health :=
  let h := s.health
  { State.reset.health with
    mems := h.mems.map (fun p => (p.1, { EccMem.init with sparesUsed := p.2.sparesUsed, rowsLost := p.2.rowsLost })),
    lanePools := h.lanePools, chanPool := h.chanPool, margins := { h.margins with
      solveMhz := match h.margins.solvePending with
        | some (f, _) => f
        | none => h.margins.solveMhz, solvePending := none },
    spareFailed := h.spareFailed, replanHour := h.replanHour, lidTemp := h.lidTemp, lidTempMax := h.lidTempMax, vin := h.vin }

/-! ### Queues (R75, R82) -/

/-- Words of a command side that has not been carried on: those the interpreter has not read, and those of the packet it
holds. -/
def sideWords (x : Queue) : Nat :=
  let n := fun (l : List FifoItem) => l.foldl (fun a i => a + match i with
    | .entry _ ws => ws.length
    | _ => 0) 0
  n x.cmd.vis + n x.cmd.inv + x.cmd.open_.length + x.cmd.part.length + match x.cmd.held with
    | some r => r.len
    | none => 0

/-- The command side of a queue pair emptied as by a reset, which clears FAULTED (R75); the event side, EVSEQ, EN and MODE
stay (R82). -/
def emptyCmdSide (x : Queue) : Queue :=
  { x with faulted := false, cmd := { CmdSide.init with wm := x.cmd.wm }, cnt := { x.cnt with purged := addCnt32 x.cnt.purged (sideWords x) } }

/-- Every command side emptied. -/
def emptyCmdSides (s : State) : State := { s with queues := s.queues.map (fun p => (p.1, emptyCmdSide p.2)) }

/-- Commands that wait end with ST_STATE, DETAIL 0xFF21 (R46, R82). -/
def cancelAll (rs : List Req) (s : State) : State := rs.foldl (fun a r => complete r .state 0xFF21 [] a) s

/-- Work of the tick cores that a restart of them ends: commits of graphs, rounds, proposals' commits, motion that homes,
self-tests, and PPS-aligned commands with an execute-at time. -/
def coreWork (s : State) : List Req :=
  let opt := fun (x : Option Req) => match x with
    | some r => [r]
    | none => []
  let round := match s.task.run with
    | some x => opt x.req
    | none => []
  let graph := match s.track.commit with
    | some c => opt c.req
    | none => []
  let test := match s.health.selftest with
    | some (r, _) => [r]
    | none => []
  let ask := match s.task.runReq with
    | some (r, _) => [r]
    | none => []
  (s.time.waiting.filter (fun p => p.req.at_)).map (fun p => p.req) ++ graph ++ round ++ ask ++
    s.task.commits.flatMap (fun c => opt c.req) ++
    s.spin.spindles.flatMap (fun p => match p.2.homing with
      | some h => [h.req]
      | none => []) ++
    s.spin.acts.flatMap (fun a => match a with
      | .home _ h => [h.req]
      | _ => []) ++ test

/-- Every command that waits inside the module ends (R46, R82). -/
def endWaiting (s : State) : State :=
  let s1 := s.execs.foldl (fun a r => finish { r with eff := false } .state 0xFF21 [] a) { s with execs := [] }
  cancelAll (coreWork s1)
    { s1 with
      time := { s1.time with waiting := s1.time.waiting.filter (fun p => !p.req.at_) },
      health := { s1.health with selftest := none } }

/-- Work that a SOFT_RESET leaves and a restart ends: PPS-aligned commands without an execute-at time, resets that are
armed or wait for a snapshot, a proof test, surveys, and switch-overs. -/
def restartWork (s : State) : List Req :=
  let opt := fun (x : Option Req) => match x with
    | some r => [r]
    | none => []
  s.time.waiting.map (fun p => p.req) ++ s.stop.armed.map (fun p => p.1) ++ s.stop.resets.flatMap (fun x => opt x.req) ++
    (match s.stop.proof with
    | some p => opt p.req
    | none => []) ++
    (match s.gnss.survey with
    | some x => [x.req]
    | none => []) ++ opt s.gnss.blReq ++ s.pair.switchReqs

/-- Every command that waits inside the module, or whose work is not done, ends at a restart (R40). -/
def endAll (s : State) : State := let s1 := endWaiting s; cancelAll (restartWork s1) s1

/-! ### SOFT_RESET (R82) -/

/-- Subscriptions that wait for a slot boundary: they survive a reset (R82). -/
def isSubscription : RoverAct → Bool
  | .sub .. => true
  | .unsub _ => true
  | _ => false

/-- The reset that follows the answer of SOFT_RESET (R82): pending commands end, the command sides are emptied, the tick
cores restart, and what the MRAM holds is loaded again. Timebase, ticks, tracking, switch, latch and recorder go on. -/
def softReset (s : State) : State :=
  let s1 := emptyCmdSides (endWaiting { s with sys := { s.sys with softReq := false } })
  let s2 := (s1.uz.robots.map (fun (p : Nat × Link) => p.1)).foldl (fun a r => endSession r 5 a) s1
  let s3 := closeSession 4 s2
  let s4 := if [UpdState.open_, .headerOk, .verifying, .verified].contains s3.upd.state then abortUpd 2 s3 else s3
  let keep := fun (p : Nat × Spindle) => (p.1, { Spindle.init with prof := p.2.prof, due := p.2.prof, live := p.2.prof, stream := p.2.stream })
  let tr := storedTrack s4
  let s5 := resetGovernors s4
  noteBlocked s.track.blocked.length { s5 with
    sys := { s5.sys with boot := .init, reloading := true },
    sched := { s5.sched with
      jobs := storedJobs s5, slots := s5.sched.slots.map (fun (p : Nat × JobSlot) => (p.1, { p.2 with ready := false, running := false })),
      cores := s5.sched.cores.map (fun (p : Nat × Core) => (p.1, { p.2 with job := none, prefetch := none })) },
    track := { tr with
      robots := s5.track.robots.map (fun p =>
        (p.1, { TrackRobot.init with prof := p.2.profSet, profSet := p.2.profSet, routeId := p.2.routeId })) },
    task := { storedTask s5 with roundId := s5.task.roundId, periodAt := s5.task.periodAt },
    spin := { s5.spin with spindles := s5.spin.spindles.map keep, acts := [], quals := [] },
    rse := { s5.rse with rovers := storedRovers s5, clusters := [none, none, none, none], acts := s5.rse.acts.filter isSubscription },
    uz := { s5.uz with held := [], staged := [], waiting := [], lastBeacons := [], granted := [], joins := [] },
    rec_ := { s5.rec_ with snaps := List.replicate 4 Snap.init },
    time := { s5.time with refRetry := some s5.now } }

/-- A SOFT_RESET that has been answered is carried out (R82). -/
def settle (s : State) : State := if s.sys.softReq then softReset s else s

/-- SOFT_RESET_READY (R82): the configuration has been loaded again. -/
def execSoftResetReady (dt : Nat) (s : State) : Host.Outcome State Fault Refusal :=
  let s1 := begin_ dt s
  .next (if powered s1 && s1.sys.reloading then
    { s1 with sys := { s1.sys with boot := .ready, reloading := false } }
  else s1)

/-! ### The choice of the bank (R411, R414, R422) -/

/-- The check that an image fails at boot: 1 to 5 of the header (R413, R415), 7 its payload's digest; 0 passes. -/
def bootCheck (s : State) (b : Bool) : Nat :=
  let x := getBank s b
  if !x.valid then
    match imageChecks s.member (svnFloor s) 0 x.hdr with
    | some (k, _, _) => k
    | none => 7
  else if !isForerunner x.hdr && decide (hdrSvn x.hdr < svnFloor s) then 5
  else 0

/-- What the boot makes of the activation record: the bank it names, BOOT_RESULT, and the state with the record written
and a revert recorded (R411). -/
def readRecord (s : State) : Bool × Nat × State :=
  match actRecord s.upd with
  | none => (bootCheck s false ≠ 0, 3, raise 0x0D06 3 [wordOf (bankVersion (getBank s (decide (bootCheck s false ≠ 0))))] .none s)
  | some r =>
    if !r.trial then (r.bankB, 0, s)
    else if r.trialCount < 3 ∧ s.rec_.opTime < r.windowEnd then
      (r.bankB, 1, writeAct { r with trialCount := r.trialCount + 1 } s)
    else
      let s1 := writeAct { confirmedRec s r.prevB with prevB := r.prevB } s
      let cause := if r.trialCount < 3 then 0 else 1
      (r.prevB, 2, measureTakeover (getBank s1 r.prevB).hdr (raise 0x0D06 cause [wordOf (bankVersion (getBank s1 r.prevB))] .none s1))

/-- MEAS[0] to MEAS[6] (R408, R409): the BROM, the header, the loader, the core firmware, the microcode, the
configuration, and the activation record. -/
def measureBoot (b : Bool) (s : State) : State :=
  let x := getBank s b
  let n := s.fresh
  let put := fun (l : List (List Byte)) (i : Nat) (d : List Byte) => l.set i (measure (l.getD i []) d)
  let m0 := put s.upd.meas 0 (Config.measuredState n)
  let m1 := put m0 1 x.hdr
  let m2 := put m1 2 (Config.measuredState (n + 1))
  let m3 := put m2 3 (if isForerunner x.hdr then Config.measuredState (n + 5) else x.payload.take (hdrCoreLen x.hdr))
  let m4 := put m3 4 (Config.measuredState (n + 2))
  let m5 := put m4 5 (Config.measuredState (n + 3))
  { s with fresh := n + 6, upd := { s.upd with meas := put m5 6 (Config.measuredState (n + 4)) } }

/-- The update session after a boot (R416, Power failure by point): on trial under the same owner after a trial boot,
otherwise at an end. -/
def bootSession (result : Nat) (s : State) : State :=
  let u := s.upd
  let clear := { u with
    verifyReq := none, activateReq := none, recordAt := none, attempts := 0, doffTick := 0, doffs := 0, prevHeld := false,
    revertRestart := false, window := false }
  if result = 1 then { s with upd := { clear with state := .trial } }
  else
    let s1 := { s with upd := { clear with state := .idle } }
    if [UpdState.open_, .headerOk, .verifying, .verified, .activating].contains u.state then
      raise 0x0D07 2 [wordOf (updStateNo u.state)] .none s1
    else if u.state = .reverting ∧ u.revertRestart = false then
      raise 0x0D06 u.revertCause [wordOf (bankVersion (getBank s1 s1.upd.runB))] .none s1
    else s1

/-- A bank whose image was not complete when power failed is invalid. -/
def dropStaged (s : State) : State :=
  if [UpdState.open_, .headerOk, .verifying, .verified].contains s.upd.state then
    setBank (staging s) { hdr := [], payload := [], valid := false } s
  else s

/-- Stages 1 and 2 (R411, R412): the bank is chosen and loaded, or the module enters recovery. -/
def loadImage (s : State) : State :=
  let (want, result, s1) := readRecord s
  let fail := bootCheck s1 want
  let go := fun (b : Bool) (res fl stage : Nat) (a : State) =>
    { measureBoot b a with
      sys := { a.sys with boot := .init, stage := stage, bootResult := res, bootFail := fl },
      upd := { (measureBoot b a).upd with runB := b } }
  if fail = 0 then bootSession result (go want result 0 4 s1)
  else if bootCheck s1 (!want) = 0 then
    let s2 := raise 0x0D06 3 [wordOf (bankVersion (getBank s1 (!want)))] .none s1
    bootSession 3 (go (!want) 3 fail 4 (measureTakeover (getBank s2 (!want)).hdr s2))
  else
    let s2 := { s1 with sys := { s1.sys with boot := .fault, stage := if fail = 7 then 3 else 2, bootResult := 4, bootFail := fail } }
    modQ 0 (fun x => { x with en := true, push := false }) (bootSession 4 s2)

/-! ### The stages (R408) -/

/-- The machine as a boot finds it: what the MRAM keeps, and everything else at its reset value. -/
def bootFresh (s : State) : State :=
  let h := storedHealth s
  { State.reset with
    member := s.member, pending := s.pending, up := s.up, fresh := s.fresh, out := s.out,
    sys := { Sys.init with power := .running, en := s.sys.en, vinOn := s.sys.vinOn, perstN := s.sys.perstN, perstAt := s.sys.perstAt,
                           hostLanes := s.sys.hostLanes, hostGen := s.sys.hostGen,
                           bootFrom := s.up },
    acl := s.acl, session := { CfgSession.init with key := s.session.key, session := s.session.session }, mgmt := s.mgmt,
    time := storedTime s, gnss := storedGnss s,
    rse := { Rse.init s.rse.lanes with rovers := storedRovers s, mhz := h.margins.solveMhz, arp := s.gnss.arp },
    uz := storedUz s, track := storedTrack s, task := storedTask s, spin := storedSpin s, gov := storedGov s,
    stop := bootStop s, sched := { Sched.init with jobs := storedJobs s }, net := storedNet s, rec_ := storedRec s,
    pair := storedPair s, upd := { s.upd with meas := List.replicate 8 (List.replicate 48 0) }, health := h }

/-- A boot from VIN-on or an EN rising edge (R408): the power-cycle count advances, and stages 0 to 3 run. -/
def bootUp (s : State) : State :=
  let s1 := trainLink (padTimers (bootFresh (dropStaged s)))
  loadImage { s1 with rec_ := { s1.rec_ with cycles := min (2 ^ 24 - 1) (s1.rec_.cycles + 1) } }

/-- What the interrupt sources show of a boot that keeps the INT registers (R64): the update state, the pair role and TQ
differ from those before it. -/
def bootInts (old s : State) : State :=
  let s1 := if s.upd.state = old.upd.state then s else setInt 20 s
  let s2 := if s.pair.role = old.pair.role then s1 else setInt 19 s1
  if s.time.tqLast = old.time.tqLast ∧ s.time.holdover = old.time.holdover then s2 else setInt 17 s2

/-- The machine as a restart finds it: as at a boot, but for the queues, the counters, the INT registers and the records
that are staged, which go on. -/
def restartFresh (s : State) : State :=
  let s3 := bootFresh s
  { s3 with
    queues := s.queues, netCnt := s.netCnt, chains := s.chains, intStat := s.intStat, intEn := s.intEn, intOcc := s.intOcc,
    msix := s.msix, msixPend := s.msixPend, secCnt := s.secCnt, pcie := s.pcie, stop := restartStop s,
    sys := { s3.sys with err := s.sys.err, errOcc := s.sys.errOcc, scratch := s.sys.scratch,
                         vinLow := s.sys.vinLow, vinHigh := s.sys.vinHigh },
    rec_ := { s3.rec_ with
      audFifo := s.rec_.audFifo, diagFifo := s.rec_.diagFifo, audWait := s.rec_.audWait, writing := s.rec_.writing,
      summary := s.rec_.summary, lost := s.rec_.lost, lostFirst := s.rec_.lostFirst, lostLast := s.rec_.lostLast,
      lostTime := s.rec_.lostTime, lostAfter := s.rec_.lostAfter, suppressed := s.rec_.suppressed } }

/-- A restart (R415, R421): the boot stages run again, the latch stays set, and no answer that was placed or is due is
lost (R40); the power-cycle count stays. -/
def restart (s : State) : State :=
  let s1 := match s.upd.activateReq with
    | some r => complete r .ok 0 [wordOf 0] { s with upd := { s.upd with activateReq := none } }
    | none => s
  let s2 := emptyCmdSides (endAll s1)
  noteBlocked s.track.blocked.length (bootInts s2 (loadImage (trainLink (padTimers (restartFresh s2)))))

/-- BOOT_READY (R408, R410, R448): ports are enabled, PFAULT_OUT follows R389, SYS_STATE reads READY, ICODE 0 ceases, the
yard outputs are driven on a lone module, and a paired module arbitrates. -/
def execBootReady (dt : Nat) (s : State) : Host.Outcome State Fault Refusal :=
  let s1 := begin_ dt s
  .next (if powered s1 && decide (s1.sys.boot = .init) && !s1.sys.reloading then
    let ms := (s1.up - s1.sys.bootFrom) / 1000000
    let s2 := ceaseFault 0 { s1 with
      sys := { s1.sys with boot := .ready, everReady := true, stage := 5, bootMs := ms, pfaultOut := s1.sys.vinLow || s1.sys.vinHigh },
      net := { s1.net with loaded := true }, task := { s1.task with periodAt := s1.now },
      spin := { s1.spin with driven := !s1.pair.en } }
    let s3 := raise 0x0D08 s2.sys.bootResult [wordOf (natOfBool s2.upd.runB), wordOf (trialCount s2), wordOf ms] .none s2
    if s3.pair.en then arbitrate (bootWait s3) s3 else s3
  else s1)

/-- The instant of an input snapshot: a tick boundary, or any instant while no tick runs. -/
def atSnapshot (s : State) : Bool :=
  !ticking s || decide (s.now = s.tick.nextAt) || (s.tick.started && decide (s.now = s.tick.boundary))

/-- REVERT_RESTART (R412, R415, R421): the boot stages run again into the other image: in recovery; for a forerunner image
once the latch is set and no spindle is active; for a revert at an input snapshot at which that holds. -/
def execRevertRestart (dt : Nat) (s : State) : Host.Outcome State Fault Refusal :=
  let s1 := begin_ dt s
  .next (if powered s1 && s1.upd.revertRestart && (decide (s1.sys.boot = .fault) ||
      (latched s1 && !anySpindleActive s1 && (decide (s1.upd.state ≠ .reverting) || atSnapshot s1))) then restart s1
    else s1)

end Sys2Proof.Machine
end

