-- ==== Sys2Proof/Machine/Power.lean ====
section
/-! DEFINITION. Supply, enable, standby and temperature (chapter 20), and the PCI Express link (R62, R439). -/
set_option autoImplicit false

namespace Sys2Proof.Machine

/-! ### Supply and enable (R445-R449) -/

/-- The conditions under which a rise of EN or VIN starts a boot (R447, R458). -/
def mayBoot (s : State) : Bool := s.sys.en && s.sys.vinOn && !s.sys.junctionOff

/-- EN or VIN rose: a boot starts, or is held until a power-down sequence that runs has ended. -/
def riseActs (s : State) : State :=
  match s.sys.power with
  | .off => if mayBoot s then bootUp s else s
  | .poweringDown => { s with sys := { s.sys with heldRise := true } }
  | .running => s

/-- VIN_ON (R408, R445): VIN rises through VIN_ON. -/
def execVinOn (dt : Nat) (s : State) : Host.Outcome State Fault Refusal :=
  let s1 := begin_ dt s
  .next (if s1.sys.vinOn then s1 else riseActs { s1 with sys := { s1.sys with vinOn := true } })

/-- EN_RISE (R447): a rising EN edge. -/
def execEnRise (dt : Nat) (s : State) : Host.Outcome State Fault Refusal :=
  let s1 := begin_ dt s
  .next (if s1.sys.en then s1 else riseActs { s1 with sys := { s1.sys with en := true } })

/-- The power-down sequence starts, on a module that runs. -/
def fallActs (s : State) : State := if powered s then powerDown s else s

/-- EN_FALL (R447, R449): a falling EN edge; a module that is off after a junction overtemperature may start again. -/
def execEnFall (dt : Nat) (s : State) : Host.Outcome State Fault Refusal :=
  let s1 := fallActs (begin_ dt s)
  .next { s1 with sys := { s1.sys with en := false, heldRise := false, junctionOff := false } }

/-- VIN_SUP_FALL (R445, R449): VIN falls through the supervisor threshold. -/
def execVinSupFall (dt : Nat) (s : State) : Host.Outcome State Fault Refusal :=
  let s1 := fallActs (begin_ dt s)
  .next { s1 with sys := { s1.sys with vinOn := false, heldRise := false, junctionOff := false, vinLow := false, vinHigh := false } }

/-- The core rails are off 2 ms into the sequence (R449). -/
def railsOff (s : State) : Nat := s.sys.downAt + 2000000

/-- The module is in standby. -/
def inStandby (s : State) : State :=
  { s with sys := { s.sys with power := .off, boot := .boot, heldRise := false }, stop := { s.stop with burst := none } }

/-- POWER_DOWN_END (R447, R449): the sequence ends in standby 2 ms after it began; a rise held during it is acted on. -/
def execPowerDownEnd (s : State) : Host.Outcome State Fault Refusal :=
  .next (if s.sys.power = .poweringDown then
    let s1 := inStandby (beginUp (railsOff s) s)
    if s.sys.heldRise && mayBoot s1 then bootUp s1 else s1
  else begin_ 0 s)

/-! ### VIN faults (R445, R446) -/

/-- The crossing is a pair supply fault (R446). -/
def pairSupplyFault (s : State) : Bool :=
  decide (s.pair.role = .standby) || (decide (s.pair.role = .active) && s.pair.partnerReady)

/-- A pair supply fault: PFAULT_OUT and the role in the cycle of the crossing, then a local set of the latch. -/
def localSupplyFault (s : State) : State :=
  let s1 := assertPfault (abortProof { s with stop := { s.stop with faults := addOnce s.stop.faults 5 } })
  if latched s1 then { s1 with stop := { s1.stop with seen := addOnce s1.stop.seen 4 } }
  else if s1.stop.controlled then latchSet s1.stop.cause s1.stop.icode true false false s1
  else latchSet 4 5 true false false s1

/-- A VIN crossing with its event. -/
def supplyFault (kind mv : Nat) (s : State) : State :=
  let s1 := raise 0x0F14 (kind + 256) [wordOf mv] .all { s with health := { s.health with vin := mv } }
  if pairSupplyFault s1 then localSupplyFault s1 else raiseFault 5 s1

/-- VIN_LOW (R445, R446). -/
def execVinLow (mv dt : Nat) (s : State) : Host.Outcome State Fault Refusal :=
  let s1 := begin_ dt s
  .next (if powered s1 && !s1.sys.vinLow then supplyFault 0 mv { s1 with sys := { s1.sys with vinLow := true } } else s1)

/-- VIN_HIGH (R445, R446). -/
def execVinHigh (mv dt : Nat) (s : State) : Host.Outcome State Fault Refusal :=
  let s1 := begin_ dt s
  .next (if powered s1 && !s1.sys.vinHigh then supplyFault 1 mv { s1 with sys := { s1.sys with vinHigh := true } } else s1)

/-- The sources of ICODE 5 other than INTERNAL_FAULT: VIN, the lid and the junction; it ceases when none holds. -/
def ceaseFive (s : State) : State :=
  if s.sys.vinLow || s.sys.vinHigh || s.health.tempFault || s.sys.junctionStop then s else ceaseFault 5 s

/-- VIN_FAULT_CEASE (R445): VIN has stayed within range for 100 ms; PFAULT_OUT follows R389 again. -/
def execVinFaultCease (high : Bool) (mv dt : Nat) (s : State) : Host.Outcome State Fault Refusal :=
  let s1 := begin_ dt s
  .next (if powered s1 && (if high then s1.sys.vinHigh else s1.sys.vinLow) then
    let s2 := { s1 with
      sys := { s1.sys with vinHigh := s1.sys.vinHigh && !high, vinLow := s1.sys.vinLow && high },
      health := { s1.health with vin := mv } }
    let s3 := ceaseFive (raise 0x0F14 (natOfBool high) [wordOf mv] .all s2)
    if s3.sys.vinLow || s3.sys.vinHigh || s3.stop.faults.contains 2 || !s3.sys.everReady then s3
    else reportPair (fun a => { a with sys := { a.sys with pfaultOut := false } }) s3
  else s1)

/-! ### Temperature (R457, R458) -/

/-- EV_THERMAL. -/
def thermal (detail : Nat) (s : State) : State :=
  raise 0x0F13 detail [wordOfInt s.health.lidTemp, wordOf s.rse.mhz] .all s

/-- The range of the throttle that a temperature lies in: 0 cool, 1 between, 2 hot. -/
def throttleBand (t : Int) : Nat := if 92 ≤ t then 2 else if t < 85 then 0 else 1

/-- The warning of R457. -/
def warnStep (t : Int) (s : State) : State :=
  if 88 ≤ t ∧ s.health.thermWarn = false then thermal 1 { s with health := { s.health with thermWarn := true } }
  else if t < 85 ∧ s.health.thermWarn = true then thermal 0 { s with health := { s.health with thermWarn := false } }
  else s

/-- The stop of R457: out of range for 1 s, and back within the operating range. -/
def rangeStep (t : Int) (s : State) : State :=
  let out := decide (97 < t) || decide (t < -42)
  let since := s.health.tempOutSince.getD s.up
  let s1 := { s with health := { s.health with tempOutSince := if out then some since else none } }
  if out && decide (since + nsPerSec ≤ s.up) && !s.health.tempFault then
    raiseFault 5 { s1 with health := { s1.health with tempFault := true } }
  else if s.health.tempFault && decide (-40 ≤ t) && decide (t ≤ 95) then
    ceaseFive { s1 with health := { s1.health with tempFault := false } }
  else s1

/-- LID_TEMP_SAMPLE (R457). -/
def execLidTempSample (temp : Int) (dt : Nat) (s : State) : Host.Outcome State Fault Refusal :=
  let s1 := begin_ dt s
  .next (if powered s1 then
    let h := s1.health
    let moved := throttleBand temp ≠ throttleBand h.lidTemp
    rangeStep temp (warnStep temp { s1 with health := { h with
      lidTemp := temp, lidTempMax := max h.lidTempMax temp, throttleAt := if moved then s1.up else h.throttleAt } })
  else s1)

/-- f_therm after a step in the present range. -/
def throttled (h : Health) : Nat :=
  match throttleBand h.lidTemp with
  | 2 => max 700 (h.fTherm - 50)
  | 0 => min 1000 (h.fTherm + 50)
  | _ => h.fTherm

/-- A step of f_therm. -/
def throttle (s : State) : State :=
  let s1 := setSolve { s with health := { s.health with fTherm := throttled s.health, throttleAt := s.up } }
  if throttleBand s1.health.lidTemp = 2 then thermal 2 s1 else s1

/-- THROTTLE_STEP (R457): 10 s after the last step, or since the lid came into its range. -/
def execThrottleStep (s : State) : Host.Outcome State Fault Refusal :=
  .next (if powered s && decide (throttled s.health ≠ s.health.fTherm) then
    throttle (beginUp (s.health.throttleAt + 10 * nsPerSec) s)
  else begin_ 0 s)

/-- JUNCTION_OVERTEMP (R458): the latch, the event, and a power-down once the burst has ended. -/
def execJunctionOvertemp (dt : Nat) (s : State) : Host.Outcome State Fault Refusal :=
  let s1 := begin_ dt s
  .next (if powered s1 then
    let s2 := raiseFault 5 { s1 with sys := { s1.sys with junctionStop := true } }
    afterBurst (thermal 3 s2)
  else s1)

/-! ### The PCI Express endpoint (R62, R439) -/

/-- PERST_N_CHANGE (R439): while PERST_N is low the endpoint is in reset and its MSI-X table starts from reset; once it is
released, a powered module trains the link with what the host's end supports (R62). -/
def execPerstNChange (p : PerstLevel) (dt : Nat) (s : State) : Host.Outcome State Fault Refusal :=
  let s1 := begin_ dt s
  .next (if p.high then
      let s2 := { s1 with sys := { s1.sys with
        perstN := true, perstAt := if s1.sys.perstN then s1.sys.perstAt else s1.up, hostLanes := p.lanes, hostGen := p.gen } }
      if powered s2 then trainLink s2 else s2
    else
      { s1 with
        sys := { s1.sys with perstN := false }, msix := [], msixPend := [], pcie := { s1.pcie with width := 0, gen := 0 } })

/-- PCIE_LINK_ERROR (R62, R83). -/
def execPcieLinkError (kind : PcieErr) (dt : Nat) (s : State) : Host.Outcome State Fault Refusal :=
  let s1 := begin_ dt s
  let p := s1.pcie
  .next (if !(powered s1 && s1.sys.perstN) then s1
    else match kind with
      | .correctable => setSysErr 2 { s1 with pcie := { p with ce := cnt32 p.ce } }
      | .uncorrectable => setSysErr 3 { s1 with pcie := { p with ue := cnt32 p.ue } }
      | .replayTimeout => setSysErr 2 { s1 with pcie := { p with replays := cnt32 p.replays } }
      | .retrain lanes gen =>
        trainLink { s1 with
          sys := { s1.sys with hostLanes := lanes, hostGen := gen }, pcie := { p with retrains := cnt32 p.retrains } }
      | .malformed => setSysErr 3 { s1 with pcie := { p with malformed := cnt32 p.malformed } })

/-! ### Pads derived from the state -/

/-- The patterns of STOP_LAMP (R293). -/
inductive Lamp
  | off | steady | flash2 | flash8
  deriving DecidableEq, Repr

/-- STOP_LAMP (R293, R449): the first pattern that applies wins. -/
def stopLamp (s : State) : Lamp :=
  if !powered s then .off
  else if s.stop.discrepancy then .flash8
  else if latched s then .steady
  else if s.stop.controlled then .flash2
  else .off

/-- STOP_OUT (R293, R449, R455): energised only while both channels are clear on a module that runs. -/
def stopOut (s : State) : Bool := powered s && !latched s

/-- ACT_OUT toggles (R388). -/
def actOut (s : State) : Bool := powered s && decide (s.pair.role = .active)

end Sys2Proof.Machine
end

