-- ==== Sys2Proof/Machine/Ptp.lean ====
section
/-! DEFINITION. The PTP instances (chapter 15, R362-R368) and PTP_CFG. -/
set_option autoImplicit false

namespace Sys2Proof.Machine

/-! ### The source instance (R362, R366) -/

/-- The order of the best master clock algorithm's data set comparison. -/
def masterKey (m : Master) : List Nat :=
  [m.prio1, m.clockClass, m.accuracy, m.variance, m.prio2, m.identity, m.steps]

def lexLess : List Nat → List Nat → Bool
  | a :: as, b :: bs => decide (a < b) || (decide (a = b) && lexLess as bs)
  | [], _ :: _ => true
  | _, [] => false

/-- The best master heard on a port. -/
def bestMaster (s : State) (port : Nat) : Option Master :=
  (s.time.masters.filter (fun m => decide (m.port = port))).foldl (fun o m => match o with
    | none => some m
    | some b => if lexLess (masterKey m) (masterKey b) then some m else some b) none

def masterGood (s : State) (port : Nat) : Bool :=
  match bestMaster s port with
  | some m => decide (m.clockClass = 6) || decide (m.clockClass = 7)
  | none => false

/-- The condition of a PTP source is judged afresh: a master of clockClass 6 or 7 is selected on its port. -/
def judgePtp (port : Nat) (s : State) : State :=
  let c := port - 6
  if masterGood s port then sourceHolds c s
  else if (getSource s c).heldSince.isSome then loseSource c s
  else s

/-- The instance that serves the fleet runs on a lone and on an active module (R362). -/
def fleetPtpRuns (s : State) : Bool := decide (s.pair.role = .lone) || decide (s.pair.role = .active)

def ptpAnnounce (m : PtpMsg) (s : State) : State :=
  let others := s.time.masters.filter (fun x => !(decide (x.port = m.port) && decide (x.identity = m.identity)))
  let x : Master := { m.master with port := m.port, identity := m.identity, heardAt := s.up }
  judgePtp m.port { s with time := { s.time with masters := others ++ [x] } }

/-- An offset measured on a port enters its source, less the port's asymmetry (R366). -/
def ptpOffset (m : PtpMsg) (s : State) : State :=
  let p := getPtpPort s m.port
  let x := getSource s (m.port - 6)
  setSource (m.port - 6) { x with sum := x.sum + (m.theta - p.asym / 1000), count := x.count + 1 }
    (setPtpPort m.port { p with mpd := m.mpd } s)

/-- The module answers a delay request on a port (R363): a Delay_Resp with the interval in force, or a Pdelay_Resp, which
a two-step port follows up. -/
def ptpAnswer (m : PtpMsg) (s : State) : State :=
  let p := getPtpPort s m.port
  let s1 := setPtpPort m.port { p with reqs := cnt32 p.reqs } s
  if m.kind = 1 then emit (.ptp m.port 9 m.seq (s1.now : Int) s1.time.ptp.logMinDreq) s1
  else
    let s2 := emit (.ptp m.port 3 m.seq (s1.now : Int) 0x7F) s1
    if p.oneStep then s2 else emit (.ptp m.port 10 m.seq (s1.now : Int) 0x7F) s2

/-- The peer delay mechanism measures a port's link (R363, R364). -/
def peerPort (p : PtpPort) : Bool := decide (p.delayMech = 1) || decide (p.tcMode = 2)

/-- PTP_MESSAGE_RX (R362-R366): message types are those of IEEE 1588. -/
def execPtpMessageRx (m : PtpMsg) (dt : Nat) (s : State) : Host.Outcome State Fault Refusal :=
  if !portExists s.member m.port || decide (m.port = 15) then .fault .noSuchUnit
  else
    let s1 := begin_ dt s
    let p := getPtpPort s1 m.port
    let srcHere := decide (8 ≤ m.port) && p.src && decide (m.domain = s1.time.ptp.srcDomain)
    let fleetHere := p.fleet && decide (m.domain = s1.time.ptp.fleetDomain) && fleetPtpRuns s1
    .next (if !powered s1 then s1
      else if m.kind = 11 then
        if srcHere then ptpAnnounce m (setPtpPort m.port { p with announces := cnt32 p.announces } s1) else s1
      else if m.kind = 0 then
        if srcHere then ptpOffset m (setPtpPort m.port { p with syncRcvd := cnt32 p.syncRcvd } s1) else s1
      else if m.kind = 8 ∨ m.kind = 9 then
        if srcHere then ptpOffset m s1 else s1
      else if m.kind = 1 then
        if fleetHere && decide (p.delayMech = 0) then ptpAnswer m s1 else s1
      else if m.kind = 2 then
        if peerPort p then ptpAnswer m s1 else s1
      else if m.kind = 3 ∨ m.kind = 10 then setPtpPort m.port { p with linkDelay := (m.mpd : Int), mpd := m.mpd } s1
      else s1)

/-- Announce intervals of the timeout, ns. -/
def annTimeoutNs (s : State) : Nat := s.time.ptp.annTimeout * 2 ^ s.time.ptp.logAnnounce * nsPerSec

/-- A master is no longer heard: the port's state is judged on those that are left. -/
def dropMaster (port identity : Nat) (s : State) : State :=
  let left := s.time.masters.filter (fun x => !(decide (x.port = port) && decide (x.identity = identity)))
  judgePtp port { s with time := { s.time with masters := left } }

/-- PTP_ANNOUNCE_TIMEOUT (R345): a master has not been heard for the timeout. -/
def execPtpAnnounceTimeout (port identity : Nat) (s : State) : Host.Outcome State Fault Refusal :=
  if port < 8 ∨ 8 + nBh s.member ≤ port then .fault .noSuchUnit
  else .next (match s.time.masters.find? (fun x => decide (x.port = port) && decide (x.identity = identity)) with
    | some m =>
      if powered s then
        dropMaster port identity (beginUp (m.heardAt + annTimeoutNs s) s)
      else begin_ 0 s
    | none => begin_ 0 s)

/-! ### The instance that serves the fleet (R359, R362, R363) -/

/-- clockClass and clockAccuracy of the Announce messages, by TQ. -/
def clockQuality (tq : Nat) : Nat × Nat :=
  match tq with
  | 3 => (6, 0x21)
  | 2 => (6, 0x23)
  | 1 => (7, 0xFE)
  | _ => (248, 0xFE)

/-- timeSource of the Announce messages, by the source in use. -/
def ptpTimeSource (code : Nat) : Nat :=
  match code with
  | 1 => 0x20
  | 2 | 3 => 0x40
  | 4 => 0x90
  | _ => 0xA0

/-- How many messages of an interval of 2^log s fall into a second. -/
def perSecond (log : Int) (sec : Nat) : Nat :=
  if log ≤ 0 then 2 ^ (-log).toNat else if sec % 2 ^ log.toNat = 0 then 1 else 0

/-- Messages of one type go out on a port in a second. -/
def ptpSend (port kind domain n : Nat) (s : State) : State :=
  if n = 0 then s else emit (.ptpSent port kind domain (getPtpPort s port).transport n) s

/-- What the fleet instance sends in a second on a port with FLEET = 1: Announce and Sync by their intervals, and a
Follow_Up of every Sync of a two-step port. -/
def fleetSend (sec : Nat) (s : State) (port : Nat) : State :=
  let p := getPtpPort s port
  if !p.fleet || !portExists s.member port then s
  else
    let c := s.time.ptp
    let q := clockQuality s.time.tqLast
    let s1 :=
      if sec % 2 ^ c.logAnnounce = 0 then
        emit (.announce port c.fleetDomain c.prio1 c.prio2 q.1 q.2 (ptpTimeSource s.time.selected) s.time.utcOffset
          s.time.utcValid s.time.leap) s
      else s
    let n := perSecond c.logSync sec
    let s2 := ptpSend port 0 c.fleetDomain n s1
    let s3 := if p.oneStep then s2 else ptpSend port 8 c.fleetDomain n s2
    setPtpPort port { p with syncSent := addCnt32 p.syncSent n } s3

/-- What measures a path in a second on a port (R363): Delay_Req of the source instance to its master, Pdelay_Req where the
peer mechanism is set. -/
def delaySend (sec : Nat) (s : State) (port : Nat) : State :=
  let p := getPtpPort s port
  if !portExists s.member port then s
  else if peerPort p then ptpSend port 2 s.time.ptp.srcDomain (perSecond s.time.ptp.logPdreq sec) s
  else if decide (8 ≤ port) && p.src && (bestMaster s port).isSome then
    ptpSend port 1 s.time.ptp.srcDomain (perSecond s.time.ptp.logMinDreq sec) s
  else s

/-- The messages that the instances send of themselves in a second (R362, R363). -/
def ptpSecond (s : State) : State :=
  let sec := s.now / nsPerSec
  let s1 := if fleetPtpRuns s then (List.range 10).foldl (fleetSend sec) s else s
  (List.range 10).foldl (delaySend sec) s1

/-- A write of a port's ASYM requalifies its source and clears the suspicion (R368). -/
def asymWritten (port : Nat) (s : State) : State :=
  let c := port - 6
  if port < 8 then s
  else if s.time.asymSuspect = true ∧ s.time.asymPort = port then endSuspect 3 s
  else if (getSource s c).barred = true then
    let x := getSource s c
    let good := masterGood s port
    let t := if good then some s.up else none
    let s1 := setSource c { x with barred := false, heldSince := t, qualAt := t } s
    reselect (raise 0x0A01 3 [wordOf port, wordOfInt (sat32 ((servoLaw s1 3).uPrev * 1000))] .all s1)
  else s

/-- The PTP settings written since the last servo evaluation take effect (R370); masters that the source instance no longer
listens to are forgotten. -/
def takePtp (s : State) : State :=
  let t := s.time
  let ports := ptpPortsSet t
  let heard := fun (m : Master) =>
    decide (t.ptp.srcDomain = t.ptpSet.srcDomain) && (tabGet ports m.port (PtpPort.init m.port)).src
  let s1 := { s with time := { t with
    ptp := t.ptpSet, ptpPorts := ports, ptpActs := [], masters := t.masters.filter heard } }
  let s2 := [8, 9].foldl (fun a p => judgePtp p a) s1
  t.ptpActs.foldl (fun a x => asymWritten x.1 a) s2

/-- A second spent on GNSS at TQ 0b11 enters the trend of law 0's output (R435). -/
def noteTrend (s : State) : State :=
  if s.time.selected = 1 ∧ s.time.tqLast = 3 then
    { s with time := { s.time with
        trend := ((s.up / nsPerSec, (servoLaw s 0).uPrev) :: s.time.trend).take 604800 } }
  else s

/-- The evaluation of the second at t: settings written since the last one come in force, the source is selected, and in
NORMAL mode the laws are evaluated on the offset of the second that has ended (R348-R359). -/
def servoSecond (t : Nat) (partner : Int) (s0 : State) : State :=
  let s := endDenials s0
  let measured := fun (c : Nat) => decide (c = 1) || decide ((getSource s c).count ≠ 0)
  let s1 := takeThetas partner (takePtp { s with time := { s.time with
    evaluated := t / nsPerSec, src := s.time.srcSet, servo := servoSetOf s,
    holdSecs := if s.time.holdover then s.time.holdSecs + 1 else 0 } })
  let s2 := reselect s1
  if s2.time.raw then ptpSecond (updateTq s2)
  else
    let thetaOf := fun (c : Nat) => if measured c then some (getSource s2 c).theta else none
    let th := if s2.time.selected = 0 then s2.time.thetaAdj / 1000 else (getSource s2 s2.time.selected).theta
    let s3 := asymDetect (getPtpPort s2 (ptpPortOf s2.time.selected)).mpd { s2 with time := { s2.time with theta := th } }
    let big := decide (s3.time.selected ≠ 0) && decide (s3.time.servo.stepThr * 1000 < s3.time.theta.natAbs) &&
      !s3.time.asymSuspect
    let s4 := if big && !anySpindleActive s3 then stepBack 1 s3.time.theta s3 else s3
    ptpSecond (noteTrend (updateTq (servoLaws thetaOf (rideCheck s4))))

/-- SERVO_SECOND (R348-R359). -/
def execServoSecond (partner : Int) (s : State) : Host.Outcome State Fault Refusal :=
  let t := servoAt s
  .next (if powered s && reaches t s then servoSecond t partner (beginAt t s) else begin_ 0 s)

/-! ### PTP_CFG -/

def ptpWords0 (c : PtpCfg) : List Word :=
  [0, wordOfFields [(c.fleetDomain, 0), (c.srcDomain, 8), (c.prio1, 16), (c.prio2, 24)],
    wordOfFields [(uint 4 c.logSync, 0), (c.logAnnounce, 4), (uint 4 c.logMinDreq, 8), (uint 4 c.logPdreq, 12),
      (c.annTimeout, 16)]]

def ptpWords1 (n : Nat) (p : PtpPort) : List Word :=
  [wordOfFields [(1, 0), (n, 8)],
    wordOfFields [(p.tcMode, 0), (natOfBool p.oneStep, 2), (natOfBool p.fleet, 3), (natOfBool p.src, 4),
      (p.delayMech, 5), (p.transport, 6)], wordOfInt p.asym]

def ptpWords2 (p : PtpPort) : List Word :=
  [p.syncSent, p.syncRcvd, p.reqs, p.announces, p.corrected, p.mpd, p.maxResidence].map wordOf

def ptpCfgBody (r : Req) (s : State) : Res := do
  let w := par r 0
  let sec := fld w 0 1
  let read := bitAt w 2
  let n := fld w 8 11
  let a := par r 1
  let b := par r 2
  let mask := if sec = 0 then 7 else if sec = 1 then 0xF07 else 0x1F07
  need (onlyBits w mask && (read || !(decide (sec = 0)) || onlyBits b 0xFFFFF) &&
    (read || !(decide (sec = 1)) ||
      (onlyBits a 0xFF && decide (fld a 0 1 ≠ 3) && decide (fld a 6 7 ≠ 3)))) .badParam 0
  need (read || decide (sec ≠ 0) || decide (fld a 0 7 ≠ fld a 8 15)) .badParam 1
  need (decide (sec ≠ 3)) .range 0
  if sec = 0 then
    if read then return (s, .ok 0 (ptpWords0 s.time.ptpSet))
    else
      need (decide (fld a 0 7 ≤ 127) && decide (fld a 8 15 ≤ 127)) .range 1
      need (betweenInt (sfld b 0 3) (-7) 1 && decide (fld b 4 7 ≤ 4) && betweenInt (sfld b 8 11) (-7) 5 &&
        betweenInt (sfld b 12 15) (-7) 5 && inRange (fld b 16 19) 2 10) .range 2
      let cfg : PtpCfg :=
        { fleetDomain := fld a 0 7, srcDomain := fld a 8 15, prio1 := fld a 16 23, prio2 := fld a 24 31,
          logSync := sfld b 0 3, logAnnounce := fld b 4 7, logMinDreq := sfld b 8 11, logPdreq := sfld b 12 15,
          annTimeout := fld b 16 19 }
      return ({ s with time := { s.time with ptpSet := cfg } }, .ok 0 (ptpWords0 cfg))
  else
    need (portExists s.member n && decide (n ≤ 9)) .range 0
    let p := getPtpPort s n
    if sec = 2 then
      let z := { p with syncSent := 0, syncRcvd := 0, reqs := 0, announces := 0, corrected := 0 }
      return (if bitAt w 12 then setPtpPort n z s else s, .ok 0 (ptpWords2 p))
    else if read then return (s, .ok 0 (ptpWords1 n (tabGet (ptpPortsSet s.time) n (PtpPort.init n))))
    else
      need (!(bitAt a 4 && decide (n < 8))) .range 1
      let c : PtpPortCfg :=
        { tcMode := fld a 0 1, oneStep := bitAt a 2, fleet := bitAt a 3, src := bitAt a 4, delayMech := fld a 5 5,
          transport := fld a 6 7, asym := spar r 2 }
      return ({ s with time := { s.time with ptpActs := s.time.ptpActs ++ [(n, c)] } },
        .ok 0 (ptpWords1 n (p.withCfg c)))

def descPtpCfg : Desc :=
  Desc.formLen (Desc.std 0xA04 [3, 5] 10 (fun r => bitAt (par r 0) 2 || decide (fld (par r 0) 0 1 = 2)) ptpCfgBody)
    (fun r =>
      let sec := fld (par r 0) 0 1
      if sec = 3 then none else if bitAt (par r 0) 2 ∨ sec = 2 then some 3 else some 5)

end Sys2Proof.Machine
end

