-- ==== Sys2Proof/Machine/Jobs.lean ====
section
/-! DEFINITION. The opcode index (R61), host jobs (R314-R318) with SCHED_JOB_DEFINE, and the dispatch of jobs to the tick
cores (R302, R303). -/
set_option autoImplicit false

namespace Sys2Proof.Machine

/-! ### The opcode index (R61) -/

def descs0 : List Desc :=
  [descNop, descGetInfo, descGetStatus, descSetTick, descSoftReset, descGetCounters, descGnssConfig,
   descGnssChannelSet, descGnssGetChannels, descGnssSetAntenna, descGnssNavSubscribe, descGnssSetIsb,
   descGnssSurvey, descGnssIntegrityCfg, descGnssGetObs, descCorrStreamCfg, descCorrGetStats, descRoverBind,
   descRoverCfg, descRoverGetFix]

def descs1 : List Desc :=
  [descRoverSubscribe, descRoverResetAmb, descRoverGetStats, descTrackOrigin, descTrackLoadNodes,
   descTrackLoadSlivers, descTrackCommit, descDeckleLoad, descResvGet, descResvRelease, descRouteSet,
   descTaskPost, descTaskCancel, descAllotCfg, descAllotRun, descAllotGet, descAllotCommit,
   descSpinProfileSet, descSpinStartAt, descSpinHold]

def descs2 : List Desc :=
  [descSpinGet, descPostDefine, descPostHome, descSpinMode, descYardOutSet, descGovCoefLoad, descGovCoefSwap,
   descGovLimits, descGovFeCfg, descGovGet, descGovCapSet, descStopFleet, descStopRobot, descStopReset,
   descStopCfg, descStopGet, descStopTest, descNetPortCfg, descNetVlan, descNetFdbAdd]

def descs3 : List Desc :=
  [descNetFdbGet, descNetRouteAdd, descNetRouteDel, descNetAgeCfg, descNetQosCfg, descTimeSourceCfg,
   descTimeGet, descTimeSet, descPpsCfg, descPtpCfg, descServoCfg, descTimeMode, descRecCfg, descRecRead,
   descRecMark, descRecSnapshot, descRecWrite, descRecErase, descPairCfg, descPairGet]

def descs4 : List Desc :=
  [descPairSwitch, descPairSelftestCfg, descUpdOpen, descUpdHeader, descUpdData, descUpdVerify,
   descUpdActivate, descUpdConfirm, descUpdAbort, descUpdGet, descSecAttest, descSecAclGet, descSecAclSet,
   descSecRobotKey, descSecCfgSession, descSchedGet, descHealthGet, descSelftestRun, descMarginGet]

/-- Every assigned command but SCHED_JOB_DEFINE. -/
def descList : List Desc := descs0 ++ descs1 ++ descs2 ++ descs3 ++ descs4

def descIn (op : Nat) : Option Desc := descList.find? (fun d => decide (d.op = op))

/-! ### SCHED_JOB_DEFINE (R316-R318) -/

/-- The header word of the stored packet: P+4. -/
def storedHeader (r : Req) : Word := par r 4

def storedWords (r : Req) : List Word := r.params.drop 4

/-- LENGTH of the form that OP names; a stored LENGTH outside 1 to 4,096 names none, and fails as check 1 (R318). -/
def jobFormLen (r : Req) : Option Nat :=
  if fld (par r 0) 8 10 = 1 then
    let n := fld (storedHeader r) 0 15
    if n = 0 ∨ 4096 < n then none else some (6 + n)
  else some 3

/-- Commands that R316 keeps out of host jobs. -/
def jobForbidden (x : Req) : Bool :=
  decide (x.op / 256 = 0xD) || decide (x.op = 0x004) || decide (x.op = 0xE04) || decide (x.op = 0xF01) ||
    (decide (x.op = 0xE03) && (decide (fld (par x 0) 8 10 = 1) || decide (fld (par x 0) 8 10 = 2)))

/-- The stored packet passes checks 1, 2, 4, 5 and 8 of R51 and obeys R316. -/
def storedOk (x : Req) (s : State) : Bool :=
  match descIn x.op with
  | none => false
  | some d =>
    decide (2 ≤ x.len) && decide (x.len ≤ 64) && d.lenOk x && !x.ev && !jobForbidden x &&
      (match d.body x s with
       | .error f => decide (f.status ≠ .badParam ∧ f.status ≠ .badLength)
       | .ok _ => true)

/-- Words 3 to 6 of the response. -/
def jobWords (j : Nat) (h : HostJob) : List Word :=
  [wordOfFields [(j, 0), (natOfBool h.armed, 16), (natOfBool h.ready, 17), (natOfBool h.running, 18), (h.counter, 20)],
   wordOf h.runs, wordOf h.overlaps, h.lastStatus]

/-- P+1 to P+3 of a definition and its stored packet. -/
def defnWords (d : HostJobDef) : List Word :=
  [wordOfFields [(d.trigger, 0), (d.deps, 4), (natOfBool d.rearm, 8), (natOfBool d.stopOnFail, 9), (d.eventCode, 16)],
   wordOf d.periodTicks, wordOf d.succMask] ++ d.packet

/-- A host job is armed: its counter starts at DEPS, and with no decrement to wait for it is ready at once (R314). -/
def armJob (d : HostJobDef) (up : Nat) (h : HostJob) : HostJob :=
  let now := decide (d.trigger = 0 ∧ d.deps = 0)
  { h with armed := true, counter := d.deps, periodLeft := d.periodTicks, ready := now, readyAt := if now then up else h.readyAt }

def schedJobDefineBody (r : Req) (s : State) : Res := do
  let j := fld (par r 0) 0 4
  let op := fld (par r 0) 8 10
  let a := par r 1
  let n := nHostJobs s.member
  let x := reqOfWords r.q r.epoch (storedWords r) none
  need (decide (op ≤ 4) && onlyBits (par r 0) 0x71F) .badParam 0
  need (decide (op ≠ 1) || (decide (fld a 0 1 ≠ 3) && onlyBits a 0xFFFF03F3 && onlyBits (par r 2) 0xFFFF)) .badParam 0
  need (decide (op ≠ 1) || !x.at_) .badParam 4
  need (decide (op ≠ 1) || storedOk x s) .badParam 3
  need (decide (j < n)) .range 0
  need (decide (op ≠ 1) || decide (fld a 0 1 ≠ 2) || decide (0 < fld (par r 2) 0 15)) .range 2
  need (decide (op ≠ 1) || decide ((par r 3).toNat < 2 ^ n)) .range 3
  let h := getHostJob s j
  need (!(decide (op = 1 ∨ op = 2) && h.armed)) .state 1
  match op with
  | 0 => return (s, .ok 0 (jobWords j h ++ match h.defn with
      | some d => defnWords d
      | none => [0, 0, 0]))
  | 1 =>
    let d : HostJobDef :=
      { trigger := fld a 0 1, deps := fld a 4 7, rearm := bitAt a 8, stopOnFail := bitAt a 9, eventCode := fld a 16 31,
        periodTicks := fld (par r 2) 0 15, succMask := (par r 3).toNat, packet := storedWords r, queue := r.q,
        epoch := r.epoch }
    let h' := { h with defn := some d, counter := 0 }
    return (setHostJob j h' s, .ok 0 (jobWords j h'))
  | 2 => return (setHostJob j HostJob.init s, .ok 0 (jobWords j HostJob.init))
  | 3 =>
    match h.defn with
    | none => failWith .state 2
    | some d =>
      let h' := if h.armed then h else armJob d s.up h
      return (setHostJob j h' s, .ok 0 (jobWords j h'))
  | _ =>
    let h' := { h with armed := false, ready := false }
    return (setHostJob j h' s, .ok 0 (jobWords j h'))

def descSchedJobDefine : Desc :=
  Desc.formLen { Desc.std 0xF01 [3] 74 (fun r => decide (fld (par r 0) 8 10 = 0)) schedJobDefineBody with
    lenOk := fun r => decide (lenNoAt r = 3) || (decide (8 ≤ lenNoAt r) && decide (lenNoAt r ≤ 70)) } jobFormLen

/-- The command of an opcode. -/
def descOf (op : Nat) : Option Desc := if op = 0xF01 then some descSchedJobDefine else descIn op

/-! ### Dispatch (R302, R303, R315) -/

/-- The stored command of a host job runs as one of the queue that defined it (R315). -/
def runHostJob (k : Nat) (s : State) : State :=
  match (getHostJob s k).defn with
  | none => s
  | some d =>
    let r := { reqOfWords d.queue d.epoch d.packet none with ch := false, stamp := s.now, job := some k }
    match descOf r.op with
    | none => failReq r { status := .badOpcode, detail := 0, words := [] } s
    | some c =>
      match headerChecks c r s with
      | .error f =>
        failReq r f (if f.status = .denied then
          deny (masterOf r.q) (0x2000 + r.op / 256) r.op (if c.isRead r then 1 else 2) s else s)
      | .ok _ => runNow c r true s

/-- The job that a core takes (R302, R303): the one it prefetched, while that may still run and no job of higher priority is
ready, or else the best of the creel. -/
def takeJob (core : Nat) (s : State) : Option ReadyJob :=
  let mine := (readyJobs s).find? (fun j =>
    decide ((getCore s core).prefetch = some j.slot) && !keyBusy s j && !(inGuard s && decide (j.prio = 6)))
  match mine, nextJob s core with
  | some j, some k => some (if j.prio < k.prio then k else j)
  | some j, none => some j
  | none, k => k

/-- JOB_DISPATCH (R302-R304, R315). -/
def execJobDispatch (core dt : Nat) (s : State) : Host.Outcome State Fault Refusal :=
  if nCores s.member ≤ core then .fault .noSuchUnit
  else
    let s1 := begin_ dt s
    let c := getCore s1 core
    if !powered s1 || c.quarantined || c.job.isSome || !(decide (s1.sys.boot = .init) || decide (s1.sys.boot = .ready)) then
      .next s1
    else
      .next (match takeJob core s1 with
        | none => s1
        | some j =>
          let s2 := prefetchJob core (startJob core j s1)
          settle (if j.slot < hostBase s1.member then s2 else runHostJob (j.slot - hostBase s1.member) s2))

end Sys2Proof.Machine
end

