-- ==== Sys2Proof/Machine/HostPort.lean ====
section
/-! DEFINITION. The host port (chapter 03): the BAR2 pages of the queue pairs, the W1C flags and counters, coalescing,
push rings, register writes, and the path by which waiting commands, due execute-at commands, network datagrams and
forwarded inputs reach their meaning. -/
set_option autoImplicit false

namespace Sys2Proof.Machine

/-- The endpoint answers accesses: the module is powered and PERST_N is released (R439). -/
def busServed (s : State) : Bool := powered s && s.sys.perstN

/-! ### Pointer faults and the reset of a queue pair (R74, R75) -/

/-- A pointer's copies disagree (R74): the pair is emptied and out of service, and every other enabled pair hears of it. -/
def pointerFault (q which : Nat) (s : State) : State :=
  let s1 := setQueFlag q .ptrFault (countQ q (fun c => { c with ptrFaults := cnt32 c.ptrFaults }) s)
  let s2 := modQ q (fun x => { x with
    faulted := true, epoch := x.epoch + 1,
    cmd := { CmdSide.init with wm := x.cmd.wm, credLimit := x.cmd.credLimit, wordsTaken := x.cmd.wordsTaken },
    evt := { x.evt with words := [], waiting := [] } }) s1
  raise 0x0020 q [wordOf (queStat (getQ s2 q)), wordOf which] (.allBut q) s2

/-- The reset of a queue pair (R75); the watermark flags, PEAK and XCNT stay (DESIGN CHOICE, log 172). -/
def resetQueue (q : Nat) (s : State) : State :=
  modQ q (fun x => { x with
    faulted := false, cmd := { CmdSide.init with wm := x.cmd.wm }, evt := { EvtSide.init with wm := x.evt.wm } }) s

/-- Pointers whose copies an access can find unequal: 0-4 of EV_QUE_PTR_FAULT. -/
def pointerExists (fault : Option Nat) : Bool := match fault with
  | some k => decide (k ≤ 4)
  | none => true

/-- An access to a queue pair that finds a pointer's copies unequal has no other effect (R74). -/
def orPointerFault (q : Nat) (fault : Option Nat) (f : State → State) (s : State) : State :=
  match fault with
  | some k => if (getQ s q).faulted then f s else pointerFault q k s
  | none => f s

/-- An access of HOSTP to a register block at an offset of the target (R27, R426): a denied one is reported, writes nothing
and reads 0 (R429). -/
def hostAccess (target off need_ : Nat) (f : State → State) (s : State) : State :=
  if aclAllows s 1 target off need_ then f s
  else if need_ = 1 then emit (.readData 0) (deny 1 target off need_ s)
  else deny 1 target off need_ s

/-- The offset of a queue pair's registers in the target QUE; its BAR2 page is decided by the same descriptor
(DESIGN CHOICE, log 160). -/
def queOffset (q : Nat) : Nat := 256 * q

/-! ### WRITE_PORT, DOORBELL, READ_PORT (R65-R71) -/

/-- A malformed write of WRITE_PORT is dropped and sets WR_FMT (R65); the strand timer restarts at it (R68). -/
def badWrite (q : Nat) (s : State) : State :=
  setQueFlag q .wrFmt (if qEnabled (getQ s q) then strandStart q s
    else countQ q (fun c => { c with disabledWrites := cnt32 c.disabledWrites }) (strandStart q s))

/-- WRITE_PORT_WRITE (R65, R68). -/
def execWritePortWrite (q : Nat) (w : Word) (ok : Bool) (fault : Option Nat) (dt : Nat) (s : State) :
    Host.Outcome State Fault Refusal :=
  if 15 < q then .fault .noSuchQueue
  else if !pointerExists fault then .fault .noSuchUnit
  else
    let s1 := begin_ dt s
    .next (if !queServed s1 q then s1
      else hostAccess 1 (queOffset q) 2
        (orPointerFault q fault (fun a => if ok then writeWord q w a else badWrite q a)) s1)

/-- DOORBELL_WRITE (R67). -/
def execDoorbellWrite (p : PtrAt) (dt : Nat) (s : State) : Host.Outcome State Fault Refusal :=
  if 15 < p.q then .fault .noSuchQueue
  else if !pointerExists p.fault then .fault .noSuchUnit
  else
    let s1 := beginInput dt s
    .next (if !queServed s1 p.q then s1
      else hostAccess 1 (queOffset p.q) 2 (orPointerFault p.q p.fault (fun a => settle (ringBell descOf p.q a))) s1)

/-- The 64-bit READ_PORT word: WORD, VALID, SOP, EOP and REMAINING. -/
def readPortValue (w : EvWord) (left : Nat) : Nat :=
  w.word.toNat + 2 ^ 32 + natOfBool w.sop * 2 ^ 33 + natOfBool w.eop * 2 ^ 34 + min left 0xFFFFFF * 2 ^ 40

/-- A read of READ_PORT (R70). -/
def readPort (q : Nat) (wide : Bool) (s : State) : State :=
  let x := getQ s q
  if !wide then emit (.readData 0) (setQueFlag q .rdFmt s)
  else if x.push then emit (.readData 0) s
  else match x.evt.words with
    | [] => emit (.readData 0) s
    | w :: r =>
      emit (.readData (readPortValue w r.length)) (modQ q (fun x => { x with evt := { x.evt with words := r } }) s)

/-- READ_PORT_READ (R70). -/
def execReadPortRead (q : Nat) (wide : Bool) (fault : Option Nat) (dt : Nat) (s : State) :
    Host.Outcome State Fault Refusal :=
  if 15 < q then .fault .noSuchQueue
  else if !pointerExists fault then .fault .noSuchUnit
  else
    let s1 := begin_ dt s
    .next (if !busServed s1 then s1
      else if !queServed s1 q then emit (.readData 0) s1
      else hostAccess 1 (queOffset q) 1 (fun a => match fault with
        | some k => if (getQ a q).faulted then readPort q wide a else emit (.readData 0) (pointerFault q k a)
        | none => readPort q wide a) s1)

/-- QUE_RESET (R75). -/
def execQueReset (q dt : Nat) (s : State) : Host.Outcome State Fault Refusal :=
  if 15 < q then .fault .noSuchQueue
  else
    let s1 := begin_ dt s
    .next (if queServed s1 q then hostAccess 1 (queOffset q) 2 (resetQueue q) s1 else s1)

/-- An incomplete packet whose next word did not come in time (R50, R68). -/
def strandPart (q : Nat) (s : State) : State :=
  if (getQ s q).cmd.part.isEmpty then s
  else
    discardPart q (setQueFlag q .strandDisc (countQ q (fun c => { c with strandDisc := cnt32 c.strandDisc }) s))

/-- A partly filled entry is closed as by a doorbell, and an incomplete packet discarded (R68). -/
def strand (q : Nat) (s : State) : State :=
  let show_ := fun (c : CmdSide) =>
    let c1 := closeEntry c
    { c1 with vis := c1.vis ++ c1.inv, inv := [], strandAt := none }
  let s1 := runInterp descOf q (modCmd q show_ s)
  settle (if (getQ s1 q).cmd.held.isSome then s1 else strandPart q s1)

/-- STRAND_TIMEOUT (R68). -/
def execStrandTimeout (p : PtrAt) (s : State) : Host.Outcome State Fault Refusal :=
  if 15 < p.q then .fault .noSuchQueue
  else if !pointerExists p.fault then .fault .noSuchUnit
  else .next (match (getQ s p.q).cmd.strandAt with
    | none => begin_ 0 s
    | some t =>
      if !queServed s p.q then begin_ 0 s
      else orPointerFault p.q p.fault (strand p.q) (beginUp (t + (getQ s p.q).strand * 10000) s))

/-- The held command is accepted; the interpreter goes on, and an incomplete packet behind it whose strand timer has
expired is discarded. -/
def takeHeld (q : Nat) (r : Req) (s : State) : State :=
  let s2 := runInterp descOf q (take (descOf r.op) r (modCmd q (fun c => { c with held := none }) s))
  let c := (getQ s2 q).cmd
  settle (if c.held.isNone && c.strandAt.isNone then strandPart q s2 else s2)

/-- The longest response that a received packet can have (R71). -/
def longestResponse (r : Req) : Nat :=
  match descOf r.op with
  | some d => if lengthOk d r then d.maxResp else 3
  | none => 3

/-- COMMAND_TAKEN (R71): the held command is accepted now that its longest response has room. -/
def execCommandTaken (p : PtrAt) (dt : Nat) (s : State) : Host.Outcome State Fault Refusal :=
  if 15 < p.q then .fault .noSuchQueue
  else if !pointerExists p.fault then .fault .noSuchUnit
  else
    let s1 := beginInput dt s
    .next (match (getQ s1 p.q).cmd.held with
      | none => s1
      | some r =>
        if queServed s1 p.q && roomFor s1 p.q (longestResponse r) then orPointerFault p.q p.fault (takeHeld p.q r) s1 else s1)

/-- COMPLETION_PLACED (R71): the first packet that waits is placed once it has room. -/
def execCompletionPlaced (p : PtrAt) (s : State) : Host.Outcome State Fault Refusal :=
  if 15 < p.q then .fault .noSuchQueue
  else if !pointerExists p.fault then .fault .noSuchUnit
  else
    let s1 := begin_ 0 s
    .next (match (getQ s1 p.q).evt.waiting with
      | [] => s1
      | ws :: r =>
        if powered s1 && decide (evtLevel (getQ s1 p.q) + ws.length ≤ 4096) then
          orPointerFault p.q p.fault
            (fun a => placePacket p.q ws (modQ p.q (fun x => { x with evt := { x.evt with waiting := r } }) a)) s1
        else s1)

/-! ### Push mode (R72) -/

/-- The words of the first packet on the event side. -/
def firstPacket : List EvWord → List Word
  | [] => []
  | w :: r => if w.eop then [w.word] else w.word :: firstPacket r

/-- The size of the ring in words. -/
def ringWords (x : Queue) : Nat := 2 ^ x.ringLog2 / 4

/-- Words of the ring that the host has not consumed. -/
def ringUsed (x : Queue) : Nat := (x.ringTail + ringWords x - x.ringHead % ringWords x) % ringWords x

/-- The writes that put words into the ring from its tail on, wrapping at its end; with the tail at or beyond the end of a
ring made smaller they start at its base (DESIGN CHOICE, log 173). -/
def ringWrites (x : Queue) (ws : List Word) : List Output :=
  let left := ringWords x - x.ringTail
  .hostWrite (x.ringBase + 4 * x.ringTail) (ws.take left) ::
    (if left < ws.length then [.hostWrite x.ringBase (ws.drop left)] else [])

/-- An access of another master to a memory region (R25, R426): a denied one is reported and does nothing. -/
def regionAccess (master target need_ : Nat) (f : State → State) (s : State) : State :=
  if aclAllows s master target 0 need_ then f s else deny master target 0 need_ s

/-- A packet goes into the ring, and the tail moves on after it (R72). -/
def writePacket (q : Nat) (ws : List Word) (s : State) : State :=
  let x := getQ s q
  let tail := (x.ringTail + ws.length) % ringWords x
  let s2 := (ringWrites x ws).foldl (fun a o => emit o a) s
  let s3 := modQ q (fun y => { y with ringTail := tail, evt := { y.evt with words := y.evt.words.drop ws.length } }) s2
  if x.wbAddr = 0 then s3 else emit (.tailWrite x.wbAddr tail) s3

/-- PUSH_RING_WRITE (R72): the next packet is copied into the ring once it has room for all of it, through the staging
region, which the cores write and QDMA reads (R25, R428). -/
def execPushRingWrite (p : PtrAt) (s : State) : Host.Outcome State Fault Refusal :=
  if 15 < p.q then .fault .noSuchQueue
  else if !pointerExists p.fault then .fault .noSuchUnit
  else
    let s1 := begin_ 0 s
    let x := getQ s1 p.q
    let ws := firstPacket x.evt.words
    .next (if queServed s1 p.q && qEnabled x && x.push && !ws.isEmpty && decide (ringUsed x + ws.length < ringWords x) then
      orPointerFault p.q p.fault (regionAccess 4 0x1005 2 (regionAccess 7 0x1005 1 (writePacket p.q ws))) s1
    else s1)

/-! ### Interrupt coalescing and the W1C flags (R73, R76, R77) -/

/-- INT_STAT bit q sets by its coalescing, and the count returns to 0. -/
def coalFire (q : Nat) (s : State) : State :=
  setInt q (modQ q (fun x => { x with evt := { x.evt with coalCount := 0, coalAt := none } }) s)

/-- COAL_TIMEOUT (R73). -/
def execCoalTimeout (q : Nat) (s : State) : Host.Outcome State Fault Refusal :=
  if 15 < q then .fault .noSuchQueue
  else .next (match (getQ s q).evt.coalAt with
    | some t =>
      if powered s && !s.intStat.getD q false then coalFire q (beginUp (t + (getQ s q).coalCfgTime * 1000) s) else begin_ 0 s
    | none => begin_ 0 s)

/-- The hardware sets a bit of INT_STAT: that of a queue pair by its coalescing, whose count returns to 0 (R73). -/
def hwInt (k : Nat) (s : State) : State := if k < 16 then coalFire k s else setInt k s

/-- The bit of a queue pair in INT_STAT was cleared: it sets again at once, or its timer starts (R73). -/
def recoalesce (q : Nat) (s : State) : State :=
  let x := getQ s q
  if x.evt.coalCount = 0 then s
  else if max 1 x.coalCfgCount ≤ x.evt.coalCount then coalFire q s
  else if x.coalCfgTime = 0 then s
  else modQ q (fun x => { x with evt := { x.evt with coalAt := some s.up } }) s

/-- Numbers of the bits set in a mask of n bits. -/
def bitsOf (n mask : Nat) : List Nat := (List.range n).filter (fun i => Nat.testBit mask i)

/-- Ones are written to INT_STAT; a bit that the hardware sets in the same cycle stays 1 (R73, R76). -/
def clearInt (mask setNow : Nat) (s : State) : State :=
  let s1 := (bitsOf 23 setNow).foldl (fun a k => hwInt k a) s
  let gone := (bitsOf 23 mask).filter (fun k => !Nat.testBit setNow k && s1.intStat.getD k false)
  let s2 := gone.foldl (fun a k => { a with intStat := a.intStat.set k false }) s1
  (gone.filter (fun k => decide (k < 16))).foldl (fun a q => recoalesce q a) s2

/-- The number of flags of a register that carry an occurrence counter. -/
def flagCount : FlagReg → Nat
  | .sysErr => 4 | .que _ => 6 | .int => 32 | .stop => 5 | .time => 4

/-- The flag of QUE_STAT at a bit. -/
def queFlagOf (i : Nat) : QueFlag := [QueFlag.credViol, .wrFmt, .rdFmt, .evtDrop, .strandDisc, .ptrFault].getD i .credViol

/-- The hardware sets a flag. -/
def setFlag (reg : FlagReg) (i : Nat) (s : State) : State :=
  match reg with
  | .sysErr => setSysErr i s
  | .que q => setQueFlag q (queFlagOf i) s
  | .int => if i < 23 then hwInt i s else s
  | .stop => setStopFlag i s
  | .time => setTimeFlag i s

/-- Ones are written to a W1C register; a flag that the hardware sets in the same cycle stays 1 (R76). -/
def clearFlags (reg : FlagReg) (mask setNow : Nat) (s : State) : State :=
  let s1 := if reg = .int then s else (bitsOf (flagCount reg) setNow).foldl (fun a i => setFlag reg i a) s
  match reg with
  | .sysErr => { s1 with sys := { s1.sys with err := w1c s1.sys.err mask setNow } }
  | .que q =>
    ((bitsOf 6 mask).filter (fun i => !Nat.testBit setNow i)).foldl
      (fun a i => modQ q (fun x => putQueFlag (queFlagOf i) false x) a) s1
  | .int => clearInt mask setNow s1
  | .stop => { s1 with stop := { s1.stop with flags := w1c s1.stop.flags mask setNow } }
  | .time => { s1 with time := { s1.time with flags := w1c s1.time.flags mask setNow } }

/-- The queue pair of a flag register exists. -/
def flagRegExists : FlagReg → Bool
  | .que q => decide (q < 16)
  | _ => true

/-- The register can be written or read now: those of a queue pair only while it is served (R410, R412). -/
def flagRegServed (s : State) (reg : FlagReg) : Bool := match reg with
  | .que q => queServed s q
  | _ => busServed s

/-- The register block and the offset of a flag register. -/
def flagTarget : FlagReg → Nat × Nat
  | .sysErr => (0, 0x10)
  | .que q => (1, queOffset q + 4)
  | .int => (2, 0)
  | .stop => (3, 4)
  | .time => (4, 0x10)

/-- W1C_FLAG_CLEAR (R76). -/
def execW1cFlagClear (reg : FlagReg) (bits setNow dt : Nat) (s : State) : Host.Outcome State Fault Refusal :=
  if !flagRegExists reg then .fault .noSuchQueue
  else
    let s1 := begin_ dt s
    .next (if flagRegServed s1 reg then
      hostAccess (flagTarget reg).1 (flagTarget reg).2 2 (clearFlags reg bits setNow) s1 else s1)

/-- INT_STAT_CLEAR (R73). -/
def execIntStatClear (bits setNow dt : Nat) (s : State) : Host.Outcome State Fault Refusal :=
  let s1 := begin_ dt s
  .next (if busServed s1 then hostAccess 2 0 2 (clearInt bits setNow) s1 else s1)

/-- A watermark flag is cleared with the side at a level; a crossing in the same cycle leaves the flag at 1 (R77). -/
def markClear (level : Nat) (crossing : Option Nat) : Mark :=
  match crossing with
  | some n => { flag := true, peak := n, xcnt := 1 }
  | none => { flag := false, peak := level, xcnt := 0 }

def clearMark (q : Nat) (evtSide : Bool) (crossing : Option Nat) (s : State) : State :=
  modQ q (fun x =>
    if evtSide then { x with evt := { x.evt with wm := markClear (evtLevel x) crossing } }
    else { x with cmd := { x.cmd with wm := markClear (cmdLevel x) crossing } }) s

/-- WATERMARK_FLAG_CLEAR (R77). -/
def execWatermarkFlagClear (q : Nat) (evtSide : Bool) (crossing : Option Nat) (dt : Nat) (s : State) :
    Host.Outcome State Fault Refusal :=
  if 15 < q then .fault .noSuchQueue
  else
    let s1 := begin_ dt s
    .next (if queServed s1 q then hostAccess 1 (queOffset q + 4) 2 (clearMark q evtSide crossing) s1 else s1)

/-- The occurrence counters of a register, bit order. -/
def occOf (reg : FlagReg) (s : State) : List Nat :=
  match reg with
  | .sysErr => s.sys.errOcc
  | .que q => (getQ s q).occ
  | .int => s.intOcc
  | .stop => s.stop.occ
  | .time => s.time.occ

def putOcc (reg : FlagReg) (l : List Nat) (s : State) : State :=
  match reg with
  | .sysErr => { s with sys := { s.sys with errOcc := l } }
  | .que q => modQ q (fun x => { x with occ := l }) s
  | .int => { s with intOcc := l }
  | .stop => { s with stop := { s.stop with occ := l } }
  | .time => { s with time := { s.time with occ := l } }

/-- The counters 4 word to 4 word + 3 are returned and cleared; an occurrence in the same cycle counts after that (R76). -/
def readOcc (reg : FlagReg) (word again : Nat) (s : State) : State :=
  let l := occOf reg s
  let v := occWord ((l.drop (4 * word)).take 4)
  let l' := (l.zip (List.range l.length)).map (fun p => if p.2 / 4 = word then 0 else p.1)
  let s1 := emit (.readData v) (putOcc reg l' s)
  ((bitsOf 4 again).filter (fun i => decide (4 * word + i < flagCount reg))).foldl (fun a i => setFlag reg (4 * word + i) a) s1

/-- OCC_COUNTER_READ (R76). -/
def execOccCounterRead (reg : FlagReg) (word again dt : Nat) (s : State) : Host.Outcome State Fault Refusal :=
  if !flagRegExists reg then .fault .noSuchQueue
  else
    let s1 := begin_ dt s
    .next (if !busServed s1 then s1
      else if flagRegServed s1 reg then
        hostAccess (flagTarget reg).1 ((flagTarget reg).2 + 4 + 4 * word) 1 (readOcc reg word again) s1
      else emit (.readData 0) s1)

/-! ### Registers of their own (R63, R81, R369) -/

/-- A write of SYS_RESET (R81): the key acts as SOFT_RESET from HOSTP, and RESULT tells what became of it. -/
def sysReset (value : Nat) (s : State) : State :=
  if value % 65536 ≠ 0x5AFE then s
  else
    let r := { Req.none with op := 0x004, q := 0, len := 3, params := [wordOf 0x5AFE], stamp := s.now }
    let refuse := fun (a : State) => { a with sys := { a.sys with resetResult := 2 } }
    match headerChecks descSoftReset r s with
    | .error f => refuse (if f.status = .denied then deny 1 0x2000 r.op 2 s else s)
    | .ok _ =>
      match gatedBody descSoftReset r s with
      | .error _ => refuse s
      | .ok (s', _) => settle { s' with sys := { s'.sys with resetResult := 1 } }

/-- SYS_RESET_WRITE (R81). -/
def execSysResetWrite (value dt : Nat) (s : State) : Host.Outcome State Fault Refusal :=
  let s1 := begin_ dt s
  .next (if busServed s1 then hostAccess 0 0x1C 2 (sysReset value) s1 else s1)

/-- Device time is captured, and its nanoseconds returned (R369). -/
def snapTime (s : State) : State :=
  emit (.readData (s.now % nsPerSec)) { s with time := { s.time with snap := s.now } }

/-- TIME_SNAP_READ (R369). -/
def execTimeSnapRead (dt : Nat) (s : State) : Host.Outcome State Fault Refusal :=
  let s1 := begin_ dt s
  .next (if busServed s1 then hostAccess 4 0 1 snapTime s1 else s1)

/-- An access that BAR0 or BAR2 does not take (R63). -/
def barFault (fmt isRead : Bool) (s : State) : State :=
  let s1 := setSysErr (if fmt then 0 else 1) s
  if isRead then emit (.readData 0) s1 else s1

/-- BAR_ACCESS_FAULT (R63): a malformed access sets ACC_FMT, one to a reserved range UNMAPPED. -/
def execBarAccessFault (fmt isRead : Bool) (dt : Nat) (s : State) : Host.Outcome State Fault Refusal :=
  let s1 := begin_ dt s
  .next (if busServed s1 then barFault fmt isRead s1 else s1)

/-- A write of CTRL (QUE fields): MODE only while EN was 0, STRAND clamped, RESET as R75. -/
def writeCtrl (q : Nat) (w : Word) (s : State) : State :=
  let s1 := modQ q (fun x => { x with
    en := bitAt w 0, push := if x.en then x.push else bitAt w 1, strand := min 10000 (max 1 (fld w 16 29)) }) s
  if bitAt w 2 then resetQueue q s1 else s1

/-- The coalescing timer under a new COAL.TIME (R73): none with TIME 0; with packets counted while the bit is clear, one
that was not running starts. -/
def coalTimer (time count up : Nat) (set_ : Bool) (at_ : Option Nat) : Option Nat :=
  if time = 0 ∨ count = 0 ∨ set_ = true then none else at_.or (some up)

/-- A write of COAL: a count that already reaches the new COUNT sets the bit at once (R73). -/
def writeCoal (q : Nat) (w : Word) (s : State) : State :=
  let set_ := s.intStat.getD q false
  let s1 := modQ q (fun x => { x with
    coalCfgCount := fld w 0 7, coalCfgTime := fld w 8 23,
    evt := { x.evt with coalAt := coalTimer (fld w 8 23) x.evt.coalCount s.up set_ x.evt.coalAt } }) s
  let x := getQ s1 q
  if !set_ && decide (0 < x.evt.coalCount) && decide (max 1 x.coalCfgCount ≤ x.evt.coalCount) then coalFire q s1 else s1

/-- A ring register is written only while EN = 0 (R72). -/
def writeRing (q : Nat) (f : Queue → Queue) (s : State) : State := if (getQ s q).en then s else modQ q f s

/-- The low and high halves of a 64-bit address. -/
def putLow (a : Nat) (w : Nat) : Nat := a / 2 ^ 32 * 2 ^ 32 + w
def putHigh (a : Nat) (w : Nat) : Nat := a % 2 ^ 32 + w * 2 ^ 32

/-- A write to a QUE register (QUE fields). -/
def writeQue (q off : Nat) (w : Word) (s : State) : State :=
  match off with
  | 0x00 => writeCtrl q w s
  | 0x04 =>
    let s1 := clearFlags (.que q) (fld w 0 5) 0 s
    let s2 := if bitAt w 6 then clearMark q false none s1 else s1
    if bitAt w 7 then clearMark q true none s2 else s2
  | 0x1C => modQ q (fun x => { x with wmCmdCfg := fld w 0 10, wmEvtCfg := fld w 16 28 }) s
  | 0x2C => writeCoal q w s
  | 0x30 => writeRing q (fun x => { x with ringBase := putLow x.ringBase (fld w 12 31 * 4096) }) s
  | 0x34 => writeRing q (fun x => { x with ringBase := putHigh x.ringBase w.toNat }) s
  | 0x38 => writeRing q (fun x => { x with ringLog2 := min 20 (max 12 (fld w 0 4)) }) s
  | 0x3C => modQ q (fun x => { x with ringHead := fld w 0 17 }) s
  | 0x44 => writeRing q (fun x => { x with wbAddr := putLow x.wbAddr (fld w 3 31 * 8) }) s
  | 0x48 => writeRing q (fun x => { x with wbAddr := putHigh x.wbAddr w.toNat }) s
  | _ => s

/-- A write to the MSI-X table (R64): an entry's address, data and mask; a message held while masked goes out once the
entry is unmasked. -/
def writeMsix (k field : Nat) (w : Word) (s : State) : State :=
  let e := tabGet s.msix k MsixEntry.init
  let e' := match field with
    | 0 => { e with addr := putLow e.addr (fld w 2 31 * 4) }
    | 1 => { e with addr := putHigh e.addr w.toNat }
    | 2 => { e with data := w }
    | _ => { e with masked := bitAt w 0 }
  let s1 := { s with msix := tabSet s.msix k e' }
  if s1.msixPend.contains k && !e'.masked then
    emit (.msix k) { s1 with msixPend := s1.msixPend.filter (fun i => decide (i ≠ k)) }
  else s1

/-- The target of an offset of BAR0, and the offset in it: blocks 6 and 7 are one target, the MSI-X table and its
pending bits. -/
def barTarget (off : Nat) : Nat × Nat :=
  if off < 0x7000 then (off / 0x1000, off % 0x1000) else (6, off - 0x6000)

/-- What a write that its target permits does (R63): each block takes its own; a register that is read only, and bits that no
register defines, are ignored. -/
def writeBlock (off : Nat) (w : Word) (fault : Option Nat) (s : State) : State :=
  match off / 0x1000 with
  | 0 =>
    if off = 0x10 then clearFlags .sysErr (fld w 0 3) 0 s
    else if off = 0x18 then { s with sys := { s.sys with scratch := w } }
    else if off = 0x1C then sysReset w.toNat s
    else s
  | 1 =>
    let q := off % 0x1000 / 0x100
    if queServed s q then orPointerFault q fault (writeQue q (off % 0x100) w) s else s
  | 2 => if off = 0x2000 then clearInt w.toNat 0 s else if off = 0x2004 then { s with intEn := w } else s
  | 3 => if off = 0x3004 then clearFlags .stop (fld w 0 4) 0 s else s
  | 4 => if off = 0x4010 then clearFlags .time (fld w 0 3) 0 s else s
  | 6 => if off < 0x6200 then writeMsix (off % 0x1000 / 16) (off / 4 % 4) w s else s
  | _ => s

/-- A write to BAR0 (R63, R429). -/
def writeBar0 (off : Nat) (w : Word) (fault : Option Nat) (s : State) : State :=
  if off % 4 ≠ 0 then barFault true false s
  else if 0x8000 ≤ off then barFault false false s
  else hostAccess (barTarget off).1 (barTarget off).2 2 (writeBlock off w fault) s

/-- REGISTER_WRITE (R63): a 32-bit write at an offset of BAR0. -/
def execRegisterWrite (off : Nat) (w : BarWrite) (dt : Nat) (s : State) : Host.Outcome State Fault Refusal :=
  if 0x10000 ≤ off then .fault .noSuchUnit
  else if !pointerExists w.fault then .fault .noSuchUnit
  else
    let s1 := begin_ dt s
    .next (if busServed s1 then writeBar0 off (wordOf w.value) w.fault s1 else s1)

/-! ### Waiting commands (R34, R43) -/

/-- The oldest waiting command of a chain whose predecessor has reached its final status, and the others. -/
def nextWaiter : List Waiter → Option (Req × Bool × List Waiter)
  | [] => none
  | w :: r => match w.outcome with
    | some good => some (w.req, good, r)
    | none => (nextWaiter r).map (fun p => (p.1, p.2.1, w :: p.2.2))

/-- CHAIN_RELEASE (R34): a chained command begins, or fails with its chain. -/
def execChainRelease (q dt : Nat) (s : State) : Host.Outcome State Fault Refusal :=
  if 16 < q then .fault .noSuchQueue
  else
    let s1 := begin_ dt s
    let c := getChain s1 q
    .next (if !powered s1 then s1
      else match nextWaiter c.waiters with
        | none => s1
        | some (r, good, rest) =>
          let s2 := { s1 with chains := tabSet s1.chains q { c with waiters := rest } }
          match descOf r.op with
          | none => s2
          | some d => settle (runNow d r good s2))

/-- The order of pending commands: by execute-at time, and on equal times by acceptance timestamp and queue (R39). -/
def dueBefore (x r : Req) : Bool :=
  decide (x.execAt < r.execAt) ||
    (decide (x.execAt = r.execAt) && (decide (x.stamp < r.stamp) || (decide (x.stamp = r.stamp) && decide (x.q < r.q))))

/-- The pending command that comes first, and the others. -/
def firstDue : List Req → Option (Req × List Req)
  | [] => none
  | r :: rs => match firstDue rs with
    | none => some (r, [])
    | some (x, ys) => if dueBefore x r then some (x, r :: ys) else some (r, rs)

/-- A pending command executes (R43): checks 8 to 11 again, and its lateness where a step of device time has passed its
time (R44, R355). -/
def runDue (d : Desc) (r : Req) (s : State) : State :=
  let l := s.now - r.execAt
  if d.cls r = .motion ∧ periodNs s < l then failReq r { status := .late, detail := min 65535 (l / 1000), words := [] } s
  else
    let r' := { r with late := r.late || decide (0 < l), eff := d.eff }
    match gatedBody d r' s with
    | .error f => failReq r' f s
    | .ok (s', rep) => perform r' s' rep

/-- EXEC_AT_DUE (R43): the earliest execute-at time of the pending commands arrives. -/
def execExecAtDue (s : State) : Host.Outcome State Fault Refusal :=
  .next (match firstDue s.execs with
    | none => begin_ 0 s
    | some (r, rest) =>
      if !powered s || decide (s.pair.role = .arbitrating) || !reaches r.execAt s then begin_ 0 s
      else
        let s1 := beginAt r.execAt { s with execs := rest }
        match descOf r.op with
        | none => s1
        | some d => settle (runDue d r s1))

/-! ### Commands over the network (R56-R60) -/

/-- The packet that a datagram carries. -/
def datagramWords (payload : List Byte) : List Word :=
  (List.range ((payload.length - 24) / 4)).map (fun i => wordOf (leNat ((payload.drop (16 + 4 * i)).take 4)))

def countSec (f : SecCounters → SecCounters) (s : State) : State := { s with secCnt := f s.secCnt }

/-- A management datagram is checked for its length, its FORMAT and KEY_IX, its MAC and its SEQ, in that order, and its
packet is taken on the network queue. -/
def takeDatagram (src : NetSrc) (payload : List Byte) (s : State) : State :=
  let n := leNat ((payload.drop 16).take 2)
  let ix := leNat ((payload.drop 2).take 2)
  let seq := leNat ((payload.drop 4).take 8)
  if payload.length < 28 ∨ payload.length ≠ 24 + 4 * n then countSec (fun c => { c with dropLength := cnt32 c.dropLength }) s
  else
    let mk := s.mgmt.getD ix MgmtKey.init
    match (if leNat (payload.take 2) = 1 ∧ ix < 4 then mk.key else none) with
    | none => countSec (fun c => { c with dropFormat := cnt32 c.dropFormat }) s
    | some k =>
      let body := payload.take (payload.length - 8)
      if cmacTag (keyBytes k) body 8 ≠ payload.drop (payload.length - 8) then
        countSec (fun c => { c with dropMac := cnt32 c.dropMac }) s
      else
        let w : Window := { highest := mk.highest, seen := mk.seen }
        let r := reqOfWords 16 0 (datagramWords payload) (some { src with key := ix })
        if !windowOk w seq then
          answer r (responseWords r.op r.tag .auth false 1 []) (countSec (fun c => { c with replays := cnt32 c.replays }) s)
        else
          let w' := windowTake w seq
          let s1 := countSec (fun c => { c with accepted := cnt32 c.accepted })
            { s with mgmt := s.mgmt.set ix { mk with highest := w'.highest, seen := w'.seen } }
          if 4096 < n then
            let (r1, _, _, s2) := enterChain { r with stamp := s1.now } s1
            finish r1 .lengthExceeds 0 [wordOf n] s2
          else take (descOf r.op) r s1

/-- An interface of the internal port serves management commands: the pair interfaces only on the module that answers on
them (R325, R397). -/
def mgmtServed (s : State) (k : Nat) : Bool :=
  let i := getIface s k
  powered s && (decide (s.sys.boot = .init) || decide (s.sys.boot = .ready)) && i.en && Nat.testBit i.services 1 &&
    (decide (k = 3) || decide (s.pair.role = .lone) || decide (s.pair.role = .active))

/-- MGMT_DATAGRAM (R56-R60). -/
def execMgmtDatagram (iface : Nat) (src : NetSrc) (payload : List Byte) (dt : Nat) (s : State) :
    Host.Outcome State Fault Refusal :=
  if 4 ≤ iface then .fault .noSuchUnit
  else
    let s1 := beginInput dt s
    .next (if mgmtServed s1 iface then settle (takeDatagram src payload s1) else s1)

/-! ### Forwarded inputs (R393) -/

/-- A pending execute-at command of the active module is kept with its last mirror record (R46). -/
def keepExec (r : Req) (s : State) : State :=
  { s with pair := { s.pair with
    mirror := s.pair.mirror.map (fun m => { m with execs := m.execs ++ [{ r with accepted := true }] }) } }

/-- IF[3] is each module's own interface (R397). -/
def keepOwnIface (old new : Net) : Net :=
  { new with ifaces := new.ifaces.filter (fun p => decide (p.1 ≠ 3)) ++ old.ifaces.filter (fun p => decide (p.1 = 3)) }

/-- What a forwarded command changes of the state that the standby follows; its answers are the active module's. -/
def followCommand (d : Desc) (r : Req) (s : State) : State :=
  if d.isRead r then s
  else if waitsForTime d r then keepExec r s
  else
    match d.body (followed r) s with
    | .error _ => s
    | .ok (s', _) =>
      { (if r.at_ && decide (d.cls r = .pps) then keepExec r s else s) with
        fresh := s'.fresh, tick := s'.tick, gov := s'.gov, spin := s'.spin, track := s'.track, task := s'.task, uz := s'.uz,
        rse := { s'.rse with subs := s.rse.subs }, gnss := s'.gnss, corr := s'.corr, net := keepOwnIface s.net s'.net, time := s'.time }

/-- Commands whose effect on the module that took them does not concern the standby: the stop commands, whose stops the
mirror record and the stop symbol carry, and subscriptions of a queue pair. -/
def ownOnly (op : Nat) : Bool :=
  decide (op / 256 = 8) || decide (op / 256 = 0) && decide (op ≠ 3) || decide (0xB ≤ op / 256) && decide (op ≠ 0xE03) ||
    [0x104, 0x108, 0x303].contains op

/-- What an INPUT record forwards. -/
def followInput (i : LaneInput) (s : State) : State :=
  match i with
  | .frame f _ => uplinkFrame f s
  | .command r =>
    if ownOnly r.op then s
    else match descOf r.op with
      | none => s
      | some d => followCommand d r s
  | .contact e => { s with spin := { s.spin with quals := s.spin.quals ++ [e] } }

/-- INPUT (R393): the standby receives a frame, a command or a contact change of the active module. -/
def execInput (seq : Nat) (i : LaneInput) (dt : Nat) (s : State) : Host.Outcome State Fault Refusal :=
  let s1 := begin_ dt s
  .next (if listens s1 then reportPair (fun a => followInput i (laneIn seq a)) s1 else unheard s1)

end Sys2Proof.Machine
end

