-- ==== Sys2Proof/Machine/Commands.lean ====
section
/-! DEFINITION. The host commands, rows 0-99 of the table: each arrives on its queue as a packet (chapter 02) and has
the effect that its descriptor gives. -/
set_option autoImplicit false

namespace Sys2Proof.Machine

/-- A host command arrives on its queue: a queue pair or the network queue (R60); a SOFT_RESET that it answers is carried
out (R82). -/
def arrive (d : Desc) (c : Cmd) (s : State) : Host.Outcome State Fault Refusal :=
  if 16 < c.q then .fault .noSuchQueue else .next (settle (hostCommand d descOf c (beginInput c.dt s)))

/-- NOP (R61). -/
def execNop (c : Cmd) (s : State) : Host.Outcome State Fault Refusal := arrive descNop c s

/-- GET_INFO (R2). -/
def execGetInfo (c : Cmd) (s : State) : Host.Outcome State Fault Refusal := arrive descGetInfo c s

/-- GET_STATUS (R81). -/
def execGetStatus (c : Cmd) (s : State) : Host.Outcome State Fault Refusal := arrive descGetStatus c s

/-- SET_TICK (R18). -/
def execSetTick (c : Cmd) (s : State) : Host.Outcome State Fault Refusal := arrive descSetTick c s

/-- SOFT_RESET (R82). -/
def execSoftReset (c : Cmd) (s : State) : Host.Outcome State Fault Refusal := arrive descSoftReset c s

/-- GET_COUNTERS (R83). -/
def execGetCounters (c : Cmd) (s : State) : Host.Outcome State Fault Refusal := arrive descGetCounters c s

/-- GNSS_CONFIG (R113). -/
def execGnssConfig (c : Cmd) (s : State) : Host.Outcome State Fault Refusal := arrive descGnssConfig c s

/-- GNSS_CHANNEL_SET (R96). -/
def execGnssChannelSet (c : Cmd) (s : State) : Host.Outcome State Fault Refusal := arrive descGnssChannelSet c s

/-- GNSS_GET_CHANNELS (R93). -/
def execGnssGetChannels (c : Cmd) (s : State) : Host.Outcome State Fault Refusal := arrive descGnssGetChannels c s

/-- GNSS_SET_ANTENNA (R85). -/
def execGnssSetAntenna (c : Cmd) (s : State) : Host.Outcome State Fault Refusal := arrive descGnssSetAntenna c s

/-- GNSS_NAV_SUBSCRIBE (R118). -/
def execGnssNavSubscribe (c : Cmd) (s : State) : Host.Outcome State Fault Refusal := arrive descGnssNavSubscribe c s

/-- GNSS_SET_ISB (R105). -/
def execGnssSetIsb (c : Cmd) (s : State) : Host.Outcome State Fault Refusal := arrive descGnssSetIsb c s

/-- GNSS_SURVEY (R109). -/
def execGnssSurvey (c : Cmd) (s : State) : Host.Outcome State Fault Refusal := arrive descGnssSurvey c s

/-- GNSS_INTEGRITY_CFG (R130). -/
def execGnssIntegrityCfg (c : Cmd) (s : State) : Host.Outcome State Fault Refusal := arrive descGnssIntegrityCfg c s

/-- GNSS_GET_OBS (R115). -/
def execGnssGetObs (c : Cmd) (s : State) : Host.Outcome State Fault Refusal := arrive descGnssGetObs c s

/-- CORR_STREAM_CFG (R124). -/
def execCorrStreamCfg (c : Cmd) (s : State) : Host.Outcome State Fault Refusal := arrive descCorrStreamCfg c s

/-- CORR_GET_STATS (R124). -/
def execCorrGetStats (c : Cmd) (s : State) : Host.Outcome State Fault Refusal := arrive descCorrGetStats c s

/-- ROVER_BIND (R165). -/
def execRoverBind (c : Cmd) (s : State) : Host.Outcome State Fault Refusal := arrive descRoverBind c s

/-- ROVER_CFG (R164). -/
def execRoverCfg (c : Cmd) (s : State) : Host.Outcome State Fault Refusal := arrive descRoverCfg c s

/-- ROVER_GET_FIX (R153). -/
def execRoverGetFix (c : Cmd) (s : State) : Host.Outcome State Fault Refusal := arrive descRoverGetFix c s

/-- ROVER_SUBSCRIBE (R166). -/
def execRoverSubscribe (c : Cmd) (s : State) : Host.Outcome State Fault Refusal := arrive descRoverSubscribe c s

/-- ROVER_RESET_AMB (R149). -/
def execRoverResetAmb (c : Cmd) (s : State) : Host.Outcome State Fault Refusal := arrive descRoverResetAmb c s

/-- ROVER_GET_STATS (R157). -/
def execRoverGetStats (c : Cmd) (s : State) : Host.Outcome State Fault Refusal := arrive descRoverGetStats c s

/-- TRACK_ORIGIN (R191). -/
def execTrackOrigin (c : Cmd) (s : State) : Host.Outcome State Fault Refusal := arrive descTrackOrigin c s

/-- TRACK_LOAD_NODES (R193). -/
def execTrackLoadNodes (c : Cmd) (s : State) : Host.Outcome State Fault Refusal := arrive descTrackLoadNodes c s

/-- TRACK_LOAD_SLIVERS (R193). -/
def execTrackLoadSlivers (c : Cmd) (s : State) : Host.Outcome State Fault Refusal := arrive descTrackLoadSlivers c s

/-- TRACK_COMMIT (R193). -/
def execTrackCommit (c : Cmd) (s : State) : Host.Outcome State Fault Refusal := arrive descTrackCommit c s

/-- DECKLE_LOAD (R199). -/
def execDeckleLoad (c : Cmd) (s : State) : Host.Outcome State Fault Refusal := arrive descDeckleLoad c s

/-- RESV_GET (R212). -/
def execResvGet (c : Cmd) (s : State) : Host.Outcome State Fault Refusal := arrive descResvGet c s

/-- RESV_RELEASE (R206). -/
def execResvRelease (c : Cmd) (s : State) : Host.Outcome State Fault Refusal := arrive descResvRelease c s

/-- ROUTE_SET (R202). -/
def execRouteSet (c : Cmd) (s : State) : Host.Outcome State Fault Refusal := arrive descRouteSet c s

/-- TASK_POST (R217). -/
def execTaskPost (c : Cmd) (s : State) : Host.Outcome State Fault Refusal := arrive descTaskPost c s

/-- TASK_CANCEL (R218). -/
def execTaskCancel (c : Cmd) (s : State) : Host.Outcome State Fault Refusal := arrive descTaskCancel c s

/-- ALLOT_CFG (R219). -/
def execAllotCfg (c : Cmd) (s : State) : Host.Outcome State Fault Refusal := arrive descAllotCfg c s

/-- ALLOT_RUN (R226). -/
def execAllotRun (c : Cmd) (s : State) : Host.Outcome State Fault Refusal := arrive descAllotRun c s

/-- ALLOT_GET (R225). -/
def execAllotGet (c : Cmd) (s : State) : Host.Outcome State Fault Refusal := arrive descAllotGet c s

/-- ALLOT_COMMIT (R230). -/
def execAllotCommit (c : Cmd) (s : State) : Host.Outcome State Fault Refusal := arrive descAllotCommit c s

/-- SPIN_PROFILE_SET (R237). -/
def execSpinProfileSet (c : Cmd) (s : State) : Host.Outcome State Fault Refusal := arrive descSpinProfileSet c s

/-- SPIN_START_AT (R238). -/
def execSpinStartAt (c : Cmd) (s : State) : Host.Outcome State Fault Refusal := arrive descSpinStartAt c s

/-- SPIN_HOLD (R251). -/
def execSpinHold (c : Cmd) (s : State) : Host.Outcome State Fault Refusal := arrive descSpinHold c s

/-- SPIN_GET (R243). -/
def execSpinGet (c : Cmd) (s : State) : Host.Outcome State Fault Refusal := arrive descSpinGet c s

/-- POST_DEFINE (R255). -/
def execPostDefine (c : Cmd) (s : State) : Host.Outcome State Fault Refusal := arrive descPostDefine c s

/-- POST_HOME (R257). -/
def execPostHome (c : Cmd) (s : State) : Host.Outcome State Fault Refusal := arrive descPostHome c s

/-- SPIN_MODE (R253). -/
def execSpinMode (c : Cmd) (s : State) : Host.Outcome State Fault Refusal := arrive descSpinMode c s

/-- YARD_OUT_SET (R260). -/
def execYardOutSet (c : Cmd) (s : State) : Host.Outcome State Fault Refusal := arrive descYardOutSet c s

/-- GOV_COEF_LOAD (R280). -/
def execGovCoefLoad (c : Cmd) (s : State) : Host.Outcome State Fault Refusal := arrive descGovCoefLoad c s

/-- GOV_COEF_SWAP (R274). -/
def execGovCoefSwap (c : Cmd) (s : State) : Host.Outcome State Fault Refusal := arrive descGovCoefSwap c s

/-- GOV_LIMITS (R268). -/
def execGovLimits (c : Cmd) (s : State) : Host.Outcome State Fault Refusal := arrive descGovLimits c s

/-- GOV_FE_CFG (R276). -/
def execGovFeCfg (c : Cmd) (s : State) : Host.Outcome State Fault Refusal := arrive descGovFeCfg c s

/-- GOV_GET (R269). -/
def execGovGet (c : Cmd) (s : State) : Host.Outcome State Fault Refusal := arrive descGovGet c s

/-- GOV_CAP_SET (R268). -/
def execGovCapSet (c : Cmd) (s : State) : Host.Outcome State Fault Refusal := arrive descGovCapSet c s

/-- STOP_FLEET (R287). -/
def execStopFleet (c : Cmd) (s : State) : Host.Outcome State Fault Refusal := arrive descStopFleet c s

/-- STOP_ROBOT (R288). -/
def execStopRobot (c : Cmd) (s : State) : Host.Outcome State Fault Refusal := arrive descStopRobot c s

/-- STOP_RESET (R290). -/
def execStopReset (c : Cmd) (s : State) : Host.Outcome State Fault Refusal := arrive descStopReset c s

/-- STOP_CFG (R298). -/
def execStopCfg (c : Cmd) (s : State) : Host.Outcome State Fault Refusal := arrive descStopCfg c s

/-- STOP_GET (R297). -/
def execStopGet (c : Cmd) (s : State) : Host.Outcome State Fault Refusal := arrive descStopGet c s

/-- STOP_TEST (R294). -/
def execStopTest (c : Cmd) (s : State) : Host.Outcome State Fault Refusal := arrive descStopTest c s

/-- NET_PORT_CFG (R340). -/
def execNetPortCfg (c : Cmd) (s : State) : Host.Outcome State Fault Refusal := arrive descNetPortCfg c s

/-- NET_VLAN (R323). -/
def execNetVlan (c : Cmd) (s : State) : Host.Outcome State Fault Refusal := arrive descNetVlan c s

/-- NET_FDB_ADD (R330). -/
def execNetFdbAdd (c : Cmd) (s : State) : Host.Outcome State Fault Refusal := arrive descNetFdbAdd c s

/-- NET_FDB_GET (R327). -/
def execNetFdbGet (c : Cmd) (s : State) : Host.Outcome State Fault Refusal := arrive descNetFdbGet c s

/-- NET_ROUTE_ADD (R333). -/
def execNetRouteAdd (c : Cmd) (s : State) : Host.Outcome State Fault Refusal := arrive descNetRouteAdd c s

/-- NET_ROUTE_DEL (R333). -/
def execNetRouteDel (c : Cmd) (s : State) : Host.Outcome State Fault Refusal := arrive descNetRouteDel c s

/-- NET_AGE_CFG (R332). -/
def execNetAgeCfg (c : Cmd) (s : State) : Host.Outcome State Fault Refusal := arrive descNetAgeCfg c s

/-- NET_QOS_CFG (R335). -/
def execNetQosCfg (c : Cmd) (s : State) : Host.Outcome State Fault Refusal := arrive descNetQosCfg c s

/-- TIME_SOURCE_CFG (R345). -/
def execTimeSourceCfg (c : Cmd) (s : State) : Host.Outcome State Fault Refusal := arrive descTimeSourceCfg c s

/-- TIME_GET (R370). -/
def execTimeGet (c : Cmd) (s : State) : Host.Outcome State Fault Refusal := arrive descTimeGet c s

/-- TIME_SET (R354). -/
def execTimeSet (c : Cmd) (s : State) : Host.Outcome State Fault Refusal := arrive descTimeSet c s

/-- PPS_CFG (R360). -/
def execPpsCfg (c : Cmd) (s : State) : Host.Outcome State Fault Refusal := arrive descPpsCfg c s

/-- PTP_CFG (R362). -/
def execPtpCfg (c : Cmd) (s : State) : Host.Outcome State Fault Refusal := arrive descPtpCfg c s

/-- SERVO_CFG (R351). -/
def execServoCfg (c : Cmd) (s : State) : Host.Outcome State Fault Refusal := arrive descServoCfg c s

/-- TIME_MODE (R344). -/
def execTimeMode (c : Cmd) (s : State) : Host.Outcome State Fault Refusal := arrive descTimeMode c s

/-- REC_CFG (R381). -/
def execRecCfg (c : Cmd) (s : State) : Host.Outcome State Fault Refusal := arrive descRecCfg c s

/-- REC_READ (R383). -/
def execRecRead (c : Cmd) (s : State) : Host.Outcome State Fault Refusal := arrive descRecRead c s

/-- REC_MARK (R383). -/
def execRecMark (c : Cmd) (s : State) : Host.Outcome State Fault Refusal := arrive descRecMark c s

/-- REC_SNAPSHOT (R385). -/
def execRecSnapshot (c : Cmd) (s : State) : Host.Outcome State Fault Refusal := arrive descRecSnapshot c s

/-- REC_WRITE (R372). -/
def execRecWrite (c : Cmd) (s : State) : Host.Outcome State Fault Refusal := arrive descRecWrite c s

/-- REC_ERASE (R384). -/
def execRecErase (c : Cmd) (s : State) : Host.Outcome State Fault Refusal := arrive descRecErase c s

/-- PAIR_CFG (R405). -/
def execPairCfg (c : Cmd) (s : State) : Host.Outcome State Fault Refusal := arrive descPairCfg c s

/-- PAIR_GET (R395). -/
def execPairGet (c : Cmd) (s : State) : Host.Outcome State Fault Refusal := arrive descPairGet c s

/-- PAIR_SWITCH (R406). -/
def execPairSwitch (c : Cmd) (s : State) : Host.Outcome State Fault Refusal := arrive descPairSwitch c s

/-- PAIR_SELFTEST_CFG (R402). -/
def execPairSelftestCfg (c : Cmd) (s : State) : Host.Outcome State Fault Refusal := arrive descPairSelftestCfg c s

/-- UPD_OPEN (R416). -/
def execUpdOpen (c : Cmd) (s : State) : Host.Outcome State Fault Refusal := arrive descUpdOpen c s

/-- UPD_HEADER (R413). -/
def execUpdHeader (c : Cmd) (s : State) : Host.Outcome State Fault Refusal := arrive descUpdHeader c s

/-- UPD_DATA (R417). -/
def execUpdData (c : Cmd) (s : State) : Host.Outcome State Fault Refusal := arrive descUpdData c s

/-- UPD_VERIFY (R417). -/
def execUpdVerify (c : Cmd) (s : State) : Host.Outcome State Fault Refusal := arrive descUpdVerify c s

/-- UPD_ACTIVATE (R418). -/
def execUpdActivate (c : Cmd) (s : State) : Host.Outcome State Fault Refusal := arrive descUpdActivate c s

/-- UPD_CONFIRM (R420). -/
def execUpdConfirm (c : Cmd) (s : State) : Host.Outcome State Fault Refusal := arrive descUpdConfirm c s

/-- UPD_ABORT (R421). -/
def execUpdAbort (c : Cmd) (s : State) : Host.Outcome State Fault Refusal := arrive descUpdAbort c s

/-- UPD_GET (R416). -/
def execUpdGet (c : Cmd) (s : State) : Host.Outcome State Fault Refusal := arrive descUpdGet c s

/-- SEC_ATTEST (R423). -/
def execSecAttest (c : Cmd) (s : State) : Host.Outcome State Fault Refusal := arrive descSecAttest c s

/-- SEC_ACL_GET (R426). -/
def execSecAclGet (c : Cmd) (s : State) : Host.Outcome State Fault Refusal := arrive descSecAclGet c s

/-- SEC_ACL_SET (R428). -/
def execSecAclSet (c : Cmd) (s : State) : Host.Outcome State Fault Refusal := arrive descSecAclSet c s

/-- SEC_ROBOT_KEY (R189). -/
def execSecRobotKey (c : Cmd) (s : State) : Host.Outcome State Fault Refusal := arrive descSecRobotKey c s

/-- SEC_CFG_SESSION (R430). -/
def execSecCfgSession (c : Cmd) (s : State) : Host.Outcome State Fault Refusal := arrive descSecCfgSession c s

/-- SCHED_GET (R305). -/
def execSchedGet (c : Cmd) (s : State) : Host.Outcome State Fault Refusal := arrive descSchedGet c s

/-- SCHED_JOB_DEFINE (R318). -/
def execSchedJobDefine (c : Cmd) (s : State) : Host.Outcome State Fault Refusal := arrive descSchedJobDefine c s

/-- HEALTH_GET (R433). -/
def execHealthGet (c : Cmd) (s : State) : Host.Outcome State Fault Refusal := arrive descHealthGet c s

/-- SELFTEST_RUN (R434). -/
def execSelftestRun (c : Cmd) (s : State) : Host.Outcome State Fault Refusal := arrive descSelftestRun c s

/-- MARGIN_GET (R436). -/
def execMarginGet (c : Cmd) (s : State) : Host.Outcome State Fault Refusal := arrive descMarginGet c s

end Sys2Proof.Machine
end

