-- ==== Sys2Proof/Machine/Dispatch.lean ====
section
/-! DEFINITION. The dispatch of the commands to their meanings: one arm per row of the operation table. -/
namespace Sys2Proof.Machine

def exec (i : Instr) (s : State) : Host.Outcome State Fault Refusal :=
  match i with
  | .nop c => Sys2Proof.Machine.execNop c s
  | .getInfo c => Sys2Proof.Machine.execGetInfo c s
  | .getStatus c => Sys2Proof.Machine.execGetStatus c s
  | .setTick c => Sys2Proof.Machine.execSetTick c s
  | .softReset c => Sys2Proof.Machine.execSoftReset c s
  | .getCounters c => Sys2Proof.Machine.execGetCounters c s
  | .gnssConfig c => Sys2Proof.Machine.execGnssConfig c s
  | .gnssChannelSet c => Sys2Proof.Machine.execGnssChannelSet c s
  | .gnssGetChannels c => Sys2Proof.Machine.execGnssGetChannels c s
  | .gnssSetAntenna c => Sys2Proof.Machine.execGnssSetAntenna c s
  | .gnssNavSubscribe c => Sys2Proof.Machine.execGnssNavSubscribe c s
  | .gnssSetIsb c => Sys2Proof.Machine.execGnssSetIsb c s
  | .gnssSurvey c => Sys2Proof.Machine.execGnssSurvey c s
  | .gnssIntegrityCfg c => Sys2Proof.Machine.execGnssIntegrityCfg c s
  | .gnssGetObs c => Sys2Proof.Machine.execGnssGetObs c s
  | .corrStreamCfg c => Sys2Proof.Machine.execCorrStreamCfg c s
  | .corrGetStats c => Sys2Proof.Machine.execCorrGetStats c s
  | .roverBind c => Sys2Proof.Machine.execRoverBind c s
  | .roverCfg c => Sys2Proof.Machine.execRoverCfg c s
  | .roverGetFix c => Sys2Proof.Machine.execRoverGetFix c s
  | .roverSubscribe c => Sys2Proof.Machine.execRoverSubscribe c s
  | .roverResetAmb c => Sys2Proof.Machine.execRoverResetAmb c s
  | .roverGetStats c => Sys2Proof.Machine.execRoverGetStats c s
  | .trackOrigin c => Sys2Proof.Machine.execTrackOrigin c s
  | .trackLoadNodes c => Sys2Proof.Machine.execTrackLoadNodes c s
  | .trackLoadSlivers c => Sys2Proof.Machine.execTrackLoadSlivers c s
  | .trackCommit c => Sys2Proof.Machine.execTrackCommit c s
  | .deckleLoad c => Sys2Proof.Machine.execDeckleLoad c s
  | .resvGet c => Sys2Proof.Machine.execResvGet c s
  | .resvRelease c => Sys2Proof.Machine.execResvRelease c s
  | .routeSet c => Sys2Proof.Machine.execRouteSet c s
  | .taskPost c => Sys2Proof.Machine.execTaskPost c s
  | .taskCancel c => Sys2Proof.Machine.execTaskCancel c s
  | .allotCfg c => Sys2Proof.Machine.execAllotCfg c s
  | .allotRun c => Sys2Proof.Machine.execAllotRun c s
  | .allotGet c => Sys2Proof.Machine.execAllotGet c s
  | .allotCommit c => Sys2Proof.Machine.execAllotCommit c s
  | .spinProfileSet c => Sys2Proof.Machine.execSpinProfileSet c s
  | .spinStartAt c => Sys2Proof.Machine.execSpinStartAt c s
  | .spinHold c => Sys2Proof.Machine.execSpinHold c s
  | .spinGet c => Sys2Proof.Machine.execSpinGet c s
  | .postDefine c => Sys2Proof.Machine.execPostDefine c s
  | .postHome c => Sys2Proof.Machine.execPostHome c s
  | .spinMode c => Sys2Proof.Machine.execSpinMode c s
  | .yardOutSet c => Sys2Proof.Machine.execYardOutSet c s
  | .govCoefLoad c => Sys2Proof.Machine.execGovCoefLoad c s
  | .govCoefSwap c => Sys2Proof.Machine.execGovCoefSwap c s
  | .govLimits c => Sys2Proof.Machine.execGovLimits c s
  | .govFeCfg c => Sys2Proof.Machine.execGovFeCfg c s
  | .govGet c => Sys2Proof.Machine.execGovGet c s
  | .govCapSet c => Sys2Proof.Machine.execGovCapSet c s
  | .stopFleet c => Sys2Proof.Machine.execStopFleet c s
  | .stopRobot c => Sys2Proof.Machine.execStopRobot c s
  | .stopReset c => Sys2Proof.Machine.execStopReset c s
  | .stopCfg c => Sys2Proof.Machine.execStopCfg c s
  | .stopGet c => Sys2Proof.Machine.execStopGet c s
  | .stopTest c => Sys2Proof.Machine.execStopTest c s
  | .netPortCfg c => Sys2Proof.Machine.execNetPortCfg c s
  | .netVlan c => Sys2Proof.Machine.execNetVlan c s
  | .netFdbAdd c => Sys2Proof.Machine.execNetFdbAdd c s
  | .netFdbGet c => Sys2Proof.Machine.execNetFdbGet c s
  | .netRouteAdd c => Sys2Proof.Machine.execNetRouteAdd c s
  | .netRouteDel c => Sys2Proof.Machine.execNetRouteDel c s
  | .netAgeCfg c => Sys2Proof.Machine.execNetAgeCfg c s
  | .netQosCfg c => Sys2Proof.Machine.execNetQosCfg c s
  | .timeSourceCfg c => Sys2Proof.Machine.execTimeSourceCfg c s
  | .timeGet c => Sys2Proof.Machine.execTimeGet c s
  | .timeSet c => Sys2Proof.Machine.execTimeSet c s
  | .ppsCfg c => Sys2Proof.Machine.execPpsCfg c s
  | .ptpCfg c => Sys2Proof.Machine.execPtpCfg c s
  | .servoCfg c => Sys2Proof.Machine.execServoCfg c s
  | .timeMode c => Sys2Proof.Machine.execTimeMode c s
  | .recCfg c => Sys2Proof.Machine.execRecCfg c s
  | .recRead c => Sys2Proof.Machine.execRecRead c s
  | .recMark c => Sys2Proof.Machine.execRecMark c s
  | .recSnapshot c => Sys2Proof.Machine.execRecSnapshot c s
  | .recWrite c => Sys2Proof.Machine.execRecWrite c s
  | .recErase c => Sys2Proof.Machine.execRecErase c s
  | .pairCfg c => Sys2Proof.Machine.execPairCfg c s
  | .pairGet c => Sys2Proof.Machine.execPairGet c s
  | .pairSwitch c => Sys2Proof.Machine.execPairSwitch c s
  | .pairSelftestCfg c => Sys2Proof.Machine.execPairSelftestCfg c s
  | .updOpen c => Sys2Proof.Machine.execUpdOpen c s
  | .updHeader c => Sys2Proof.Machine.execUpdHeader c s
  | .updData c => Sys2Proof.Machine.execUpdData c s
  | .updVerify c => Sys2Proof.Machine.execUpdVerify c s
  | .updActivate c => Sys2Proof.Machine.execUpdActivate c s
  | .updConfirm c => Sys2Proof.Machine.execUpdConfirm c s
  | .updAbort c => Sys2Proof.Machine.execUpdAbort c s
  | .updGet c => Sys2Proof.Machine.execUpdGet c s
  | .secAttest c => Sys2Proof.Machine.execSecAttest c s
  | .secAclGet c => Sys2Proof.Machine.execSecAclGet c s
  | .secAclSet c => Sys2Proof.Machine.execSecAclSet c s
  | .secRobotKey c => Sys2Proof.Machine.execSecRobotKey c s
  | .secCfgSession c => Sys2Proof.Machine.execSecCfgSession c s
  | .schedGet c => Sys2Proof.Machine.execSchedGet c s
  | .schedJobDefine c => Sys2Proof.Machine.execSchedJobDefine c s
  | .healthGet c => Sys2Proof.Machine.execHealthGet c s
  | .selftestRun c => Sys2Proof.Machine.execSelftestRun c s
  | .marginGet c => Sys2Proof.Machine.execMarginGet c s
  | .writePortWrite q w ok fault dt => Sys2Proof.Machine.execWritePortWrite q w ok fault dt s
  | .doorbellWrite p dt => Sys2Proof.Machine.execDoorbellWrite p dt s
  | .readPortRead q wide fault dt => Sys2Proof.Machine.execReadPortRead q wide fault dt s
  | .queReset q dt => Sys2Proof.Machine.execQueReset q dt s
  | .w1cFlagClear reg bits setNow dt => Sys2Proof.Machine.execW1cFlagClear reg bits setNow dt s
  | .watermarkFlagClear q evtSide crossing dt => Sys2Proof.Machine.execWatermarkFlagClear q evtSide crossing dt s
  | .occCounterRead reg word again dt => Sys2Proof.Machine.execOccCounterRead reg word again dt s
  | .intStatClear bits setNow dt => Sys2Proof.Machine.execIntStatClear bits setNow dt s
  | .sysResetWrite value dt => Sys2Proof.Machine.execSysResetWrite value dt s
  | .timeSnapRead dt => Sys2Proof.Machine.execTimeSnapRead dt s
  | .barAccessFault fmt isRead dt => Sys2Proof.Machine.execBarAccessFault fmt isRead dt s
  | .registerWrite off w dt => Sys2Proof.Machine.execRegisterWrite off w dt s
  | .strandTimeout p => Sys2Proof.Machine.execStrandTimeout p s
  | .commandTaken p dt => Sys2Proof.Machine.execCommandTaken p dt s
  | .completionPlaced p => Sys2Proof.Machine.execCompletionPlaced p s
  | .pushRingWrite p => Sys2Proof.Machine.execPushRingWrite p s
  | .coalTimeout q => Sys2Proof.Machine.execCoalTimeout q s
  | .chainRelease q dt => Sys2Proof.Machine.execChainRelease q dt s
  | .execAtDue => Sys2Proof.Machine.execExecAtDue s
  | .ppsAlignedApply => Sys2Proof.Machine.execPpsAlignedApply s
  | .mgmtDatagram iface src payload dt => Sys2Proof.Machine.execMgmtDatagram iface src payload dt s
  | .tickBoundary phases => Sys2Proof.Machine.execTickBoundary phases s
  | .tickComplete dt => Sys2Proof.Machine.execTickComplete dt s
  | .tickDeadline => Sys2Proof.Machine.execTickDeadline s
  | .goEmission => Sys2Proof.Machine.execGoEmission s
  | .watchdogExpire => Sys2Proof.Machine.execWatchdogExpire s
  | .gnssMsTick chans agc => Sys2Proof.Machine.execGnssMsTick chans agc s
  | .notchSearch tones => Sys2Proof.Machine.execNotchSearch tones s
  | .channelAssign sky => Sys2Proof.Machine.execChannelAssign sky s
  | .acqSearchDone ch code doppler dt => Sys2Proof.Machine.execAcqSearchDone ch code doppler dt s
  | .acqTimeout ch => Sys2Proof.Machine.execAcqTimeout ch s
  | .biasFault ant short_ current voltage dt => Sys2Proof.Machine.execBiasFault ant short_ current voltage dt s
  | .biasRetry ant current voltage => Sys2Proof.Machine.execBiasRetry ant current voltage s
  | .measEpoch obs => Sys2Proof.Machine.execMeasEpoch obs s
  | .navUnitDecoded u dt => Sys2Proof.Machine.execNavUnitDecoded u dt s
  | .pvtSolution dt => Sys2Proof.Machine.execPvtSolution dt s
  | .telem f dt => Sys2Proof.Machine.execTelem f dt s
  | .obs f dt => Sys2Proof.Machine.execObs f dt s
  | .ack f dt => Sys2Proof.Machine.execAck f dt s
  | .join f dt => Sys2Proof.Machine.execJoin f dt s
  | .sessionTimeout r => Sys2Proof.Machine.execSessionTimeout r s
  | .rekeyDue r dt => Sys2Proof.Machine.execRekeyDue r dt s
  | .rekeyAbandon r => Sys2Proof.Machine.execRekeyAbandon r s
  | .stopBurstFrame r => Sys2Proof.Machine.execStopBurstFrame r s
  | .epochWaitExpire r => Sys2Proof.Machine.execEpochWaitExpire r s
  | .roverSolveStart dt => Sys2Proof.Machine.execRoverSolveStart dt s
  | .roverFixPublish cluster dt => Sys2Proof.Machine.execRoverFixPublish cluster dt s
  | .commitComputeDone dt => Sys2Proof.Machine.execCommitComputeDone dt s
  | .rerouteResult r routeId dt => Sys2Proof.Machine.execRerouteResult r routeId dt s
  | .allotPeriod => Sys2Proof.Machine.execAllotPeriod s
  | .allotRoundEnd dt => Sys2Proof.Machine.execAllotRoundEnd dt s
  | .proposalLapse => Sys2Proof.Machine.execProposalLapse s
  | .taskServiceElapsed r => Sys2Proof.Machine.execTaskServiceElapsed r s
  | .contactQualified owner contact samples dt => Sys2Proof.Machine.execContactQualified owner contact samples dt s
  | .estopPadChange a level dt => Sys2Proof.Machine.execEstopPadChange a level dt s
  | .discTimeout => Sys2Proof.Machine.execDiscTimeout s
  | .partnerStopSymbol dt => Sys2Proof.Machine.execPartnerStopSymbol dt s
  | .internalFault icode present dt => Sys2Proof.Machine.execInternalFault icode present dt s
  | .ctrlLimitExpire => Sys2Proof.Machine.execCtrlLimitExpire s
  | .robotCtrlLimitExpire r => Sys2Proof.Machine.execRobotCtrlLimitExpire r s
  | .proofIntervalDue => Sys2Proof.Machine.execProofIntervalDue s
  | .proofTestPart part pass lat fail => Sys2Proof.Machine.execProofTestPart part pass lat fail s
  | .resetInputEdge dt => Sys2Proof.Machine.execResetInputEdge dt s
  | .resetArmTimeout => Sys2Proof.Machine.execResetArmTimeout s
  | .jobDispatch core dt => Sys2Proof.Machine.execJobDispatch core dt s
  | .jobComplete core dt => Sys2Proof.Machine.execJobComplete core dt s
  | .jobRevoke core => Sys2Proof.Machine.execJobRevoke core s
  | .hostJobFinal job dt => Sys2Proof.Machine.execHostJobFinal job dt s
  | .ethFrameRx f dt => Sys2Proof.Machine.execEthFrameRx f dt s
  | .ageScan dt => Sys2Proof.Machine.execAgeScan dt s
  | .linkPoll links dt => Sys2Proof.Machine.execLinkPoll links dt s
  | .servoSecond partner => Sys2Proof.Machine.execServoSecond partner s
  | .sourceQualify code theta dt => Sys2Proof.Machine.execSourceQualify code theta dt s
  | .wtrExpire => Sys2Proof.Machine.execWtrExpire s
  | .sourceLost code dt => Sys2Proof.Machine.execSourceLost code dt s
  | .asymHoldExpire => Sys2Proof.Machine.execAsymHoldExpire s
  | .asymEstimateSettled => Sys2Proof.Machine.execAsymEstimateSettled s
  | .timeNormalEntry theta => Sys2Proof.Machine.execTimeNormalEntry theta s
  | .bootWaitExpire => Sys2Proof.Machine.execBootWaitExpire s
  | .extRefLoss dt => Sys2Proof.Machine.execExtRefLoss dt s
  | .refSelect usable => Sys2Proof.Machine.execRefSelect usable s
  | .ppsInEdge dt => Sys2Proof.Machine.execPpsInEdge dt s
  | .todSentence text dt => Sys2Proof.Machine.execTodSentence text dt s
  | .ptpMessageRx m dt => Sys2Proof.Machine.execPtpMessageRx m dt s
  | .ptpAnnounceTimeout port identity => Sys2Proof.Machine.execPtpAnnounceTimeout port identity s
  | .recordCommit dt => Sys2Proof.Machine.execRecordCommit dt s
  | .auditStageTimeout dt => Sys2Proof.Machine.execAuditStageTimeout dt s
  | .recSuppressSecond => Sys2Proof.Machine.execRecSuppressSecond s
  | .actInLoss dt => Sys2Proof.Machine.execActInLoss dt s
  | .deadTimeExpire => Sys2Proof.Machine.execDeadTimeExpire s
  | .takeoverComplete dt => Sys2Proof.Machine.execTakeoverComplete dt s
  | .actCollision dt => Sys2Proof.Machine.execActCollision dt s
  | .arbitrationTimeout => Sys2Proof.Machine.execArbitrationTimeout s
  | .switchTicksExpire => Sys2Proof.Machine.execSwitchTicksExpire s
  | .mirror seq m dt => Sys2Proof.Machine.execMirror seq m dt s
  | .input seq x dt => Sys2Proof.Machine.execInput seq x dt s
  | .base seq b arp dt => Sys2Proof.Machine.execBase seq b arp dt s
  | .released seq tick dt => Sys2Proof.Machine.execReleased seq tick dt s
  | .health seq word role ready fw dt => Sys2Proof.Machine.execHealth seq word role ready fw dt s
  | .laneError dt => Sys2Proof.Machine.execLaneError dt s
  | .hexluxLaneChange up prefer mac dt => Sys2Proof.Machine.execHexluxLaneChange up prefer mac dt s
  | .resyncComplete m dt => Sys2Proof.Machine.execResyncComplete m dt s
  | .selftestCycleDone fail unit duration dt => Sys2Proof.Machine.execSelftestCycleDone fail unit duration dt s
  | .vinOn dt => Sys2Proof.Machine.execVinOn dt s
  | .enRise dt => Sys2Proof.Machine.execEnRise dt s
  | .enFall dt => Sys2Proof.Machine.execEnFall dt s
  | .vinSupFall dt => Sys2Proof.Machine.execVinSupFall dt s
  | .vinLow mv dt => Sys2Proof.Machine.execVinLow mv dt s
  | .vinHigh mv dt => Sys2Proof.Machine.execVinHigh mv dt s
  | .vinFaultCease high mv dt => Sys2Proof.Machine.execVinFaultCease high mv dt s
  | .bootReady dt => Sys2Proof.Machine.execBootReady dt s
  | .updIdleTimeout => Sys2Proof.Machine.execUpdIdleTimeout s
  | .updVerifyDone dt => Sys2Proof.Machine.execUpdVerifyDone dt s
  | .updBankLoaded dt => Sys2Proof.Machine.execUpdBankLoaded dt s
  | .doff exported => Sys2Proof.Machine.execDoff exported s
  | .confirmWindowExpire => Sys2Proof.Machine.execConfirmWindowExpire s
  | .revertRestart dt => Sys2Proof.Machine.execRevertRestart dt s
  | .cfgSessionTimeout => Sys2Proof.Machine.execCfgSessionTimeout s
  | .scrub mem row corrected endPass dt => Sys2Proof.Machine.execScrub mem row corrected endPass dt s
  | .eccUncorrectable mem off place dt => Sys2Proof.Machine.execEccUncorrectable mem off place dt s
  | .unitFailure u dt => Sys2Proof.Machine.execUnitFailure u dt s
  | .marginReplan cause sC sS hour dt => Sys2Proof.Machine.execMarginReplan cause sC sS hour dt s
  | .lidTempSample temp dt => Sys2Proof.Machine.execLidTempSample temp dt s
  | .throttleStep => Sys2Proof.Machine.execThrottleStep s
  | .junctionOvertemp dt => Sys2Proof.Machine.execJunctionOvertemp dt s
  | .fwAliveTimeout => Sys2Proof.Machine.execFwAliveTimeout s
  | .discrepancyClear => Sys2Proof.Machine.execDiscrepancyClear s
  | .actInActive dt => Sys2Proof.Machine.execActInActive dt s
  | .pfaultInChange fault dt => Sys2Proof.Machine.execPfaultInChange fault dt s
  | .perstNChange p dt => Sys2Proof.Machine.execPerstNChange p dt s
  | .pcieLinkError kind dt => Sys2Proof.Machine.execPcieLinkError kind dt s
  | .portLinkChange port up speed dt => Sys2Proof.Machine.execPortLinkChange port up speed dt s
  | .egressFrameSent port dt => Sys2Proof.Machine.execEgressFrameSent port dt s
  | .uartCByteSent stream dt => Sys2Proof.Machine.execUartCByteSent stream dt s
  | .powerDownEnd => Sys2Proof.Machine.execPowerDownEnd s
  | .softResetReady dt => Sys2Proof.Machine.execSoftResetReady dt s

end Sys2Proof.Machine
end

