-- ==== Sys2Proof/Machine/Regs.lean ====
section
/-! DEFINITION. What the registers of BAR0 and the words of the fast status port read, as views of the state: the SYS, QUE
and INT fields (chapter 03), the STOP mirror (chapter 12), the TIME snapshot (chapter 15), the BOOT mailbox (chapter 18),
the MSI-X table, and the FSP words. -/
set_option autoImplicit false

namespace Sys2Proof.Machine

/-- SYS registers. -/
def sysRead (off : Nat) (s : State) : Nat :=
  match off with
  | 0x00 => memberCode s.member + Config.siliconRev.toNat * 2 ^ 16 + 0x07 * 2 ^ 24
  | 0x04 => fwVersion s
  | 0x08 => sysState s + 8 * flagBits [!s.time.raw, latched s, s.pair.en, signsGo s, s.upd.window]
  | 0x0C => s.tick.number
  | 0x10 => flagBits s.sys.err
  | 0x14 => occWord s.sys.errOcc
  | 0x18 => s.sys.scratch.toNat
  | 0x1C => s.sys.resetResult * 2 ^ 16
  | _ => 0

/-- The device ID of the endpoint (R62). -/
def deviceId : Member → Nat
  | .pvs7128 => 0x7128
  | .pvs7032 => 0x7032
  | .pvs7008 => 0x7008

/-- What the endpoint reports of itself (R62): the first word of the configuration header, the maximum payload and the
maximum read request in bytes, and the lanes and the rate generation of the trained link. -/
structure Endpoint where
  idWord : Nat
  maxPayload : Nat
  maxReadRequest : Nat
  width : Nat
  gen : Nat
  deriving DecidableEq, Repr

def endpoint (s : State) : Endpoint :=
  { idWord := Config.vendorId.toNat + deviceId s.member * 2 ^ 16, maxPayload := 256, maxReadRequest := 512,
    width := s.pcie.width, gen := s.pcie.gen }

def markRead (m : Mark) : Nat := m.peak + m.xcnt * 2 ^ 16

/-- QUE registers of a queue pair. -/
def queRead (off : Nat) (x : Queue) : Nat :=
  match off with
  | 0x00 => flagBits [x.en, x.push] + x.strand * 2 ^ 16
  | 0x04 => queStat x
  | 0x08 => occWord x.occ
  | 0x0C => occWord (x.occ.drop 4)
  | 0x10 => x.cmd.credLimit.toNat
  | 0x14 => x.cmd.wordsTaken.toNat
  | 0x18 => cmdLevel x + evtLevel x * 2 ^ 16
  | 0x1C => x.wmCmdCfg + x.wmEvtCfg * 2 ^ 16
  | 0x20 => markRead x.cmd.wm
  | 0x24 => markRead x.evt.wm
  | 0x28 => x.evt.evseq.toNat
  | 0x2C => x.coalCfgCount + x.coalCfgTime * 2 ^ 8
  | 0x30 => x.ringBase % 2 ^ 32
  | 0x34 => x.ringBase / 2 ^ 32
  | 0x38 => x.ringLog2
  | 0x3C => x.ringHead
  | 0x40 => x.ringTail
  | 0x44 => x.wbAddr % 2 ^ 32
  | 0x48 => x.wbAddr / 2 ^ 32
  | _ => 0

/-- INT registers. -/
def intRead (off : Nat) (s : State) : Nat :=
  if off = 0 then flagBits s.intStat
  else if off = 4 then s.intEn.toNat
  else if 0x10 ≤ off ∧ off < 0x30 then occWord ((s.intOcc.drop (off - 0x10)).take 4)
  else 0

/-- STOP mirror registers. -/
def stopRead (off : Nat) (s : State) : Nat :=
  match off with
  | 0x00 => (stopStat s).toNat
  | 0x04 => flagBits s.stop.flags
  | 0x08 => occWord (s.stop.occ.take 4)
  | 0x0C => s.stop.occ.getD 4 0
  | 0x10 => (stopSeen s).toNat
  | 0x14 => s.stop.stopTime % 2 ^ 32
  | 0x18 => s.stop.stopTime / 2 ^ 32 % 2 ^ 32
  | 0x20 => (heldWord s 0).toNat
  | 0x24 => (heldWord s 1).toNat
  | 0x28 => (heldWord s 2).toNat
  | 0x2C => (heldWord s 3).toNat
  | 0x30 => s.stop.lastPass % 2 ^ 32
  | _ => 0

/-- TIME snapshot registers; TIME_SNAP_NS shows the last capture (its read is TIME_SNAP_READ). -/
def timeRead (off : Nat) (s : State) : Nat :=
  match off with
  | 0x00 => s.time.snap % nsPerSec
  | 0x04 => s.time.snap / nsPerSec % 2 ^ 32
  | 0x08 => s.time.snap / nsPerSec / 2 ^ 32 % 2 ^ 16
  | 0x0C => timeStat s
  | 0x10 => flagBits s.time.flags
  | 0x14 => occWord s.time.occ
  | 0x18 => (thetaWord s).toNat
  | 0x1C => (wordOfInt (timeRate s)).toNat
  | 0x20 => (uncWord s).toNat
  | 0x24 => uint 16 s.time.utcOffset
  | _ => 0

/-- BOOT_BANK.SESSION: 0 none, 1 before ACTIVATING, 2 ACTIVATING, 3 TRIAL or REVERTING. -/
def sessionStage : UpdState → Nat
  | .idle => 0
  | .open_ | .headerOk | .verifying | .verified => 1
  | .activating => 2
  | .trial | .reverting => 3

/-- BOOT mailbox registers. -/
def bootRead (off : Nat) (s : State) : Nat :=
  let version := fun (b : Bank) => if b.valid then bankVersion b else 0
  match off with
  | 0x00 => s.sys.stage
  | 0x04 => s.sys.bootResult + 16 * trialCount s + 256 * s.sys.bootFail
  | 0x08 => flagBits [s.upd.runB, s.upd.bankA.valid, s.upd.bankB.valid] + 8 * sessionStage s.upd.state
  | 0x0C => version s.upd.bankA
  | 0x10 => version s.upd.bankB
  | 0x14 => if s.sys.stage = 5 then s.sys.bootMs else (s.up - s.sys.bootFrom) / 1000000
  | _ => 0

/-- The MSI-X table: entries of address, data and mask. -/
def msixRead (off : Nat) (s : State) : Nat :=
  let e := tabGet s.msix (off / 16) MsixEntry.init
  if 0x200 ≤ off then 0
  else match off / 4 % 4 with
    | 0 => e.addr % 2 ^ 32
    | 1 => e.addr / 2 ^ 32
    | 2 => e.data.toNat
    | _ => natOfBool e.masked

/-- What an aligned 32-bit read of BAR0 returns (R63); until the QUE registers are in service they read 0 (R410, R412). -/
def barRead (off : Nat) (s : State) : Nat :=
  match off / 0x1000 with
  | 0 => sysRead off s
  | 1 =>
    let q := off % 0x1000 / 0x100
    if queServed s q then queRead (off % 0x100) (getQ s q) else 0
  | 2 => intRead (off % 0x1000) s
  | 3 => stopRead (off % 0x1000) s
  | 4 => timeRead (off % 0x1000) s
  | 5 => bootRead (off % 0x1000) s
  | 6 => msixRead (off % 0x1000) s
  | 7 => if off = 0x7000 then s.msixPend.foldl (fun a k => a + 2 ^ k) 0 else 0
  | _ => 0

/-- The reflected binary Gray code of a number. -/
def gray (n : Nat) : Nat := n ^^^ (n / 2)

/-- The word of the FSP that FSP_SEL selects (R78-R80): the latch, the pads and the key-valid line are read directly, the
other fields as they were last refreshed. -/
def fspRead (sel : Nat) (s : State) : Nat :=
  match sel with
  | 0 =>
    flagBits [latched s, s.stop.estopA, s.stop.estopBN, keyValid s, s.fsp.discrepancy, s.fsp.stopOut, s.fsp.active,
      s.pair.pfaultIn] + s.fsp.tq * 2 ^ 8 + flagBits [s.fsp.toggle, s.fsp.fwAlive, s.fsp.feFault] * 2 ^ 10 +
      s.fsp.stopCause * 2 ^ 13
  | 1 => gray s.fsp.tick
  | 2 => s.fsp.robotsGo + s.fsp.robotsStopped * 2 ^ 8
  | 3 => s.fsp.roversFixed + s.fsp.roversStale * 2 ^ 8
  | 4 => s.fsp.health
  | 5 => gray s.fsp.sec
  | 7 => memberCode s.member
  | _ => 0

end Sys2Proof.Machine
end

