-- ==== Sys2Proof/WellFormed.lean ====
section
/-! DEFINITION. Which commands are well formed on a member of the family: the packet of a host command spells what its
header says, and an event names a queue, unit, pad or port that the member has. -/
set_option autoImplicit false

namespace Sys2Proof

open Sys2Proof.Machine

/-- A host command comes on a queue pair or the network queue, from a source on the network exactly if on the latter, and
its header's fields fit: LENGTH is that of its words, and an execute-at time of 64 bits is there exactly if AT = 1. -/
def Cmd.wf (c : Cmd) : Bool :=
  decide (c.q ≤ 16) && (decide (c.q = 16) == c.net.isSome) &&
    decide (c.len = 2 + (if c.at_ then 2 else 0) + c.params.length) && decide (c.len ≤ 4096) &&
    decide (c.execAt < 2 ^ 64) && (c.at_ || decide (c.execAt = 0))

/-- The queue pair of a flag register exists. -/
def FlagReg.wf : FlagReg → Bool
  | .que q => decide (q < 16)
  | _ => true

/-- The unit that fails is one of the member's: a lane of one of four clusters, a channel, or a row of a memory. -/
def UnitFail.wf (m : Member) (u : UnitFail) : Bool :=
  match u.pool with
  | 0 => decide (u.cluster < 4)
  | 1 => decide (u.unit < nChannels m)
  | 2 => decide (u.cluster ≤ 8)
  | _ => false

/-- A pointer whose copies an access finds unequal: one of the five of EV_QUE_PTR_FAULT. -/
def pointerOk (fault : Option Nat) : Bool := match fault with
  | some k => decide (k ≤ 4)
  | none => true

/-- A queue pair that exists, and such a pointer. -/
def PtrAt.wf (p : PtrAt) : Bool := decide (p.q < 16) && pointerOk p.fault

/-- A command is well formed on a member. -/
def Instr.wf (m : Member) (i : Instr) : Bool :=
  match i with
  | .nop c => Cmd.wf c
  | .getInfo c => Cmd.wf c
  | .getStatus c => Cmd.wf c
  | .setTick c => Cmd.wf c
  | .softReset c => Cmd.wf c
  | .getCounters c => Cmd.wf c
  | .gnssConfig c => Cmd.wf c
  | .gnssChannelSet c => Cmd.wf c
  | .gnssGetChannels c => Cmd.wf c
  | .gnssSetAntenna c => Cmd.wf c
  | .gnssNavSubscribe c => Cmd.wf c
  | .gnssSetIsb c => Cmd.wf c
  | .gnssSurvey c => Cmd.wf c
  | .gnssIntegrityCfg c => Cmd.wf c
  | .gnssGetObs c => Cmd.wf c
  | .corrStreamCfg c => Cmd.wf c
  | .corrGetStats c => Cmd.wf c
  | .roverBind c => Cmd.wf c
  | .roverCfg c => Cmd.wf c
  | .roverGetFix c => Cmd.wf c
  | .roverSubscribe c => Cmd.wf c
  | .roverResetAmb c => Cmd.wf c
  | .roverGetStats c => Cmd.wf c
  | .trackOrigin c => Cmd.wf c
  | .trackLoadNodes c => Cmd.wf c
  | .trackLoadSlivers c => Cmd.wf c
  | .trackCommit c => Cmd.wf c
  | .deckleLoad c => Cmd.wf c
  | .resvGet c => Cmd.wf c
  | .resvRelease c => Cmd.wf c
  | .routeSet c => Cmd.wf c
  | .taskPost c => Cmd.wf c
  | .taskCancel c => Cmd.wf c
  | .allotCfg c => Cmd.wf c
  | .allotRun c => Cmd.wf c
  | .allotGet c => Cmd.wf c
  | .allotCommit c => Cmd.wf c
  | .spinProfileSet c => Cmd.wf c
  | .spinStartAt c => Cmd.wf c
  | .spinHold c => Cmd.wf c
  | .spinGet c => Cmd.wf c
  | .postDefine c => Cmd.wf c
  | .postHome c => Cmd.wf c
  | .spinMode c => Cmd.wf c
  | .yardOutSet c => Cmd.wf c
  | .govCoefLoad c => Cmd.wf c
  | .govCoefSwap c => Cmd.wf c
  | .govLimits c => Cmd.wf c
  | .govFeCfg c => Cmd.wf c
  | .govGet c => Cmd.wf c
  | .govCapSet c => Cmd.wf c
  | .stopFleet c => Cmd.wf c
  | .stopRobot c => Cmd.wf c
  | .stopReset c => Cmd.wf c
  | .stopCfg c => Cmd.wf c
  | .stopGet c => Cmd.wf c
  | .stopTest c => Cmd.wf c
  | .netPortCfg c => Cmd.wf c
  | .netVlan c => Cmd.wf c
  | .netFdbAdd c => Cmd.wf c
  | .netFdbGet c => Cmd.wf c
  | .netRouteAdd c => Cmd.wf c
  | .netRouteDel c => Cmd.wf c
  | .netAgeCfg c => Cmd.wf c
  | .netQosCfg c => Cmd.wf c
  | .timeSourceCfg c => Cmd.wf c
  | .timeGet c => Cmd.wf c
  | .timeSet c => Cmd.wf c
  | .ppsCfg c => Cmd.wf c
  | .ptpCfg c => Cmd.wf c
  | .servoCfg c => Cmd.wf c
  | .timeMode c => Cmd.wf c
  | .recCfg c => Cmd.wf c
  | .recRead c => Cmd.wf c
  | .recMark c => Cmd.wf c
  | .recSnapshot c => Cmd.wf c
  | .recWrite c => Cmd.wf c
  | .recErase c => Cmd.wf c
  | .pairCfg c => Cmd.wf c
  | .pairGet c => Cmd.wf c
  | .pairSwitch c => Cmd.wf c
  | .pairSelftestCfg c => Cmd.wf c
  | .updOpen c => Cmd.wf c
  | .updHeader c => Cmd.wf c
  | .updData c => Cmd.wf c
  | .updVerify c => Cmd.wf c
  | .updActivate c => Cmd.wf c
  | .updConfirm c => Cmd.wf c
  | .updAbort c => Cmd.wf c
  | .updGet c => Cmd.wf c
  | .secAttest c => Cmd.wf c
  | .secAclGet c => Cmd.wf c
  | .secAclSet c => Cmd.wf c
  | .secRobotKey c => Cmd.wf c
  | .secCfgSession c => Cmd.wf c
  | .schedGet c => Cmd.wf c
  | .schedJobDefine c => Cmd.wf c
  | .healthGet c => Cmd.wf c
  | .selftestRun c => Cmd.wf c
  | .marginGet c => Cmd.wf c
  | .writePortWrite q _ _ fault _ => decide (q < 16) && pointerOk fault
  | .doorbellWrite p _ => PtrAt.wf p
  | .readPortRead q _ fault _ => decide (q < 16) && pointerOk fault
  | .queReset q _ => decide (q < 16)
  | .w1cFlagClear reg _ _ _ => FlagReg.wf reg
  | .watermarkFlagClear q _ _ _ => decide (q < 16)
  | .occCounterRead reg _ _ _ => FlagReg.wf reg
  | .intStatClear _ _ _ => true
  | .sysResetWrite _ _ => true
  | .timeSnapRead _ => true
  | .barAccessFault _ _ _ => true
  | .registerWrite off w _ => decide (off < 0x10000) && pointerOk w.fault
  | .strandTimeout p => PtrAt.wf p
  | .commandTaken p _ => PtrAt.wf p
  | .completionPlaced p => PtrAt.wf p
  | .pushRingWrite p => PtrAt.wf p
  | .coalTimeout q => decide (q < 16)
  | .chainRelease q _ => decide (q ≤ 16)
  | .execAtDue => true
  | .ppsAlignedApply => true
  | .mgmtDatagram iface _ _ _ => decide (iface < 4)
  | .tickBoundary _ => true
  | .tickComplete _ => true
  | .tickDeadline => true
  | .goEmission => true
  | .watchdogExpire => true
  | .gnssMsTick _ _ => true
  | .notchSearch _ => true
  | .channelAssign _ => true
  | .acqSearchDone ch _ _ _ => decide (ch < nChannels m)
  | .acqTimeout ch => decide (ch < nChannels m)
  | .biasFault ant _ _ _ _ => decide (natOfBool ant < nAntennas m)
  | .biasRetry ant _ _ => decide (natOfBool ant < nAntennas m)
  | .measEpoch _ => true
  | .navUnitDecoded u _ => (unitSignals u.unit).contains u.sig
  | .pvtSolution _ => true
  | .telem f _ => portExists m f.port
  | .obs f _ => portExists m f.port
  | .ack f _ => portExists m f.port
  | .join f _ => portExists m f.port
  | .sessionTimeout r => decide (r < nRobots m)
  | .rekeyDue r _ => decide (r < nRobots m)
  | .rekeyAbandon r => decide (r < nRobots m)
  | .stopBurstFrame r => (match r with | some k => decide (k < nRobots m) | none => true)
  | .epochWaitExpire r => decide (r < nRobots m)
  | .roverSolveStart _ => true
  | .roverFixPublish cluster _ => decide (cluster < 4)
  | .commitComputeDone _ => true
  | .rerouteResult r _ _ => decide (r < nRobots m)
  | .allotPeriod => true
  | .allotRoundEnd _ => true
  | .proposalLapse => true
  | .taskServiceElapsed r => decide (r < nRobots m)
  | .contactQualified owner contact _ _ => decide (contact ≤ 15) && (decide (owner = 256) || decide (owner < nRobots m))
  | .estopPadChange _ _ _ => true
  | .discTimeout => true
  | .partnerStopSymbol _ => true
  | .internalFault icode _ _ => decide (icode ≤ 7)
  | .ctrlLimitExpire => true
  | .robotCtrlLimitExpire r => decide (r < nRobots m)
  | .proofIntervalDue => true
  | .proofTestPart part _ _ _ => decide (part ≤ 2)
  | .resetInputEdge _ => true
  | .resetArmTimeout => true
  | .jobDispatch core _ => decide (core < nCores m)
  | .jobComplete core _ => decide (core < nCores m)
  | .jobRevoke core => decide (core < nCores m)
  | .hostJobFinal job _ => decide (job < nHostJobs m)
  | .ethFrameRx f _ => portExists m f.port && !decide (f.port = 15)
  | .ageScan _ => true
  | .linkPoll _ _ => true
  | .servoSecond _ => true
  | .sourceQualify code _ _ => decide (1 ≤ code) && decide (code ≤ 5) && (decide (code ≠ 3) || decide (nBh m = 2))
  | .wtrExpire => true
  | .sourceLost code _ => decide (1 ≤ code) && decide (code ≤ 5) && (decide (code ≠ 3) || decide (nBh m = 2))
  | .asymHoldExpire => true
  | .asymEstimateSettled => true
  | .timeNormalEntry _ => true
  | .bootWaitExpire => true
  | .extRefLoss _ => true
  | .refSelect _ => true
  | .ppsInEdge _ => true
  | .todSentence _ _ => true
  | .ptpMessageRx msg _ => portExists m msg.port && !decide (msg.port = 15)
  | .ptpAnnounceTimeout port _ => decide (8 ≤ port) && decide (port < 8 + nBh m)
  | .recordCommit _ => true
  | .auditStageTimeout _ => true
  | .recSuppressSecond => true
  | .actInLoss _ => true
  | .deadTimeExpire => true
  | .takeoverComplete _ => true
  | .actCollision _ => true
  | .arbitrationTimeout => true
  | .switchTicksExpire => true
  | .mirror _ _ _ => true
  | .input _ _ _ => true
  | .base _ _ _ _ => true
  | .released _ _ _ => true
  | .health _ _ _ _ _ _ => true
  | .laneError _ => true
  | .hexluxLaneChange _ _ _ _ => true
  | .resyncComplete _ _ => true
  | .selftestCycleDone _ _ _ _ => true
  | .vinOn _ => true
  | .enRise _ => true
  | .enFall _ => true
  | .vinSupFall _ => true
  | .vinLow _ _ => true
  | .vinHigh _ _ => true
  | .vinFaultCease _ _ _ => true
  | .bootReady _ => true
  | .updIdleTimeout => true
  | .updVerifyDone _ => true
  | .updBankLoaded _ => true
  | .doff _ => true
  | .confirmWindowExpire => true
  | .revertRestart _ => true
  | .cfgSessionTimeout => true
  | .scrub mem _ _ _ _ => decide (mem ≤ 10)
  | .eccUncorrectable mem _ _ _ => decide (mem ≤ 10)
  | .unitFailure u _ => UnitFail.wf m u
  | .marginReplan cause _ _ _ _ => decide (cause ≤ 2)
  | .lidTempSample _ _ => true
  | .throttleStep => true
  | .junctionOvertemp _ => true
  | .fwAliveTimeout => true
  | .discrepancyClear => true
  | .actInActive _ => true
  | .pfaultInChange _ _ => true
  | .perstNChange _ _ => true
  | .pcieLinkError _ _ => true
  | .portLinkChange port _ _ _ => portExists m port && !decide (port = 15)
  | .egressFrameSent port _ => portExists m port && !decide (port = 15)
  | .uartCByteSent stream _ => decide (stream < 2)
  | .powerDownEnd => true
  | .softResetReady _ => true

end Sys2Proof
end

