-- ==== Sys2Proof/Safety.lean ====
section
/-! DEFINITION. What counts as a safe state of the module's host side, and what it means that a command completes. -/
set_option autoImplicit false

namespace Sys2Proof.Machine

/-- A step's outcome is a next state. -/
def Completes (o : Host.Outcome State Fault Refusal) : Prop := ∃ t, o = .next t

/-- INT_STAT has 32 bits, of which 23 to 31 read 0 (R64, INT fields). -/
def IntStatOk (l : List Bool) : Prop := l.length = 32 ∧ ∀ k, 23 ≤ k → l.getD k false = false

/-- Words written and not yet released: an entry counts with its valid words until the interpreter releases it (R69). -/
def entryWords : FifoItem → Nat
  | .entry n _ => n
  | _ => 0

def heldWords (l : List FifoItem) : Nat := (l.map entryWords).sum

/-- Words outstanding on a command side. -/
def outstanding (c : CmdSide) : Nat := heldWords c.vis + heldWords c.inv + c.open_.length

/-- The words outstanding and the credit left are never more than 1,024 (R69). -/
def CmdOk (c : CmdSide) : Prop := (c.credLimit - c.wordsTaken).toNat + outstanding c ≤ 1024

/-- No event side holds more than its 4,096 words (R71), and no command FIFO can be overrun (R69). -/
def QueueOk (x : Queue) : Prop := evtLevel x ≤ 4096 ∧ CmdOk x.cmd

def QueuesOk (t : Tab Queue) : Prop := ∀ p ∈ t, QueueOk p.2

/-- The part of the state that the host port's integrity concerns. -/
structure HostView where
  member : Member
  pending : List Instr
  intStat : List Bool
  queues : Tab Queue

@[reducible] def State.view (s : State) : HostView := ⟨s.member, s.pending, s.intStat, s.queues⟩

/-- The member and the commands that wait are given ones, and the registers of the host side are as their tables say. -/
def HostOk (m : Member) (p : List Instr) (v : HostView) : Prop :=
  v.member = m ∧ v.pending = p ∧ IntStatOk v.intStat ∧ QueuesOk v.queues

/-- The host side of the module is as the registers' tables say (R64, R69, R71). -/
def HostInv (s : State) : Prop := IntStatOk s.intStat ∧ QueuesOk s.queues

/-! ### A host command that meets nothing in its way -/

/-- The descriptor and the packet of a host command; the other rows have none. -/
def hostDesc (i : Instr) : Option (Desc × Cmd) :=
  match i with
  | .nop c => some (descNop, c)
  | .getInfo c => some (descGetInfo, c)
  | .getStatus c => some (descGetStatus, c)
  | .setTick c => some (descSetTick, c)
  | .softReset c => some (descSoftReset, c)
  | .getCounters c => some (descGetCounters, c)
  | .gnssConfig c => some (descGnssConfig, c)
  | .gnssChannelSet c => some (descGnssChannelSet, c)
  | .gnssGetChannels c => some (descGnssGetChannels, c)
  | .gnssSetAntenna c => some (descGnssSetAntenna, c)
  | .gnssNavSubscribe c => some (descGnssNavSubscribe, c)
  | .gnssSetIsb c => some (descGnssSetIsb, c)
  | .gnssSurvey c => some (descGnssSurvey, c)
  | .gnssIntegrityCfg c => some (descGnssIntegrityCfg, c)
  | .gnssGetObs c => some (descGnssGetObs, c)
  | .corrStreamCfg c => some (descCorrStreamCfg, c)
  | .corrGetStats c => some (descCorrGetStats, c)
  | .roverBind c => some (descRoverBind, c)
  | .roverCfg c => some (descRoverCfg, c)
  | .roverGetFix c => some (descRoverGetFix, c)
  | .roverSubscribe c => some (descRoverSubscribe, c)
  | .roverResetAmb c => some (descRoverResetAmb, c)
  | .roverGetStats c => some (descRoverGetStats, c)
  | .trackOrigin c => some (descTrackOrigin, c)
  | .trackLoadNodes c => some (descTrackLoadNodes, c)
  | .trackLoadSlivers c => some (descTrackLoadSlivers, c)
  | .trackCommit c => some (descTrackCommit, c)
  | .deckleLoad c => some (descDeckleLoad, c)
  | .resvGet c => some (descResvGet, c)
  | .resvRelease c => some (descResvRelease, c)
  | .routeSet c => some (descRouteSet, c)
  | .taskPost c => some (descTaskPost, c)
  | .taskCancel c => some (descTaskCancel, c)
  | .allotCfg c => some (descAllotCfg, c)
  | .allotRun c => some (descAllotRun, c)
  | .allotGet c => some (descAllotGet, c)
  | .allotCommit c => some (descAllotCommit, c)
  | .spinProfileSet c => some (descSpinProfileSet, c)
  | .spinStartAt c => some (descSpinStartAt, c)
  | .spinHold c => some (descSpinHold, c)
  | .spinGet c => some (descSpinGet, c)
  | .postDefine c => some (descPostDefine, c)
  | .postHome c => some (descPostHome, c)
  | .spinMode c => some (descSpinMode, c)
  | .yardOutSet c => some (descYardOutSet, c)
  | .govCoefLoad c => some (descGovCoefLoad, c)
  | .govCoefSwap c => some (descGovCoefSwap, c)
  | .govLimits c => some (descGovLimits, c)
  | .govFeCfg c => some (descGovFeCfg, c)
  | .govGet c => some (descGovGet, c)
  | .govCapSet c => some (descGovCapSet, c)
  | .stopFleet c => some (descStopFleet, c)
  | .stopRobot c => some (descStopRobot, c)
  | .stopReset c => some (descStopReset, c)
  | .stopCfg c => some (descStopCfg, c)
  | .stopGet c => some (descStopGet, c)
  | .stopTest c => some (descStopTest, c)
  | .netPortCfg c => some (descNetPortCfg, c)
  | .netVlan c => some (descNetVlan, c)
  | .netFdbAdd c => some (descNetFdbAdd, c)
  | .netFdbGet c => some (descNetFdbGet, c)
  | .netRouteAdd c => some (descNetRouteAdd, c)
  | .netRouteDel c => some (descNetRouteDel, c)
  | .netAgeCfg c => some (descNetAgeCfg, c)
  | .netQosCfg c => some (descNetQosCfg, c)
  | .timeSourceCfg c => some (descTimeSourceCfg, c)
  | .timeGet c => some (descTimeGet, c)
  | .timeSet c => some (descTimeSet, c)
  | .ppsCfg c => some (descPpsCfg, c)
  | .ptpCfg c => some (descPtpCfg, c)
  | .servoCfg c => some (descServoCfg, c)
  | .timeMode c => some (descTimeMode, c)
  | .recCfg c => some (descRecCfg, c)
  | .recRead c => some (descRecRead, c)
  | .recMark c => some (descRecMark, c)
  | .recSnapshot c => some (descRecSnapshot, c)
  | .recWrite c => some (descRecWrite, c)
  | .recErase c => some (descRecErase, c)
  | .pairCfg c => some (descPairCfg, c)
  | .pairGet c => some (descPairGet, c)
  | .pairSwitch c => some (descPairSwitch, c)
  | .pairSelftestCfg c => some (descPairSelftestCfg, c)
  | .updOpen c => some (descUpdOpen, c)
  | .updHeader c => some (descUpdHeader, c)
  | .updData c => some (descUpdData, c)
  | .updVerify c => some (descUpdVerify, c)
  | .updActivate c => some (descUpdActivate, c)
  | .updConfirm c => some (descUpdConfirm, c)
  | .updAbort c => some (descUpdAbort, c)
  | .updGet c => some (descUpdGet, c)
  | .secAttest c => some (descSecAttest, c)
  | .secAclGet c => some (descSecAclGet, c)
  | .secAclSet c => some (descSecAclSet, c)
  | .secRobotKey c => some (descSecRobotKey, c)
  | .secCfgSession c => some (descSecCfgSession, c)
  | .schedGet c => some (descSchedGet, c)
  | .schedJobDefine c => some (descSchedJobDefine, c)
  | .healthGet c => some (descHealthGet, c)
  | .selftestRun c => some (descSelftestRun, c)
  | .marginGet c => some (descMarginGet, c)
  | _ => none

/-- The packet of a host command on a queue pair as it is taken: dt has passed, its words have gone through the FIFO,
and it is the next packet of its chain (R34, R37, R69). -/
def packetTaken (d : Desc) (c : Cmd) (s : State) : Req × Nat × Option Bool × State :=
  let s1 := passFifo c.q c.len (beginInput c.dt s)
  enterChain { reqOfCmd d.op c (getQ s c.q).epoch with stamp := s1.now } s1

/-- The command as the module holds it when its checks begin. -/
def arrivedReq (d : Desc) (c : Cmd) (s : State) : Req := { (packetTaken d c s).1 with ch := false, eff := d.eff }

/-- The state in which its checks begin: it is counted, and forwarded to a standby (R83, R393). -/
def arrived (d : Desc) (c : Cmd) (s : State) : State :=
  let r := (packetTaken d c s).1
  laneCommand r (countQ c.q (fun n => { n with accepted := cnt32 n.accepted }) (packetTaken d c s).2.2.2)

/-- Parameter word P+k of a packet. -/
def arg (c : Cmd) (k : Nat) : Word := c.params.getD k 0

/-- The 64-bit value of P+k and P+k+1, low half first. -/
def arg64 (c : Cmd) (k : Nat) : Nat := (arg c k).toNat + 2 ^ 32 * (arg c (k + 1)).toNat

/-- The same as a signed value. -/
def sarg64 (c : Cmd) (k : Nat) : Int := (BitVec.ofNat 64 (arg64 c k)).toInt

/-- A check that holds. -/
def passes (x : Except Fail Unit) : Bool :=
  match x with
  | .ok _ => true
  | .error _ => false

/-- Nothing of checks 2 to 7 of R51 stands in the command's way, and SYS_STATE reads READY. -/
def admits (d : Desc) (r : Req) (a : State) : Bool :=
  decide (a.sys.boot = .ready) && groupAllows a r (d.isRead r) && lengthOk d r && !r.ev &&
    (decide (a.pair.role ≠ .standby) || d.standbyOk r) && (!a.upd.window || d.isRead r || d.updOk) && passes (d.lock r a)

/-- A host command without AT and CH comes alone on a queue pair that serves it and has room for its response, and is
admitted: what is then left of R51 is its own parameters and the state of what it acts on. -/
def unhindered (d : Desc) (c : Cmd) (s : State) : Bool :=
  decide (c.q < 16) && !c.ch && !c.at_ && cmdShape c && queServed s c.q && qEnabled (getQ s c.q) &&
    cmdIdle (getQ s c.q).cmd && roomFor s c.q (max 3 d.maxResp) &&
    admits d (packetTaken d c s).1 (arrived d c s)

/-- The answer ST_OK with a DETAIL and result words, in a state to which the command's effect has come; a SOFT_RESET that
was answered follows (R29, R82). -/
def answered (d : Desc) (c : Cmd) (s : State) (detail : Nat) (ws : List Word) (t : State) :
    Host.Outcome State Fault Refusal :=
  .next (settle (finish (arrivedReq d c s) .ok detail ws t))

/-- The answer ST_ACCEPTED: the completion follows (R43). -/
def deferred (d : Desc) (c : Cmd) (s t : State) : Host.Outcome State Fault Refusal :=
  .next (settle (accepted (arrivedReq d c s) t))

/-- An unhindered host command under a condition on the state that it meets: it answers ST_OK with the words `ws`, and
`eff` is what it does to that state. -/
def AnswersWith (i : Cmd → Instr) (d : Desc) (c : Cmd) (s : State) (cond : State → Prop) (ws : State → List Word)
    (eff : State → State) : Prop :=
  unhindered d c s = true → cond (arrived d c s) →
    exec (i c) s = answered d c s 0 (ws (arrived d c s)) (eff (arrived d c s))

/-- The same for a command that answers ST_ACCEPTED and completes later. -/
def AcceptedWith (i : Cmd → Instr) (d : Desc) (c : Cmd) (s : State) (cond : State → Prop) (eff : State → State) : Prop :=
  unhindered d c s = true → cond (arrived d c s) → exec (i c) s = deferred d c s (eff (arrived d c s))

/-! ### What the passing of time, the counting of a command and its answer leave alone -/

/-- The state without the clocks, the queue pairs and their counters, the chains, the interrupt bits, the outputs of the
last command, the security counters, the response times and the lane's sequence number: all that a command which takes no
effect may touch. -/
def State.still (s : State) : State :=
  { s with
    now := 0, up := 0, out := [], queues := [], netCnt := QueCounters.zero, chains := [], intStat := [], intOcc := [],
    msixPend := [], secCnt := { dropLength := 0, dropFormat := 0, dropMac := 0, replays := 0, accepted := 0, denied := 0 },
    time := { s.time with frac := 0, ppsPulse := none }, rec_ := { s.rec_ with opTime := 0, opFrac := 0 },
    sched := { s.sched with cmdTimes := [] }, pair := { s.pair with laneOut := 0 } }

/-- The nearest value of lo to hi. -/
def nearest (lo hi x : Int) : Int := max lo (min hi x)

end Sys2Proof.Machine
end

