-- ==== Sys2Proof/Certificates/Slice0/Obligations.lean ====
section
/-! DEFINITION. The statements about the model, from the numbered rules of spec/. In the statements about host commands
`arrived` is the state in which the command's own checks begin, and `unhindered` says that nothing of the port, the
queue or the header stands in its way. -/
set_option autoImplicit false

open Sys2Proof Sys2Proof.Machine

/-! ### SYS commands (chapters 01 to 03) -/

/-- R61, R2, R81, R83: NOP, GET_INFO, GET_STATUS and GET_COUNTERS answer ST_OK with their words at once; GET_COUNTERS
returns the counters to 0 where its CLEAR bit asks for it. The model's own choices in it: logs 10, 16 and 17. -/
def Obligations.SysReadsAnswer : Prop :=
  ∀ (c : Cmd) (s : State),
    (unhindered descNop c s = true → exec (.nop c) s = answered descNop c s 0 [] (arrived descNop c s)) ∧
    (unhindered descGetInfo c s = true →
      exec (.getInfo c) s = answered descGetInfo c s 0 (infoWords (arrived descGetInfo c s)) (arrived descGetInfo c s)) ∧
    (unhindered descGetStatus c s = true →
      exec (.getStatus c) s =
        answered descGetStatus c s 0 (statusWords (arrived descGetStatus c s)) (arrived descGetStatus c s)) ∧
    (unhindered descGetCounters c s = true → onlyBits (arg c 0) 0x11FFF = true →
      ∀ a, a = arrived descGetCounters c s → ∀ k, fld (arg c 0) 8 12 = k →
      (fld (arg c 0) 0 7 = 0 → k ≤ 16 → exec (.getCounters c) s = answered descGetCounters c s 0
        (queCounterWords (queCountersOf a k))
        (if bitAt (arg c 0) 16 then countQ k (fun _ => QueCounters.zero) a else a)) ∧
      (fld (arg c 0) 0 7 = 1 → exec (.getCounters c) s = answered descGetCounters c s 0 (secCounterWords a.secCnt)
        (if bitAt (arg c 0) 16 then
          { a with secCnt :=
            { dropLength := 0, dropFormat := 0, dropMac := 0, replays := 0, accepted := 0, denied := 0 } }
        else a)) ∧
      (fld (arg c 0) 0 7 = 2 → exec (.getCounters c) s = answered descGetCounters c s 0 (pcieWords a.pcie)
        (if bitAt (arg c 0) 16 then
          { a with pcie := { a.pcie with ce := 0, ue := 0, replays := 0, retrains := 0, malformed := 0 } }
        else a)))

/-- R18, R19: SET_TICK with every field in its range keeps the change for the boundary at which it applies, and answers
that boundary's second; a change of PERIOD applies at a whole second and only while no spindle is active. The model's
own choices in it: log 44. -/
def Obligations.SetTickKept : Prop :=
  ∀ (c : Cmd) (s a : State) (p g o b : Nat), a = arrived descSetTick c s → b = nextBoundary a →
    unhindered descSetTick c s = true → onlyBits (arg c 0) 0xFFFF = true → onlyBits (arg c 1) 0xFFFF = true →
    fld (arg c 0) 0 7 = p → fld (arg c 0) 8 15 = g → fld (arg c 1) 0 15 = o →
    p ∈ [0, 2, 4, 5, 10, 20] → (g = 0 ∨ 5 ≤ g ∧ g ≤ 50) →
    ((p = 0 ∨ p = periodAt a b) → 100 ≤ (if o = 0 then offsetAt a b else o) →
      (if o = 0 then offsetAt a b else o) ≤ periodAt a b * 250 →
      exec (.setTick c) s = answered descSetTick c s 0 [wordOf (b / nsPerSec)]
        { a with tick := { a.tick with
            changes := a.tick.changes ++ [{ second := 0, period := 0, guard := g, offset := o }] } }) ∧
    (p ≠ 0 → p ≠ periodAt a b → 100 ≤ (if o = 0 then offsetAt a (ceilDiv b nsPerSec * nsPerSec) else o) →
      (if o = 0 then offsetAt a (ceilDiv b nsPerSec * nsPerSec) else o) ≤ p * 250 → anySpindleActive a = false →
      exec (.setTick c) s = answered descSetTick c s 0 [wordOf (ceilDiv b nsPerSec)]
        { a with tick := { a.tick with
            changes := a.tick.changes ++ [{ second := ceilDiv b nsPerSec, period := p, guard := g, offset := o }] } })

/-- R81, R82: SOFT_RESET with its key is answered ST_OK and then carried out, unless a spindle is active without the
latch, or the module is the active one of a pair. The model's own choices in it: logs 10, 146 and 179. -/
def Obligations.SoftResetRuns : Prop :=
  ∀ (c : Cmd) (s a : State), a = arrived descSoftReset c s → unhindered descSoftReset c s = true →
    arg c 0 = wordOf 0x5AFE → (anySpindleActive a = false ∨ latched a = true) → a.pair.role ≠ .active →
    exec (.softReset c) s =
      .next (softReset (finish (arrivedReq descSoftReset c s) .ok 0 [] { a with sys := { a.sys with softReq := true } }))

/-! ### GNSS and CORR commands (chapters 04 and 05) -/

/-- R112, R113: GNSS_CONFIG: a read form answers the section's settings and status as last written; a write form of each
section queues the setting for the next millisecond, and the antenna given must exist. The model's own choices in it:
logs 64, 65 and 163. -/
def Obligations.GnssConfigAnswers : Prop :=
  ∀ (c : Cmd) (s : State) (h u v : Word) (ant : Bool) (sec band ix sig : Nat), arg c 0 = h → arg c 1 = u → arg c 2 = v →
    onlyBits h 0xFFFF = true → fld h 0 3 = sec → bitAt h 5 = ant → fld h 6 7 = band → fld h 8 10 = ix → fld h 11 15 = sig →
    (sec = 3 ∨ sig = 0) → (sec = 2 ∨ ix = 0) → (sec = 1 ∨ sec = 2 ∨ ant = false ∧ band = 0) →
    AnswersWith .gnssConfig descGnssConfig c s
      (fun a => c.params.length = 1 ∧ bitAt h 4 = true ∧ sec ≤ 3 ∧ (sig ≤ 20 ∨ sig = 31) ∧
        (ant = false ∨ nAntennas a.member = 2))
      (fun a => h :: gnssSettings sec ant band ix sig (gnssView a) ++ [gnssStatus sec ant band ix a])
      (fun a => a) ∧
    AnswersWith .gnssConfig descGnssConfig c s
      (fun _ => c.params.length = 3 ∧ bitAt h 4 = false ∧ sec = 0 ∧ onlyBits u 0x1FFFFF = true ∧
        onlyBits v 0xFFFF = true ∧ fld v 0 7 ∈ [1, 2, 5, 10, 20, 50, 100] ∧ fld v 8 15 ≤ 60)
      (fun _ => []) (addAct (.general (fld u 0 20) (fld v 0 7) (fld v 8 15))) ∧
    AnswersWith .gnssConfig descGnssConfig c s
      (fun a => c.params.length = 3 ∧ bitAt h 4 = false ∧ sec = 1 ∧ (ant = false ∨ nAntennas a.member = 2) ∧
        onlyBits u 0xFFFF = true ∧ onlyBits v 0xFFFF = true ∧ fld u 2 8 ≤ 126 ∧ 8 ≤ fld u 9 15 ∧ fld u 9 15 ≤ 64 ∧
        20 ≤ fld v 1 7)
      (fun _ => [])
      (addAct (.chainSet ant band { Chain4.init with
        en := bitAt u 0, agcFixed := bitAt u 1, gain := fld u 2 8, agcTarget := fld u 9 15, blankEn := bitAt v 0,
        blankThr := fld v 1 7, blankHold := fld v 8 15 })) ∧
    AnswersWith .gnssConfig descGnssConfig c s
      (fun a => c.params.length = 3 ∧ bitAt h 4 = false ∧ sec = 2 ∧ (ant = false ∨ nAntennas a.member = 2) ∧
        onlyBits u 0xFF03 = true ∧ fld u 0 1 ≠ 3 ∧ 1 ≤ fld u 8 15 ∧ -61380000 ≤ v.toInt ∧ v.toInt ≤ 61380000)
      (fun _ => [])
      (addAct (.notchSet ant band ix { mode := fld u 0 1, width := fld u 8 15, freq := v.toInt, locked := none })) ∧
    AnswersWith .gnssConfig descGnssConfig c s
      (fun _ => c.params.length = 3 ∧ bitAt h 4 = false ∧ sec = 3 ∧ (sig ≤ 20 ∨ sig = 31) ∧ onlyBits v 0xFFFF = true ∧
        5 ≤ fld u 0 15 ∧ fld u 0 15 ≤ 1000 ∧ 10 ≤ fld u 16 31 ∧ fld u 16 31 ≤ 500 ∧ 10 ≤ fld v 0 15 ∧ fld v 0 15 ≤ 500)
      (fun _ => []) (addAct (.bandwidth sig { dll := fld u 0 15, pll := fld u 16 31, fll := fld v 0 15 }))

/-- R93, R96, R105, R107 to R110, R112: GNSS_CHANNEL_SET, GNSS_SET_ANTENNA, GNSS_SET_ISB and GNSS_SURVEY queue what they
ask for and answer the unit as it will be; GNSS_GET_CHANNELS answers six words for each channel. The model's own
choices in it: logs 61 and 65. -/
def Obligations.GnssSettingsAnswer : Prop :=
  ∀ (c : Cmd) (s : State) (h : Word), arg c 0 = h →
    (∀ k n, fld h 0 9 = k → fld h 10 19 = n → AnswersWith .gnssGetChannels descGnssGetChannels c s
      (fun a => onlyBits h 0xFFFFF = true ∧ 1 ≤ n ∧ n ≤ 512 ∧ k + n ≤ nChannels a.member)
      (fun a => h :: (List.range n).flatMap (fun i => chanWords a (k + i))) (fun a => a)) ∧
    (∀ k act, (fld h 10 11 = 0 ∧ act = GnssAct.release k ∨ fld h 10 11 = 2 ∧ act = GnssAct.disable k) →
      AnswersWith .gnssChannelSet descGnssChannelSet c s
        (fun a => onlyBits h 0x1FFFFFF = true ∧ bitAt h 12 = false ∧ fld h 13 17 = 0 ∧ fld h 18 21 = 0 ∧ fld h 22 24 = 0 ∧
          fld h 0 9 = k ∧ arg c 1 = 0 ∧ arg c 2 = 0 ∧ k < nChannels a.member ∧
          (getChan (gnssView a) k).state ≠ .retired)
        (fun a => [wordOf (chanStateNo (getChan (gnssView (addAct act a)) k).state)]) (addAct act)) ∧
    (∀ k sig svid ant b, fld h 0 9 = k → bitAt h 12 = ant → fld h 13 17 = sig → arg c 1 = b → fld b 0 7 = svid →
      AnswersWith .gnssChannelSet descGnssChannelSet c s
        (fun a => onlyBits h 0x1FFFFFF = true ∧ fld h 10 11 = 1 ∧ onlyBits b 0xFFFFFF = true ∧ fld h 22 24 ≤ 5 ∧
          (bitAt b 23 = true ∨ arg c 2 = 0) ∧ sig ≤ 20 ∧ k < nChannels a.member ∧ svidOk sig svid = true ∧
          (fld b 8 14 = 0 ∨ 3 ≤ fld b 8 14 ∧ fld b 8 14 ≤ 64) ∧ (fld b 15 22 = 0 ∨ 7 ≤ fld b 15 22 ∧ fld b 15 22 ≤ 128) ∧
          (if sig = 4 ∨ sig = 5 then fld h 18 21 ≤ 13 else fld h 18 21 = 0) ∧ (ant = false ∨ nAntennas a.member = 2) ∧
          Nat.testBit (gnssView a).gnss.sigEn sig = true ∧
          (getChain4 (gnssView a) (chainIx ant (sigInfo sig).band)).en = true ∧
          (getChan (gnssView a) k).state ≠ .retired)
        (fun a => [wordOf (chanStateNo (getChan (gnssView (addAct (.pin k ant sig (fld h 18 21) (fld h 22 24) svid
          (fld b 8 14) (fld b 15 22) (if bitAt b 23 then some (arg c 2).toInt else none)) a)) k).state)])
        (addAct (.pin k ant sig (fld h 18 21) (fld h 22 24) svid (fld b 8 14) (fld b 15 22)
          (if bitAt b 23 then some (arg c 2).toInt else none)))) ∧
    (∀ ant act, bitAt h 0 = ant → act = GnssAct.antenna ant (bitAt h 1) (arg c 1).toInt →
      AnswersWith .gnssSetAntenna descGnssSetAntenna c s
        (fun a => c.params.length = 2 ∧ onlyBits h 7 = true ∧ bitAt h 2 = false ∧ (ant = false ∨ nAntennas a.member = 2))
        (fun a => antennaWords (getAnt a ant) (getAnt (gnssView (addAct act a)) ant).cableDelay) (addAct act)) ∧
    (∀ ant, bitAt h 0 = ant →
      AnswersWith .gnssSetAntenna descGnssSetAntenna c s
        (fun a => c.params.length = 1 ∧ onlyBits h 7 = true ∧ bitAt h 1 = false ∧ bitAt h 2 = true ∧ (ant = false ∨ nAntennas a.member = 2))
        (fun a => antennaWords (getAnt a ant) (getAnt (gnssView a) ant).cableDelay) (fun a => a)) ∧
    AnswersWith .gnssSetIsb descGnssSetIsb c s
      (fun _ => onlyBits h 0x37 = true ∧ 1 ≤ fld h 0 2 ∧ fld h 0 2 ≤ 5 ∧ fld h 4 5 ≠ 3 ∧ (fld h 4 5 = 2 ∨ arg c 1 = 0))
      (fun a => isbWords (gnssView (addAct (.isb (fld h 0 2) (fld h 4 5) (arg c 1).toInt) a)))
      (addAct (.isb (fld h 0 2) (fld h 4 5) (arg c 1).toInt)) ∧
    AnswersWith .gnssSetIsb descGnssSetIsb c s (fun _ => h = 0 ∧ arg c 1 = 0) (fun a => isbWords (gnssView a)) (fun a => a) ∧
    AnswersWith .gnssSurvey descGnssSurvey c s (fun _ => c.params.length = 1 ∧ fld h 0 2 = 0 ∧ onlyBits h 7 = true)
      (fun a => surveyWords (gnssView a)) (fun a => a) ∧
    (∀ act, (fld h 0 2 = 1 ∧ onlyBits h 7 = true ∧ c.params.length = 7 ∧ act = GnssAct.arpSet (some
          { x := sarg64 c 1, y := sarg64 c 3, z := sarg64 c 5, sigma := 0, surveyed := false }) ∨
        fld h 0 2 = 5 ∧ onlyBits h 7 = true ∧ c.params.length = 1 ∧ act = GnssAct.arpSet none) →
      AnswersWith .gnssSurvey descGnssSurvey c s (fun a => anySpindleActive a = false)
        (fun a => surveyWords (gnssView (addAct act a))) (addAct act)) ∧
    (∀ act, act = GnssAct.baseline (surveyOf (arrivedReq descGnssSurvey c s) (arg c 1).toNat 0 0) →
      AnswersWith .gnssSurvey descGnssSurvey c s
        (fun a => c.params.length = 2 ∧ fld h 0 2 = 4 ∧ onlyBits h 7 = true ∧ nAntennas a.member = 2 ∧ 60 ≤ (arg c 1).toNat ∧ (arg c 1).toNat ≤ 86400)
        (fun a => surveyWords (gnssView (addAct act a))) (addAct act)) ∧
    (∀ act, act = GnssAct.surveyIn (surveyOf (arrivedReq descGnssSurvey c s) (arg c 1).toNat (fld (arg c 2) 0 15)
        (fld (arg c 2) 16 31)) →
      AnswersWith .gnssSurvey descGnssSurvey c s
        (fun a => c.params.length = 3 ∧ fld h 0 2 = 3 ∧ onlyBits h 7 = true ∧ 60 ≤ (arg c 1).toNat ∧ (arg c 1).toNat ≤ 86400 ∧ 10 ≤ fld (arg c 2) 0 15 ∧
          fld (arg c 2) 0 15 ≤ 10000 ∧ fld (arg c 2) 16 31 ≤ 500 ∧ anySpindleActive a = false)
        (fun a => surveyWords (gnssView (addAct act a))) (addAct act))

/-- R112, R115, R118, R130: GNSS_GET_OBS answers an epoch's records, a window at a time, or starts or ends the queue
pair's subscription at the next millisecond; GNSS_NAV_SUBSCRIBE starts or ends its own there and answers the counts;
GNSS_INTEGRITY_CFG answers or keeps the settings. The model's own choices in it: logs 10, 65 and 166. -/
def Obligations.GnssSubscriptionsAnswer : Prop :=
  ∀ (c : Cmd) (s : State) (h u v : Word), arg c 0 = h → arg c 1 = u → arg c 2 = v →
    (∀ e l k, l = e.recs.filter (obsMatch (fld h 2 3) (fld h 4 9)) → k = fld h 16 25 →
      AnswersWith .gnssGetObs descGnssGetObs c s
        (fun a => onlyBits h 0x3FF03FF = true ∧ fld h 0 1 = 0 ∧ (Nat.testBit (fld h 2 3) 1 = false ∨ nAntennas a.member = 2) ∧
          (arg64 c 1 = 0 ∧ a.gnss.epochs.head? = some e ∨
            arg64 c 1 ≠ 0 ∧ a.gnss.epochs.find? (fun x => decide (x.time = arg64 c 1)) = some e))
        (fun _ => obsHead e l.length k ((l.drop k).take 256).length ++ ((l.drop k).take 256).flatMap obsWords)
        (fun a => a)) ∧
    AnswersWith .gnssGetObs descGnssGetObs c s
      (fun a => onlyBits h 0x3FF03FF = true ∧ fld h 0 1 = 1 ∧ (Nat.testBit (fld h 2 3) 1 = false ∨ nAntennas a.member = 2) ∧
        a.gnss.epochs.isEmpty = false) (fun _ => [])
      (addAct (.obsSub c.q (some { antMask := fld h 2 3, sysMask := fld h 4 9, tag := c.tag }))) ∧
    AnswersWith .gnssGetObs descGnssGetObs c s
      (fun a => onlyBits h 0x3FF03FF = true ∧ fld h 0 1 = 2 ∧ (Nat.testBit (fld h 2 3) 1 = false ∨ nAntennas a.member = 2) ∧
        a.gnss.epochs.isEmpty = false) (fun _ => [])
      (addAct (.obsSub c.q none)) ∧
    AnswersWith .gnssNavSubscribe descGnssNavSubscribe c s
      (fun _ => onlyBits h 0x1FF = true ∧ onlyBits u 0x3FFF = true ∧ fld h 0 1 = 1) (navCounts c.q)
      (addAct (.navSub c.q true (fld h 2 7) (bitAt h 8) (fld u 0 13) c.tag)) ∧
    AnswersWith .gnssNavSubscribe descGnssNavSubscribe c s
      (fun _ => onlyBits h 0x1FF = true ∧ fld h 0 1 = 2 ∧ fld h 2 8 = 0 ∧ u = 0) (navCounts c.q)
      (addAct (.navSub c.q false 0 false 0 0)) ∧
    AnswersWith .gnssNavSubscribe descGnssNavSubscribe c s (fun _ => h = 0 ∧ u = 0) (navCounts c.q) (fun a => a) ∧
    AnswersWith .gnssIntegrityCfg descGnssIntegrityCfg c s
      (fun _ => c.params.length = 1 ∧ h = 1)
      (fun a => integWords a.member a.corr) (fun a => a) ∧
    (∀ w : IntegCfg, w = { action := fld h 1 2, ddEn := bitAt h 3, resThr := fld u 0 7, spoofFrac := fld u 8 15,
                           alarmEpochs := fld u 16 23, inflate := fld u 24 31, powerDelta := fld v 0 7,
                           sqmThr := fld v 8 23, clkJump := fld v 24 31 } →
      AnswersWith .gnssIntegrityCfg descGnssIntegrityCfg c s
        (fun a => c.params.length = 3 ∧ onlyBits h 0xF = true ∧ bitAt h 0 = false ∧ w.action ≤ 2 ∧
          (w.ddEn = false ∨ nAntennas a.member = 2) ∧ 5 ≤ w.resThr ∧ w.resThr ≤ 50 ∧ 20 ≤ w.spoofFrac ∧
          w.spoofFrac ≤ 90 ∧ 1 ≤ w.alarmEpochs ∧ w.alarmEpochs ≤ 40 ∧ 1 ≤ w.inflate ∧ w.inflate ≤ 15 ∧
          2 ≤ w.powerDelta ∧ w.powerDelta ≤ 40 ∧ 328 ≤ w.sqmThr ∧ w.sqmThr ≤ 16384 ∧ 1 ≤ w.clkJump)
        (fun a => integWords a.member { a.corr with cfgSet := w })
        (fun a => { a with corr := { a.corr with cfgSet := w } }))

/-- R120, R124: CORR_STREAM_CFG keeps or answers the settings of a stream, and keeps or answers a descriptor;
CORR_GET_STATS answers a stream's figures, and starts them again where its CLEAR bit asks for it. The model's own
choices in it: logs 16, 67 and 70. -/
def Obligations.CorrCommandsAnswer : Prop :=
  ∀ (c : Cmd) (s : State) (h u v : Word) (k : Nat), arg c 0 = h → arg c 1 = u → arg c 2 = v → fld h 0 1 = k →
    (∀ w : StreamCfg, w =
        { en := bitAt u 0, baud := fld u 1 3, msmType := fld u 4 5, msmRate := fld u 6 8, sysMask := fld u 9 13,
          elevMask := fld u 14 19, station := fld u 20 31, arpPeriod := fld v 0 5, arpMsg := fld v 6 6,
          descPeriod := fld v 7 12, descMsg := fld v 13 14, biasPeriod := fld v 15 20, rhMask := fld v 21 28,
          antHeight := fld (arg c 3) 0 15 } →
      AnswersWith .corrStreamCfg descCorrStreamCfg c s
        (fun a => c.params.length = 4 ∧ onlyBits h 0x33 = true ∧ fld h 4 5 = 0 ∧ k ≤ 2 ∧ onlyBits v 0x1FFFFFFF = true ∧
          onlyBits (arg c 3) 0xFFFF = true ∧ w.descMsg ≠ 3 ∧ (k ≠ 2 ∨ w.baud = 0) ∧ (k = 2 ∨ w.rhMask = 0) ∧
          w.msmRate ≤ 4 ∧ w.elevMask ≤ 60 ∧ w.arpPeriod ≤ 60 ∧ w.descPeriod ≤ 60 ∧ w.biasPeriod ≤ 60 ∧
          w.rhMask < 2 ^ nRh a.member)
        (fun a => h :: streamReply k (setStream k { getStream a k with cfgSet := w } a))
        (fun a => setStream k { getStream a k with cfgSet := w } a)) ∧
    AnswersWith .corrStreamCfg descCorrStreamCfg c s
      (fun _ => c.params.length = 1 ∧ onlyBits h 0x33 = true ∧ fld h 4 5 = 2 ∧ k ≤ 2)
      (fun a => h :: streamReply k a) (fun a => a) ∧
    (∀ text d, text = wordBytes ((List.range 8).map (fun i => arg c (2 + i))) →
        d = { len := fld u 8 12, setup := fld u 16 23, text := text.take (fld u 8 12) } →
      AnswersWith .corrStreamCfg descCorrStreamCfg c s
        (fun _ => c.params.length = 10 ∧ onlyBits h 0x33 = true ∧ fld h 4 5 = 1 ∧ k = 0 ∧ onlyBits u 0xFF1F01 = true ∧
          (fld u 0 0 = 0 ∨ d.setup = 0) ∧ (text.drop d.len).all (fun x => decide (x = 0)) = true)
        (fun _ => h :: descrWords (fld u 0 0) d)
        (fun a => { a with corr := { a.corr with descrs := tabSet a.corr.descrs (fld u 0 0) d } })) ∧
    AnswersWith .corrStreamCfg descCorrStreamCfg c s
      (fun _ => c.params.length = 2 ∧ onlyBits h 0x33 = true ∧ fld h 4 5 = 3 ∧ k = 0 ∧ onlyBits u 1 = true)
      (fun a => h :: descrWords (fld u 0 0) (getDescr a (fld u 0 0))) (fun a => a) ∧
    AnswersWith .corrGetStats descCorrGetStats c s (fun _ => onlyBits h 0x103 = true ∧ k ≤ 2)
      (fun a => corrStatsWords a (getStream a k))
      (fun a => if bitAt h 8 then
          setStream k { getStream a k with messages := 0, bytes := 0, dropped := 0, maxLatency := 0 } a
        else a)

/-! ### ROVER commands (chapter 06) -/

/-- R134, R135, R155, R165: ROVER_BIND answers a binding, makes one where its solve cost has room and its station is the
bound one, and ends one while the robot's spindle is idle; bindings take effect at the next snapshot. The model's own
choices in it: logs 74, 75 and 79. -/
def Obligations.RoverBindAnswers : Prop :=
  ∀ (c : Cmd) (s : State) (h u : Word) (k : Nat), arg c 0 = h → arg c 1 = u → fld h 0 7 = k → onlyBits h 0x3FFFFFF = true →
    AnswersWith .roverBind descRoverBind c s
      (fun a => c.params.length = 1 ∧ u = 0 ∧ fld h 8 9 = 0 ∧ k < nRobots a.member)
      (fun a => bindWords (rseView a) k) (fun a => a) ∧
    (∀ b : Binding, b = { station := fld u 0 11, rate := fld h 10 12, phase := fld h 13 17, maxAmb := fld h 18 24,
                          anyStation := bitAt h 25 } →
      AnswersWith .roverBind descRoverBind c s
        (fun a => c.params.length = 2 ∧ fld h 8 9 = 1 ∧ k < nRobots a.member ∧ onlyBits u 0xFFF = true ∧ b.rate ≤ 4 ∧
          b.phase < 20 / rateHz b.rate ∧ 8 ≤ b.maxAmb ∧ b.maxAmb ≤ 96 ∧
          (∀ o, (getRover (rseView a) k).binding = some o → o.station = b.station) ∧
          overSlot (modRover k (fun x => { x with binding := some b, suspended := false }) (rseView a)) = none)
        (fun a => bindWords (rseView (addRoverAct (.bind k b) a)) k) (addRoverAct (.bind k b))) ∧
    AnswersWith .roverBind descRoverBind c s
      (fun a => c.params.length = 1 ∧ u = 0 ∧ fld h 8 9 = 2 ∧ k < nRobots a.member ∧ spinActive (getSpindle a k) = false)
      (fun a => bindWords (rseView (addRoverAct (.unbind k) a)) k) (addRoverAct (.unbind k))

/-- R137, R149, R151, R153, R157, R164, R166: ROVER_CFG, ROVER_GET_FIX, ROVER_SUBSCRIBE, ROVER_RESET_AMB and
ROVER_GET_STATS. The model's own choices in it: logs 77 and 78. -/
def Obligations.RoverCommandsAnswer : Prop :=
  ∀ (c : Cmd) (s : State) (h u v w : Word) (k : Nat), arg c 0 = h → arg c 1 = u → arg c 2 = v → arg c 3 = w →
    fld h 0 7 = k →
    AnswersWith .roverCfg descRoverCfg c s
      (fun a => c.params.length = 1 ∧ onlyBits h 0x1FF = true ∧ bitAt h 8 = true ∧ k < nRobots a.member ∧ k ≠ 255)
      (fun a => wordOf k :: roverCfgWords (getRover (rseView a) k).cfg) (fun a => a) ∧
    (∀ x : RoverCfg, x =
        { elevMask := fld u 0 5, cn0Mask := fld u 6 11, freqs := fld u 12 13, holdEn := bitAt u 14, gloAr := bitAt u 15,
          ratioThr := fld u 16 23, parMin := fld u 24 30, staleAge := fld v 0 11, aMax := fld v 12 27,
          holdEpochs := fld v 28 31, antHeight := fld w 0 15, ionoBl := fld w 16 23, epochWait := fld w 24 31,
          gloBias1 := sfld (arg c 4) 0 15, gloBias2 := sfld (arg c 4) 16 31 } →
      AnswersWith .roverCfg descRoverCfg c s
        (fun a => c.params.length = 5 ∧ onlyBits h 0x1FF = true ∧ bitAt h 8 = false ∧ onlyBits u 0x7FFFFFFF = true ∧
          (k < nRobots a.member ∨ k = 255) ∧ x.elevMask ≤ 45 ∧ 20 ≤ x.cn0Mask ∧ x.cn0Mask ≤ 50 ∧ 1 ≤ x.freqs ∧
          x.freqs ≤ 3 ∧ 15 ≤ x.ratioThr ∧ x.ratioThr ≤ 100 ∧ 4 ≤ x.parMin ∧ x.parMin ≤ 96 ∧ 60 ≤ x.staleAge ∧
          x.staleAge ≤ 1000 ∧ 100 ≤ x.aMax ∧ x.aMax ≤ 20000 ∧ 1 ≤ x.holdEpochs ∧ x.antHeight ≤ 5000 ∧
          2 ≤ x.ionoBl ∧ x.ionoBl ≤ 20 ∧ 5 ≤ x.epochWait ∧ x.epochWait ≤ 50)
        (fun _ => wordOf k :: roverCfgWords x)
        (fun a => (robotsOf a k).foldl (fun b j => addRoverAct (.cfg j x) b) a)) ∧
    (∀ f, AnswersWith .roverGetFix descRoverGetFix c s
      (fun a => onlyBits h 0x3FF = true ∧ fld h 8 9 ≤ 1 ∧ k < nRobots a.member ∧ (getRover a k).binding.isSome = true ∧
        (if fld h 8 9 = 1 then (getRover a k).tickFix else (getRover a k).latest) = some f)
      (fun _ => fixWords k f) (fun a => a)) ∧
    (∀ m, m = arg64 c 1 + 2 ^ 64 * arg64 c 3 → AnswersWith .roverSubscribe descRoverSubscribe c s
      (fun a => onlyBits h 0x3FF = true ∧ fld h 0 1 ≠ 3 ∧ m < 2 ^ nRobots a.member)
      (fun a => h :: (fun n => words64 n ++ words64 (n / 2 ^ 64))
        (match tabFind (rseView (match fld h 0 1 with
          | 1 => addRoverAct (.sub c.q { decim := fld h 2 9, mask := m, tag := c.tag, counts := [] }) a
          | 2 => addRoverAct (.unsub c.q) a
          | _ => a)).rse.subs c.q with
        | some x => x.mask
        | none => 0))
      (fun a => match fld h 0 1 with
        | 1 => addRoverAct (.sub c.q { decim := fld h 2 9, mask := m, tag := c.tag, counts := [] }) a
        | 2 => addRoverAct (.unsub c.q) a
        | _ => a)) ∧
    AnswersWith .roverResetAmb descRoverResetAmb c s
      (fun a => onlyBits h 0x1FFFFF = true ∧ (fld h 8 9 = 2 ∨ fld h 10 20 = 0) ∧ fld h 10 12 ≤ 4 ∧
        (k = 255 ∨ k < nRobots a.member ∧ (getRover a k).binding.isSome = true))
      (fun _ => [])
      (fun a => (robotsOf a k).foldl (fun b j => if (getRover b j).binding.isSome then
          modRover j (fun x => { x with resets := x.resets ++ [(fld h 8 9, fld h 10 12, fld h 13 20)] }) b
        else b) a) ∧
    (∀ st, AnswersWith .roverGetStats descRoverGetStats c s
      (fun a => onlyBits h 0x1FF = true ∧ k < nRobots a.member ∧ k ≠ 255 ∧
        st = (match (getRover a k).latest with
          | some f => f.status + 8 * f.reason
          | none => 0))
      (fun a => wordOf (st + 128 * natOfBool (getRover a k).binding.isSome + 256 * natOfBool (getRover a k).suspended) ::
        statWords (getRover a k).stats ++ [0, wordOf (solveBudget a)])
      (fun a => if bitAt h 8 then modStats k (fun _ => RoverStats.zero) a else a))

/-! ### TRACK commands (chapter 08) -/

/-- R190, R191, R193, R197 to R199: TRACK_ORIGIN answers, sets or clears the origin while no spindle is active;
TRACK_LOAD_NODES and TRACK_LOAD_SLIVERS change the staged graph record by record; TRACK_COMMIT is accepted and its
computation begins; DECKLE_LOAD answers, loads, deletes or switches a polygon. The model's own choices in it: logs 85
and 86. -/
def Obligations.TrackStoreAnswers : Prop :=
  ∀ (c : Cmd) (s : State) (h : Word) (i nv : Nat), arg c 0 = h → fld h 0 5 = i → fld h 16 24 = nv →
    AnswersWith .trackOrigin descTrackOrigin c s
      (fun _ => c.params.length = 1 ∧ onlyBits h 3 = true ∧ fld h 0 1 = 0)
      (fun a => originWords a.track.originSet) (fun a => a) ∧
    (∀ o, (fld h 0 1 = 1 ∧ c.params.length = 6 ∧ o = some
          { lat := sarg64 c 1, lon := sarg64 c 3, height := (arg c 5).toInt } ∧
        -90000000000 ≤ sarg64 c 1 ∧ sarg64 c 1 ≤ 90000000000 ∧ -180000000000 ≤ sarg64 c 3 ∧
        sarg64 c 3 ≤ 180000000000 ∨ fld h 0 1 = 2 ∧ c.params.length = 1 ∧ o = none) →
      AnswersWith .trackOrigin descTrackOrigin c s
        (fun a => onlyBits h 3 = true ∧ o ≠ a.track.originSet ∧ anySpindleActive a = false) (fun _ => originWords o)
        (fun a => addTrackAct (.origin o) { a with track := { a.track with originSet := o, deckleSet := [] } })) ∧
    (∀ r, r = arrivedReq descTrackLoadNodes c s → AnswersWith .trackLoadNodes descTrackLoadNodes c s
      (fun a => c.params.length = 1 + 4 * nv ∧ onlyBits h 0x1FFBFFF = true ∧ (bitAt h 15 = true ∨ nv ≠ 0) ∧ nv ≤ 256 ∧
        loadFirst r + nv ≤ nNodes a.member ∧ a.track.origin.isSome = true ∧
        (∀ j, j < nv → onlyBits (record4 r j).2.2.2 1 = true ∧ nodeOk (record4 r j) = true))
      (fun a => stagedWords { a with track := { a.track with
        staged := (List.range nv).foldl (putNode r) (clearStaged r a.track.staged) } })
      (fun a => { a with track := { a.track with
        staged := (List.range nv).foldl (putNode r) (clearStaged r a.track.staged) } })) ∧
    (∀ r, r = arrivedReq descTrackLoadSlivers c s → AnswersWith .trackLoadSlivers descTrackLoadSlivers c s
      (fun a => c.params.length = 1 + 4 * nv ∧ onlyBits h 0x1FFFFFF = true ∧ (bitAt h 15 = true ∨ nv ≠ 0) ∧ nv ≤ 256 ∧
        loadFirst r + nv ≤ nSlivers a.member ∧ a.track.origin.isSome = true ∧
        (∀ j, j < nv → sliverBits (record4 r j) = true ∧ sliverOk a.member (record4 r j) = true))
      (fun a => stagedWords { a with track := { a.track with
        staged := (List.range nv).foldl (putSliver r) (clearStaged r a.track.staged) } })
      (fun a => { a with track := { a.track with
        staged := (List.range nv).foldl (putSliver r) (clearStaged r a.track.staged) } })) ∧
    (∀ m : Commit, m =
        { req := some (arrivedReq descTrackCommit c s), clearance := fld h 0 15,
          startUp := (arrived descTrackCommit c s).up, computed := none, duration := 0 } →
      AcceptedWith .trackCommit descTrackCommit c s
        (fun a => onlyBits h 0xFFFF = true ∧ fld h 0 15 ≤ 5000 ∧ a.track.origin.isSome = true)
        (fun a => { a with track := { a.track with commit := some m } })) ∧
    AnswersWith .deckleLoad descDeckleLoad c s
      (fun a => c.params.length = 1 ∧ fld h 8 9 = 0 ∧ nv = 0 ∧ bitAt h 12 = false ∧
        bitAt h 13 = false ∧ onlyBits h 0x1FF333F = true ∧ a.track.origin.isSome = true)
      (fun a => deckleWords a i ++ (match tabFind a.track.deckleSet i with
        | some p => p.verts.flatMap (fun v => [wordOfInt v.1, wordOfInt v.2])
        | none => []))
      (fun a => a) ∧
    (∀ vs p, vs = (List.range nv).map (fun j => ((arg c (1 + 2 * j)).toInt, (arg c (2 + 2 * j)).toInt)) →
      p = { keepOut := bitAt h 12, en := bitAt h 13, verts := vs } →
      AnswersWith .deckleLoad descDeckleLoad c s
        (fun a => c.params.length = 1 + 2 * nv ∧ onlyBits h 0x1FF333F = true ∧ fld h 8 9 = 1 ∧ 3 ≤ nv ∧ nv ≤ 256 ∧
          polyFault vs = none ∧ (∀ v ∈ vs, -30000000 ≤ v.1 ∧ v.1 ≤ 30000000 ∧ -30000000 ≤ v.2 ∧ v.2 ≤ 30000000) ∧
          a.track.origin.isSome = true)
        (fun a => deckleWords (addTrackAct (.deckle i (some p))
          { a with track := { a.track with deckleSet := tabSet a.track.deckleSet i p } }) i)
        (fun a => addTrackAct (.deckle i (some p))
          { a with track := { a.track with deckleSet := tabSet a.track.deckleSet i p } })) ∧
    AnswersWith .deckleLoad descDeckleLoad c s
      (fun a => c.params.length = 1 ∧ onlyBits h 0x1FF333F = true ∧ fld h 8 9 = 2 ∧ nv = 0 ∧ bitAt h 12 = false ∧
        bitAt h 13 = false ∧ a.track.origin.isSome = true)
      (fun a => deckleWords (addTrackAct (.deckle i none)
        { a with track := { a.track with deckleSet := tabDel a.track.deckleSet i } }) i)
      (fun a => addTrackAct (.deckle i none)
        { a with track := { a.track with deckleSet := tabDel a.track.deckleSet i } })

/-- R202, R204, R206, R212: RESV_GET answers a robot's, a sliver's or all windows; RESV_RELEASE releases windows at the
next snapshot; ROUTE_SET answers, sets or clears a route, or sets the profile. The model's own choices in it: log 82. -/
def Obligations.ReservationCommandsAnswer : Prop :=
  ∀ (c : Cmd) (s : State) (h u v w : Word) (k : Nat), arg c 0 = h → arg c 1 = u → arg c 2 = v → arg c 3 = w →
    fld h 0 7 = k →
    (∀ n, fld h 16 30 = n →
      AnswersWith .resvGet descResvGet c s
        (fun a => onlyBits h 0x7FFF0003 = true ∧ fld h 0 1 = 0 ∧ n < nRobots a.member ∧ a.track.origin.isSome = true)
        (resvRobotWords n) (fun a => a) ∧
      AnswersWith .resvGet descResvGet c s
        (fun a => onlyBits h 0x7FFF0003 = true ∧ fld h 0 1 = 1 ∧ n < nSlivers a.member ∧ a.track.origin.isSome = true)
        (resvSliverWords n) (fun a => a) ∧
      AnswersWith .resvGet descResvGet c s
        (fun a => onlyBits h 0x7FFF0003 = true ∧ fld h 0 1 = 2 ∧ n = 0 ∧ a.track.origin.isSome = true)
        resvTotalWords (fun a => a) ∧
      (∀ scope, fld h 8 9 = scope → AnswersWith .resvRelease descResvRelease c s
        (fun a => onlyBits h 0x7FFF03FF = true ∧ scope ≠ 3 ∧ (scope = 1 ∨ n = 0) ∧ k < nRobots a.member ∧
          n < nSlivers a.member ∧ a.track.origin.isSome = true ∧
          (scope ≠ 1 ∨ (getTr a k).windows.filter (scopeHits scope n) ≠ []) ∧
          ((getSpindle a k).atRest = true ∧ (latched a = true ∨ robotStopped a k = true) ∨
            scope = 0 ∨ scope = 1 ∧ ∀ x ∈ (getTr a k).windows.filter (scopeHits 1 n), x.entered = false))
        (fun a => [wordOf ((getTr a k).windows.filter (scopeHits scope n)).length])
        (addTrackAct (.release k scope n)))) ∧
    AnswersWith .routeSet descRouteSet c s
      (fun a => c.params.length = 1 ∧ onlyBits h 0x7FF1FFF = true ∧ fld h 8 9 = 0 ∧
        fld h 16 26 = 0 ∧ fld h 10 12 = 0 ∧ k < nRobots a.member ∧ a.track.origin.isSome = true ∧ tableReady a = true)
      (fun a => routeWords a k) (fun a => a) ∧
    (∀ (n : Nat) (es : List (Nat × Bool)) (x : Route) (t : State → State), fld h 16 26 = n → es = (List.range n).map (routeEntry (arrivedReq descRouteSet c s)) →
      x = { entries := es, endOffset := u.toNat, prio := fld h 10 12 } →
      (∀ a, t a = addTrackAct (.routeSet k x) (modTr k (fun y => { y with routeId := (y.routeId + 1) % 2 ^ 32 }) a)) →
      AnswersWith .routeSet descRouteSet c s
        (fun a => c.params.length = 2 + (n + 1) / 2 ∧ onlyBits h 0x7FF1FFF = true ∧ fld h 8 9 = 1 ∧ 1 ≤ n ∧ n ≤ 1024 ∧
          (n % 2 = 0 ∨ fld (arg c (2 + n / 2)) 16 31 = 0) ∧ k < nRobots a.member ∧
          (∀ e ∈ es, e.1 < nSlivers a.member) ∧
          (∀ e, es.getLast? = some e → u.toNat ≤ lenAt a e.1 ∨ sliverAt a e.1 = none) ∧
          a.track.origin.isSome = true ∧ tableReady a = true ∧ checkRoute a k x = none)
        (fun a => routeWords { t a with
          track := { (t a).track with rerouteAsked := (t a).track.rerouteAsked.filter (fun q => decide (q ≠ k)) },
          task := { (t a).task with acts := (t a).task.acts ++ [.overridden k] } } k)
        (fun a => { t a with
          track := { (t a).track with rerouteAsked := (t a).track.rerouteAsked.filter (fun q => decide (q ≠ k)) },
          task := { (t a).task with acts := (t a).task.acts ++ [.overridden k] } })) ∧
    (∀ t : State → State, (∀ a, t a = addTrackAct (.routeClear k) a) → AnswersWith .routeSet descRouteSet c s
      (fun a => c.params.length = 1 ∧ onlyBits h 0x7FF1FFF = true ∧ fld h 8 9 = 2 ∧ fld h 16 26 = 0 ∧ fld h 10 12 = 0 ∧
        k < nRobots a.member ∧ a.track.origin.isSome = true ∧ tableReady a = true ∧ spinActive (getSpindle a k) = false)
      (fun a => routeWords { t a with task := { (t a).task with acts := (t a).task.acts ++ [.overridden k] } } k)
      (fun a => { t a with task := { (t a).task with acts := (t a).task.acts ++ [.overridden k] } })) ∧
    (∀ p : RobotProfile, p =
        { footFront := fld u 0 15, footRear := fld u 16 31, halfWidth := fld v 0 15, trackClass := fld v 16 18,
          autoReroute := bitAt v 19, lookahead := fld w 0 15, tGuard := fld w 16 23, releaseMargin := fld w 24 31 } →
      AnswersWith .routeSet descRouteSet c s
        (fun a => c.params.length = 4 ∧ onlyBits h 0x7FF1FFF = true ∧ fld h 8 9 = 3 ∧ fld h 16 26 = 0 ∧ fld h 10 12 = 0 ∧
          onlyBits v 0xFFFFF = true ∧ k < nRobots a.member ∧ p.footFront ≤ 20000 ∧ p.footRear ≤ 20000 ∧
          100 ≤ p.halfWidth ∧ p.halfWidth ≤ 10000 ∧ 10 ≤ p.lookahead ∧ p.lookahead ≤ 6000 ∧
          a.track.origin.isSome = true ∧ tableReady a = true ∧
          (routeToCome a k = none ∨ p.halfWidth = (getTr a k).profSet.halfWidth ∧
            p.trackClass = (getTr a k).profSet.trackClass))
        (fun a => routeWords (modTr k (fun y => { y with profSet := p }) a) k)
        (modTr k (fun y => { y with profSet := p })))

/-! ### TASK and ALLOT commands (chapter 09) -/

/-- R217 to R219, R225, R226, R230, R233: TASK_POST posts, updates or answers a slot; TASK_CANCEL cancels or closes one;
ALLOT_CFG answers or keeps the settings; ALLOT_RUN and ALLOT_COMMIT are accepted; ALLOT_GET answers a window of the
last round's result. The model's own choices in it: logs 113, 114, 115, 197 and 198. -/
def Obligations.TaskCommandsAnswer : Prop :=
  ∀ (c : Cmd) (s : State) (h : Word) (k : Nat), arg c 0 = h → fld h 0 10 = k →
    (∀ x, x = taskOf (arrivedReq descTaskPost c s) →
      AnswersWith .taskPost descTaskPost c s
        (fun a => c.params.length = 16 ∧ onlyBits h 0xFF0737FF = true ∧ fld h 12 13 = 0 ∧
          onlyBits (arg c 2) 0xFFFF3FFF = true ∧ (x.tLatest = 0 ∨ x.tEarliest < x.tLatest) ∧ k < nTasks a.member ∧
          (x.pin = 255 ∨ x.pin < nRobots a.member) ∧ x.node < nNodes a.member ∧ a.track.origin.isSome = true ∧
          (tabGet (slotsToCome a) k TaskSlot.init).state = .free ∧ tabHas a.track.active.nodes x.node = true)
        (fun _ => [slotWord { TaskSlot.init with state := .open_ }]) (addTaskAct (.post k x)) ∧
      (∀ y, AnswersWith .taskPost descTaskPost c s
        (fun a => c.params.length = 16 ∧ onlyBits h 0xFF0737FF = true ∧ fld h 12 13 = 1 ∧
          onlyBits (arg c 2) 0xFFFF3FFF = true ∧ (x.tLatest = 0 ∨ x.tEarliest < x.tLatest) ∧ k < nTasks a.member ∧
          (x.pin = 255 ∨ x.pin < nRobots a.member) ∧ x.node < nNodes a.member ∧ a.track.origin.isSome = true ∧
          y = tabGet (slotsToCome a) k TaskSlot.init ∧ y.state ≠ .free ∧ tabHas a.track.active.nodes x.node = true ∧
          (heldTask y = false ∨ x.node = y.task.node ∧ x.reqCap = y.task.reqCap ∧ x.pin = y.task.pin))
        (fun _ => [slotWord y]) (addTaskAct (.update k x)))) ∧
    AnswersWith .taskPost descTaskPost c s
      (fun a => c.params.length = 1 ∧ onlyBits h 0xFF0737FF = true ∧ fld h 12 13 = 2 ∧ fld h 16 31 = 0 ∧
        k < nTasks a.member ∧ a.track.origin.isSome = true)
      (fun a => slotWord (getTask a k) :: taskWords k (getTask a k).task) (fun a => a) ∧
    (∀ st, AnswersWith .taskCancel descTaskCancel c s
      (fun a => onlyBits h 0x37FF = true ∧ k < nTasks a.member ∧ a.track.origin.isSome = true ∧
        st = (tabGet (slotsToCome a) k TaskSlot.init).state ∧ st ≠ .free ∧
        (fld h 12 13 = 0 ∧ st ≠ .reached ∧ st ≠ .expired ∨ fld h 12 13 = 1 ∧ (st = .reached ∨ st = .expired)))
      (fun _ => [wordOf (taskNo st)]) (addTaskAct (if fld h 12 13 = 1 then .close k else .cancel k))) ∧
    AcceptedWith .allotRun descAllotRun c s (fun a => onlyBits h 1 = true ∧ a.track.origin.isSome = true)
      (fun a => { a with task := { a.task with runReq := some (arrivedReq descAllotRun c s, fld h 0 0) } }) ∧
    (∀ x n es, fld h 16 23 = n → es = (x.assigns.drop (fld h 0 15)).take n → AnswersWith .allotGet descAllotGet c s
      (fun a => onlyBits h 0xFFFFFF = true ∧ 1 ≤ n ∧ n ≤ 128 ∧ a.track.origin.isSome = true ∧ a.task.last = some x)
      (fun a => [wordOf x.id, wordOfFields [(x.assigns.length, 0), (natOfBool a.task.proposalAt.isSome, 16),
        (natOfBool x.committed, 17)], wordOf es.length] ++ es.flatMap assignWords)
      (fun a => a)) ∧
    (∀ (m : Nat) (x : Round) (q : CommitReq),
      m = (List.range 4).foldl (fun x i => x + (arg c (1 + i)).toNat * 2 ^ (32 * i)) 0 →
      q = { req := some (arrivedReq descAllotCommit c s), byCommand := true,
            robots := (List.range 128).filter (Nat.testBit m) } →
      AcceptedWith .allotCommit descAllotCommit c s
        (fun a => m < 2 ^ nRobots a.member ∧ a.track.origin.isSome = true ∧ a.task.last = some x ∧ x.id = h.toNat ∧
          x.committed = false ∧ a.task.commits = [] ∧ a.task.proposalAt.isSome = true ∧ latched a = false)
        (fun a => { a with task := { a.task with commits := a.task.commits ++ [q] } }))

/-- R219, R220: ALLOT_CFG answers or keeps the global settings and those of a robot. The model's own choices in it: log
113. -/
def Obligations.AllotCfgAnswers : Prop :=
  ∀ (c : Cmd) (s : State) (h u v w : Word) (k : Nat), arg c 0 = h → arg c 1 = u → arg c 2 = v → arg c 3 = w →
    fld h 8 15 = k → onlyBits h 0xFF03 = true →
    AnswersWith .allotCfg descAllotCfg c s
      (fun a => c.params.length = 1 ∧ bitAt h 0 = true ∧ bitAt h 1 = true ∧ k < nRobots a.member ∧
        a.track.origin.isSome = true)
      (fun a => wordOfFields [(1, 1), (k, 8)] :: allotWords a (some k)) (fun a => a) ∧
    AnswersWith .allotCfg descAllotCfg c s
      (fun a => c.params.length = 1 ∧ bitAt h 0 = true ∧ bitAt h 1 = false ∧ k = 0 ∧ a.track.origin.isSome = true)
      (fun a => wordOfFields [(0, 1), (0, 8)] :: allotWords a none) (fun a => a) ∧
    (∀ x : AllotRobot, x = { cap := fld u 0 15, en := bitAt u 16, tasksMax := fld u 17 19 } →
      AnswersWith .allotCfg descAllotCfg c s
        (fun a => c.params.length = 4 ∧ bitAt h 0 = false ∧ bitAt h 1 = true ∧ onlyBits u 0xFFFFF = true ∧ v = 0 ∧ w = 0 ∧
          k < nRobots a.member ∧ 1 ≤ x.tasksMax ∧ x.tasksMax ≤ 4 ∧ a.track.origin.isSome = true)
        (fun a => wordOfFields [(1, 1), (k, 8)] ::
          allotWords { a with task := { a.task with robotsSet := tabSet a.task.robotsSet k x } } (some k))
        (fun a => { a with task := { a.task with robotsSet := tabSet a.task.robotsSet k x } })) ∧
    (∀ g : AllotCfg, g =
        { period := fld u 0 15, autoCommit := bitAt u 16, autoStart := bitAt u 17, autoClose := bitAt u 18,
          eps := fld u 24 31, valueBase := fld v 0 15, prioStep := fld v 16 31, maxBids := fld w 0 19, ttl := fld w 24 31 } →
      AnswersWith .allotCfg descAllotCfg c s
        (fun a => c.params.length = 4 ∧ bitAt h 0 = false ∧ bitAt h 1 = false ∧ k = 0 ∧ onlyBits u 0xFF07FFFF = true ∧
          onlyBits w 0xFF0FFFFF = true ∧ (g.period = 0 ∨ 10 ≤ g.period ∧ g.period ≤ 6000) ∧ 1 ≤ g.eps ∧
          1 ≤ g.valueBase ∧ 1024 ≤ g.maxBids ∧ 1 ≤ g.ttl ∧ a.track.origin.isSome = true)
        (fun a => wordOfFields [(0, 1), (0, 8)] :: allotWords { a with task := { a.task with cfgSet := g } } none)
        (fun a => { a with task := { a.task with cfgSet := g } }))

/-! ### SPIN and POST commands (chapter 10) -/

/-- R236 to R238, R251, R253, R257, R259: SPIN_PROFILE_SET answers or keeps a profile; SPIN_START_AT, SPIN_MODE and
POST_HOME start motion at the next snapshot where R259 refuses nothing and nothing is stopped; SPIN_HOLD holds what
moves; SPIN_GET answers a spindle. The model's own choices in it: logs 89 and 95. -/
def Obligations.SpinCommandsAnswer : Prop :=
  ∀ (c : Cmd) (s : State) (h : Word) (k : Nat), arg c 0 = h → fld h 0 7 = k →
    AnswersWith .spinProfileSet descSpinProfileSet c s
      (fun a => c.params.length = 1 ∧ onlyBits h 0x1FF = true ∧ bitAt h 8 = true ∧ k ≠ 255 ∧ k < nRobots a.member ∧
        a.track.origin.isSome = true)
      (fun a => spinProfileWords a k) (fun a => a) ∧
    (∀ (p : Profile) (t : State → State), p =
        { vStart := fld (arg c 1) 0 15, vStop := fld (arg c 1) 16 31, vKnee := fld (arg c 2) 0 15,
          vMax := fld (arg c 2) 16 31, a1 := fld (arg c 3) 0 15, a2 := fld (arg c 3) 16 31, d1 := fld (arg c 4) 0 15,
          d2 := fld (arg c 4) 16 31, q := fld (arg c 5) 0 8, lead := fld (arg c 5) 16 19 } →
      (∀ a, t a = (robotsOf a k).foldl
        (fun b i => addSpinAct (.profile i p) (modSpindle i (fun x => { x with prof := p }) b)) a) →
      AnswersWith .spinProfileSet descSpinProfileSet c s
        (fun a => c.params.length = 6 ∧ onlyBits h 0x1FF = true ∧ bitAt h 8 = false ∧ onlyBits (arg c 5) 0xF01FF = true ∧
          (k = 255 ∨ k < nRobots a.member) ∧ p.vStart ≤ p.vKnee ∧ p.vKnee ≤ p.vMax ∧ p.vStop ≤ p.vKnee ∧
          10 ≤ p.vStart ∧ p.vStart ≤ 5000 ∧ 10 ≤ p.vStop ∧ p.vStop ≤ 5000 ∧ 10 ≤ p.vMax ∧ 100 ≤ p.a1 ∧ p.a1 ≤ 20000 ∧
          100 ≤ p.a2 ∧ p.a2 ≤ 20000 ∧ 100 ≤ p.d1 ∧ p.d1 ≤ 20000 ∧ 100 ≤ p.d2 ∧ p.d2 ≤ 20000 ∧ 10 ≤ p.q ∧ p.q ≤ 500 ∧
          1 ≤ p.lead ∧ p.lead ≤ 8 ∧ a.track.origin.isSome = true)
        (fun a => spinProfileWords (t a) (if k = 255 then 0 else k)) t) ∧
    AnswersWith .spinStartAt descSpinStartAt c s
      (fun a => onlyBits h 0xFF = true ∧ k < nRobots a.member ∧ a.track.origin.isSome = true ∧
        motionStopped a = false ∧ robotStopped a k = false ∧ startRefusal a k false = .ok ())
      (fun a => startWords a k) (addSpinAct (.start k false)) ∧
    (∀ hit : State → List Nat, (∀ a, hit a = (robotsOf a k).filter
        (fun i => decide (stateToCome a i ≠ .idle) && decide (stateToCome a i ≠ .manual))) →
      AnswersWith .spinHold descSpinHold c s
        (fun a => onlyBits h 0x3FF = true ∧ fld h 8 9 ≤ 1 ∧ (k = 255 ∨ k < nRobots a.member) ∧
          a.track.origin.isSome = true)
        (fun a => [wordOf (hit a).length])
        (fun a => (hit a).foldl (fun b i => addSpinAct (.hold i (fld h 8 9)) b) a)) ∧
    AnswersWith .spinGet descSpinGet c s
      (fun a => onlyBits h 0xFF = true ∧ k < nRobots a.member ∧ a.track.origin.isSome = true)
      (fun a => spinGetWords a k) (fun a => a) ∧
    AnswersWith .spinMode descSpinMode c s
      (fun a => onlyBits h 0x3FF = true ∧ fld h 8 9 = 0 ∧ k < nRobots a.member ∧ a.track.origin.isSome = true ∧
        motionStopped a = false ∧ robotStopped a k = false ∧ startRefusal a k true = .ok ())
      (fun _ => [wordOf 1]) (addSpinAct (.start k true)) ∧
    AnswersWith .spinMode descSpinMode c s
      (fun a => onlyBits h 0x3FF = true ∧ fld h 8 9 = 1 ∧ k < nRobots a.member ∧ a.track.origin.isSome = true ∧
        stateToCome a k ≠ .manual)
      (fun a => [wordOf (if stateToCome a k = .run ∨ stateToCome a k = .wait then 3 else 6)]) (addSpinAct (.manual k)) ∧
    AnswersWith .spinMode descSpinMode c s
      (fun a => onlyBits h 0x3FF = true ∧ fld h 8 9 = 2 ∧ k < nRobots a.member ∧ a.track.origin.isSome = true ∧
        stateToCome a k = .manual ∧ (getSpindle a k).atRest = true)
      (fun _ => [0]) (addSpinAct (.idle k)) ∧
    (∀ (n : Nat) (pos : Int) (p : Post) (rt : Route) (e : Span) (hm : Homing), fld h 8 12 = n →
      pos = (if e.rev then e.d1 - p.offset else e.d0 + p.offset) →
      hm = { req := arrivedReq descPostHome c s, post := n, vSearch := fld (arg c 1) 0 15, vCreep := fld (arg c 1) 16 31,
             settleMs := fld (arg c 2) 0 15, phase := .approach, next := .none, settleAt := 0, tSearch := 0, tCreep := 0,
             cmdAtEdge := 0, fixAtEdge := 0, edgesFrom := 0, cleared := false, stop := .none, paused := false,
             startAt := pos - p.searchDist, endAt := pos + p.overrun, backTo := 0 } →
      AcceptedWith .postHome descPostHome c s
        (fun a => onlyBits h 0x1FFF = true ∧ onlyBits (arg c 2) 0xFFFF = true ∧
          (getSpindle a k).prof.vStart ≤ hm.vSearch ∧ hm.vSearch ≤ (getSpindle a k).prof.vMax ∧
          (getSpindle a k).prof.vStart ≤ hm.vCreep ∧ hm.vCreep ≤ hm.vSearch ∧ k < nRobots a.member ∧
          hm.settleMs ≤ 5000 ∧ a.track.origin.isSome = true ∧ motionStopped a = false ∧ robotStopped a k = false ∧
          startRefusal a k false = .ok () ∧ tabFind a.spin.posts n = some p ∧ (getTr a k).route = some rt ∧
          (spansOf a rt).getLast? = some e ∧ e.sliver = p.sliver ∧ e.rev = p.rev ∧
          pos + p.overrun ≤ endDist rt (spansOf a rt) ∧ progressOn (getTr a k) < pos - p.searchDist)
        (addSpinAct (.home k hm)))

/-- R255, R260: POST_DEFINE answers, defines or deletes a post that no homing uses; YARD_OUT_SET answers an output or
sets it to its source's level. The model's own choices in it: logs 95 and 116. -/
def Obligations.YardCommandsAnswer : Prop :=
  ∀ (c : Cmd) (s : State) (h u : Word) (n : Nat), arg c 0 = h → arg c 1 = u →
    (fld h 0 4 = n → onlyBits h 0x31F = true →
      AnswersWith .postDefine descPostDefine c s
        (fun a => c.params.length = 1 ∧ fld h 8 9 = 0 ∧ a.track.origin.isSome = true)
        (fun a => postWords a n) (fun a => a) ∧
      (∀ (p : Post) (v : Sliver), p =
          { sliver := fld u 0 14, rev := bitAt u 15, yard := bitAt u 16, input := fld u 17 20, polarity := bitAt u 21,
            offset := (arg c 2).toNat, searchDist := fld (arg c 3) 0 15, overrun := fld (arg c 3) 16 31,
            backoff := fld (arg c 4) 0 15, triggerOfs := sfld (arg c 4) 16 31, qualN := fld (arg c 5) 0 5,
            chatK := fld (arg c 5) 8 13, chatW := fld (arg c 5) 16 31 } →
        AnswersWith .postDefine descPostDefine c s
          (fun a => c.params.length = 6 ∧ fld h 8 9 = 1 ∧ onlyBits u 0x3FFFFF = true ∧
            onlyBits (arg c 5) 0xFFFF3F3F = true ∧ p.sliver < nSlivers a.member ∧ sliverAt a p.sliver = some v ∧
            v.dir = 0 ∧ p.offset ≤ lenAt a p.sliver ∧ 100 ≤ p.searchDist ∧ p.searchDist ≤ 20000 ∧ 10 ≤ p.overrun ∧
            p.overrun ≤ 5000 ∧
            (if p.rev then p.overrun ≤ p.offset else p.offset + p.overrun ≤ lenAt a p.sliver) ∧
            10 ≤ p.backoff ∧ p.backoff ≤ 2000 ∧ 1 ≤ p.qualN ∧ p.qualN ≤ 64 ∧ 2 ≤ p.chatK ∧ p.chatK ≤ 32 ∧
            1 ≤ p.chatW ∧ p.chatW ≤ 1000 ∧ a.track.origin.isSome = true ∧ postInUse a n = false)
          (fun a => postWords { a with spin := { a.spin with posts := tabSet a.spin.posts n p } } n)
          (fun a => { a with spin := { a.spin with posts := tabSet a.spin.posts n p } })) ∧
      AnswersWith .postDefine descPostDefine c s
        (fun a => c.params.length = 1 ∧ fld h 8 9 = 2 ∧ a.track.origin.isSome = true ∧ postInUse a n = false)
        (fun a => postWords { a with spin := { a.spin with posts := tabDel a.spin.posts n } } n)
        (fun a => { a with spin := { a.spin with posts := tabDel a.spin.posts n } })) ∧
    (fld h 0 2 = n → onlyBits h 0x107 = true →
      AnswersWith .yardOutSet descYardOutSet c s (fun _ => c.params.length = 1 ∧ bitAt h 8 = true)
        (fun a => [wordOf n, yardWord (getYard a n), wordOf (yardBits a)]) (fun a => a) ∧
      (∀ (y : YardOut) (t : State → State),
        y = { source := fld u 0 2, level := bitAt u 3, stopOff := bitAt u 4, robot := fld u 8 15, on := false } →
        (∀ a, t a = { a with spin := { a.spin with
          yardOut := tabSet a.spin.yardOut n { y with on := yardLevel a y } } }) →
        AnswersWith .yardOutSet descYardOutSet c s
          (fun a => c.params.length = 2 ∧ bitAt h 8 = false ∧ onlyBits u 0xFF1F = true ∧
            (y.source = 0 ∨ fld u 3 4 = 0) ∧ (y.source = 2 ∨ y.source = 4 ∨ y.robot = 0) ∧ y.source ≤ 4 ∧
            y.robot < nRobots a.member)
          (fun a => [wordOf n, yardWord (getYard (t a) n), wordOf (yardBits (t a))]) t))

/-! ### GOV commands (chapter 11) -/

/-- R262, R274, R279, R280: GOV_COEF_LOAD answers a coefficient set or loads the inactive one while no swap is pending;
GOV_COEF_SWAP asks for swaps; GOV_LIMITS, GOV_FE_CFG and GOV_CAP_SET answer or keep a robot's settings; GOV_GET
answers a robot's governors or a law slot. The model's own choices in it: log 117. -/
def Obligations.GovCommandsAnswer : Prop :=
  ∀ (c : Cmd) (s : State) (h u v : Word) (k : Nat), arg c 0 = h → arg c 1 = u → arg c 2 = v → fld h 0 7 = k →
    (∀ (loop j : Nat) (head : State → Word), fld h 8 10 = loop → j = (if k = 255 then 0 else k) →
      (∀ a, head a = wordOfFields [(k, 0), (loop, 8), (natOfBool (bitAt h 12), 12),
        (natOfBool (getLaw a (govSlot a.member j loop)).activeB, 13)]) →
      AnswersWith .govCoefLoad descGovCoefLoad c s
        (fun a => c.params.length = 1 ∧ bitAt h 11 = true ∧ onlyBits h 0x1FFF = true ∧ k ≠ 255 ∧ k < nRobots a.member ∧
          loop ≤ 4)
        (fun a => head a :: coefWords (if bitAt h 12 then inactiveSet (getLaw a (govSlot a.member k loop))
          else activeSet (getLaw a (govSlot a.member k loop))))
        (fun a => a) ∧
      (∀ x, x = coefPar (arrivedReq descGovCoefLoad c s) 1 → AnswersWith .govCoefLoad descGovCoefLoad c s
        (fun a => c.params.length = 10 ∧ bitAt h 11 = false ∧ onlyBits h 0xFFF = true ∧ onlyBits (arg c 4) 0x1F1F1F = true ∧
          (k = 255 ∨ k < nRobots a.member) ∧ loop ≤ 4 ∧ x.uMin ≤ x.uMax ∧ x.iMin ≤ x.iMax ∧ 0 ≤ x.uMin ∧
          x.uMin ≤ 65535 ∧ 0 ≤ x.uMax ∧ x.uMax ≤ 65535 ∧ 0 ≤ x.iMin ∧ x.iMin ≤ 65535 ∧ 0 ≤ x.iMax ∧ x.iMax ≤ 65535 ∧
          x.rMax ≤ 65535 ∧ ∀ i ∈ robotsOf a k, (getLaw a (govSlot a.member i loop)).swap = false)
        (fun a => head a :: coefWords x)
        (fun a => (robotsOf a k).foldl (fun b i =>
          setLaw (govSlot b.member i loop) (setInactive x (getLaw b (govSlot b.member i loop))) b) a))) ∧
    (∀ slots : State → List Nat, (∀ a, slots a = (robotsOf a k).flatMap (fun i =>
        ((List.range 5).filter (fun j => decide (fld h 8 12 = 0) || Nat.testBit (fld h 8 12) j)).map
          (fun j => govSlot a.member i j))) →
      AnswersWith .govCoefSwap descGovCoefSwap c s
        (fun a => onlyBits h 0x1FFF = true ∧ (k = 255 ∨ k < nRobots a.member) ∧
          ∀ n ∈ slots a, (getLaw a n).swap = false)
        (fun a => [wordOf (slots a).length])
        (fun a => (slots a).foldl (fun b n => setLaw n { getLaw b n with swap := true } b) a)) ∧
    AnswersWith .govLimits descGovLimits c s
      (fun a => c.params.length = 1 ∧ onlyBits h 0x1FF = true ∧ bitAt h 8 = true ∧ k ≠ 255 ∧ k < nRobots a.member)
      (fun a => govLimitsWords k (govCfgOf a k)) (fun a => a) ∧
    (∀ t : State → State, (∀ a, t a = modGovCfg k (fun x => { x with
          sepTol := fld u 0 15, bndTol := fld u 16 31, qualLimit := fld v 0 15, linkLimit := fld v 16 31 }) a) →
      AnswersWith .govLimits descGovLimits c s
        (fun a => c.params.length = 3 ∧ onlyBits h 0x1FF = true ∧ bitAt h 8 = false ∧ (k = 255 ∨ k < nRobots a.member) ∧
          fld u 0 15 ≤ 10000 ∧ fld u 16 31 ≤ 10000 ∧ 1 ≤ fld v 0 15 ∧ fld v 0 15 ≤ 10000 ∧ 1 ≤ fld v 16 31 ∧
          fld v 16 31 ≤ 1000)
        (fun a => govLimitsWords k (govCfgOf (t a) k)) t) ∧
    AnswersWith .govFeCfg descGovFeCfg c s
      (fun a => c.params.length = 1 ∧ onlyBits h 0x1FF = true ∧ bitAt h 8 = true ∧ k ≠ 255 ∧ k < nRobots a.member)
      (fun a => govFeWords k (govCfgOf a k)) (fun a => a) ∧
    (∀ (w : Word) (t : State → State), arg c 3 = w → (∀ a, t a = modGovCfg k (fun x => { x with
          warn := fld u 0 15, fault := fld u 16 31, warnTime := fld v 0 15, faultTime := fld v 16 31,
          action := fld w 0 1 }) a) →
      AnswersWith .govFeCfg descGovFeCfg c s
        (fun a => c.params.length = 4 ∧ onlyBits h 0x1FF = true ∧ bitAt h 8 = false ∧ (k = 255 ∨ k < nRobots a.member) ∧
          onlyBits w 3 = true ∧ fld w 0 1 ≠ 3 ∧ 10 ≤ fld u 0 15 ∧ fld u 0 15 < fld u 16 31 ∧ fld v 0 15 ≤ 10000 ∧
          fld v 16 31 ≤ 10000)
        (fun a => govFeWords k (govCfgOf (t a) k)) t) ∧
    AnswersWith .govCapSet descGovCapSet c s
      (fun a => onlyBits h 0xFFFF01FF = true ∧ fld h 16 31 = 0 ∧ bitAt h 8 = true ∧ k ≠ 255 ∧
        k < nRobots a.member)
      (fun a => [wordOf (govCfgOf a k).cap]) (fun a => a) ∧
    AnswersWith .govCapSet descGovCapSet c s
      (fun a => onlyBits h 0xFFFF01FF = true ∧ bitAt h 8 = false ∧ (k = 255 ∨ k < nRobots a.member))
      (fun a => [wordOf (govCfgOf (modGovCfg k (fun x => { x with cap := fld h 16 31 }) a) k).cap])
      (modGovCfg k (fun x => { x with cap := fld h 16 31 })) ∧
    (∀ n, fld h 0 11 = n → onlyBits h 0x3FFF = true →
      AnswersWith .govGet descGovGet c s (fun a => fld h 12 13 = 0 ∧ n ≠ 255 ∧ n < nRobots a.member)
        (fun a => govRobotWords a n) (fun a => a) ∧
      AnswersWith .govGet descGovGet c s (fun a => fld h 12 13 = 1 ∧ n < nLaws a.member)
        (fun a => govSlotWords a n) (fun a => a))

/-! ### STOP commands (chapter 12) -/

/-- R36, R281, R285 to R288, R296: STOP_FLEET requests a stop of the fleet, which a standby carries out at once,
STOP_ROBOT one of a robot, on any module that serves commands, a standby too; the answers show what is now in force.
The model's own choices in it: logs 48, 132 and 203. -/
def Obligations.StopRequestsAnswer : Prop :=
  ∀ (c : Cmd) (s : State) (h : Word), arg c 0 = h →
    (∀ a t, a = arrived descStopFleet c s → t = setInput 2 0 (bitAt h 0 || decide (a.pair.role = .standby)) a →
      unhindered descStopFleet c s = true → onlyBits h 1 = true →
      exec (.stopFleet c) s = answered descStopFleet c s
        (natOfBool (decide (latched a = latched t) && decide (a.stop.controlled = t.stop.controlled)))
        [stopFlags2 t] t) ∧
    (∀ (k : Nat) (t : State → State), fld h 0 7 = k → (∀ a, t a = requestRobotStop k 5 (bitAt h 8) a) →
      AnswersWith .stopRobot descStopRobot c s
        (fun a => onlyBits h 0x1FF = true ∧ k ≠ 255 ∧ k < nRobots a.member)
        (fun a => [wordOfFields [(natOfBool (robotStopped (t a) k), 0),
          (natOfBool (match getRobotStop (t a) k with
            | some x => x.controlled
            | none => false), 1)]])
        t)

/-- R290 to R294, R297, R298: STOP_RESET is accepted where no refusal bit stands, and is applied at the next snapshot or
armed for the reset input; STOP_CFG answers the settings or keeps them for an open session's owner; STOP_GET answers
the stop state; STOP_TEST is accepted and its parts follow. The model's own choices in it: logs 134 and 135. -/
def Obligations.StopControlAnswers : Prop :=
  ∀ (c : Cmd) (s : State) (h u v w : Word), arg c 0 = h → arg c 1 = u → arg c 2 = v → arg c 3 = w →
    (∀ (k : Nat) (q : ResetReq), fld h 0 7 = k →
      q = { req := some (arrivedReq descStopReset c s), robot := k, source := 0 } →
      AcceptedWith .stopReset descStopReset c s
        (fun a => onlyBits h 0xFF = true ∧ (k = 255 ∧ a.stop.cfg.resetMode = 0 ∨ k < nRobots a.member) ∧ k ≤ 255 ∧
          (k = 255 → a.stop.cfg.resetMode = 0) ∧ refuseReset a k = 0)
        (fun a => { a with stop := { a.stop with resets := a.stop.resets ++ [q] } })) ∧
    AcceptedWith .stopReset descStopReset c s
      (fun a => onlyBits h 0xFF = true ∧ fld h 0 7 = 255 ∧ a.stop.cfg.resetMode = 2 ∧ refuseReset a 255 = 0)
      (fun a => { a with stop := { a.stop with
        armed := a.stop.armed ++ [(arrivedReq descStopReset c s, a.up + 30 * nsPerSec)] } }) ∧
    AnswersWith .stopCfg descStopCfg c s
      (fun _ => c.params.length = 1 ∧ onlyBits h 1 = true ∧ bitAt h 0 = true)
      (fun a => 0 :: stopCfgWords a.stop.cfgSet) (fun a => a) ∧
    (∀ x : StopCfg, x =
        { goTimeout := fld u 0 3, partnerEn := bitAt u 4, wdogTicks := fld u 8 15, ctrlLimit := fld u 16 31,
          discTime := fld v 0 9, resetMode := fld v 12 13, resetIn := fld v 16 19, resetInPol := bitAt v 20,
          proofInterval := fld w 0 15, autoProof := bitAt w 16 } →
      AnswersWith .stopCfg descStopCfg c s
        (fun a => c.params.length = 4 ∧ onlyBits h 1 = true ∧ bitAt h 0 = false ∧ onlyBits u 0xFFFFFF1F = true ∧
          onlyBits v 0x1F33FF = true ∧ onlyBits w 0x1FFFF = true ∧ x.resetMode ≠ 3 ∧ 2 ≤ x.goTimeout ∧
          x.goTimeout ≤ 10 ∧ 2 ≤ x.wdogTicks ∧ x.wdogTicks ≤ 64 ∧ 1 ≤ x.ctrlLimit ∧ x.ctrlLimit ≤ 600 ∧
          5 ≤ x.discTime ∧ x.discTime ≤ 1000 ∧ 1 ≤ x.proofInterval ∧ x.proofInterval ≤ 8760 ∧
          sessionOpen a c.q = true)
        (fun _ => 0 :: stopCfgWords x)
        (fun a => touchSession { a with stop := { a.stop with cfgSet := x } })) ∧
    AnswersWith .stopGet descStopGet c s (fun _ => c.params = [])
      (fun a => [stopStat a, stopSeen a] ++ words64 a.stop.stopTime ++
        [wordOf (ctrlLeft a), heldWord a 0, heldWord a 1, heldWord a 2, heldWord a 3, wordOf (refuseFleet a),
         wordOf a.stop.lastPass])
      (fun a => a) ∧
    AcceptedWith .stopTest descStopTest c s (fun a => onlyBits h 7 = true ∧ a.stop.controlled = false)
      (fun a => startProof (some (arrivedReq descStopTest c s)) (fld h 0 2) a)

/-! ### NET commands (chapter 14) -/

/-- R319 to R323, R326, R338, R340: NET_PORT_CFG answers or keeps a port's settings, answers or keeps an interface's, and
answers a port's statistics, which it starts again where CLEAR asks for it; a port with a robot in motion behind it
is not taken from it. The model's own choices in it: log 124. -/
def Obligations.NetPortCommandAnswers : Prop :=
  ∀ (c : Cmd) (s : State) (h u v w : Word) (p : Nat), arg c 0 = h → arg c 1 = u → arg c 2 = v → arg c 3 = w →
    fld h 0 3 = p →
    AnswersWith .netPortCfg descNetPortCfg c s
      (fun a => c.params.length = 1 ∧ onlyBits h 0x7F = true ∧ fld h 4 5 = 0 ∧ bitAt h 6 = true ∧
        portExists a.member p = true ∧ p ≠ 15)
      (fun a => portWords p (getPort a p).cfg) (fun a => a) ∧
    (∀ x : PortCfg, x =
        { en := bitAt u 0, blocking := bitAt u 1, learn := bitAt u 2, mode := fld u 4 6, accept := fld u 8 9,
          uzEncap := fld u 10 11, phyAddr := fld u 16 20, mdioEn := bitAt u 21, pvid := fld v 0 11, uzVid := fld v 16 27,
          maxFrame := fld w 0 13, bufCap := fld w 16 23, floodLimit := fld w 24 31 } →
      AnswersWith .netPortCfg descNetPortCfg c s
        (fun a => c.params.length = 4 ∧ onlyBits h 0x7F = true ∧ fld h 4 5 = 0 ∧ bitAt h 6 = false ∧
          portExists a.member p = true ∧ p ≠ 15 ∧
          onlyBits u 0x3F0F77 = true ∧ onlyBits v 0x0FFF0FFF = true ∧ onlyBits w 0xFFFF3FFF = true ∧ x.accept ≠ 3 ∧
          (p < 8 ∧ x.mode ≤ 5 ∧ x.bufCap ≤ 16 ∨ 8 ≤ p ∧ x.mode = 0 ∧ x.uzEncap = 3 ∧ 4 ≤ x.bufCap ∧ x.bufCap ≤ 128) ∧
          (getVlan a x.pvid).isSome = true ∧ x.uzVid ≤ 4094 ∧ 1522 ≤ x.maxFrame ∧ x.maxFrame ≤ 9220 ∧
          1 ≤ x.floodLimit ∧ x.floodLimit ≤ 100 ∧
          (p < 8 → portInUse a p = true →
            ((getPort a p).cfg.en = true → x.en = true) ∧ ((getPort a p).cfg.blocking = false → x.blocking = false) ∧
            (getPort a p).cfg.mode = x.mode ∧ (getPort a p).cfg.uzEncap = x.uzEncap ∧
            (getPort a p).cfg.uzVid = x.uzVid))
        (fun _ => portWords p x) (writePort p x)) ∧
    (∀ k, fld h 8 9 = k → AnswersWith .netPortCfg descNetPortCfg c s
      (fun _ => c.params.length = 1 ∧ onlyBits h 0x37F = true ∧ fld h 4 5 = 1 ∧ bitAt h 6 = true ∧ p = 15)
      (fun a => ifaceWords a k) (fun a => a)) ∧
    (∀ (k : Nat) (x : State → Iface) (t : State → State), fld h 8 9 = k →
      (∀ a, x a = { getIface a k with
        en := bitAt u 0, services := fld u 1 3, v4Len := fld u 8 13, v6Len := fld u 16 23, vid := fld v 0 11,
        mgmtPort := fld v 16 31, v4 := w.toNat, v6 := arg64 c 4 + 2 ^ 64 * arg64 c 6 }) →
      (∀ a, t a = { a with net := { a.net with ifaces := tabSet a.net.ifaces k (x a) } }) →
      AnswersWith .netPortCfg descNetPortCfg c s
        (fun _ => c.params.length = 8 ∧ onlyBits h 0x37F = true ∧ fld h 4 5 = 1 ∧ bitAt h 6 = false ∧ p = 15 ∧
          onlyBits u 0xFF3F0F = true ∧ onlyBits v 0xFFFF0FFF = true ∧ fld u 8 13 ≤ 32 ∧ fld u 16 23 ≤ 128 ∧
          1 ≤ fld v 0 11 ∧ fld v 0 11 ≤ 4094)
        (fun a => ifaceWords (t a) k) t) ∧
    AnswersWith .netPortCfg descNetPortCfg c s
      (fun a => c.params.length = 1 ∧ onlyBits h 0x47F = true ∧ fld h 4 5 = 2 ∧ portExists a.member p = true ∧ p ≠ 15)
      (fun a => statWordsOf (getPort a p))
      (fun a => if bitAt h 10 then modPort p (fun x => { x with stats := PortStats.zero }) a else a)

/-- R322, R323, R332, R335, R340: NET_VLAN answers, sets or deletes a VLAN, and takes no port with a robot in motion out
of its VLAN; NET_AGE_CFG and NET_QOS_CFG answer or keep their settings. The model's own choices in it: log 125. -/
def Obligations.NetVlanCommandsAnswer : Prop :=
  ∀ (c : Cmd) (s : State) (h u v : Word), arg c 0 = h → arg c 1 = u → arg c 2 = v →
    (∀ vid, fld h 0 11 = vid → onlyBits h 0x33FFF = true → 1 ≤ vid → vid ≤ 4094 →
      AnswersWith .netVlan descNetVlan c s (fun _ => c.params.length = 1 ∧ fld h 12 13 = 0)
        (fun a => vlanWords a vid) (fun a => a) ∧
      (∀ (x : Vlan) (t : State → State),
        x = { member := fld u 0 15, untag := fld u 16 31, routed := bitAt h 16, learn := bitAt h 17 } →
        (∀ a, t a = { a with net := { a.net with vlans := tabSet a.net.vlans vid x } }) →
        AnswersWith .netVlan descNetVlan c s
          (fun a => c.params.length = 2 ∧ fld h 12 13 = 1 ∧ maskOk a x.member = true ∧ maskOk a x.untag = true ∧
            vlanBreaks a vid x.member = false)
          (fun a => vlanWords (t a) vid) t) ∧
      (∀ t : State → State, (∀ a, t a = { a with net := { a.net with vlans := tabDel a.net.vlans vid } }) →
        AnswersWith .netVlan descNetVlan c s
          (fun a => c.params.length = 1 ∧ fld h 12 13 = 2 ∧ vlanBreaks a vid 0 = false ∧
            (∀ p < 10, portExists a.member p = true → (getPort a p).cfg.pvid ≠ vid) ∧
            (∀ k < 4, (getIface a k).vid ≠ vid))
          (fun a => vlanWords (t a) vid) t)) ∧
    AnswersWith .netAgeCfg descNetAgeCfg c s
      (fun _ => c.params.length = 1 ∧ onlyBits h 1 = true ∧ bitAt h 0 = true)
      (fun a => [0, wordOf a.net.ageTime, wordOf a.net.holdoff]) (fun a => a) ∧
    AnswersWith .netAgeCfg descNetAgeCfg c s
      (fun _ => c.params.length = 3 ∧ onlyBits h 1 = true ∧ bitAt h 0 = false ∧ onlyBits v 0xFFFF = true ∧
        (u.toNat = 0 ∨ 10 ≤ u.toNat ∧ u.toNat ≤ 1000000) ∧ fld v 0 15 ≤ 10000)
      (fun _ => [0, wordOf u.toNat, wordOf (fld v 0 15)])
      (fun a => { a with net := { a.net with ageTime := u.toNat, holdoff := fld v 0 15 } }) ∧
    (∀ p, fld h 0 3 = p →
      AnswersWith .netQosCfg descNetQosCfg c s
        (fun a => c.params.length = 1 ∧ onlyBits h 0xF31F = true ∧ fld h 8 9 ≠ 3 ∧ bitAt h 4 = true ∧
          portExists a.member p = true ∧ p ≠ 15)
        (fun a => qosWords p (getPort a p).qos) (fun a => a) ∧
      (∀ x : QosCfg, x =
          { trust := fld h 8 9, defPrio := fld h 12 14, highOk := bitAt h 15, pcpMap := mapOf u.toNat 8,
            dscpMap := mapOf (arg64 c 2 + 2 ^ 64 * arg64 c 4 + 2 ^ 128 * arg64 c 6) 64 } →
        AnswersWith .netQosCfg descNetQosCfg c s
          (fun a => c.params.length = 8 ∧ onlyBits h 0xF31F = true ∧ fld h 8 9 ≠ 3 ∧ bitAt h 4 = false ∧
            onlyBits u 0xFFFFFF = true ∧ portExists a.member p = true ∧ p ≠ 15)
          (fun _ => qosWords p x) (modPort p (fun y => { y with qos := x }))))

/-- R327, R328, R330: NET_FDB_ADD puts a static entry into a free way of its bucket or over its own, deletes a static
entry, or flushes dynamic ones; NET_FDB_GET looks an address up, lists the table in its order, or lists the robots.
The model's own choices in it: logs 123 and 174. -/
def Obligations.NetFdbCommandsAnswer : Prop :=
  ∀ (c : Cmd) (s : State) (h u v : Word) (vid mac : Nat), arg c 0 = h → arg c 1 = u → arg c 2 = v →
    mac = u.toNat + 2 ^ 32 * fld v 0 15 →
    (∀ (ports : Nat) (x : State → Nat → FdbEntry), fld h 0 11 = vid → fld v 16 31 = ports →
      (∀ a w, x a w = { mac := mac, vid := vid, way := w, static := true, drop := bitAt h 16, ports := ports,
                        hitAt := a.now, movedAt := a.now, moves := 0 }) →
      (∀ y, AnswersWith .netFdbAdd descNetFdbAdd c s
        (fun a => onlyBits h 0x13FFF = true ∧ fld h 12 13 = 0 ∧ (isGroup mac = true ∨ maskCount ports = 1) ∧ 1 ≤ vid ∧
          vid ≤ 4094 ∧ maskOk a ports = true ∧ findFdb a mac vid = some y ∧
          (y.static = true ∨ (a.net.fdb.filter (fun e => e.static)).length < 1024))
        (fun _ => [1]) (fun a => putFdb (x a y.way) a)) ∧
      (∀ w, AnswersWith .netFdbAdd descNetFdbAdd c s
        (fun a => onlyBits h 0x13FFF = true ∧ fld h 12 13 = 0 ∧ (isGroup mac = true ∨ maskCount ports = 1) ∧ 1 ≤ vid ∧
          vid ≤ 4094 ∧ maskOk a ports = true ∧ findFdb a mac vid = none ∧ freeWay a mac vid = some w ∧
          (a.net.fdb.filter (fun e => e.static)).length < 1024)
        (fun _ => [1]) (fun a => setFdb (a.net.fdb ++ [x a w]) a)) ∧
      (∀ y, AnswersWith .netFdbAdd descNetFdbAdd c s
        (fun a => onlyBits h 0x13FFF = true ∧ fld h 12 13 = 1 ∧ 1 ≤ vid ∧ vid ≤ 4094 ∧ maskOk a ports = true ∧
          findFdb a mac vid = some y ∧ y.static = true)
        (fun _ => [1]) (fun a => setFdb (a.net.fdb.filter (fun e => !(decide (e.mac = mac) && decide (e.vid = vid)))) a)) ∧
      (∀ hit : FdbEntry → Bool, (∀ e, hit e = (!e.static && (decide (vid = 0) || decide (e.vid = vid)) &&
          (decide (ports = 0) || Nat.testBit ports (portOfMask e.ports)))) →
        AnswersWith .netFdbAdd descNetFdbAdd c s
          (fun a => onlyBits h 0x13FFF = true ∧ fld h 12 13 = 2 ∧ mac = 0 ∧ vid ≤ 4094 ∧ maskOk a ports = true)
          (fun a => [wordOf (a.net.fdb.filter hit).length])
          (fun a => setFdb (a.net.fdb.filter (fun e => !hit e)) a))) ∧
    (fld h 16 27 = vid → AnswersWith .netFdbGet descNetFdbGet c s
      (fun _ => onlyBits h 0x0FFF0003 = true ∧ fld h 0 1 = 0 ∧ onlyBits v 0xFFFF = true ∧ 1 ≤ vid ∧ vid ≤ 4094)
      (fun a => fdbHead a (natOfBool (findFdb a mac vid).isSome) 0 ++ ((findFdb a mac vid).map (fdbWords a)).getD [])
      (fun a => a)) ∧
    (∀ (k n : Nat) (l : State → List FdbEntry), fld u 0 12 = k → fld u 16 23 = n →
      (∀ a, l a = (a.net.fdb.foldr insertPlace []).filter (fun e => decide (k ≤ fdbPlace e))) →
      AnswersWith .netFdbGet descNetFdbGet c s
        (fun _ => h = 1 ∧ v = 0 ∧ onlyBits u 0xFF1FFF = true ∧ 1 ≤ n ∧ n ≤ 128)
        (fun a => fdbHead a ((l a).take n).length ((((l a).drop n).head?.map fdbPlace).getD 0) ++
          ((l a).take n).flatMap (fdbWords a))
        (fun a => a)) ∧
    (∀ (k : Nat) (n : State → Nat), fld u 0 7 = k → (∀ a, n a = min (fld u 8 15) (nRobots a.member - k)) →
      AnswersWith .netFdbGet descNetFdbGet c s
        (fun a => h = 2 ∧ v = 0 ∧ onlyBits u 0xFFFF = true ∧ k < nRobots a.member ∧ 1 ≤ fld u 8 15)
        (fun a => fdbHead a (n a) (if k + n a < nRobots a.member then k + n a else 0) ++
          (List.range (n a)).flatMap (fun i => robotEntryWords a (k + i)))
        (fun a => a))

/-- R333, R340: NET_ROUTE_ADD puts a route in the place of one with the same prefix or adds it where the table has room,
and NET_ROUTE_DEL deletes one; both answer the counts. The model's own choices in it: log 123. -/
def Obligations.NetRouteCommandsAnswer : Prop :=
  ∀ (c : Cmd) (s : State) (h : Word) (v6 : Bool) (len : Nat), arg c 0 = h → bitAt h 0 = v6 → fld h 8 15 = len →
    (∀ (pfx : Nat) (x : RouteEntry) (one : State → State) (more : State → State),
      pfx = (if v6 then arg64 c 3 + 2 ^ 64 * arg64 c 5 else (arg c 3).toNat) →
      x = { v6 := v6, len := len, pfx := pfx, vid := fld h 16 27, mac := (arg c 1).toNat + 2 ^ 32 * fld (arg c 2) 0 15 } →
      (∀ a, one a = { a with net := { a.net with
          routes := a.net.routes.map (fun y => if sameRoute v6 len pfx y then x else y) } }) →
      (∀ a, more a = { a with net := { a.net with routes := a.net.routes ++ [x] } }) →
      AnswersWith .netRouteAdd descNetRouteAdd c s
        (fun a => c.params.length = (if v6 then 7 else 4) ∧ onlyBits h 0x0FFFFF01 = true ∧
          onlyBits (arg c 2) 0xFFFF = true ∧ len ≤ ipBits v6 ∧ prefixClean v6 len pfx = true ∧
          (∃ y, getVlan a (fld h 16 27) = some y ∧ y.routed = true) ∧ a.net.routes.any (sameRoute v6 len pfx) = true)
        (fun a => routeReply (one a)) one ∧
      AnswersWith .netRouteAdd descNetRouteAdd c s
        (fun a => c.params.length = (if v6 then 7 else 4) ∧ onlyBits h 0x0FFFFF01 = true ∧
          onlyBits (arg c 2) 0xFFFF = true ∧ len ≤ ipBits v6 ∧ prefixClean v6 len pfx = true ∧
          (∃ y, getVlan a (fld h 16 27) = some y ∧ y.routed = true) ∧ a.net.routes.any (sameRoute v6 len pfx) = false ∧
          routeCount a v6 < (if v6 then 1024 else 4096) ∧
          (∀ held, held = (a.net.routes.filter (fun y => decide (y.v6 = v6) && decide (y.len = len))).map (fun y => y.pfx) →
            held = [] ∨ Config.routeBucketFull v6 len pfx held = false))
        (fun a => routeReply (more a)) more) ∧
    (∀ (pfx : Nat) (t : State → State),
      pfx = (if v6 then arg64 c 1 + 2 ^ 64 * arg64 c 3 else (arg c 1).toNat) →
      (∀ a, t a = { a with net := { a.net with routes := a.net.routes.filter (fun y => !sameRoute v6 len pfx y) } }) →
      AnswersWith .netRouteDel descNetRouteDel c s
        (fun a => c.params.length = (if v6 then 5 else 2) ∧ onlyBits h 0xFF01 = true ∧ len ≤ ipBits v6 ∧
          prefixClean v6 len pfx = true ∧ a.net.routes.any (sameRoute v6 len pfx) = true)
        (fun a => routeReply (t a)) t)

/-! ### TIME commands (chapter 15) -/

/-- R345, R351, R352, R370: TIME_GET answers the figures of the time base; TIME_SOURCE_CFG and SERVO_CFG answer what was
last written or keep a write for the evaluation that follows; SERVO_CFG also loads an inactive coefficient set or
asks for the swap of one. The model's own choices in it: logs 117, 120, 202 and 210. -/
def Obligations.TimeServoCommandsAnswer : Prop :=
  ∀ (c : Cmd) (s : State) (h u v w x : Word), arg c 0 = h → arg c 1 = u → arg c 2 = v → arg c 3 = w → arg c 4 = x →
    AnswersWith .timeGet descTimeGet c s (fun _ => c.params = [])
      (fun a => words64 a.now ++ [wordOf (timeStat a), wordOf (uint 16 a.time.utcOffset), thetaWord a,
        wordOfInt a.time.freq, wordOfInt a.time.slew, uncWord a,
        wordOf (if a.time.holdover then a.time.holdSecs else 0),
        wordOf (if a.time.selected = 2 ∨ a.time.selected = 3 then a.time.mpd else 0),
        wordOfInt ((servoLaw a 3).uPrev * 1000)])
      (fun a => a) ∧
    AnswersWith .timeSourceCfg descTimeSourceCfg c s
      (fun _ => c.params.length = 1 ∧ onlyBits h 1 = true ∧ bitAt h 0 = true) srcWords (fun a => a) ∧
    (∀ (l : List Nat) (t : State → State), l = [fld u 0 2, fld u 4 6, fld u 8 10, fld u 12 14] →
      (∀ a, t a = { a with time := { a.time with
        srcSet := { list := l, revertive := bitAt u 16, qualTime := fld v 0 7, wtr := fld v 8 23, bootWait := fld v 24 31 },
        refRetry := if bitAt u 17 then some ((a.now / nsPerSec + 1) * nsPerSec) else a.time.refRetry } }) →
      AnswersWith .timeSourceCfg descTimeSourceCfg c s
        (fun a => c.params.length = 3 ∧ onlyBits h 1 = true ∧ bitAt h 0 = false ∧ onlyBits u 0x37777 = true ∧
          5 ∉ l ∧ distinctCodes l = true ∧ (∀ i ∈ l, i = 0 ∨ sourceExists a i = true) ∧ 1 ≤ fld v 0 7 ∧ fld v 8 23 ≤ 3600)
        (fun a => srcWords (t a)) t) ∧
    (∀ (j : Nat) (hd : State → Word), fld h 4 5 = j →
      (∀ a, hd a = wordOfFields [(fld h 0 1, 0), (j, 4), (natOfBool (servoLaw a j).activeB, 8),
        (natOfBool (servoLaw a j).swap, 9)]) → onlyBits h 0x37 = true →
      AnswersWith .servoCfg descServoCfg c s (fun _ => c.params.length = 1 ∧ fld h 0 1 = 0 ∧ bitAt h 2 = true)
        (fun a => hd a :: servoWords { a.time.servoSet with
          ageing := max a.time.servoSet.ageing a.health.margins.ageing }) (fun a => a) ∧
      (∀ y : ServoCfg, y =
          { capture := fld u 0 15, stepThr := fld u 16 31, ride := fld v 0 16, slewMax := fld v 20 23,
            asymAuto := bitAt v 24, asymStep := fld w 0 15, asymMpd := fld w 16 31, asymHold := fld x 0 15,
            ageing := fld x 16 31 } →
        AnswersWith .servoCfg descServoCfg c s
          (fun _ => c.params.length = 5 ∧ fld h 0 1 = 0 ∧ bitAt h 2 = false ∧ onlyBits v 0x1F1FFFF = true ∧
            10 ≤ y.capture ∧ 1 ≤ y.stepThr ∧ 10 ≤ y.ride ∧ y.ride ≤ 100000 ∧ 1 ≤ y.slewMax ∧ y.slewMax ≤ 10 ∧
            10 ≤ y.asymStep ∧ 10 ≤ y.asymMpd ∧ 10 ≤ y.asymHold)
          (fun a => hd a :: servoWords { y with ageing := max y.ageing a.health.margins.ageing })
          (fun a => { a with time := { a.time with servoSet := y } })) ∧
      AnswersWith .servoCfg descServoCfg c s (fun _ => c.params.length = 1 ∧ fld h 0 1 = 1 ∧ bitAt h 2 = true)
        (fun a => hd a :: coefWords (inactiveSet (servoLaw a j))) (fun a => a) ∧
      (∀ (y : CoefSet) (t : State → State), y = coefPar (arrivedReq descServoCfg c s) 1 →
        (∀ a, t a = setServoLaw j (setInactive y (servoLaw a j)) a) →
        AnswersWith .servoCfg descServoCfg c s
          (fun a => c.params.length = 10 ∧ fld h 0 1 = 1 ∧ bitAt h 2 = false ∧ onlyBits x 0x1F1F1F = true ∧
            y.rMax ≤ 0x7FFFFFFF ∧ (servoLaw a j).swap = false)
          (fun a => hd (t a) :: coefWords y) t) ∧
      AnswersWith .servoCfg descServoCfg c s (fun _ => c.params.length = 1 ∧ fld h 0 1 = 2 ∧ bitAt h 2 = true)
        (fun a => [hd a, wordOf (servoPending a)]) (fun a => a) ∧
      (∀ t : State → State, (∀ a, t a = setServoLaw j { servoLaw a j with swap := true } a) →
        AnswersWith .servoCfg descServoCfg c s
          (fun a => c.params.length = 1 ∧ fld h 0 1 = 2 ∧ bitAt h 2 = false ∧ (servoLaw a j).swap = false)
          (fun a => [hd (t a), wordOf (servoPending (t a))]) t))

/-- R344, R354, R360, R361, R370: TIME_SET, PPS_CFG and TIME_MODE are accepted and wait for a whole second of device
time; PPS_CFG's read form and a TIME_MODE that asks for the mode already on are answered at once. The model's own
choices in it: logs 120 and 122. -/
def Obligations.PpsAlignedCommandsAnswer : Prop :=
  ∀ (c : Cmd) (s : State) (h u v w : Word), arg c 0 = h → arg c 1 = u → arg c 2 = v → arg c 3 = w →
    AcceptedWith .timeSet descTimeSet c s
      (fun a => onlyBits h 3 = true ∧ fld h 0 1 = 0 ∧ w = 0 ∧ arg64 c 1 % nsPerSec = 0 ∧ anySpindleActive a = false ∧
        (a.time.raw = true ∨ a.time.selected = 0))
      (waitPps (arrivedReq descTimeSet c s)) ∧
    AcceptedWith .timeSet descTimeSet c s
      (fun a => onlyBits h 3 = true ∧ fld h 0 1 = 1 ∧ arg64 c 1 = 0 ∧ onlyBits w 0x3FFFF = true ∧ fld w 16 17 ≠ 3 ∧
        a.time.utcDecoded = false)
      (waitPps (arrivedReq descTimeSet c s)) ∧
    AcceptedWith .timeSet descTimeSet c s
      (fun a => onlyBits h 3 = true ∧ fld h 0 1 = 2 ∧ w = 0 ∧ (a.time.raw = true ∨ a.time.selected = 0) ∧
        ((sarg64 c 1).natAbs ≤ rideNs a ∨ anySpindleActive a = false))
      (waitPps (arrivedReq descTimeSet c s)) ∧
    AnswersWith .ppsCfg descPpsCfg c s
      (fun _ => c.params.length = 1 ∧ onlyBits h 1 = true ∧ bitAt h 0 = true)
      (fun a => ppsWords (ppsInForce a)) (fun a => a) ∧
    AcceptedWith .ppsCfg descPpsCfg c s
      (fun _ => c.params.length = 4 ∧ onlyBits h 1 = true ∧ bitAt h 0 = false ∧ onlyBits u 0xFFFF07FF = true ∧
        fld u 0 1 ≠ 3 ∧ fld u 5 6 ≤ 1 ∧ fld u 8 10 ≤ 4 ∧ 1 ≤ fld u 16 31 ∧ fld u 16 31 ≤ 50000 ∧
        -100000000 ≤ v.toInt ∧ v.toInt ≤ 100000000 ∧ -100000000 ≤ w.toInt ∧ w.toInt ≤ 100000000)
      (waitPps (arrivedReq descPpsCfg c s)) ∧
    AnswersWith .timeMode descTimeMode c s (fun a => onlyBits h 1 = true ∧ bitAt h 0 = a.time.raw)
      (fun _ => [wordOf (natOfBool (bitAt h 0))]) (fun a => a) ∧
    AcceptedWith .timeMode descTimeMode c s
      (fun a => onlyBits h 1 = true ∧ bitAt h 0 = false ∧ a.time.raw = true)
      (waitPps (arrivedReq descTimeMode c s)) ∧
    AcceptedWith .timeMode descTimeMode c s
      (fun a => onlyBits h 1 = true ∧ bitAt h 0 = true ∧ a.time.raw = false ∧ anySpindleActive a = false ∧
        latched a = true)
      (waitPps (arrivedReq descTimeMode c s))

/-- R362 to R368, R467: PTP_CFG answers or keeps the module's PTP settings, answers what was last written of a port or
keeps a write of it for the servo's next evaluation, and answers a port's counters, which it starts again where CLEAR
asks for it. The model's own choices in it: logs 121 and 201. -/
def Obligations.PtpCommandAnswers : Prop :=
  ∀ (c : Cmd) (s : State) (h u v : Word) (n : Nat), arg c 0 = h → arg c 1 = u → arg c 2 = v → fld h 8 11 = n →
    AnswersWith .ptpCfg descPtpCfg c s
      (fun _ => c.params.length = 1 ∧ onlyBits h 7 = true ∧ fld h 0 1 = 0 ∧ bitAt h 2 = true)
      (fun a => ptpWords0 a.time.ptpSet) (fun a => a) ∧
    (∀ x : PtpCfg, x =
        { fleetDomain := fld u 0 7, srcDomain := fld u 8 15, prio1 := fld u 16 23, prio2 := fld u 24 31,
          logSync := sfld v 0 3, logAnnounce := fld v 4 7, logMinDreq := sfld v 8 11, logPdreq := sfld v 12 15,
          annTimeout := fld v 16 19 } →
      AnswersWith .ptpCfg descPtpCfg c s
        (fun _ => c.params.length = 3 ∧ onlyBits h 7 = true ∧ fld h 0 1 = 0 ∧ bitAt h 2 = false ∧
          onlyBits v 0xFFFFF = true ∧ x.fleetDomain ≠ x.srcDomain ∧ x.fleetDomain ≤ 127 ∧ x.srcDomain ≤ 127 ∧
          -7 ≤ x.logSync ∧ x.logSync ≤ 1 ∧ x.logAnnounce ≤ 4 ∧ -7 ≤ x.logMinDreq ∧ x.logMinDreq ≤ 5 ∧
          -7 ≤ x.logPdreq ∧ x.logPdreq ≤ 5 ∧ 2 ≤ x.annTimeout ∧ x.annTimeout ≤ 10)
        (fun _ => ptpWords0 x) (fun a => { a with time := { a.time with ptpSet := x } })) ∧
    AnswersWith .ptpCfg descPtpCfg c s
      (fun a => c.params.length = 1 ∧ onlyBits h 0xF07 = true ∧ fld h 0 1 = 1 ∧ bitAt h 2 = true ∧
        portExists a.member n = true ∧ n ≤ 9)
      (fun a => ptpWords1 n (tabGet (ptpPortsSet a.time) n (PtpPort.init n))) (fun a => a) ∧
    (∀ x : PtpPortCfg, x =
        { tcMode := fld u 0 1, oneStep := bitAt u 2, fleet := bitAt u 3, src := bitAt u 4, delayMech := fld u 5 5,
          transport := fld u 6 7, asym := v.toInt } →
      AnswersWith .ptpCfg descPtpCfg c s
        (fun a => c.params.length = 3 ∧ onlyBits h 0xF07 = true ∧ fld h 0 1 = 1 ∧ bitAt h 2 = false ∧
          onlyBits u 0xFF = true ∧ fld u 0 1 ≠ 3 ∧ fld u 6 7 ≠ 3 ∧ portExists a.member n = true ∧ n ≤ 9 ∧
          (bitAt u 4 = true → 8 ≤ n))
        (fun a => ptpWords1 n ((getPtpPort a n).withCfg x))
        (fun a => { a with time := { a.time with ptpActs := a.time.ptpActs ++ [(n, x)] } })) ∧
    AnswersWith .ptpCfg descPtpCfg c s
      (fun a => c.params.length = 1 ∧ onlyBits h 0x1F07 = true ∧ fld h 0 1 = 2 ∧ portExists a.member n = true ∧ n ≤ 9)
      (fun a => ptpWords2 (getPtpPort a n))
      (fun a => if bitAt h 12 then setPtpPort n { getPtpPort a n with
          syncSent := 0, syncRcvd := 0, reqs := 0, announces := 0, corrected := 0 } a
        else a)

/-! ### REC commands (chapter 16) -/

/-- R381 to R383: REC_CFG answers the recorder's figures, answers an event's limit or keeps it; REC_MARK answers a read
mark or sets it; REC_SNAPSHOT answers a snapshot, opens it over the audit ring or closes it. The model's own choices
in it: log 129. -/
def Obligations.RecSettingsAnswer : Prop :=
  ∀ (c : Cmd) (s : State) (h u : Word), arg c 0 = h → arg c 1 = u →
    (∀ (code : Nat) (ws : State → List Word), fld h 0 15 = code →
      (∀ a, ws a = [wordOfFields [(code, 0), (natOfBool (auditCode code), 18)],
        wordOf (if auditCode code then 0 else limitOf a code),
        wordOf ((a.rec_.suppressed.filter (fun x => decide (x.code = code))).foldl (fun n x => addCnt32 n x.count) 0)]) →
      AnswersWith .recCfg descRecCfg c s
        (fun _ => c.params.length = 1 ∧ onlyBits h 0x3FFFF = true ∧ fld h 16 17 = 0) ws (fun a => a) ∧
      (∀ t : State → State, (∀ a, t a = { a with rec_ := { a.rec_ with
          limits := tabSet a.rec_.limits code (fld u 0 15) } }) →
        AnswersWith .recCfg descRecCfg c s
          (fun _ => c.params.length = 2 ∧ onlyBits h 0x3FFFF = true ∧ fld h 16 17 = 1 ∧ onlyBits u 0xFFFF = true ∧
            auditCode code = false ∧ (fld u 0 15 ≠ 0xFFFF ∨ neverRecorded code = false))
          (fun a => ws (t a)) t)) ∧
    AnswersWith .recCfg descRecCfg c s
      (fun _ => c.params.length = 1 ∧ onlyBits h 0x3FFFF = true ∧ fld h 16 17 = 2)
      (fun a => [wordOf (firstSeq a.rec_.audit), wordOf a.rec_.audit.lastSeq, wordOf (ringBytes a.rec_.audit),
        wordOf (firstSeq a.rec_.diag), wordOf a.rec_.diag.lastSeq, wordOf (ringBytes a.rec_.diag), wordOf a.rec_.opTime,
        wordOf a.rec_.cycles,
        wordOfFields [(min a.rec_.audOverflows 0xFFFF, 0), (a.rec_.diagFifo.length, 16), (a.rec_.audFifo.length, 24)]])
      (fun a => a) ∧
    (∀ (k : Nat) (m : State → RMark) (t : State → State), fld h 0 2 = k → onlyBits h 0x137 = true →
      (∀ a, t a = { a with rec_ := { a.rec_ with marks := a.rec_.marks.set k (m a) } }) →
      ((∀ a, m a = getMark a k) → AnswersWith .recMark descRecMark c s
        (fun _ => c.params.length = 1 ∧ fld h 4 5 = 0)
        (fun a => [h, wordOf (m a).seq, wordOf (natOfBool (markHeld (t a) (m a)))]) t) ∧
      ((∀ a, m a = { audit := bitAt h 8, valid := true,
                     seq := if (getRing a (bitAt h 8)).recs = [] then seqNext (getRing a (bitAt h 8)).lastSeq
                       else firstSeq (getRing a (bitAt h 8)) }) →
        AnswersWith .recMark descRecMark c s (fun _ => c.params.length = 1 ∧ fld h 4 5 = 1)
          (fun a => [h, wordOf (m a).seq, wordOf (natOfBool (markHeld (t a) (m a)))]) t) ∧
      ((∀ a, m a = { audit := bitAt h 8, valid := true, seq := seqNext (getRing a (bitAt h 8)).lastSeq }) →
        AnswersWith .recMark descRecMark c s (fun _ => c.params.length = 1 ∧ fld h 4 5 = 2)
          (fun a => [h, wordOf (m a).seq, wordOf (natOfBool (markHeld (t a) (m a)))]) t) ∧
      ((∀ a, m a = { audit := bitAt h 8, valid := true, seq := u.toNat }) →
        AnswersWith .recMark descRecMark c s
          (fun a => c.params.length = 2 ∧ fld h 4 5 = 3 ∧ ∃ x ∈ (getRing a (bitAt h 8)).recs, x.seq = u.toNat)
          (fun a => [h, wordOf (m a).seq, wordOf (natOfBool (markHeld (t a) (m a)))]) t)) ∧
    (∀ (k : Nat) (n : State → Snap) (t : State → State), fld h 0 1 = k → onlyBits h 0x33 = true →
      (∀ a, t a = { a with rec_ := { a.rec_ with snaps := a.rec_.snaps.set k (n a) } }) →
      (fld h 4 5 = 0 ∧ (∀ a, n a = getSnap a k) ∨
        fld h 4 5 = 1 ∧ (∀ a f, f = (if a.rec_.audit.recs = [] then seqNext a.rec_.audit.lastSeq else firstSeq a.rec_.audit) →
          n a = { open_ := true, ended := false, first := f, last := a.rec_.audit.lastSeq, next := f }) ∨
        fld h 4 5 = 2 ∧ (∀ a, n a = { getSnap a k with open_ := false, ended := false })) →
      AnswersWith .recSnapshot descRecSnapshot c s (fun _ => True)
        (fun a => [wordOf (h.toNat + 256 * natOfBool (n a).open_), wordOf (n a).first, wordOf (n a).last,
          wordOf (n a).next])
        t)

/-- R372, R383, R384: REC_READ answers records from a mark, or of an open snapshot, and moves it on; REC_WRITE makes a
host record in its ring while its limit allows; REC_ERASE empties a ring, invalidates its marks, ends the snapshots
of an erased audit ring, and raises its event. The model's own choices in it: logs 129, 130 and 188. -/
def Obligations.RecRecordsAnswer : Prop :=
  ∀ (c : Cmd) (s : State) (h u : Word), arg c 0 = h → arg c 1 = u →
    (∀ (k n : Nat) (av got : State → List Rec) (reply : State → Nat → List Word), fld h 1 3 = k → fld h 8 15 = n →
      onlyBits h 0xFF0F = true → 1 ≤ n → c.net = none → (∀ a, got a = takeRecs n 4090 (av a)) →
      (∀ a f, reply a f = [wordOfFields [((got a).length, 0), (natOfBool (!((av a).drop (got a).length).isEmpty), 8)],
        wordOf f, 0] ++ (got a).flatMap recWords) →
      (∀ next : State → Nat, (∀ a, av a = recsFrom (getRing a (getMark a k).audit).recs (getMark a k).seq) →
        (∀ a, next a = (((got a).getLast?).map (fun x => seqNext x.seq)).getD (getMark a k).seq) →
        AnswersWith .recRead descRecRead c s (fun a => bitAt h 0 = false ∧ markHeld a (getMark a k) = true)
          (fun a => reply a (next a))
          (fun a => { a with rec_ := { a.rec_ with
            marks := a.rec_.marks.set k { getMark a k with seq := next a, valid := true } } })) ∧
      (∀ (next : State → Nat) (b : State → Snap), (∀ a, b a = getSnap a k) →
        (∀ a, av a = if (b a).next = seqNext (b a).last then []
          else (recsFrom a.rec_.audit.recs (b a).next).filter
            (fun x => decide (seqDist (b a).first x.seq ≤ seqDist (b a).first (b a).last))) →
        (∀ a, next a = (((got a).getLast?).map (fun x => seqNext x.seq)).getD (b a).next) →
        AnswersWith .recRead descRecRead c s (fun a => bitAt h 0 = true ∧ k ≤ 3 ∧ (b a).open_ = true ∧ (b a).ended = false)
          (fun a => reply a (next a))
          (fun a => { a with rec_ := { a.rec_ with snaps := a.rec_.snaps.set k { b a with next := next a } } }))) ∧
    (∀ (code n : Nat) (cls : Bool) (e : State → Staged) (t : State → State), code = 0x8000 + fld h 0 7 →
      bitAt h 8 = cls → fld u 0 15 = n →
      (∀ a, e a = { code := code, host := true, timeRaw := a.time.raw,
                    payload := leBytes (arrivedReq descRecWrite c s).stamp 8 ++ leBytes (fld h 16 31) 2 ++ [0, 0] ++
                      (wordBytes (c.params.drop 2)).take n }) →
      (∀ a, t a = commit cls (e a) (drained (countOccurrence code a).2)) →
      ∀ a, a = arrived descRecWrite c s → unhindered descRecWrite c s = true →
        c.params.length = 2 + ceilDiv n 4 → onlyBits h 0xFFFF01FF = true → onlyBits u 0xFFFF = true →
        (cls = true → sessionOpen a c.q = true) →
        (limitOf a code = 0 ∨ limitOf a code ≠ 0xFFFF ∧ (countOccurrence code a).1 ≤ limitOf a code) →
        exec (.recWrite c) s = answered descRecWrite c s (natOfBool (decide (1008 < 12 + n)))
          [wordOf (getRing (if cls then touchSession (t a) else t a) cls).lastSeq]
          (if cls then touchSession (t a) else t a)) ∧
    (∀ (cls : Bool) (b t : State → State), bitAt h 0 = cls → (∀ a, b a = drained a) →
      (∀ a d, d = setRing cls { getRing (b a) cls with recs := [] } (b a) →
        t a = raise 0x0B02 (natOfBool cls) [wordOf (firstSeq (getRing (b a) cls)), wordOf (getRing (b a) cls).lastSeq] .all
          { d with rec_ := { d.rec_ with
            marks := d.rec_.marks.map (fun m => if m.audit = cls then { m with valid := false } else m),
            snaps := if cls then
                d.rec_.snaps.map (fun x => if x.open_ then { x with open_ := false, ended := true } else x)
              else d.rec_.snaps } }) →
      AnswersWith .recErase descRecErase c s
        (fun a => onlyBits h 1 = true ∧ (cls = true → sessionOpen a c.q = true))
        (fun a => [wordOf (firstSeq (getRing (b a) cls)), wordOf (getRing (b a) cls).lastSeq])
        (fun a => if cls then touchSession (t a) else t a))

/-! ### PAIR commands (chapter 17) -/

/-- R402, R405, R406: PAIR_CFG answers the settings of the pair or keeps them for an open session's owner, and makes or
ends the pair; PAIR_GET answers its state; PAIR_SWITCH asks the active module to hand over; PAIR_SELFTEST_CFG answers
or keeps the share and the mask of the standby's tests. The model's own choices in it: log 150. -/
def Obligations.PairCommandsAnswer : Prop :=
  ∀ (c : Cmd) (s : State) (h u : Word), arg c 0 = h → arg c 1 = u →
    AnswersWith .pairCfg descPairCfg c s (fun _ => c.params.length = 1 ∧ onlyBits h 1 = true ∧ bitAt h 0 = true)
      (fun a => 0 :: pairCfgWords a) (fun a => a) ∧
    (∀ (b t : State → State), (∀ a, b a = modPair (fun p => { p with
          prefer := bitAt u 1, switchTicks := fld u 4 5, auto := bitAt u 8, mac := arg64 c 2 }) (touchSession a)) →
      (∀ a, t a = if bitAt u 0 = a.pair.en then b a
        else if bitAt u 0 = true then setRole .active (modPair (fun p => { p with en := true }) (b a))
        else becomeLone (b a)) →
      AnswersWith .pairCfg descPairCfg c s
        (fun a => c.params.length = 4 ∧ onlyBits h 1 = true ∧ bitAt h 0 = false ∧ onlyBits u 0x133 = true ∧
          onlyBits (arg c 3) 0xFFFF = true ∧ fld u 4 5 < a.stop.cfgSet.wdogTicks ∧ arg64 c 2 % 4 = 2 ∧ 1 ≤ fld u 4 5 ∧
          fld u 4 5 ≤ 3 ∧
          (bitAt u 0 = false → a.pair.en = true → a.pair.role = .active → anySpindleActive a = false) ∧
          (bitAt u 0 = true → a.pair.en = false → a.pair.actIn = false) ∧ sessionOpen a c.q = true)
        (fun a => 0 :: pairCfgWords (t a)) t) ∧
    AnswersWith .pairGet descPairGet c s (fun _ => c.params = [])
      (fun a => [wordOf (pairWord3 a), wordOf a.pair.lastMirror, wordOf a.pair.mirrorBytes,
        wordOf (if a.pair.role = .standby then healthWord a % 256 else a.pair.health), wordOf a.pair.partnerFw,
        wordOfInt (sat32 (-(getSource a 5).theta)), wordOf a.pair.switches, wordOf a.pair.lastSwitch,
        wordOf a.pair.lastGap, wordOf a.pair.cover, wordOf a.pair.selftestFaults])
      (fun a => a) ∧
    AcceptedWith .pairSwitch descPairSwitch c s
      (fun a => onlyBits h 1 = true ∧ a.pair.role = .active ∧ a.pair.laneUp = true ∧
        (a.pair.partnerReady = true ∨ bitAt h 0 = true))
      (fun a => modPair (fun p => { p with
        switchReqs := p.switchReqs ++ [arrivedReq descPairSwitch c s], switchAfter := a.tick.number }) a) ∧
    AnswersWith .pairSelftestCfg descPairSelftestCfg c s
      (fun _ => c.params.length = 1 ∧ onlyBits h 1 = true ∧ bitAt h 0 = true)
      (fun a => [0, wordOfFields [(a.pair.share, 0), (a.pair.mask, 16)], wordOf a.pair.cover]) (fun a => a) ∧
    AnswersWith .pairSelftestCfg descPairSelftestCfg c s
      (fun _ => c.params.length = 2 ∧ onlyBits h 1 = true ∧ bitAt h 0 = false ∧ onlyBits u 0x7F00FF = true ∧
        1 ≤ fld u 0 7 ∧ fld u 0 7 ≤ 50)
      (fun a => [0, wordOfFields [(fld u 0 7, 0), (fld u 16 22, 16)], wordOf a.pair.cover])
      (modPair (fun p => { p with share := fld u 0 7, mask := fld u 16 22 }))

/-! ### UPD commands (chapter 18) -/

/-- R413, R416, R417, R420, R421: UPD_OPEN opens a session on an erased staging bank; UPD_HEADER keeps a header that
passes its checks; UPD_DATA keeps the next piece of the payload; UPD_VERIFY starts the check; UPD_CONFIRM makes the
new firmware permanent; UPD_ABORT ends an update or takes a trial back; UPD_GET answers where the update stands. The
model's own choices in it: logs 138 and 140. -/
def Obligations.UpdCommandsAnswer : Prop :=
  ∀ (c : Cmd) (s : State) (h : Word), arg c 0 = h →
    (∀ (n : State → Nat) (b : State → State), (∀ a, n a = (a.upd.session + 1) % 65536) →
      (∀ a, b a = setBank (staging a) { hdr := [], payload := [], valid := false } a) →
      AnswersWith .updOpen descUpdOpen c s (fun a => c.params = [] ∧ a.upd.state = .idle)
        (fun a => [wordOf (n a)])
        (fun a => raise 0x0D00 c.q [wordOf (n a)] .all (setUpd .open_ { b a with
          upd := { (b a).upd with owner := c.q, session := n a, next := 0, lastUse := (b a).up } }))) ∧
    (∀ (own : State → Prop), (∀ a, own a ↔ onlyBits h 0xFFFF = true ∧ h.toNat = a.upd.session) →
      (∀ (hdr : List Byte) (t : State → State), hdr = wordBytes (c.params.drop 1) →
        (∀ a, t a = setBank (staging a) { hdr := hdr, payload := [], valid := false } (touchUpd a)) →
        AnswersWith .updHeader descUpdHeader c s
          (fun a => own a ∧ a.upd.state = .open_ ∧
            imageChecks a.member (svnFloor a) (bankVersion (runBank a)) hdr = none ∧ handoverOk (runBank a).hdr hdr = true)
          (fun _ => [wordOf (natOfBool (isForerunner hdr))])
          (fun a => setUpd .headerOk { t a with upd := { (t a).upd with next := 0 } })) ∧
      (∀ (data : List Byte) (off n : Nat) (t : State → State), data = wordBytes (c.params.drop 2) →
        off = (arg c 1).toNat → n = off + data.length →
        (∀ a, t a = setBank (staging a) { getBank a (staging a) with payload := (getBank a (staging a)).payload ++ data }
          (touchUpd a)) →
        AnswersWith .updData descUpdData c s
          (fun a => own a ∧ a.upd.state = .headerOk ∧ off = a.upd.next ∧ n ≤ hdrPayloadLen (getBank a (staging a)).hdr)
          (fun _ => [wordOf n]) (fun a => { t a with upd := { (t a).upd with next := n } })) ∧
      AcceptedWith .updVerify descUpdVerify c s
        (fun a => own a ∧ a.upd.state = .headerOk ∧ a.upd.next = hdrPayloadLen (getBank a (staging a)).hdr)
        (fun a => setUpd .verifying { a with upd := { (touchUpd a).upd with
          verifyReq := some (arrivedReq descUpdVerify c s) } }) ∧
      (∀ (floor : State → Nat) (t : State → State),
        (∀ a, floor a = if isForerunner (runBank a).hdr then svnFloor a else max (svnFloor a) (hdrSvn (runBank a).hdr)) →
        (∀ a, t a = raise 0x0D05 0 [wordOf (hdrVersion (runBank a).hdr), wordOf (floor a)] .all
          (writeAct { confirmedRec a a.upd.runB with svnFloor := floor a } a)) →
        AnswersWith .updConfirm descUpdConfirm c s (fun a => own a ∧ a.upd.state = .trial)
          (fun a => [wordOf (floor a)])
          (fun a => setUpd .idle { t a with upd := { (t a).upd with prevHeld := false } })) ∧
      AnswersWith .updAbort descUpdAbort c s
        (fun a => own a ∧ (a.upd.state ∈ [UpdState.open_, .headerOk, .verifying, .verified] ∨
          a.upd.state = .activating ∧ a.upd.recordAt = none))
        (fun _ => [0]) (abortUpd 0) ∧
      AnswersWith .updAbort descUpdAbort c s (fun a => own a ∧ a.upd.state = .trial)
        (fun _ => [7]) (fun a => startRevert 2 (touchUpd a))) ∧
    AnswersWith .updGet descUpdGet c s (fun _ => c.params = []) updGetWords
      (fun a => if a.upd.state ≠ .idle ∧ a.upd.owner = c.q then touchUpd a else a)

/-- R415, R418: UPD_ACTIVATE starts the activation of a verified image: its event goes out; a forerunner image is then
recorded and the module is to restart, and another image's takeover waits for the idle bank. The model's own choices
in it: log 139. -/
def Obligations.UpdActivateAnswers : Prop :=
  ∀ (c : Cmd) (s : State) (h : Word) (sec : Nat), arg c 0 = h → (arg c 1).toNat = sec →
    (∀ (hdr : State → List Byte) (t u : State → State), (∀ a, hdr a = (getBank a (staging a)).hdr) →
      (∀ a, t a = raise 0x0D03 (natOfBool (isForerunner (hdr a))) [wordOf (hdrVersion (hdr a)), wordOf sec] .all
        { a with upd := { (touchUpd a).upd with
          confirmS := sec, activateReq := some (arrivedReq descUpdActivate c s), attempts := 0, recordAt := none } }) →
      (∀ a, u a = writeAct (trialRec (t a)) (t a)) →
      AcceptedWith .updActivate descUpdActivate c s
        (fun a => onlyBits h 0xFFFF = true ∧ h.toNat = a.upd.session ∧ 60 ≤ sec ∧ sec ≤ 86400 ∧
          a.upd.state = .verified ∧ a.sys.boot = .ready ∧
          (isForerunner (hdr a) = true → latched a = true ∧ anySpindleActive a = false))
        (fun a => if isForerunner (hdr a) = true
          then setUpd .activating { u a with upd := { (u a).upd with revertRestart := true, recordAt := some (u a).now } }
          else setUpd .activating { t a with upd := { (t a).upd with window := true } }))

/-! ### SEC commands (chapters 07, 18 and 19) -/

/-- R423, R426, R428: SEC_ATTEST answers a signed report, the public key or a piece of the certificate chain; SEC_ACL_GET
answers region descriptors; SEC_ACL_SET, an open session's, writes, invalidates or restores them and raises its
event. The model's own choices in it: logs 17 and 137. -/
def Obligations.SecTableCommandsAnswer : Prop :=
  ∀ (c : Cmd) (s : State) (h : Word), arg c 0 = h →
    (∀ (m : Nat) (ws : State → List Word), m = (if fld h 8 15 = 0 then 255 else fld h 8 15) →
      (∀ a, ws a = reportWords m (arg64 c 1 + 2 ^ 64 * arg64 c 3) a) →
      AnswersWith .secAttest descSecAttest c s
        (fun _ => c.params.length = 5 ∧ onlyBits h 0xFF03 = true ∧ fld h 0 1 = 0)
        (fun a => ws a ++ bytesWords (beBytes (Config.attestSig (wordBytes (ws a))).toNat 96)) (fun a => a)) ∧
    AnswersWith .secAttest descSecAttest c s
      (fun _ => c.params.length = 1 ∧ onlyBits h 3 = true ∧ fld h 0 1 = 1)
      (fun _ => bytesWords (beBytes Config.attestPub.toNat 97)) (fun a => a) ∧
    (∀ off n, (arg c 1).toNat = off → n = min 1024 (Config.certLen.val - off) →
      AnswersWith .secAttest descSecAttest c s
        (fun _ => c.params.length = 2 ∧ onlyBits h 3 = true ∧ fld h 0 1 = 2 ∧ off % 4 = 0 ∧ off < Config.certLen.val)
        (fun _ => [wordOf Config.certLen.val, wordOf n] ++ bytesWords (certBytes off n)) (fun a => a)) ∧
    (∀ t i, fld h 0 15 = t → fld h 16 19 = i → targetExists t = true →
      (∀ n, fld h 20 24 = n → AnswersWith .secAclGet descSecAclGet c s
        (fun _ => onlyBits h 0x1FFFFFF = true ∧ 1 ≤ n ∧ n ≤ 16 ∧ i + n ≤ 16)
        (fun a => h :: (((descsOf a t).drop i).take n).flatMap descWords) (fun a => a)) ∧
      (∀ (op : Nat) (l : State → List AclDesc) (ws : State → List Word), fld h 20 21 = op →
        (∀ a, ws a = descWords (getDesc (setDescs t (l a) a) t i)) → onlyBits h 0x3FFFFF = true →
        (∀ x : AclDesc, x = { base := (arg c 1).toNat, limit := (arg c 2).toNat, perm := fld (arg c 3) 0 29,
                              valid := bitAt (arg c 3) 30, lock := false } →
          (∀ a, l a = (descsOf a t).set i x) → AnswersWith .secAclSet descSecAclSet c s
            (fun a => c.params.length = 4 ∧ op = 0 ∧ x.base ≤ x.limit ∧ bitAt (arg c 3) 31 = false ∧
              sessionOpen a c.q = true ∧ (getDesc a t i).lock = false)
            (fun a => h :: ws a)
            (fun a => raise 0x0E02 i (wordOf t :: ws a) .all (touchSession (setDescs t (l a) a)))) ∧
        ((∀ a, l a = (descsOf a t).set i { getDesc a t i with valid := false }) →
          AnswersWith .secAclSet descSecAclSet c s
            (fun a => c.params.length = 1 ∧ op = 1 ∧ sessionOpen a c.q = true ∧ (getDesc a t i).lock = false)
            (fun a => h :: ws a)
            (fun a => raise 0x0E02 (i + 16) (wordOf t :: ws a) .all (touchSession (setDescs t (l a) a)))) ∧
        ((∀ a, l a = defaultDescs t) → AnswersWith .secAclSet descSecAclSet c s
          (fun a => c.params.length = 1 ∧ op = 2 ∧ sessionOpen a c.q = true ∧ ∀ d ∈ descsOf a t, d.lock = false)
          (fun a => h :: ws a)
          (fun a => raise 0x0E02 (i + 32) (wordOf t :: ws a) .all (touchSession (setDescs t (l a) a))))))

/-- R186, R189, R430 to R432: SEC_ROBOT_KEY answers a robot's keys, gives or takes its root key, asks for new session
keys, or keeps the fleet's settings; SEC_CFG_SESSION answers the configuration session, draws a nonce, opens the
session on the right proof, closes it, and sets or erases keys. The model's own choices in it: logs 103 and 136. -/
def Obligations.SecKeyCommandsAnswer : Prop :=
  ∀ (c : Cmd) (s : State) (h u : Word), arg c 0 = h → arg c 1 = u →
    (∀ (r : Nat), fld h 0 7 = r → onlyBits h 0x7FF = true →
      AnswersWith .secRobotKey descSecRobotKey c s
        (fun a => c.params.length = 1 ∧ fld h 8 10 = 0 ∧ (r = 255 ∨ r < nRobots a.member)) (fun a => robotKeyWords a r)
        (fun a => a) ∧
      (∀ (key : Nat) (t : State → State), key = arg64 c 1 + 2 ^ 64 * arg64 c 3 →
        (∀ a, t a = touchSession (setLink r { getLink a r with rootKey := some key, sess := .keyed } a)) →
        AnswersWith .secRobotKey descSecRobotKey c s
          (fun a => c.params.length = 5 ∧ fld h 8 10 = 1 ∧ r ≠ 255 ∧ r < nRobots a.member ∧ sessionOpen a c.q = true ∧
            (getLink a r).sess ≠ .joining ∧ (getLink a r).sess ≠ .active)
          (fun _ => []) (fun a => raise 0x0E10 r [wordOf (getLink a r).keyEpoch] .all (t a))) ∧
      (∀ t : State → State, (∀ a, t a = endSession r 2 (touchSession (modLink r (fun l => { l with rootKey := none }) a))) →
        AnswersWith .secRobotKey descSecRobotKey c s
          (fun a => c.params.length = 1 ∧ fld h 8 10 = 2 ∧ r ≠ 255 ∧ r < nRobots a.member ∧ sessionOpen a c.q = true ∧
            (spinActive (getSpindle a r) = false ∨ latched a = true ∨ robotStopped a r = true))
          (fun _ => []) (fun a => raise 0x0E10 (r + 256) [wordOf (getLink a r).keyEpoch] .all (t a))) ∧
      (∀ f : Nat × Link → Nat × Link,
        (∀ k l, f (k, l) = if (r = 255 ∨ k = r) ∧ l.sess = .active ∧ l.rekey = none then (k, { l with rekeyDue := true })
          else (k, l)) →
        AnswersWith .secRobotKey descSecRobotKey c s
          (fun a => c.params.length = 1 ∧ fld h 8 10 = 3 ∧ (r = 255 ∨ r < nRobots a.member ∧ sessActive a r = true))
          (fun _ => []) (fun a => { a with uz := { a.uz with robots := a.uz.robots.map f } })) ∧
      AnswersWith .secRobotKey descSecRobotKey c s
        (fun _ => c.params.length = 2 ∧ fld h 8 10 = 4 ∧ r = 255 ∧ 1 ≤ fld u 0 7 ∧ fld u 0 7 ≤ 168 ∧ 1 ≤ fld u 8 15 ∧
          fld u 16 31 ≤ 5000)
        (fun _ => []) (fun a => { a with uz := { a.uz with
          rekeyH := fld u 0 7, sessTimeout := fld u 8 15, dueGrace := fld u 16 31 } })) ∧
    AnswersWith .secCfgSession descSecCfgSession c s (fun _ => c.params.length = 1 ∧ h = 0)
      (fun a => sessionWords (touchOwner c.q a) 0) (touchOwner c.q) ∧
    AnswersWith .secCfgSession descSecCfgSession c s
      (fun a => c.params.length = 1 ∧ onlyBits h 7 = true ∧ fld h 0 2 = 1 ∧ a.session.key.isSome = true ∧
        a.session.lockedUntil ≤ a.up)
      (fun a => sessionWords (challenge c.q a).1 (challenge c.q a).2) (fun a => (challenge c.q a).1) ∧
    (∀ t : State → State, (∀ a, t a = raise 0x0E01 0 [wordOf a.session.session, wordOf c.q] .all
        { a with session := { a.session with phase := 2, lastUse := a.up } }) →
      AnswersWith .secCfgSession descSecCfgSession c s
        (fun a => c.params.length = 3 ∧ onlyBits h 0xFFFF0007 = true ∧ fld h 0 2 = 2 ∧
          fld h 16 31 = a.session.session ∧ nonceValid a = true ∧ a.session.owner = c.q ∧ a.session.lockedUntil ≤ a.up ∧
          proofOf (a.session.key.getD 0) a.session.nonce a.session.session a.session.master = arg64 c 1)
        (fun a => sessionWords (t a) 0) t) ∧
    AnswersWith .secCfgSession descSecCfgSession c s
      (fun a => c.params.length = 1 ∧ onlyBits h 0xFFFF0007 = true ∧ fld h 0 2 = 3 ∧ fld h 16 31 = a.session.session ∧
        sessionOpen a c.q = true)
      (fun a => sessionWords (closeSession 1 a) 0) (closeSession 1) ∧
    (∀ (key : Nat) (t : State → State), key = arg64 c 1 + 2 ^ 64 * arg64 c 3 →
      (∀ a, t a = raise 0x0E03 0 [0] .all (touchOwner c.q { a with session := { a.session with key := some key } })) →
      AnswersWith .secCfgSession descSecCfgSession c s
        (fun a => c.params.length = 5 ∧ onlyBits h 7 = true ∧ fld h 0 2 = 4 ∧
          (a.session.key = none ∨ sessionOpen a c.q = true))
        (fun a => sessionWords (t a) 0) t) ∧
    (∀ (k : Nat) (x : MgmtKey) (t : State → State), fld h 8 9 = k → onlyBits h 0x307 = true →
      (∀ a, t a = raise 0x0E03 (if fld h 0 2 = 5 then 1 else 2) [wordOf k] .all
        (touchOwner c.q { a with mgmt := a.mgmt.set k x })) →
      (x = { MgmtKey.init with key := some (arg64 c 1 + 2 ^ 64 * arg64 c 3) } ∧ c.params.length = 5 ∧ fld h 0 2 = 5 ∨
        x = MgmtKey.init ∧ c.params.length = 1 ∧ fld h 0 2 = 6) →
      AnswersWith .secCfgSession descSecCfgSession c s (fun a => sessionOpen a c.q = true)
        (fun a => sessionWords (t a) 0) t)

/-! ### SCHED and HEALTH commands (chapters 13 and 19) -/

/-- R305, R316 to R318: SCHED_GET answers the tick's figures, the creel's or a core's, and starts them again where CLEAR
asks for it; SCHED_JOB_DEFINE answers a host job, defines one, deletes, arms or disarms it. The model's own choices
in it: logs 40 and 41. -/
def Obligations.SchedCommandsAnswer : Prop :=
  ∀ (c : Cmd) (s : State) (h u : Word), arg c 0 = h → arg c 1 = u →
    (onlyBits h 0x10F03 = true →
      AnswersWith .schedGet descSchedGet c s (fun _ => fld h 0 1 = 0) schedTickWords
        (fun a => if bitAt h 16 then clearTickStats a else a) ∧
      AnswersWith .schedGet descSchedGet c s (fun _ => fld h 0 1 = 1) creelWords
        (fun a => if bitAt h 16
          then { a with sched := { a.sched with peaks := List.replicate 8 0, waits := List.replicate 8 0 } } else a) ∧
      (∀ k, fld h 8 11 = k → AnswersWith .schedGet descSchedGet c s (fun a => fld h 0 1 = 2 ∧ k < nCores a.member)
        (fun a => coreWords a k)
        (fun a => if bitAt h 16
          then setCore k { getCore a k with jobsRun := 0, waitMax := 0, ovrTotal := 0, revoked := 0 } a else a))) ∧
    (∀ j, fld h 0 4 = j → onlyBits h 0x71F = true →
      AnswersWith .schedJobDefine descSchedJobDefine c s
        (fun a => c.params.length = 1 ∧ fld h 8 10 = 0 ∧ j < nHostJobs a.member)
        (fun a => jobWords j (getHostJob a j) ++ ((getHostJob a j).defn.map defnWords).getD [0, 0, 0]) (fun a => a) ∧
      (∀ (d : State → HostJobDef) (x : State → HostJob) (r : Req), r = arrivedReq descSchedJobDefine c s →
        (∀ a, d a = { trigger := fld u 0 1, deps := fld u 4 7, rearm := bitAt u 8, stopOnFail := bitAt u 9,
                      eventCode := fld u 16 31, periodTicks := fld (arg c 2) 0 15, succMask := (arg c 3).toNat,
                      packet := c.params.drop 4, queue := c.q, epoch := r.epoch }) →
        (∀ a, x a = { getHostJob a j with defn := some (d a), counter := 0 }) →
        AnswersWith .schedJobDefine descSchedJobDefine c s
          (fun a => fld h 8 10 = 1 ∧ c.params.length = 4 + fld (arg c 4) 0 15 ∧ 2 ≤ fld (arg c 4) 0 15 ∧
            fld (arg c 4) 0 15 ≤ 64 ∧ fld u 0 1 ≠ 3 ∧ onlyBits u 0xFFFF03F3 = true ∧
            onlyBits (arg c 2) 0xFFFF = true ∧ (reqOfWords c.q r.epoch (c.params.drop 4) none).at_ = false ∧
            storedOk (reqOfWords c.q r.epoch (c.params.drop 4) none) a = true ∧ j < nHostJobs a.member ∧
            (fld u 0 1 = 2 → 0 < fld (arg c 2) 0 15) ∧ (arg c 3).toNat < 2 ^ nHostJobs a.member ∧
            (getHostJob a j).armed = false)
          (fun a => jobWords j (x a)) (fun a => setHostJob j (x a) a)) ∧
      AnswersWith .schedJobDefine descSchedJobDefine c s
        (fun a => c.params.length = 1 ∧ fld h 8 10 = 2 ∧ j < nHostJobs a.member ∧ (getHostJob a j).armed = false)
        (fun _ => jobWords j HostJob.init) (setHostJob j HostJob.init) ∧
      (∀ (d : HostJobDef) (x : State → HostJob),
        (∀ a, x a = if (getHostJob a j).armed then getHostJob a j else armJob d a.up (getHostJob a j)) →
        AnswersWith .schedJobDefine descSchedJobDefine c s
          (fun a => c.params.length = 1 ∧ fld h 8 10 = 3 ∧ j < nHostJobs a.member ∧ (getHostJob a j).defn = some d)
          (fun a => jobWords j (x a)) (fun a => setHostJob j (x a) a)) ∧
      (∀ x : State → HostJob, (∀ a, x a = { getHostJob a j with armed := false, ready := false }) →
        AnswersWith .schedJobDefine descSchedJobDefine c s
          (fun a => c.params.length = 1 ∧ fld h 8 10 = 4 ∧ j < nHostJobs a.member)
          (fun a => jobWords j (x a)) (fun a => setHostJob j (x a) a)))

/-- R433, R434, R436, R437: HEALTH_GET answers the summary or a memory's counts; SELFTEST_RUN starts the tests asked for
and completes with them; MARGIN_GET answers the margins. The model's own choices in it: logs 147 and 148. -/
def Obligations.HealthCommandsAnswer : Prop :=
  ∀ (c : Cmd) (s : State) (h : Word), arg c 0 = h →
    AnswersWith .healthGet descHealthGet c s (fun _ => h = 0) healthSummary (fun a => a) ∧
    AnswersWith .healthGet descHealthGet c s
      (fun _ => onlyBits h 0xF01 = true ∧ fld h 0 0 = 1 ∧ fld h 8 11 ≤ 10) (fun a => healthMemory a (fld h 8 11))
      (fun a => a) ∧
    AcceptedWith .selftestRun descSelftestRun c s (fun _ => onlyBits h 0x7F = true)
      (fun a => { a with health := { a.health with
        selftest := some (arrivedReq descSelftestRun c s, testMask (fld h 0 6)), selftestAt := a.up } }) ∧
    AnswersWith .marginGet descMarginGet c s (fun _ => c.params = [])
      (fun a => [wordOfFields [(a.health.margins.replans % 65536, 0), (a.health.margins.cause, 16)]] ++ marginWords a ++
        [wordOf (natOfBool a.health.margins.exhausted), wordOf (uint 16 a.health.lidTempMax)])
      (fun a => a)

/-! ### The host port's own rows (chapter 03) -/

/-- R65 to R67, R69, R70, R74, R75: a word written to an enabled queue pair with credit joins its open entry, and the
fourth closes it; without credit it is dropped and flagged, and a pair not enabled only counts it; a doorbell closes
the entry and shows all of it to the interpreter; a 64-bit read takes the next word of the event side; CTRL.RESET
empties the pair; a pointer's unequal copies empty it too; an access that the pair's descriptors do not allow the
host is denied and has no other effect (R27, R28, R429). The model's own choices in it: logs 5, 22, 23, 24, 160, 170,
171, 172 and 180. -/
def Obligations.PortAccessesRun : Prop :=
  ∀ (q dt : Nat) (s a b : State) (x z : Queue), q < 16 → a = begin_ dt s → queServed a q = true → x = getQ a q →
    b = beginInput dt s → queServed b q = true → z = getQ b q →
    (aclAllows a 1 1 (256 * q) 2 = true → ∀ (w : Word) (n : QueCounters) (y : CmdSide), qEnabled x = true →
      n = { x.cnt with wordsTaken := min (x.cnt.wordsTaken + 1) 0xFFFFFFFF } →
      y = { x.cmd with
            wordsTaken := x.cmd.wordsTaken + 1, strandAt := some a.up,
            wm := markLevel x.cmd.wm x.wmCmdCfg (cmdLevel x) (cmdLevel x + 1) } →
      x.cmd.wordsTaken ≠ x.cmd.credLimit →
      (x.cmd.open_.length ≠ 3 → exec (.writePortWrite q w true none dt) s =
        .next (setQ q { x with cnt := n, cmd := { y with open_ := x.cmd.open_ ++ [w] } } a)) ∧
      (x.cmd.open_.length = 3 → exec (.writePortWrite q w true none dt) s =
        .next (setQ q { x with
          cnt := n, cmd := { y with open_ := [], inv := x.cmd.inv ++ [.entry 4 (x.cmd.open_ ++ [w])] } } a))) ∧
    (aclAllows a 1 1 (256 * q) 2 = true → ∀ (w : Word) (y : Queue), qEnabled x = true →
      x.cmd.wordsTaken = x.cmd.credLimit → x.cmd.dropping = true →
      y = { x with
            cnt := { x.cnt with credViol := min (x.cnt.credViol + 1) 0xFFFFFFFF },
            cmd := { x.cmd with strandAt := some a.up }, credViol := true, occ := occInc x.occ 0 } →
      exec (.writePortWrite q w true none dt) s = .next (setInt 18 (setQ q y a))) ∧
    (aclAllows a 1 1 (256 * q) 2 = true → ∀ (w : Word) (ok : Bool) (y : Queue), qEnabled x = false →
      y = { x with
            cnt := { x.cnt with disabledWrites := min (x.cnt.disabledWrites + 1) 0xFFFFFFFF },
            cmd := { x.cmd with strandAt := some a.up } } →
      exec (.writePortWrite q w ok none dt) s =
        .next (setQ q (if ok then y else { y with wrFmt := true, occ := occInc x.occ 1 }) a)) ∧
    (aclAllows b 1 1 (256 * q) 2 = true → qEnabled z = false → exec (.doorbellWrite ⟨q, none⟩ dt) s =
      .next (settle (setQ q { z with cnt := { z.cnt with disabledWrites := min (z.cnt.disabledWrites + 1) 0xFFFFFFFF } } b))) ∧
    (aclAllows a 1 1 (256 * q) 2 = true → ∀ w, qEnabled x = true → exec (.writePortWrite q w false none dt) s =
      .next (setQ q { x with cmd := { x.cmd with strandAt := some a.up }, wrFmt := true, occ := occInc x.occ 1 } a)) ∧
    (aclAllows b 1 1 (256 * q) 2 = true → ∀ y : CmdSide, qEnabled z = true → y = { z.cmd with
        vis := z.cmd.vis ++ z.cmd.inv ++ (if z.cmd.open_ = [] then [] else [.entry z.cmd.open_.length z.cmd.open_]) ++ [.bell],
        inv := [], open_ := [], dropping := false } →
      exec (.doorbellWrite ⟨q, none⟩ dt) s = .next (settle (runInterp descOf q (setQ q { z with cmd := y } b)))) ∧
    (aclAllows a 1 1 (256 * q) 1 = true → ∀ w r, x.evt.words = w :: r → x.push = false →
      exec (.readPortRead q true none dt) s =
        .next (emit (.readData (w.word.toNat + 2 ^ 32 + natOfBool w.sop * 2 ^ 33 + natOfBool w.eop * 2 ^ 34 +
          min r.length 0xFFFFFF * 2 ^ 40)) (setQ q { x with evt := { x.evt with words := r } } a))) ∧
    (aclAllows a 1 1 (256 * q) 1 = true → x.evt.words = [] ∨ x.push = true →
      exec (.readPortRead q true none dt) s = .next (emit (.readData 0) a)) ∧
    (aclAllows a 1 1 (256 * q) 1 = true → exec (.readPortRead q false none dt) s =
      .next (emit (.readData 0) (setQ q { x with rdFmt := true, occ := occInc x.occ 2 } a))) ∧
    (aclAllows a 1 1 (256 * q) 2 = true → exec (.queReset q dt) s = .next (setQ q { x with
      faulted := false, cmd := { CmdSide.init with wm := x.cmd.wm }, evt := { EvtSide.init with wm := x.evt.wm } } a)) ∧
    (∀ k w ok wide, k ≤ 4 →
      (aclAllows a 1 1 (256 * q) 2 = true → x.faulted = false →
        exec (.writePortWrite q w ok (some k) dt) s = .next (pointerFault q k a)) ∧
      (aclAllows b 1 1 (256 * q) 2 = true → z.faulted = false →
        exec (.doorbellWrite ⟨q, some k⟩ dt) s = .next (pointerFault q k b)) ∧
      (aclAllows a 1 1 (256 * q) 1 = true → x.faulted = false →
        exec (.readPortRead q wide (some k) dt) s = .next (emit (.readData 0) (pointerFault q k a)))) ∧
    (∀ k w ok wide, (∀ n, k = some n → n ≤ 4) →
      (aclAllows a 1 1 (256 * q) 2 = false →
        exec (.writePortWrite q w ok k dt) s = .next (deny 1 1 (256 * q) 2 a) ∧
        exec (.queReset q dt) s = .next (deny 1 1 (256 * q) 2 a)) ∧
      (aclAllows b 1 1 (256 * q) 2 = false → exec (.doorbellWrite ⟨q, k⟩ dt) s = .next (deny 1 1 (256 * q) 2 b)) ∧
      (aclAllows a 1 1 (256 * q) 1 = false →
        exec (.readPortRead q wide k dt) s = .next (emit (.readData 0) (deny 1 1 (256 * q) 1 a))))

/-- R63, R73, R76, R77, R81, R369: ones written to a W1C register clear its flags but for those that set in the same
cycle; reading occurrence counters returns and clears them; a watermark's flag is cleared with the level; SYS_RESET's
key acts as SOFT_RESET; TIME_SNAP captures device time; an access that BAR0 does not take sets its flag; a register
write goes to its block; what the block's descriptors do not allow the host is denied (R27, R429). The model's own
choices in it: logs 28, 29, 32, 33, 160, 172 and 180. -/
def Obligations.RegisterAccessesRun : Prop :=
  ∀ (dt : Nat) (s a : State), a = begin_ dt s → busServed a = true →
    (aclAllows a 1 0 0x10 2 = true → ∀ m n, exec (.w1cFlagClear .sysErr m n dt) s =
      .next (let b := (bitsOf 4 n).foldl (fun b i => setSysErr i b) a
             { b with sys := { b.sys with err := w1c b.sys.err m n } })) ∧
    (aclAllows a 1 3 4 2 = true → ∀ m n, exec (.w1cFlagClear .stop m n dt) s =
      .next (let b := (bitsOf 5 n).foldl (fun b i => setStopFlag i b) a
             { b with stop := { b.stop with flags := w1c b.stop.flags m n } })) ∧
    (aclAllows a 1 4 0x10 2 = true → ∀ m n, exec (.w1cFlagClear .time m n dt) s =
      .next (let b := (bitsOf 4 n).foldl (fun b i => setTimeFlag i b) a
             { b with time := { b.time with flags := w1c b.time.flags m n } })) ∧
    (∀ q m, q < 16 → queServed a q = true → aclAllows a 1 1 (256 * q + 4) 2 = true →
      exec (.w1cFlagClear (.que q) m 0 dt) s =
        .next ((bitsOf 6 m).foldl (fun b i => modQ q (fun x => putQueFlag (queFlagOf i) false x) b) a)) ∧
    (aclAllows a 1 2 0 2 = true → ∀ m n, exec (.w1cFlagClear .int m n dt) s = .next (clearInt m n a) ∧
      exec (.intStatClear m n dt) s = .next (clearInt m n a)) ∧
    (aclAllows a 1 2 0 2 = true → ∀ k, 16 ≤ k → k < 23 → exec (.intStatClear (2 ^ k) 0 dt) s = .next { a with intStat := a.intStat.set k false }) ∧
    (∀ q, q < 16 → queServed a q = true → aclAllows a 1 1 (256 * q + 4) 2 = true → ∀ x, x = getQ a q →
      exec (.watermarkFlagClear q true none dt) s =
        .next (setQ q { x with evt := { x.evt with wm := { flag := false, peak := x.evt.words.length, xcnt := 0 } } } a) ∧
      exec (.watermarkFlagClear q false none dt) s =
        .next (setQ q { x with cmd := { x.cmd with wm := { flag := false, peak := cmdLevel x, xcnt := 0 } } } a) ∧
      ∀ n, exec (.watermarkFlagClear q true (some n) dt) s =
          .next (setQ q { x with evt := { x.evt with wm := { flag := true, peak := n, xcnt := 1 } } } a) ∧
        exec (.watermarkFlagClear q false (some n) dt) s =
          .next (setQ q { x with cmd := { x.cmd with wm := { flag := true, peak := n, xcnt := 1 } } } a)) ∧
    (∀ n0 n1 n2 n3, aclAllows a 1 0 0x14 1 = true → a.sys.errOcc = [n0, n1, n2, n3] → exec (.occCounterRead .sysErr 0 0 dt) s =
      .next (emit (.readData (n0 + 256 * n1 + 65536 * n2 + 16777216 * n3))
        { a with sys := { a.sys with errOcc := [0, 0, 0, 0] } })) ∧
    (∀ reg w n, (∀ q, reg = .que q → q < 16 ∧ queServed a q = true) →
      (aclAllows a 1 (flagTarget reg).1 ((flagTarget reg).2 + 4 + 4 * w) 1 = true →
        exec (.occCounterRead reg w n dt) s = .next (readOcc reg w n a)) ∧
      (aclAllows a 1 (flagTarget reg).1 ((flagTarget reg).2 + 4 + 4 * w) 1 = false →
        exec (.occCounterRead reg w n dt) s =
          .next (emit (.readData 0) (deny 1 (flagTarget reg).1 ((flagTarget reg).2 + 4 + 4 * w) 1 a)))) ∧
    (∀ reg m n, (∀ q, reg = .que q → q < 16 ∧ queServed a q = true) →
      aclAllows a 1 (flagTarget reg).1 (flagTarget reg).2 2 = false →
      exec (.w1cFlagClear reg m n dt) s = .next (deny 1 (flagTarget reg).1 (flagTarget reg).2 2 a)) ∧
    (∀ v, aclAllows a 1 0 0x1C 2 = false → exec (.sysResetWrite v dt) s = .next (deny 1 0 0x1C 2 a)) ∧
    (∀ v, aclAllows a 1 0 0x1C 2 = true → v % 65536 ≠ 0x5AFE → exec (.sysResetWrite v dt) s = .next a) ∧
    (∀ v f r, aclAllows a 1 0 0x1C 2 = true → v % 65536 = 0x5AFE →
      r = { Req.none with op := 0x004, q := 0, len := 3, params := [0x5AFE], stamp := a.now } →
      headerChecks descSoftReset r a = .error f → f.status ≠ .denied →
      exec (.sysResetWrite v dt) s = .next { a with sys := { a.sys with resetResult := 2 } }) ∧
    (∀ v r b p, aclAllows a 1 0 0x1C 2 = true → v % 65536 = 0x5AFE →
      r = { Req.none with op := 0x004, q := 0, len := 3, params := [0x5AFE], stamp := a.now } →
      headerChecks descSoftReset r a = .ok () → gatedBody descSoftReset r a = .ok (b, p) →
      exec (.sysResetWrite v dt) s = .next (settle { b with sys := { b.sys with resetResult := 1 } })) ∧
    (aclAllows a 1 4 0 1 = true → exec (.timeSnapRead dt) s =
      .next (emit (.readData (a.now % nsPerSec)) { a with time := { a.time with snap := a.now } })) ∧
    (∀ fmt isRead, exec (.barAccessFault fmt isRead dt) s =
      .next (if isRead then emit (.readData 0) (setSysErr (if fmt then 0 else 1) a)
        else setSysErr (if fmt then 0 else 1) a)) ∧
    (∀ off v k, off < 0x10000 → (∀ n, k = some n → n ≤ 4) →
      exec (.registerWrite off ⟨v, k⟩ dt) s = .next (writeBar0 off (wordOf v) k a)) ∧
    (∀ off v, off < 0x8000 → off % 4 = 0 → aclAllows a 1 (barTarget off).1 (barTarget off).2 2 = false →
      exec (.registerWrite off ⟨v, none⟩ dt) s = .next (deny 1 (barTarget off).1 (barTarget off).2 2 a)) ∧
    (∀ v, (aclAllows a 1 0 0x18 2 = true →
        exec (.registerWrite 0x18 ⟨v, none⟩ dt) s = .next { a with sys := { a.sys with scratch := wordOf v } }) ∧
      (aclAllows a 1 2 4 2 = true → exec (.registerWrite 0x2004 ⟨v, none⟩ dt) s = .next { a with intEn := wordOf v })) ∧
    (∀ q v x, q < 16 → queServed a q = true → aclAllows a 1 1 (256 * q) 2 = true → x = getQ a q →
      bitAt (wordOf v) 2 = false →
      exec (.registerWrite (0x1000 + 0x100 * q) ⟨v, none⟩ dt) s = .next (setQ q { x with
        en := bitAt (wordOf v) 0, push := if x.en then x.push else bitAt (wordOf v) 1,
        strand := min 10000 (max 1 (fld (wordOf v) 16 29)) } a))

/-- R34, R43, R56 to R60, R68, R71 to R73, R370: the strand timer shows what was written and discards an incomplete
packet; a held command is taken once its longest response has room; a packet that waits is placed once it has room; a
whole packet goes into the ring in host memory; coalescing sets its interrupt; a chained command follows its
predecessor; an execute-at command runs at its time and a PPS-aligned one at its second; a management datagram that
its interface serves is taken. The model's own choices in it: logs 19, 20, 25, 27, 34, 37, 160, 173, 175 and 176. -/
def Obligations.HostTimersRun : Prop :=
  ∀ (q dt : Nat) (s : State), q < 16 →
    (∀ (t : Nat) (a b : State) (y : CmdSide), (getQ s q).cmd.strandAt = some t → queServed s q = true →
      a = beginUp (t + (getQ s q).strand * 10000) s →
      y = { (getQ a q).cmd with
        vis := (getQ a q).cmd.vis ++ (getQ a q).cmd.inv ++
          (if (getQ a q).cmd.open_ = [] then [] else [.entry (getQ a q).cmd.open_.length (getQ a q).cmd.open_]),
        inv := [], open_ := [], strandAt := none } →
      b = runInterp descOf q (setQ q { getQ a q with cmd := y } a) →
      ((getQ b q).cmd.held ≠ none ∨ (getQ b q).cmd.part = [] → exec (.strandTimeout ⟨q, none⟩) s = .next (settle b)) ∧
      ((getQ b q).cmd.held = none → (getQ b q).cmd.part ≠ [] → exec (.strandTimeout ⟨q, none⟩) s =
        .next (settle (discardPart q (setQueFlag q .strandDisc
          (countQ q (fun n => { n with strandDisc := cnt32 n.strandDisc }) b)))))) ∧
    (∀ (a b : State) (r : Req) (d : Desc), a = beginInput dt s → (getQ a q).cmd.held = some r → descOf r.op = some d →
      queServed a q = true → roomFor a q (if lengthOk d r then d.maxResp else 3) = true →
      b = runInterp descOf q (take (some d) r (setQ q { getQ a q with cmd := { (getQ a q).cmd with held := none } } a)) →
      ((getQ b q).cmd.held ≠ none ∨ (getQ b q).cmd.strandAt ≠ none ∨ (getQ b q).cmd.part = [] →
        exec (.commandTaken ⟨q, none⟩ dt) s = .next (settle b))) ∧
    (∀ (a : State) (x : Queue) (ws : List Word) (r : List (List Word)), a = begin_ 0 s → x = getQ a q →
      x.evt.waiting = ws :: r → powered a = true → x.evt.words.length + ws.length ≤ 4096 →
      exec (.completionPlaced ⟨q, none⟩) s =
        .next (placePacket q ws (setQ q { x with evt := { x.evt with waiting := r } } a))) ∧
    (∀ (a b : State) (x : Queue) (ws : List Word), a = begin_ 0 s → x = getQ a q →
      queServed a q = true → qEnabled x = true → x.push = true → firstPacket x.evt.words = ws → ws ≠ [] →
      ringUsed x + ws.length < ringWords x → aclAllows a 4 0x1005 0 2 = true → aclAllows a 7 0x1005 0 1 = true →
      b = { a with out := a.out ++ ringWrites x ws } →
      exec (.pushRingWrite ⟨q, none⟩) s = .next (
        let t := setQ q { x with ringTail := (x.ringTail + ws.length) % ringWords x, evt := { x.evt with words := x.evt.words.drop ws.length } } b
        if x.wbAddr = 0 then t else emit (.tailWrite x.wbAddr ((x.ringTail + ws.length) % ringWords x)) t)) ∧
    (∀ (t : Nat) (a : State) (x : Queue), (getQ s q).evt.coalAt = some t → powered s = true → s.intStat.getD q false = false →
      a = beginUp (t + (getQ s q).coalCfgTime * 1000) s → x = getQ a q →
      exec (.coalTimeout q) s =
        .next (setInt q (setQ q { x with evt := { x.evt with coalCount := 0, coalAt := none } } a))) ∧
    (∀ (p : Nat) (a : State) (r : Req) (good : Bool) (rest : List Waiter) (d : Desc), p ≤ 16 → a = begin_ dt s →
      powered a = true → nextWaiter (getChain a p).waiters = some (r, good, rest) → descOf r.op = some d →
      exec (.chainRelease p dt) s = .next (settle (runNow d r good
        { a with chains := tabSet a.chains p { getChain a p with waiters := rest } }))) ∧
    (∀ (r : Req) (rest : List Req) (d : Desc), firstDue s.execs = some (r, rest) → powered s = true →
      s.pair.role ≠ .arbitrating →
      reaches r.execAt s = true → descOf r.op = some d →
      exec .execAtDue s = .next (settle (runDue d r (beginAt r.execAt { s with execs := rest })))) ∧
    (∀ p, nextPps s.time.waiting = some p → powered s = true → reaches (p.second * nsPerSec) s = true →
      exec .ppsAlignedApply s = .next (ppsApply p (beginAt (p.second * nsPerSec) s))) ∧
    (∀ (a : State) (k : Nat) (src : NetSrc) (b : List Byte), k < 4 → a = beginInput dt s → mgmtServed a k = true →
      exec (.mgmtDatagram k src b dt) s = .next (settle (takeDatagram src b a)))


/-! ### The tick and the scheduler (chapters 01 and 13) -/

/-- R8 to R13, R299 to R304, R307, R308, R311, R312, R314, R315, R464: at a boundary a tick still open has overrun, the
new one opens, its snapshot is taken and the phases that finish do their work; a tick that stays within its deadline
completes; one that does not overruns; GO frames leave at the emission point; the watchdog sets the latch; a core
takes the best ready job, completes one, has one revoked; a host job's result goes out. The model's own choices in
it: logs 5, 45, 46, 51, 206 and 207. -/
def Obligations.TickAndJobsRun : Prop :=
  ∀ (dt : Nat) (s : State),
    (∀ (n t : Nat) (a b c d : State), ticking s = true → a = beginAt s.tick.nextAt s → t = a.now →
      b = (if tickOpen a then markOverrun a else a) → c = snapshot t (recordSwitch (openTick t n b)) →
      d = (if 1 ≤ n then governPhase t c else c) →
      exec (.tickBoundary n) s = .next (if 2 ≤ n then reservePhase t d else d)) ∧
    (∀ a, a = begin_ dt s → ticking a = true → a.tick.completed = false → a.tick.overrun = false → 4 ≤ a.tick.phases →
      (a.now ≤ a.tick.deadline → exec (.tickComplete dt) s =
        .next (completeTick (assemble (stepPhase a).2 (stepPhase a).1))) ∧
      (a.tick.deadline < a.now → exec (.tickComplete dt) s = .next (markOverrun a))) ∧
    (ticking s = true → s.tick.completed = false → s.tick.overrun = false → reaches s.tick.deadline s = true →
      exec .tickDeadline s = .next (markOverrun (beginAt s.tick.deadline s))) ∧
    (∀ (t : Nat) (a : State), t = s.tick.boundary + s.tick.offset * 1000 → ticking s = true → s.tick.started = true →
      s.tick.emitted = false → reaches t s = true → a = beginAt t s →
      exec .goEmission s = .next (laneSend 3 [(a.tick.number + 2 ^ 32 - 1) % 2 ^ 32]
        (refreshYard (refreshFsp (releaseTick { a with tick := { a.tick with emitted := true } }))))) ∧
    (∀ t, watchdogAt s = some t → powered s = true →
      exec .watchdogExpire s = .next (raiseFault 1 (beginUp t s))) ∧
    (∀ (k : Nat) (a b : State) (j : ReadyJob), k < nCores s.member → a = begin_ dt s → powered a = true →
      (getCore a k).quarantined = false → (getCore a k).job = none → (a.sys.boot = .init ∨ a.sys.boot = .ready) →
      takeJob k a = some j → b = prefetchJob k (startJob k j a) →
      exec (.jobDispatch k dt) s =
        .next (settle (if j.slot < hostBase a.member then b else runHostJob (j.slot - hostBase a.member) b))) ∧
    (∀ (k n t : Nat) (a b : State), k < nCores s.member → a = begin_ dt s → (getCore a k).job = some (n, t) →
      b = setCore k { getCore a k with job := none, busy := (getCore a k).busy + (a.up - t) } a →
      (hostBase a.member ≤ n → exec (.jobComplete k dt) s = .next b) ∧
      (∀ (x : JobSlot) (c : State), n < hostBase a.member → x = getSlot b n → x.prio < 6 →
        c = x.succs.foldl (fun y i => setSlot i (decSlot y.up (getSlot y i)) y) (setSlot n { x with running := false } b) →
        exec (.jobComplete k dt) s = .next (notePeaks c))) ∧
    (∀ (k n t : Nat), k < nCores s.member → (getCore s k).job = some (n, t) →
      exec (.jobRevoke k) s = .next (revoke k n (beginUp (t + 8 * cyclesNs (getSlot s n).planned + 1) s))) ∧
    (∀ (k : Nat) (a b : State) (w : Word) (ws : List Word) (d : HostJobDef), k < nHostJobs s.member → a = begin_ dt s →
      (getHostJob a k).result = some (w, ws) → (getHostJob a k).defn = some d → d.succMask = 0 →
      b = raise 0x0F00 k (w :: ws) (if d.queue < 16 then .one d.queue (d.packet.getD 1 0) else .none) a →
      exec (.hostJobFinal k dt) s = .next (setHostJob k { getHostJob b k with
        running := false, result := none, lastStatus := w, armed := d.rearm && (getHostJob b k).armed,
        counter := if d.rearm then d.deps else (getHostJob b k).counter } b))

/-! ### GNSS rows (chapters 04 and 05) -/

/-- R85, R88, R90, R95, R97, R99, R101, R105, R116 to R118, R122: each millisecond evaluates channels and gains, each 100
ms the notches, each second the assignment and the solution; a search hands its result to its channel or ends; bias
faults move the antenna's class; a measurement epoch is taken at its time; a navigation unit is counted, kept and
delivered; a byte leaves a UART. The model's own choices in it: logs 5, 54, 57, 59, 161, 162, 168, 181, 182, 183 and
184. -/
def Obligations.ReceiverRowsRun : Prop :=
  ∀ (dt : Nat) (s : State),
    (∀ t cs gs, t = dueMult 1000000 s.gnss.lastMs s → gnssRuns s = true → reaches t s = true →
      exec (.gnssMsTick cs gs) s = .next (gnssMs t cs gs (beginAt t s))) ∧
    (∀ t ls, t = dueMult 100000000 s.gnss.lastNotch s → gnssRuns s = true → reaches t s = true →
      exec (.notchSearch ls) s = .next (notchSearch t ls (beginAt t s))) ∧
    (∀ t sky, t = dueMult 1000000000 s.gnss.lastAssign s → gnssRuns s = true → reaches t s = true →
      exec (.channelAssign sky) s = .next (assignChannels t sky (beginAt t s))) ∧
    (∀ t, t = dueMult 1000000000 s.gnss.lastPvt s → gnssRuns s = true → reaches t s = true →
      exec (.pvtSolution dt) s = .next (pvtSecond t (beginAt t s))) ∧
    (∀ t m, t = nextEpoch s → gnssRuns s = true → reaches t s = true →
      exec (.measEpoch m) s = .next (measEpoch t m (beginAt t s))) ∧
    (∀ k code doppler a, k < nChannels s.member → a = begin_ dt s → gnssRuns a = true → k ∈ searching a →
      inWindow (getChan a k) doppler = true → (getChan a k).searchSince + dwell (getChan a k) ≤ a.up →
      exec (.acqSearchDone k code doppler dt) s = .next (handOff k code doppler a)) ∧
    (∀ k x, k < nChannels s.member → x = getChan s k → gnssRuns s = true → (x.state = .acq ∨ x.state = .reacq) →
      exec (.acqTimeout k) s = .next (searchEnds k x (beginUp (x.searchSince + 10000000000) s))) ∧
    (∀ ant short_ i v a x, natOfBool ant < nAntennas s.member → a = begin_ dt s → x = getAnt a ant → powered a = true →
      x.biasEn = true → x.retryAt = none →
      (short_ = true → x.onSince + 10000000 ≤ a.up →
        exec (.biasFault ant short_ i v dt) s = .next (biasMove ant .short (setAnt ant { x with
          current := i, voltage := 0, retries := x.retries + 1,
          retryAt := some (a.up + (if x.retries = 0 then 1000000000 else 10000000000)) } a))) ∧
      (short_ = false → (3 ≤ i ∧ x.onSince ≤ a.up ∨ x.onSince + 1000000000 ≤ a.up) →
        exec (.biasFault ant short_ i v dt) s =
          .next (biasMove ant (biasClass i) (setAnt ant { x with current := i, voltage := v, retries := 0 } a)))) ∧
    (∀ ant i v t a, natOfBool ant < nAntennas s.member → (getAnt s ant).retryAt = some t → a = beginUp t s →
      exec (.biasRetry ant i v) s = .next (if 3 ≤ i ∧ i < 180
        then biasMove ant (biasClass i) (setAnt ant { getAnt s ant with
          current := i, voltage := v, onSince := a.up, retryAt := none, retries := 0 } a)
        else setAnt ant { getAnt s ant with current := i, voltage := v, onSince := a.up, retryAt := none } a)) ∧
    (∀ (u : NavUnit) (k : Channel) (a b : State), (unitSignals u.unit).contains u.sig = true → a = begin_ dt s →
      gnssRuns a = true → navChannel u a = some k →
      b = storeNav u { a with corr := match u.check with
        | 0 => { a.corr with pass := cnt32 a.corr.pass }
        | 1 => { a.corr with corrected := cnt32 a.corr.corrected }
        | _ => { a.corr with fail := cnt32 a.corr.fail } } →
      (∀ p, k.polarityAt = some p → p ≤ u.tFirst →
        exec (.navUnitDecoded u dt) s = .next (b.corr.navSubs.foldl (deliverNav u) b)) ∧
      (k.polarityAt = none ∨ (∃ p, k.polarityAt = some p ∧ u.tFirst < p) →
        exec (.navUnitDecoded u dt) s = .next b)) ∧
    (∀ (k : Nat) (a : State) (x : Stream) (b : Byte) (r : List Byte), k < 2 → a = begin_ dt s → x = getStream a k →
      x.fifo = b :: r → x.latencyFrom = [] →
      exec (.uartCByteSent k dt) s = .next (emit (.uartC k b) (setStream k { x with fifo := r } a)))

/-! ### Robot frames and rover rows (chapters 06 and 07) -/

/-- R175, R177, R178, R181, R187, R188, R325: an Uzoza frame that its port carries is discarded when no robot has its
number; one that fails the first checks counts as an authentication failure; a repeated number counts as a duplicate
and one outside the window as a replay; else the window takes the number, the table takes the address a newer number
came from, and TELEM, OBS and ACK are handled by their kind. A JOIN waits for the next input snapshot, which verifies
it: a rekey JOIN that repeats the last number counts as a duplicate, and a JOIN that starts a session is answered,
unless one was answered within 100 ms. The rekey JOIN that a rekey awaits starts the fresh window where it arrives.
The model's own choices in it: logs 98, 104, 107 and 193. -/
def Obligations.UplinkFramesRun : Prop :=
  ∀ (f : Uplink) (dt r : Nat) (s a b : State) (l : Link) (c : State), portExists s.member f.port = true → a = beginInput dt s →
    powered a = true → (a.sys.boot = .init ∨ a.sys.boot = .ready) → uzCarriage f a = (b, true) → r = byteAt f.bytes 2 →
    l = getLink b r →
    c = (let d := setLink r { l with window := windowTake l.window (bytesAt f.bytes 8 8) } b
         if l.window.highest < bytesAt f.bytes 8 8 then writeEntry r (bytesAt f.bytes 8 8) { f.src with port := f.port } d
         else d) →
    (nRobots b.member ≤ r → ∀ i ∈ [Instr.telem f dt, .obs f dt, .ack f dt, .join f dt],
      exec i s = .next { b with uz := { b.uz with ffDiscards := cnt32 b.uz.ffDiscards } }) ∧
    (r < nRobots b.member → byteAt f.bytes 1 ≠ 0x44 → firstChecks l f.bytes = false →
      ∀ i ∈ [Instr.telem f dt, .obs f dt, .ack f dt], exec i s = .next (setLink r { l with authFail := cnt32 l.authFail } b)) ∧
    (r < nRobots b.member → firstChecks l f.bytes = true → byteAt f.bytes 1 ≠ 0x44 →
      (bytesAt f.bytes 8 8 = l.window.highest → ∀ i ∈ [Instr.telem f dt, .obs f dt, .ack f dt],
        exec i s = .next (setLink r { l with dups := cnt32 l.dups } b)) ∧
      (bytesAt f.bytes 8 8 ≠ l.window.highest → windowOk l.window (bytesAt f.bytes 8 8) = false →
        ∀ i ∈ [Instr.telem f dt, .obs f dt, .ack f dt],
          exec i s = .next (setLink r { l with replay := cnt32 l.replay } b)) ∧
      (bytesAt f.bytes 8 8 ≠ l.window.highest → windowOk l.window (bytesAt f.bytes 8 8) = true →
        kindChecks f.bytes = false → ∀ i ∈ [Instr.telem f dt, .obs f dt, .ack f dt],
          exec i s = .next (setLink r { getLink c r with badKind := cnt32 (getLink c r).badKind } c)) ∧
      (bytesAt f.bytes 8 8 ≠ l.window.highest → windowOk l.window (bytesAt f.bytes 8 8) = true →
        kindChecks f.bytes = true →
        (byteAt f.bytes 1 = 0x41 → exec (.telem f dt) s = .next (takeTelem r f.bytes (noteValid r f c.up c.now c))) ∧
        (byteAt f.bytes 1 = 0x42 → exec (.obs f dt) s = .next (takeObs r f.bytes (noteValid r f c.up c.now c))) ∧
        (byteAt f.bytes 1 = 0x43 → exec (.ack f dt) s = .next (takeAck r f.bytes (noteValid r f c.up c.now c))))) ∧
    (r < nRobots b.member → byteAt f.bytes 1 = 0x44 → ∀ i ∈ [Instr.telem f dt, .obs f dt, .ack f dt, .join f dt],
      ∀ d, d = { b with uz := { b.uz with joins := b.uz.joins ++ [{ frame := f, up := b.up, now := b.now }] } } →
      (byteAt f.bytes 3 % 2 = 0 ∨ firstChecks l f.bytes = false ∨
          isRekeyJoin l (bytesAt f.bytes 8 8) = false ∧ (awaitsJoin l = false ∨ tooSoon l b.up = true) →
        exec i s = .next d) ∧
      (byteAt f.bytes 3 % 2 = 1 → firstChecks l f.bytes = true → isRekeyJoin l (bytesAt f.bytes 8 8) = true →
        exec i s = .next (setLink r { l with dups := cnt32 l.dups } b)) ∧
      (∀ k e, byteAt f.bytes 3 % 2 = 1 → firstChecks l f.bytes = true → tooSoon l b.up = false →
        l.rekey = some k → k.newKey = none → k.joinSeq = none →
        e = setLink r { l with
              rekey := some { k with joinSeq := some (bytesAt f.bytes 8 8) },
              window := { highest := bytesAt f.bytes 8 8, seen := [bytesAt f.bytes 8 8] } } d →
        exec i s = .next (if joinResult f.bytes = 0
          then writeEntry r (bytesAt f.bytes 8 8) { f.src with port := f.port } e else e))) ∧
    (∀ (d : State) (u w : Nat) (j : JoinIn) (x : Link), x = getLink d r → j = { frame := f, up := u, now := w } →
      (firstChecks x f.bytes = false → captureJoin d j = setLink r { x with authFail := cnt32 x.authFail } d) ∧
      (firstChecks x f.bytes = true →
        (∀ t, x.joinAt = some t → u < t + 100000000 → x.sess = .keyed → captureJoin d j = d) ∧
        ((∀ t, x.joinAt = some t → t + 100000000 ≤ u) → byteAt f.bytes 3 % 2 = 0 →
          captureJoin d j = answerJoin r f u w (noteValid r f u w d)) ∧
        ((∀ t, x.joinAt = some t → t + 100000000 ≤ u) → isRekeyJoin x (bytesAt f.bytes 8 8) = true →
          captureJoin d j = answerJoin r f u w (noteValid r f u w d)) ∧
        (x.joinAt = none → byteAt f.bytes 3 % 2 = 1 → isRekeyJoin x (bytesAt f.bytes 8 8) = false → bytesAt f.bytes 8 8 = x.window.highest →
          captureJoin d j = setLink r { x with dups := cnt32 x.dups } d)))

/-- R136, R140, R151, R172, R182, R183: a session without valid frames for SESS_TIMEOUT ends; a rekey falls due, and is
abandoned a second after it began; the next frame of a burst of STOP frames leaves; an epoch that waited long enough
closes; the earliest ready epoch takes a free cluster, or publishes why it cannot be solved; a cluster publishes its
solution. The model's own choices in it: logs 72, 73, 74, 106, 168, 189, 190 and 191. -/
def Obligations.LinkTimersRun : Prop :=
  ∀ (r dt : Nat) (s a : State), r < nRobots s.member → a = begin_ dt s →
    (powered s = true → ((getLink s r).sess = .active ∨ (getLink s r).sess = .joining) →
      exec (.sessionTimeout r) s =
        .next (endSession r 1 (beginUp ((getLink s r).lastValid + s.uz.sessTimeout * 100000000) s))) ∧
    (∀ l, l = getLink a r → powered a = true → l.sess = .active → l.rekey = none → l.rekeyDue = false →
      max l.epochAt l.rekeyFrom + a.uz.rekeyH * 3600 * nsPerSec ≤ a.up →
      exec (.rekeyDue r dt) s = .next (setLink r { l with rekeyDue := true } a)) ∧
    (∀ k b, powered s = true → (getLink s r).rekey = some k → k.acked = false → b = beginUp (k.since + nsPerSec) s →
      exec (.rekeyAbandon r) s = .next (setLink r { getLink b r with rekey := none, rekeyFrom := b.up } b)) ∧
    (∀ k, (getLink s r).rekey = some k → k.acked = true → exec (.rekeyAbandon r) s = .next (begin_ 0 s)) ∧
    (∀ k, powered s = true → s.stop.burst = some k →
      exec (.stopBurstFrame none) s = .next (afterBurst (fleetBurst k (beginUp k.nextAt s)))) ∧
    (∀ x k, powered s = true → getRobotStop s r = some x → x.burst = some k →
      exec (.stopBurstFrame (some r)) s = .next (robotBurst r x k (beginUp k.nextAt s))) ∧
    (∀ e, powered s = true → (getRover s r).open_ = some e →
      exec (.epochWaitExpire r) s =
        .next (closeEpoch r true (beginUp (e.firstAt + (getRover s r).cfg.epochWait * 1000000) s))) ∧
    (∀ (b : State) (ready k : Nat) (x y : Rover) (e : Epoch) (rest : List Epoch), gnssRuns a = true →
      b = dropOld (applySolve a) → earliest (readyRovers b) = some (ready, k) → x = getRover b k → x.ready = e :: rest →
      y = { x with ready := rest } →
      (∀ why, blocked b y e = some why →
        exec (.roverSolveStart dt) s = .next (publishNone k ready why e (noteEpoch k 0 e (setRover k y b)))) ∧
      (∀ c u, blocked b y e = none → baseUse b e.time = some u → (List.range 4).find? (fun c => (b.rse.clusters.getD c none).isNone) = some c →
        exec (.roverSolveStart dt) s = .next (
          let t := setRover k { y with solving := some (e, u) } b
          { t with rse := { t.rse with clusters := t.rse.clusters.set c (some k) } })) ∧
      (blocked b y e = none → (List.range 4).find? (fun c => (b.rse.clusters.getD c none).isNone) = none →
        exec (.roverSolveStart dt) s = .next b)) ∧
    (∀ (c k : Nat) (b : State) (e : Epoch) (u : BaseUse), c < 4 → a.rse.clusters.getD c none = some k →
      b = { a with rse := { a.rse with clusters := a.rse.clusters.set c none } } →
      (getRover b k).solving = some (e, u) →
      exec (.roverFixPublish c dt) s = .next (solveFix k e u b))

/-! ### Fleet work (chapters 08, 09, 10) -/

/-- R193 to R197, R215, R218, R225 to R228, R256: the computation of a commit restores the stored graph's table, fails
with the first sliver at fault or an overflowing conflict set, or awaits the snapshot; a found path reroutes its
victim or is refused; a periodic round falls due, or is skipped while one runs; a round ends as a commit or a
proposal; a proposal lapses; a service time ends; a contact is judged on its samples. The model's own choices in it:
logs 87, 111, 113 and 197. -/
def Obligations.FleetWorkRuns : Prop :=
  ∀ (r dt : Nat) (s a : State), r < nRobots s.member → a = begin_ dt s →
    (∀ c, powered a = true → a.track.commit = some c → c.computed = none →
      (c.req = none → exec (.commitComputeDone dt) s = .next { a with track := { a.track with
        commit := none, active := { a.track.active with conflicts := conflictTable a.track.active } } }) ∧
      (∀ q ms g h, c.req = some q → ms = (a.up - c.startUp) / 1000000 →
        g = { a.track.staged with clearance := c.clearance, lens := [], conflicts := [] } →
        (∀ d n k, sliverFault g = some (d, n, k) → exec (.commitComputeDone dt) s = .next
          (complete q .state d (commitWords a g n k ms) { a with track := { a.track with commit := none } })) ∧
        (sliverFault g = none →
          h = { g with
            lens := g.slivers.map (fun p =>
              (p.1, sliverLen (nodePt g p.2.start) (nodePt g p.2.end_) p.2.radius)) } →
          (∀ p, (conflictTable h).find? (fun p => decide (256 < p.2.length)) = some p →
            exec (.commitComputeDone dt) s = .next (complete q .overflow 1
              (commitWords a { h with conflicts := conflictTable h } p.1 0xFFFF ms)
              { a with track := { a.track with commit := none } })) ∧
          ((conflictTable h).find? (fun p => decide (256 < p.2.length)) = none →
            exec (.commitComputeDone dt) s = .next { a with track := { a.track with
              commit := some { c with computed := some { h with conflicts := conflictTable h }, duration := ms } } })))) ∧
    (∀ (id : Nat) (b : State), powered a = true → a.track.rerouteAsked.contains r = true → (getTr a r).routeId = id →
      b = { a with track := { a.track with rerouteAsked := a.track.rerouteAsked.filter (fun k => decide (k ≠ r)) } } →
      (findReroute b r = none → exec (.rerouteResult r id dt) s = .next (routeEvent r 3 b)) ∧
      (∀ x, findReroute b r = some x →
        (routeAdmitted b r x = false → exec (.rerouteResult r id dt) s = .next (routeEvent r 3 b)) ∧
        (routeAdmitted b r x = true → exec (.rerouteResult r id dt) s = .next
          (addTrackAct (.reroute r x) (setTr r { getTr b r with routeId := ((getTr b r).routeId + 1) % 2 ^ 32 } b))))) ∧
    (∀ p t b, p = s.task.cfg.period * 10000000 → t = (s.task.periodAt / p + 1) * p → p ≠ 0 → ticking s = true →
      reaches t s = true → b = beginAt t s →
      exec .allotPeriod s = .next (if b.task.run.isSome
        then { b with task := { b.task with periodAt := b.now / p * p, roundsSkipped := b.task.roundsSkipped + 1 } }
        else { b with task := { b.task with periodAt := b.now / p * p, periodic := true } })) ∧
    (∀ x y b, powered a = true → a.pair.role ≠ .standby → a.task.run = some x →
      y = { x.result with
            duration := (a.up - x.startUp) / 1000000, roundsSkipped := a.task.roundsSkipped, endUp := a.up } →
      b = { a with task := { a.task with run := none, roundsSkipped := 0 } } →
      (x.commit = true → latched a = false → exec (.allotRoundEnd dt) s = .next { b with task := { b.task with
        last := some y, proposalAt := none,
        commits := a.task.commits ++ [{ req := x.req, byCommand := false, robots := y.assigns.map (fun z => z.robot) }] } }) ∧
      (x.commit = false ∨ latched a = true → exec (.allotRoundEnd dt) s = .next (propose x.req y b))) ∧
    (∀ t, powered s = true → s.task.proposalAt = some t →
      exec .proposalLapse s = .next (lapseProposal (beginUp (t + s.task.cfg.ttl * nsPerSec) s))) ∧
    (∀ t b, powered s = true → tabFind s.task.serviceUntil r = some t → reaches t s = true → b = beginAt t s →
      exec (.taskServiceElapsed r) s = .next { b with task := { b.task with
        serviceUntil := tabDel b.task.serviceUntil r, serviceDone := addOnce b.task.serviceDone r } }) ∧
    (∀ owner contact key samples ats b, b = beginInput dt s → powered b = true → contact ≤ 15 →
      (owner = 256 ∧ key = contact ∨ owner = r ∧ owner ≠ 256 ∧ key = 256 + 16 * r + contact) →
      ats = samples.zip ((List.range samples.length).map (fun i =>
        b.now / samplePeriod * samplePeriod - (samples.length - 1 - i) * samplePeriod)) →
      exec (.contactQualified owner contact samples dt) s =
        .next (
          let c := ats.foldl (fun c x => addEdge x.2 x.1 c) (tabGet b.spin.contacts key Contact.init)
          judgeContact b.now { b with spin := { b.spin with contacts := tabSet b.spin.contacts key c } } key))

/-! ### Stop rows (chapter 12) -/

/-- R281 to R283, R287, R288, R291, R294 to R296: a pad's stop level, the partner's symbol and an internal fault request
the stop; the channels' disagreement is recorded after DISC_TIME and its end after 10 ms; the limit of a controlled
stop makes it immediate; an edge of the reset input asks for a reset, or moves the armed ones on; an armed reset
lapses; a part of the proof test, in a tick of its own, is recorded as passed within its time or as failed, the last
ends it; a proof test falls due. The model's own choices in it: logs 5, 132, 134, 203 and 204. -/
def Obligations.StopRowsRun : Prop :=
  ∀ (r dt : Nat) (s a : State), r < nRobots s.member → a = begin_ dt s →
    (∀ (isA level : Bool) (b : State), powered a = true →
      b = padTimers { a with stop :=
        if isA then { a.stop with estopA := level } else { a.stop with estopBN := level } } →
      exec (.estopPadChange isA level dt) s = .next (if (if isA then !level else level) then setInput 1 0 true b else b)) ∧
    (∀ t, powered s = true → s.stop.disagreeSince = some t → s.stop.discrepancy = false →
      exec .discTimeout s =
        .next (discrepancyIs true (setStopFlag 2 (beginUp (t + s.stop.cfg.discTime * 1000000) s)))) ∧
    (∀ t, powered s = true → s.stop.bothStopSince = some t → s.stop.discrepancy = true →
      exec .discrepancyClear s = .next (discrepancyIs false (beginUp (t + 10000000) s))) ∧
    (powered a = true → a.pair.en = true → a.stop.cfg.partnerEn = true →
      exec (.partnerStopSymbol dt) s =
        .next (setInput 3 0 true { a with stop := { a.stop with partnerStop := true } })) ∧
    (∀ k, k ≤ 7 → powered a = true →
      exec (.internalFault k true dt) s = .next (setInput 4 k (decide (k ≠ 3 ∧ k ≠ 4))
        { a with stop := { a.stop with faults := addOnce a.stop.faults k } }) ∧
      exec (.internalFault k false dt) s =
        .next { a with stop := { a.stop with faults := a.stop.faults.filter (fun x => decide (x ≠ k)) } }) ∧
    (∀ b, powered s = true → s.stop.controlled = true → b = beginUp s.stop.ctrlDeadline s →
      exec .ctrlLimitExpire s = .next (latchSet b.stop.cause b.stop.icode true true true b)) ∧
    (∀ x, powered s = true → getRobotStop s r = some x → x.controlled = true →
      exec (.robotCtrlLimitExpire r) s = .next (forceRobot r x.cause true (beginUp x.deadline s))) ∧
    (powered a = true → a.pair.role = .standby → exec (.resetInputEdge dt) s = .next a) ∧
    (powered a = true → a.pair.role ≠ .standby → a.stop.cfg.resetMode = 1 →
      exec (.resetInputEdge dt) s = .next { a with stop := { a.stop with
      resets := a.stop.resets ++ [{ req := none, robot := 255, source := 1 }] } }) ∧
    (powered a = true → a.pair.role ≠ .standby → a.stop.cfg.resetMode = 2 →
      exec (.resetInputEdge dt) s = .next { a with stop := { a.stop with
      resets := a.stop.resets ++ a.stop.armed.map (fun p => { req := some p.1, robot := 255, source := 1 }),
      armed := [] } }) ∧
    (∀ q t rest b, powered s = true → s.stop.armed = (q, t) :: rest → b = beginUp t s →
      exec .resetArmTimeout s = .next (complete q .state 0x200 [] { b with stop := { b.stop with armed := rest } })) ∧
    (∀ (k lat fail : Nat) (sets : Bool) (b : State) (p p' : ProofRun) (more : List Nat), k ≤ 2 →
      b = (if ticking s && reaches s.tick.deadline s then beginAt s.tick.deadline s else begin_ 0 s) →
      powered b = true → b.stop.proof = some p → p.left = k :: more → proofTick b p = true →
      (sets = true → lat ≤ proofLimit k → p' = { p with
          left := more, tick := some b.tick.number, results := p.results.set k 1,
          latX := if k = 0 then lat else p.latX, latY := if k = 1 then lat else p.latY } →
        (more ≠ [] → exec (.proofTestPart k sets lat fail) s =
          .next { b with stop := { b.stop with proof := some p' } }) ∧
        (more = [] → p'.results = [1, 1, 1] → exec (.proofTestPart k sets lat fail) s =
          .next (endProof p' true (ceaseFault 6 { b with stop :=
            { b.stop with
              proof := some p', proofFailed := false, lastPass := b.now / nsPerSec % 2 ^ 32,
              lastPassUp := some b.up } })))) ∧
      (sets = false ∨ proofLimit k < lat → p' = { p with
          left := more, tick := some b.tick.number, results := p.results.set k 2,
          latX := if k = 0 then lat else p.latX, latY := if k = 1 then lat else p.latY, failInput := fail } →
        more ≠ [] → exec (.proofTestPart k sets lat fail) s =
          .next (let c := { b with stop := { b.stop with proof := some p' } }
            requestStop 4 6 true (setStopFlag 4 { c with stop := { c.stop with
              proofFailed := true, faults := addOnce c.stop.faults 6 } })))) ∧
    (powered s = true → s.stop.cfg.autoProof = true → s.stop.proof = none → s.stop.controlled = false →
      exec .proofIntervalDue s = .next (startProof none 0 (beginUp (proofDueAt s) s)))

/-! ### Switch rows (chapter 14) -/

/-- R320 to R325, R332, R336: a frame at a port without link is not taken, one with a bad checksum is counted, one too
long is dropped, and a good one teaches the table its source and is delivered to the module or passed on; the scan
deletes what has aged out; a link change takes force; the frame in transmission leaves with the header of its egress
port and, for a PTP message, its correction, and is counted. The model's own choices in it: logs 124, 125, 126, 200
and 208. -/
def Obligations.SwitchRowsRun : Prop :=
  ∀ (dt : Nat) (s a : State), a = begin_ dt s → powered a = true →
    (∀ f, portExists s.member f.port = true → f.port ≠ 15 →
      (portUp a f.port = false → exec (.ethFrameRx f dt) s = .next a) ∧
      (∀ b, portUp a f.port = true → b = countRx f.port f.len a →
        (f.fcsOk = false →
          exec (.ethFrameRx f dt) s = .next (modStat f.port (fun c => { c with fcsErr := cnt32 c.fcsErr }) b)) ∧
        (f.fcsOk = true → (getPort b f.port).cfg.maxFrame < f.len →
          exec (.ethFrameRx f dt) s = .next (dropFiltered f.port b)) ∧
        (∀ v c, f.fcsOk = true → f.len ≤ (getPort b f.port).cfg.maxFrame → reservedMac f.dst = false →
          ingressVid f.port (f.tag.map (fun t => t.1)) b = some v → c = learn f.port f.src v b → isUzoza f v c = false →
          (∀ d, deliverOwn f v c = some d → exec (.ethFrameRx f dt) s = .next d) ∧
          (deliverOwn f v c = none → exec (.ethFrameRx f dt) s = .next (passOn f v c))))) ∧
    exec (.ageScan dt) s =
      .next { a with net := { a.net with fdb := a.net.fdb.filter (fun e => !agedOut a e) } } ∧
    (∀ p speed, a.net.loaded = true → portExists a.member p = true → pollsPhy a p = true → (getPort a p).cfg.en = true →
      exec (.linkPoll [(p, some speed)] dt) s = .next (linkChange p true (speed % 8) a)) ∧
    (∀ p, a.net.loaded = true → portExists a.member p = true → pollsPhy a p = true → (getPort a p).cfg.en = true →
      exec (.linkPoll [(p, none)] dt) s = .next (linkChange p false ((getPort a p).speed % 8) a)) ∧
    (∀ p speed, portExists s.member p = true → p ≠ 15 → a.net.loaded = true → (getPort a p).cfg.en = true →
      pollsPhy a p = false →
      exec (.portLinkChange p true speed dt) s = .next (linkChange p true (speed % 8) a) ∧
      exec (.portLinkChange p false speed dt) s = .next (linkChange p false (getPort a p).speed a)) ∧
    (∀ p f rest, portExists s.member p = true → p ≠ 15 → (getPort a p).queue = f :: rest →
      exec (.egressFrameSent p dt) s = .next (passPtp p f (passHead p f (emit (.frame p f.len f.own)
        (modStat p (fun c => { c with txFrames := cnt32 c.txFrames, txBytes := addBytes c.txBytes f.len })
          (setPort p { getPort a p with queue := nextHead a.now rest } a))))))

/-! ### Time rows (chapter 15) -/

/-- R23, R343, R345, R348, R357, R361, R368, R453: each whole second is evaluated; a source qualifies after QUAL_TIME and
a better one is selected after WTR; a lost source is dropped; a suspicion of asymmetry disqualifies PTP at its limit,
or ends with its estimate; NORMAL mode is entered at the first whole second, or when no source came; the external
reference is lost or selected; an edge of PPS_IN and the time-of-day sentence that belongs to it keep or break the
condition of the PPS source, and so does the absence of either. The model's own choices in it: logs 5, 119, 120, 201
and 202. -/
def Obligations.TimeRowsRun : Prop :=
  ∀ (dt : Nat) (s a : State), a = begin_ dt s →
    (∀ p, powered s = true → reaches (servoAt s) s = true →
      exec (.servoSecond p) s = .next (servoSecond (servoAt s) p (beginAt (servoAt s) s))) ∧
    (∀ code theta t, sourceExists s code = true → powered a = true → (getSource a code).heldSince = some t →
      (getSource a code).qualAt = none → t + a.time.src.qualTime * nsPerSec ≤ a.up →
      (code = 1 → actingLevel a.corr < 3) → exec (.sourceQualify code theta dt) s = .next (reselect
        (setSource code { getSource a code with
          qualAt := some a.up, theta := if code = 5 then theta else (getSource a code).mean, barred := false } a))) ∧
    (∀ c t, powered s = true → s.time.src.list = [c] → c ≠ 0 → (getSource s c).qualAt = some t →
      s.up < t + s.time.src.wtr * nsPerSec →
      exec .wtrExpire s = .next (reselect (beginUp (t + s.time.src.wtr * nsPerSec) s))) ∧
    (∀ code, sourceExists s code = true → powered a = true →
      exec (.sourceLost code dt) s = .next (loseSource code a)) ∧
    (powered s = true → s.time.asymSuspect = true → exec .asymHoldExpire s =
      .next (disqualifyPtp (beginUp (s.time.asymAt + s.time.servo.asymHold * nsPerSec) s))) ∧
    (∀ b p, b = begin_ 0 s → powered b = true → b.time.asymSuspect = true → asymSettled b.time.asymHist = true →
      b.time.asymReported = false → p = getPtpPort b b.time.asymPort →
      exec .asymEstimateSettled s = .next (if b.time.servo.asymAuto
        then endSuspect 1 (setPtpPort b.time.asymPort { p with asym := p.asym + (servoLaw b 3).uPrev * 1000 } b)
        else { b with time := { b.time with asymReported := true } })) ∧
    (∀ theta, powered s = true → s.time.booting = true → s.time.raw = true → s.time.selected ≠ 0 →
      exec (.timeNormalEntry theta) s =
        .next (enterNormal (stepBack 0 (if s.time.selected = 5 then theta else (getSource s s.time.selected).mean)
          (beginAt (nextSecond s * nsPerSec) s)))) ∧
    (powered s = true → s.time.booting = true → s.time.raw = true → s.time.selected = 0 → s.time.src.bootWait ≠ 0 →
      exec .bootWaitExpire s = .next (enterNormal (beginUp (s.time.bootAt + s.time.src.bootWait * nsPerSec) s))) ∧
    (powered a = true → a.ref.ext = true → exec (.extRefLoss dt) s = .next (raise 0x0A06 0 [thetaWord a] .all
      { a with ref := { ext := false, fallback := true, extPresent := false } })) ∧
    (∀ usable t, powered s = true → s.time.refRetry = some t → reaches t s = true →
      exec (.refSelect usable) s = .next (refSelected usable (beginAt t s))) ∧
    (∀ b good, powered a = true → a.time.pps.inEn = true →
      b = { a with time := { a.time with ppsEdgeAt := some a.now, ppsOpen := !a.time.pps.todRef } } →
      good = (match a.time.ppsEdgeAt with
        | some t => decide (((a.now : Int) - (t : Int) - 1000000000).natAbs ≤ 1000)
        | none => false) →
      (∀ sec, a.time.pps.todRef = true → a.time.todSecond = some sec → a.time.ppsOpen = true →
        (good = true ∨ qualified b 4 = false → exec (.ppsInEdge dt) s = .next (ppsPair a.now sec good b)) ∧
        (good = false → qualified b 4 = true → exec (.ppsInEdge dt) s = .next b)) ∧
      (∀ sec, a.time.pps.todRef = true → a.time.todSecond = some sec → a.time.ppsOpen = false →
        exec (.ppsInEdge dt) s = .next (todAbsent b)) ∧
      (a.time.pps.todRef = false → a.time.ppsOpen = true → exec (.ppsInEdge dt) s = .next (todAbsent b)) ∧
      (a.time.pps.todRef = false → a.time.ppsOpen = false →
        (good = true ∨ qualified b 4 = true → exec (.ppsInEdge dt) s = .next b) ∧
        (good = false → qualified b 4 = false →
          exec (.ppsInEdge dt) s = .next (setSource 4 { getSource b 4 with heldSince := none } b)))) ∧
    (∀ text b c sec, powered a = true → a.time.pps.inEn = true → text.checksumOk = true →
      text.zda = (a.time.pps.todFmt == 0) → (text.zda = true ∨ text.locked = true) →
      b = (if text.zda || a.time.utcDecoded then a
        else { a with time := { a.time with utcOffset := text.offset, utcValid := true } }) →
      todTai text b = some sec → c = { b with time := { b.time with
        todSecond := some sec, ppsOpen := b.time.pps.todRef } } →
      (c.time.pps.todRef = true → (∀ o, b.time.todSecond = some o → sec = o + 1) →
        exec (.todSentence text dt) s = .next c) ∧
      (∀ o, c.time.pps.todRef = true → b.time.todSecond = some o → sec ≠ o + 1 →
        exec (.todSentence text dt) s = .next (todAbsent c)) ∧
      (∀ e o, c.time.pps.todRef = false → b.time.ppsOpen = true → b.time.ppsEdgeAt = some e → b.time.todSecond = some o →
        exec (.todSentence text dt) s = .next (ppsPair e sec (decide (sec = o + 1)) c))) ∧
    (∀ text, powered a = true → a.time.pps.inEn = true → text.checksumOk = true → text.zda = false →
      a.time.pps.todFmt ≠ 0 → text.locked = false →
      exec (.todSentence text dt) s = .next (loseSource 4 { a with time := { a.time with todSecond := none } }))

/-- R345, R362 to R366: a port in its source domain counts announces and syncs and takes the master and the offset; a
delay request on a fleet port is answered, a peer delay request where the port measures it; a delay response that
closes a peer measurement sets the link delay; a master not heard for the timeout is dropped. The model's own choices
in it: logs 121 and 127. -/
def Obligations.PtpRowsRun : Prop :=
  ∀ (m : PtpMsg) (dt : Nat) (s a : State) (p : PtpPort), portExists s.member m.port = true → m.port ≠ 15 →
    a = begin_ dt s → powered a = true → p = getPtpPort a m.port →
    (8 ≤ m.port → p.src = true → m.domain = a.time.ptp.srcDomain →
      (m.kind = 11 → exec (.ptpMessageRx m dt) s =
        .next (ptpAnnounce m (setPtpPort m.port { p with announces := cnt32 p.announces } a))) ∧
      (m.kind = 0 → exec (.ptpMessageRx m dt) s =
        .next (ptpOffset m (setPtpPort m.port { p with syncRcvd := cnt32 p.syncRcvd } a))) ∧
      (m.kind = 8 ∨ m.kind = 9 → exec (.ptpMessageRx m dt) s = .next (ptpOffset m a))) ∧
    (m.kind = 1 → p.fleet = true → m.domain = a.time.ptp.fleetDomain → fleetPtpRuns a = true → p.delayMech = 0 →
      exec (.ptpMessageRx m dt) s = .next (emit (.ptp m.port 9 m.seq (a.now : Int) a.time.ptp.logMinDreq)
        (setPtpPort m.port { p with reqs := cnt32 p.reqs } a))) ∧
    (∀ b, m.kind = 2 → (p.delayMech = 1 ∨ p.tcMode = 2) →
      b = emit (.ptp m.port 3 m.seq (a.now : Int) 0x7F) (setPtpPort m.port { p with reqs := cnt32 p.reqs } a) →
      (p.oneStep = true → exec (.ptpMessageRx m dt) s = .next b) ∧
      (p.oneStep = false → exec (.ptpMessageRx m dt) s = .next (emit (.ptp m.port 10 m.seq (a.now : Int) 0x7F) b))) ∧
    (m.kind = 3 ∨ m.kind = 10 → exec (.ptpMessageRx m dt) s =
      .next (setPtpPort m.port { p with linkDelay := (m.mpd : Int), mpd := m.mpd } a)) ∧
    (∀ k id x, 8 ≤ k → k < 8 + nBh s.member → powered s = true →
      s.time.masters.find? (fun x => decide (x.port = k) && decide (x.identity = id)) = some x →
      exec (.ptpAnnounceTimeout k id) s = .next (dropMaster k id (beginUp (x.heardAt + annTimeoutNs s) s)))

/-! ### Recorder and pair rows (chapters 16 and 17) -/

/-- R378, R380, R382: a record is committed 0.5 us and 5 ns for each of its bytes after its writing began, and the
recorder goes on to the next: a summary that waits, EV_AUDIT_OVERFLOW in its place, audit before diagnostic records;
an audit event that waited 100 us without being staged is lost and counted; each whole second with suppressed events
leaves their record. The model's own choices in it: logs 129 and 188. -/
def Obligations.RecorderRowsRun : Prop :=
  ∀ (dt : Nat) (s : State),
    (∀ w a b, powered s = true → s.rec_.writing = some w → a = beginUp (w.since + writeNs w) s →
      b = (let c := { a with rec_ := { a.rec_ with writing := none } }
           if w.overflow then writeOverflow c else commit w.audit w.entry c) →
      (∀ e rest, b.rec_.summary = e :: rest → exec (.recordCommit dt) s =
        .next (startWrite false false e { b with rec_ := { b.rec_ with summary := rest } })) ∧
      (b.rec_.summary = [] →
        (b.rec_.lost ≠ 0 → b.rec_.lostAfter = 0 → exec (.recordCommit dt) s = .next (startWrite true true
          { code := 0x0B01, host := false, timeRaw := b.time.raw, payload := List.replicate 24 0 } b)) ∧
        (b.rec_.lost = 0 ∨ b.rec_.lostAfter ≠ 0 →
          (∀ e rest, b.rec_.audFifo = e :: rest → exec (.recordCommit dt) s = .next (refillAudit (startWrite true false e
            { b with rec_ := { b.rec_ with audFifo := rest, lostAfter := b.rec_.lostAfter - 1 } }))) ∧
          (∀ e rest, b.rec_.audFifo = [] → b.rec_.diagFifo = e :: rest →
            exec (.recordCommit dt) s = .next (startWrite false false e { b with rec_ := { b.rec_ with diagFifo := rest } })) ∧
          (b.rec_.audFifo = [] → b.rec_.diagFifo = [] → exec (.recordCommit dt) s = .next b)))) ∧
    (s.rec_.writing = none → exec (.recordCommit dt) s = .next (begin_ dt s)) ∧
    (∀ e t rest a, s.rec_.audWait = (e, t) :: rest → a = beginUp (t + 100000) s →
      (a.rec_.lost = 0 → exec (.auditStageTimeout dt) s = .next { a with rec_ := { a.rec_ with
        audWait := rest, lost := 1, lostFirst := e.code, lostLast := e.code, lostTime := leNat (e.payload.take 8),
        lostAfter := a.rec_.audFifo.length } }) ∧
      (a.rec_.lost ≠ 0 → exec (.auditStageTimeout dt) s = .next { a with rec_ := { a.rec_ with
        audWait := rest, lost := a.rec_.lost + 1, lostLast := e.code } })) ∧
    (∀ b l es e, reaches (summaryTime s) s = true → b = beginAt (summaryTime s) s → powered s = true →
      s.rec_.suppressed ≠ [] → b.rec_.writing = none → l = b.rec_.suppressed.foldr suppInsert [] → es = l.take 124 →
      e = ({ code := 0x0B00, host := false, timeRaw := b.time.raw, payload := recordPayload b.now es.length
               (es.flatMap (fun e => [wordOfFields [(e.code, 0), (e.cause, 16)], wordOf e.count])) } : Staged) →
      exec .recSuppressSecond s = .next (deliver 0x0B00 es.length b.now
        (es.flatMap (fun e => [wordOfFields [(e.code, 0), (e.cause, 16)], wordOf e.count])) .all
        (triggerJobs 0x0B00 (startWrite false false e
          { b with rec_ := { b.rec_ with suppressed := l.drop 124, summedAt := b.now / nsPerSec } }))))

/-- R162, R389 to R401: a standby whose ACT_IN ceases begins its dead time and one that arbitrates waits on; ACT_IN makes
an arbitrating module the standby; the dead time loads the running state and the takeover resumes it; two active
modules arbitrate again with a stop in force; the wait ends in the ACTIVE role; a module that completes no tick
leaves it; the standby follows the lane's records in sequence, and the active module its health word. The model's own
choices in it: logs 149, 151, 152, 153, 160 and 205. -/
def Obligations.PairRowsRun : Prop :=
  ∀ (dt : Nat) (s a : State), a = begin_ dt s →
    (∀ b, b = modPair (fun p => { p with actIn := false, actInAt := a.up, interlockFault := false }) a →
      (a.pair.role = .standby → powered a = true → a.pair.auto = true → exec (.actInLoss dt) s = .next (reportPair
        (fun _ => modPair (fun p => { p with deadFrom := some a.up, takeoverCause := takeoverCause b }) b) a)) ∧
      (a.pair.role = .arbitrating → exec (.actInLoss dt) s =
        .next (reportPair (fun _ => modPair (fun p => { p with arbUntil := a.up + p.arbWait }) b) a))) ∧
    (a.pair.role = .arbitrating → powered a = true → a.sys.everReady = true → exec (.actInActive dt) s =
      .next (reportPair (fun x => becomeStandby (modPair (fun p =>
        { p with actIn := true, actInAt := x.up, deadFrom := none, loaded := false }) x)) a)) ∧
    (∀ f, a.pair.deadFrom = none → exec (.pfaultInChange f dt) s = .next (reportPair (modPair (fun p =>
      { p with pfaultIn := f, interlockFault := f && p.actIn && decide (p.role = .standby) })) a)) ∧
    (∀ t, s.pair.deadFrom = some t → powered s = true → s.pair.role = .standby → s.pair.actIn = false →
      exec .deadTimeExpire s = .next (modPair (fun p => { p with loaded := true }) (beginUp (t + 8000) s))) ∧
    (∀ (b c : State) (k : Nat), powered a = true → a.pair.loaded = true → a.pair.role = .standby → a.pair.actIn = false →
      b = takeoverStop a → (k, c) = passBoundaries { b with
        execs := b.execs ++ (match a.pair.mirror with | some m => m.execs | none => []),
        time := { b.time with waiting := b.time.waiting.filter (fun p => !(p.req.at_ && decide (p.req.q = 17))) },
        uz := { b.uz with seq := b.uz.seq + 2 ^ 20 },
        rse := { b.rse with
          rovers := b.rse.rovers.map (fun p => (p.1, { p.2 with
            handover := p.2.binding.isSome, rebase := p.2.binding.isSome && p.2.filter.isSome, handoverEpochs := 0,
            ready := (match p.2.solving with | some (e, _) => e :: p.2.ready | none => p.2.ready), solving := none,
            baseSlips := [], gap := false })),
          clusters := [none, none, none, none], bases := b.rse.own, arp := b.gnss.arp, arpRef := b.gnss.arp },
        spin := { b.spin with driven := false } } →
      exec (.takeoverComplete dt) s = .next (announcePair (abandonRound (takeoverFrames k (becomeActive
        a.pair.takeoverCause (4000 + (a.up - a.pair.deadFrom.getD a.up)) a.pair.lastMirror k c))))) ∧
    (∀ (b : State) (i : Nat), powered a = true → a.pair.role = .active → a.pair.actIn = true →
      a.pair.actInAt + 8000 < a.up → (i, b) = drawFresh (dropSwitch (raiseFault 7 a)) →
      exec (.actCollision dt) s = .next (setRole .arbitrating (dropFrames (modPair (fun p => { p with
        arbWait := 1000000 + 20000 * (Config.freshDelay i).toNat,
        arbUntil := b.up + (1000000 + 20000 * (Config.freshDelay i).toNat) }) b)))) ∧
    (∀ (b c : State) (k : Nat), powered s = true → s.pair.role = .arbitrating → s.sys.everReady = true →
      s.pair.actIn = false → b = beginUp s.pair.arbUntil s → (k, c) = passBoundaries b →
      exec .arbitrationTimeout s = .next (abandonRound (becomeActive 3 0 s.pair.lastMirror k c))) ∧
    (∀ t, powered s = true → s.stop.wdogArmed = true → s.pair.role = .active →
      t = max (s.tick.lastCompleted.getD 0) s.stop.wdogFrom + s.pair.switchTicks * periodNs s →
      exec .switchTicksExpire s = .next (leaveActive (beginUp t s))) ∧
    (powered a = true → a.pair.laneUp = true → a.pair.role = .standby → aclAllows a 8 0x1011 0 2 = true →
      (∀ seq m b, b = modPair (fun p => { p with lastMirror := m.tick.number, mirrorBytes := m.bytes }) (laneIn seq a) →
        readable b m = false → exec (.mirror seq m dt) s =
          .next (reportPair (fun _ => modPair (fun p => { p with mirrorIncompat := true, synced := false }) b) a)) ∧
      (∀ seq m b c, b = modPair (fun p => { p with lastMirror := m.tick.number, mirrorBytes := m.bytes }) (laneIn seq a) →
        readable b m = true → b.pair.mirror = none →
        c = modPair (fun p => { p with synced := !p.resync && m.digestsMatch })
              (takeMirror m (modPair (fun p => { p with mirrorIncompat := false, mirror := some m }) b)) →
        exec (.mirror seq m dt) s = .next (reportPair (fun _ => sendHealth (
          if latchedIn m.stop then modPair (fun p => { p with resetOwed := false }) c
          else if c.pair.resetOwed then followReset c else c)) a)) ∧
      (∀ seq x, exec (.input seq x dt) s = .next (reportPair (fun y => followInput x (laneIn seq y)) a)) ∧
      (∀ seq e arp, exec (.base seq e arp dt) s =
        .next (reportPair (fun y => takeBase e.time e.recs (setArp arp (laneIn seq y))) a)) ∧
      (∀ seq n, a.uz.held = [] → a.uz.staged = [] → seq = a.pair.laneSeq →
        exec (.released seq n dt) s = .next (reportPair (fun y =>
          let b := modPair (fun p => { p with laneSeq := (seq + 1) % 2 ^ 32, released := some n }) y
          { b with tick := { b.tick with
            emitted := b.tick.emitted || decide ((n + 1) % 2 ^ 32 = b.tick.number) } }) a)) ∧
      exec (.laneError dt) s = .next (reportPair startResync a) ∧
      (∀ m b c, a.pair.resync = true → readable a m = true → latchedIn m.stop = true →
        b = takeMirror m (modPair (fun p => { p with mirrorIncompat := false, mirror := some m, resync := false }) a) →
        c = { b with rse := { (mirrorOn a.up m).rse with lanes := b.rse.lanes, mhz := b.rse.mhz, subs := b.rse.subs } } →
        exec (.resyncComplete m dt) s =
          .next (reportPair (fun _ => modPair (fun p => { p with synced := m.digestsMatch }) c) a))) ∧
    (powered a = true → a.pair.laneUp = true → aclAllows a 8 0x1011 0 2 = false →
      (a.pair.role = .standby → ∀ seq m x e arp n, ∀ i ∈ [Instr.mirror seq m dt, .input seq x dt,
          .base seq e arp dt, .released seq n dt, .resyncComplete m dt],
        exec i s = .next (deny 8 0x1011 0 2 a)) ∧
      (a.pair.role = .active → ∀ seq w role ready fw,
        exec (.health seq w role ready fw dt) s = .next (deny 8 0x1011 0 2 a))) ∧
    (∀ seq w role ready fw b, aclAllows a 8 0x1011 0 2 = true → powered a = true → a.pair.laneUp = true → a.pair.role = .active →
      role % 4 = a.pair.partnerRole →
      b = reportPair (modPair (fun p => { p with
        laneSeq := (seq + 1) % 2 ^ 32, health := w % 256, synced := Nat.testBit w 8, partnerRole := role % 4,
        partnerReady := ready, partnerFw := fw })) a →
      exec (.health seq w role ready fw dt) s = .next (if role % 4 = 1 then ceaseFault 7 b else b)) ∧
    (∀ up prefer mac, powered a = true → a.pair.en = true → a.pair.role ≠ .standby →
      exec (.hexluxLaneChange up prefer mac dt) s = .next (reportPair (modPair (fun p => { p with
        laneUp := up, partnerCfg := if up then some (prefer, mac) else none, laneSeq := 0, laneOut := 0, synced := false,
        resync := false, partnerReady := false, partnerRole := 0, health := 0 })) a)) ∧
    (∀ fail unit d, powered a = true →
      (∀ r m, a.health.selftest = some (r, m) →
        exec (.selftestCycleDone fail unit d dt) s = .next (endSelftest r m fail unit a)) ∧
      (a.health.selftest = none → a.pair.role = .standby →
        exec (.selftestCycleDone fail unit d dt) s = .next (endCycle fail unit d a)))

/-! ### Power and boot rows (chapters 18 and 20) -/

/-- R62, R80, R82, R83, R408, R439, R445 to R449: VIN-on or a rise of EN boots a module that is off, or is held during a
power-down; a fall of EN or of VIN through the supervisor threshold starts the power-down, whose end leaves standby
or boots again; the supply crossings are recorded and cease; the boot ends READY, a soft reset too; FW_ALIVE falls;
PERST_N resets the endpoint; link errors are counted. The model's own choices in it: logs 3, 142, 155, 156, 177 and
211. -/
def Obligations.PowerRowsRun : Prop :=
  ∀ (dt : Nat) (s a : State), a = begin_ dt s →
    (a.sys.power = .off → a.sys.junctionOff = false →
      (a.sys.vinOn = false → a.sys.en = true →
        exec (.vinOn dt) s = .next (bootUp { a with sys := { a.sys with vinOn := true } })) ∧
      (a.sys.en = false → a.sys.vinOn = true →
        exec (.enRise dt) s = .next (bootUp { a with sys := { a.sys with en := true } })) ∧
      (a.sys.en = false → a.sys.vinOn = false →
        exec (.enRise dt) s = .next { a with sys := { a.sys with en := true } } ∧
        exec (.vinOn dt) s = .next { a with sys := { a.sys with vinOn := true } })) ∧
    (a.sys.power = .poweringDown →
      (a.sys.vinOn = false →
        exec (.vinOn dt) s = .next { a with sys := { a.sys with vinOn := true, heldRise := true } }) ∧
      (a.sys.en = false → exec (.enRise dt) s = .next { a with sys := { a.sys with en := true, heldRise := true } })) ∧
    (∀ b, powered a = true → b = powerDown a →
      exec (.enFall dt) s = .next { b with sys := { b.sys with en := false, heldRise := false, junctionOff := false } } ∧
      exec (.vinSupFall dt) s = .next { b with sys := { b.sys with
        vinOn := false, heldRise := false, junctionOff := false, vinLow := false, vinHigh := false } }) ∧
    (∀ b c, b = beginUp (s.sys.downAt + 2000000) s → s.sys.power = .poweringDown →
      c = { b with
            sys := { b.sys with power := .off, boot := .boot, heldRise := false }, stop := { b.stop with burst := none } } →
      (s.sys.heldRise = false → exec .powerDownEnd s = .next c) ∧
      (s.sys.heldRise = true → c.sys.en = true → c.sys.vinOn = true → c.sys.junctionOff = false →
        exec .powerDownEnd s = .next (bootUp c))) ∧
    (∀ mv, powered a = true →
      (a.sys.vinLow = false →
        exec (.vinLow mv dt) s = .next (supplyFault 0 mv { a with sys := { a.sys with vinLow := true } })) ∧
      (a.sys.vinHigh = false →
        exec (.vinHigh mv dt) s = .next (supplyFault 1 mv { a with sys := { a.sys with vinHigh := true } })) ∧
      (∀ b, a.sys.vinLow = true → a.sys.vinHigh = true →
        b = ceaseFive (raise 0x0F14 0 [wordOf mv] .all
          { a with sys := { a.sys with vinLow := false }, health := { a.health with vin := mv } }) →
        b.sys.vinHigh = true → exec (.vinFaultCease false mv dt) s = .next b) ∧
      (∀ b, a.sys.vinHigh = true → b = ceaseFive (raise 0x0F14 1 [wordOf mv] .all
          { a with sys := { a.sys with vinHigh := false }, health := { a.health with vin := mv } }) →
        b.sys.vinLow = false → b.sys.vinHigh = false → b.stop.faults.contains 2 = false → b.sys.everReady = true →
        exec (.vinFaultCease true mv dt) s =
          .next (reportPair (fun x => { x with sys := { x.sys with pfaultOut := false } }) b))) ∧
    (∀ (ms : Nat) (b : State), powered a = true → a.sys.boot = .init → a.sys.reloading = false →
      ms = (a.up - a.sys.bootFrom) / 1000000 →
      b = raise 0x0D08 a.sys.bootResult [wordOf (natOfBool a.upd.runB), wordOf (trialCount a), wordOf ms] .none
        (ceaseFault 0 { a with
          sys := { a.sys with
            boot := .ready, everReady := true, stage := 5, bootMs := ms, pfaultOut := a.sys.vinLow || a.sys.vinHigh },
          net := { a.net with loaded := true }, task := { a.task with periodAt := a.now },
          spin := { a.spin with driven := !a.pair.en } }) →
      (b.pair.en = false → exec (.bootReady dt) s = .next b) ∧
      (b.pair.en = true → exec (.bootReady dt) s = .next (arbitrate (bootWait b) b))) ∧
    (powered a = true → a.sys.reloading = true →
      exec (.softResetReady dt) s = .next { a with sys := { a.sys with boot := .ready, reloading := false } }) ∧
    (∀ t b, s.tick.lastCompleted = some t → b = beginUp (t + aliveNs s) s →
      exec .fwAliveTimeout s = .next { b with fsp := { b.fsp with fwAlive := false } }) ∧
    (∀ lanes gen, exec (.perstNChange ⟨false, lanes, gen⟩ dt) s = .next { a with
      sys := { a.sys with perstN := false }, msix := [], msixPend := [], pcie := { a.pcie with width := 0, gen := 0 } }) ∧
    (∀ lanes gen b, a.sys.perstN = false →
      b = { a with sys := { a.sys with perstN := true, perstAt := a.up, hostLanes := lanes, hostGen := gen } } →
      (powered a = false → exec (.perstNChange ⟨true, lanes, gen⟩ dt) s = .next b) ∧
      (powered a = true → exec (.perstNChange ⟨true, lanes, gen⟩ dt) s =
        .next { b with pcie := { b.pcie with width := min 2 lanes, gen := min 3 gen } })) ∧
    (powered a = true → a.sys.perstN = true →
      exec (.pcieLinkError .correctable dt) s =
        .next (setSysErr 2 { a with pcie := { a.pcie with ce := cnt32 a.pcie.ce } }) ∧
      exec (.pcieLinkError .uncorrectable dt) s =
        .next (setSysErr 3 { a with pcie := { a.pcie with ue := cnt32 a.pcie.ue } }) ∧
      exec (.pcieLinkError .replayTimeout dt) s =
        .next (setSysErr 2 { a with pcie := { a.pcie with replays := cnt32 a.pcie.replays } }) ∧
      exec (.pcieLinkError .malformed dt) s =
        .next (setSysErr 3 { a with pcie := { a.pcie with malformed := cnt32 a.pcie.malformed } }) ∧
      ∀ w g, exec (.pcieLinkError (.retrain w g) dt) s =
        .next { a with
          sys := { a.sys with hostLanes := w, hostGen := g },
          pcie := { a.pcie with retrains := cnt32 a.pcie.retrains, width := min 2 w, gen := min 3 g } })

/-! ### Update and health rows (chapters 18 to 20) -/

/-- R412, R415 to R421, R431: an update without use for 600 s is aborted; a verified payload makes the image valid,
another is discarded with ST_AUTH; the loaded bank's record is written; the doff acts at its boundary; the window's
end reverts; the reverted module restarts; a session without use for 300 s ends. The model's own choices in it: logs
139, 141, 145 and 211. -/
def Obligations.UpdateRowsRun : Prop :=
  ∀ (dt : Nat) (s a : State), a = begin_ dt s →
    (powered s = true → (s.upd.state = .open_ ∨ s.upd.state = .headerOk ∨ s.upd.state = .verified) →
      exec .updIdleTimeout s = .next (abortUpd 1 (beginUp (s.upd.lastUse + 600 * nsPerSec) s))) ∧
    (∀ (b : State) (k : Bank) (r : Req), powered a = true → a.upd.state = .verifying → a.upd.verifyReq = some r →
      k = getBank a (staging a) → b = { a with upd := { a.upd with verifyReq := none } } →
      (sha384 k.payload = hdrDigest k.hdr → (isForerunner k.hdr = true ∨ hdrCoreLen k.hdr ≤ k.payload.length) →
        exec (.updVerifyDone dt) s = .next (complete r .ok 0 [] (raise 0x0D02 0 [wordOf (hdrVersion k.hdr)] .all
          (setUpd .verified (setBank (staging a) { k with valid := true } b))))) ∧
      (sha384 k.payload ≠ hdrDigest k.hdr →
        exec (.updVerifyDone dt) s = .next (complete r .auth 3 [] (raise 0x0D02 1 [wordOf (hdrVersion k.hdr)] .all
          (setUpd .headerOk (let c := setBank (staging a) { k with payload := [] } b
                             { c with upd := { c.upd with next := 0 } })))))) ∧
    (∀ b, powered a = true → a.upd.state = .activating → a.upd.recordAt = none → a.upd.window = true →
      b = writeAct (trialRec a) a →
      exec (.updBankLoaded dt) s = .next { b with upd := { b.upd with recordAt := some b.now } }) ∧
    (powered s = true → doffDue s = true → s.upd.state = .activating → s.upd.window = true →
      exec (.doff true) s = .next (doff true (beginAt s.tick.nextAt s)) ∧
      exec (.doff false) s = .next (doffFailed true (beginAt s.tick.nextAt s))) ∧
    (powered s = true → doffDue s = true → s.upd.state = .reverting → s.upd.prevHeld = true →
      exec (.doff true) s = .next (doff false (beginAt s.tick.nextAt s)) ∧
      exec (.doff false) s = .next (doffFailed false (beginAt s.tick.nextAt s))) ∧
    (powered s = true → s.upd.state = .trial → exec .confirmWindowExpire s = .next (startRevert 0
      (beginUp (s.up + ((windowEnd s - s.rec_.opTime) * opUnit - s.rec_.opFrac)) s))) ∧
    (powered a = true → a.upd.revertRestart = true →
      (a.sys.boot = .fault ∨ latched a = true ∧ anySpindleActive a = false ∧
        (a.upd.state ≠ .reverting ∨ ticking a = false ∨ a.now = a.tick.nextAt ∨
          a.tick.started = true ∧ a.now = a.tick.boundary)) →
      exec (.revertRestart dt) s = .next (restart a)) ∧
    (powered s = true → s.session.phase = 2 →
      exec .cfgSessionTimeout s = .next (closeSession 2 (beginUp (s.session.lastUse + 300 * nsPerSec) s)))

/-- R433 to R435, R457, R458: a corrected error is counted, a pass's end is noted; an uncorrectable one acts where it
lies; a failed unit is replaced or retired; the margins are planned again; a lid sample moves its maximum and the
thresholds; the throttle steps 10 s after the last step; an overtemperature of the junction stops the fleet and
powers the module down. The model's own choices in it: logs 147, 155 and 210. -/
def Obligations.HealthRowsRun : Prop :=
  ∀ (dt : Nat) (s a : State), a = begin_ dt s → powered a = true →
    (∀ m row, m ≤ 10 →
      exec (.scrub m row true false dt) s = .next (correctedError m row a) ∧
      exec (.scrub m row false false dt) s = .next a ∧
      exec (.scrub m row false true dt) s = .next (setMem m { getMem a m with scrubEnd := a.now / nsPerSec } a)) ∧
    (∀ m off place, m ≤ 10 → exec (.eccUncorrectable m off place dt) s = .next (uncorrectable m off place a)) ∧
    (∀ u, u.pool = 0 → u.cluster < 4 →
      exec (.unitFailure u dt) s = .next (laneFails u.unit u.cluster u.spareGood a)) ∧
    (∀ u, u.pool = 1 → u.unit < nChannels s.member →
      exec (.unitFailure u dt) s = .next (channelFails u.unit u.spareGood a)) ∧
    (∀ u, u.pool = 2 → u.cluster ≤ 8 →
      exec (.unitFailure u dt) s = .next (rowFails u.cluster u.unit u.place u.spareGood a)) ∧
    (∀ sC sS hour b, powered s = true → s.health.replanHour = hour →
      b = applySolve (beginUp (s.up + (((s.health.replanHour + 1) * 4096 - s.rec_.opTime) * opUnit - s.rec_.opFrac)) s) →
      exec (.marginReplan 0 sC sS hour dt) s =
        .next (replan 0 sC sS { b with health := { b.health with replanHour := b.rec_.opTime / 4096 } })) ∧
    (∀ cause sC sS hour b, 1 ≤ cause → cause ≤ 2 → cause ∈ a.health.replanDue → b = applySolve a →
      exec (.marginReplan cause sC sS hour dt) s = .next (replan cause sC sS
        { b with health := { b.health with replanDue := b.health.replanDue.erase cause } })) ∧
    (∀ t, exec (.lidTempSample t dt) s = .next (rangeStep t (warnStep t { a with health := { a.health with
      lidTemp := t, lidTempMax := max a.health.lidTempMax t,
      throttleAt := if throttleBand t ≠ throttleBand a.health.lidTemp then a.up else a.health.throttleAt } }))) ∧
    (powered s = true → throttled s.health ≠ s.health.fTherm →
      exec .throttleStep s = .next (throttle (beginUp (s.health.throttleAt + 10 * nsPerSec) s))) ∧
    exec (.junctionOvertemp dt) s = .next (afterBurst (thermal 3
      (raiseFault 5 { a with sys := { a.sys with junctionStop := true } })))

/-! ### The block as a whole -/

/-- The block's form: a step carries out the command at the front of the queue, on the state with the queue's rest; with
no command waiting it idles (DESIGN CHOICE, log 4). -/
def Obligations.StepRunsFront : Prop :=
  (∀ (c : Instr) (rest : List Instr) (s : State), s.pending = c :: rest → step s = exec c { s with pending := rest }) ∧
    ∀ s : State, s.pending = [] → step s = .next s

/-- R7, R61, R64, R69, R73, R77, R81, R167, R177, R285, R345, R388: what reset leaves, as the spec's tables give it: no
command waits, no interrupt is set or enabled and every MSI-X entry is masked, every queue pair is disabled and empty
with 1,024 words of credit, the tick has period 5 ms, guard 12 % and GO offset 500 us, the stop latch is set in both
channels with cause 4, the downlink counter is 1, the source list is 1, 2, 4, and the host side meets its invariant. -/
def Obligations.ResetValues : Prop :=
  State.reset.pending = [] ∧ State.reset.intEn = 0 ∧ (∀ k, State.reset.intStat.getD k false = false) ∧
    (∀ k, (tabGet State.reset.msix k MsixEntry.init).masked = true) ∧
    (∀ q x, x = getQ State.reset q → x.en = false ∧ x.push = false ∧ x.strand = 100 ∧ x.wmCmdCfg = 768 ∧
      x.wmEvtCfg = 3072 ∧ x.coalCfgCount = 1 ∧ x.coalCfgTime = 0 ∧ x.ringBase = 0 ∧ x.ringLog2 = 12 ∧ x.ringHead = 0 ∧
      x.wbAddr = 0 ∧ x.cmd.credLimit = 1024 ∧ x.cmd.wordsTaken = 0 ∧ x.evt.words = []) ∧
    State.reset.sys.boot = .boot ∧ State.reset.tick.number = 0 ∧ State.reset.tick.period = 5 ∧
    State.reset.tick.guardSet = 12 ∧ State.reset.tick.offset = 500 ∧ State.reset.stop.chanX = true ∧
    State.reset.stop.chanY = true ∧ State.reset.stop.cause = 4 ∧ State.reset.stop.immediate = true ∧
    State.reset.uz.seq = 1 ∧ State.reset.uz.sessTimeout = 20 ∧ State.reset.time.raw = true ∧
    State.reset.time.src.list = [1, 2, 4, 0] ∧ State.reset.pair.role = .lone ∧ State.reset.pair.switchTicks = 2 ∧
    State.reset.gnss.sigEn = 0x1FFFFF ∧ State.reset.gnss.mask = 10 ∧ State.reset.upd.state = .idle ∧
    State.reset.net.ageTime = 300 ∧ State.reset.task.cfg.period = 100 ∧ State.reset.health.fTherm = 1000 ∧
    HostInv State.reset

/-- R64, R69, R71: whatever command is carried out, INT_STAT keeps its 32 bits with 23 to 31 reading 0, no event side
holds more than its 4,096 words, and no queue pair's outstanding words and credit exceed 1,024. The model's own
choices in it: log 10. -/
def Obligations.StepKeepsHostInv : Prop := ∀ s t : State, HostInv s → step s = .next t → HostInv t

/-- R29, R32, R46 to R50: the words of a well-formed packet, read back by the interpreter's own fields, are the command
they were written from, with every opcode, flag, LENGTH, TAG, time and parameter it admits; and the opcode leads to
its own command. The model's own choices in it: log 10. -/
def Obligations.PacketRoundTrip : Prop :=
  (∀ (op ep : Nat) (c : Cmd), op < 4096 → cmdShape c = true →
    reqOfWords c.q ep (cmdWords op c) c.net = reqOfCmd op c ep ∧ (cmdWords op c).length = c.len ∧
      ∀ w r, cmdWords op c = w :: r → fld w 0 15 = c.len ∧ fld w 20 31 = op) ∧
    ∀ (i : Instr) (d : Desc) (c : Cmd), hostDesc i = some (d, c) → d.op < 4096 ∧ descOf d.op = some d

/-- R51: a command that fails a check of its own answers with that check's status, DETAIL and words, and has no effect:
all but the clocks, the queue pair, the counters and the interrupt bits stays. The model's own choices in it: logs 10
and 12. -/
def Obligations.RefusedCommandOnlyAnswers : Prop :=
  ∀ (i : Instr) (d : Desc) (c : Cmd) (s : State) (f : Fail), hostDesc i = some (d, c) → unhindered d c s = true →
    s.sys.softReq = false → d.body (arrivedReq d c s) (arrived d c s) = .error f →
    ∃ t, exec i s = .next t ∧ t = finish (arrivedReq d c s) f.status f.detail f.words (arrived d c s) ∧ t.still = s.still ∧
      ∀ k, k ≠ c.q → getQ t k = getQ s k

/-- The frame of the answer statements: the passing of time, a command's arrival on a queue pair, its answer and its
acceptance leave every other queue pair and all else alone but the clocks, the counters, the chains and the interrupt
bits. The model's own choices in it: logs 5, 10 and 199. -/
def Obligations.AnswersKeepTheRest : Prop :=
  (∀ (t : Nat) (s : State), ((begin_ t s).still = s.still ∧ (beginInput t s).still = s.still ∧ (beginAt t s).still = s.still ∧
        (beginUp t s).still = s.still) ∧
      (begin_ t s).queues = s.queues ∧ (beginInput t s).queues = s.queues ∧ (beginAt t s).queues = s.queues ∧
      (beginUp t s).queues = s.queues) ∧
    (∀ (d : Desc) (c : Cmd) (s : State), c.q < 16 → (arrived d c s).still = s.still ∧
      ∀ k, k ≠ c.q → getQ (arrived d c s) k = getQ s k) ∧
    (∀ (r : Req) (st : Status) (n : Nat) (ws : List Word) (s : State), r.q < 16 → r.job = none →
      (finish r st n ws s).still = s.still ∧ (accepted r s).still = s.still ∧
        ∀ k, k ≠ r.q → getQ (finish r st n ws s) k = getQ s k ∧ getQ (accepted r s) k = getQ s k)

/-- R31, R47, R53: a command with EV = 1 that checks 2 to 4 of R51 admit answers ST_BAD_PARAM with DETAIL 0xFF01 and has
no other effect; a header with LENGTH 0 answers ST_BAD_LENGTH with DETAIL 0xFF30 and TAG 0, and the next word is a
header; a command with the number 0xFF of any group answers ST_BAD_OPCODE. -/
def Obligations.HeaderFaultsAnswer : Prop :=
  (∀ (i : Instr) (d : Desc) (c : Cmd) (s a : State) (r : Req), hostDesc i = some (d, c) → c.ev = true → c.q < 16 →
    cmdShape c = true → queServed s c.q = true → qEnabled (getQ s c.q) = true → cmdIdle (getQ s c.q).cmd = true →
    roomFor s c.q (max 3 d.maxResp) = true → s.sys.softReq = false → r = (packetTaken d c s).1 → a = arrived d c s →
    (a.sys.boot ≠ .fault ∨ recoveryOk r.op = true) → groupAllows a r (d.isRead r) = true → lengthOk d r = true →
    ∃ t, exec i s = .next t ∧ t = finish r .badParam 0xFF01 [] a ∧ t.still = s.still ∧
      ∀ k, k ≠ c.q → getQ t k = getQ s k) ∧
    (∀ (q : Nat) (w : Word) (s t : State) (x : Queue), q < 16 → x = getQ s q → x.cmd.purge = none → x.cmd.part = [] →
      x.faulted = false → x.evt.waiting = [] → x.evt.words.length + 3 ≤ 4096 → fld w 0 15 = 0 → t = readWord descOf q w s →
      (getQ t q).evt.words = x.evt.words ++
        markWords [packetHeader (fld w 20 31) false 3, 0, statusWord .badLength false 0xFF30] ∧
      t.still = s.still ∧
      ∀ v, 2 ≤ fld v 0 15 → fld v 0 15 ≤ 4096 → (getQ (readWord descOf q v t) q).cmd.part = [v]) ∧
    (∀ (g : Nat) (r : Req) (s : State), r.op = g * 256 + 255 → ∃ n, take (descOf r.op) r s =
      finish (enterChain { r with stamp := s.now } s).1 .badOpcode n [] (enterChain { r with stamp := s.now } s).2.2.2)

/-- R264: a preset sets I to the saturated and clamped difference of the target and the terms of the present evaluation
under the set in force, and never changes E_PREV: in a swap, in the tracking of a losing law, and in a servo's
preset. -/
def Obligations.PresetFormula : Prop :=
  (∀ (c : CoefSet) (target p d ff : Int), c.iMin ≤ c.iMax → presetI c target p d ff =
    nearest (c.iMin * 2 ^ 16) (c.iMax * 2 ^ 16) (nearest (-2 ^ 47) (2 ^ 47 - 1) ((target - p - d - ff) * 2 ^ 16))) ∧
    (∀ (l : Law) (e ff : Int), l.swap = true → (swapIn l e ff).i =
        presetI (inactiveSet l) l.uPrev (termP (inactiveSet l) e) (termD (inactiveSet l) e l.ePrev) ff ∧
      (swapIn l e ff).ePrev = l.ePrev) ∧
    (∀ (o : LawOut) (top : Int), (activeSet o.law).ki ≠ 0 →
      (trackLaw o top).i = presetI (activeSet o.law) (top + o.p) o.p o.d o.ff ∧ (trackLaw o top).ePrev = o.law.ePrev) ∧
    (∀ (j : Nat) (s : State) (l : Law), l = servoLaw s j →
      (servoLaw (presetServo j s) j).i =
        presetI (activeSet l) l.uPrev (termP (activeSet l) 0) (termD (activeSet l) 0 l.ePrev) 0 ∧
      (servoLaw (presetServo j s) j).ePrev = l.ePrev)

/-- R64: source k of INT_STAT is served by vector k, and the vector sends one message on each transition of its bit from
0 to 1 while its INT_EN bit is 1 and its entry is unmasked, and no other; sources 23 to 31 never set. -/
def Obligations.InterruptMessages : Prop :=
  ∀ (k : Nat) (s : State), s.intStat.length = 32 → (23 ≤ k → setInt k s = s) ∧ (k < 23 →
    (s.intStat.getD k false = false → s.intEn.getLsbD k = true → (tabGet s.msix k MsixEntry.init).masked = false →
      (setInt k s).out = s.out ++ [.msix k]) ∧
    (s.intStat.getD k false = true ∨ s.intEn.getLsbD k = false ∨ (tabGet s.msix k MsixEntry.init).masked = true →
      (setInt k s).out = s.out) ∧
    (setInt k s).intStat.getD k false = true ∧
    (∀ j, j ≠ k → (setInt k s).intStat.getD j false = s.intStat.getD j false) ∧ (setInt k s).intEn = s.intEn)
end

