-- ==== Sys2Proof/Laws/Host.lean ====
section
/-! SUPPORT. Laws of the index tables, and what keeps the registers of the host side as their tables say (R64, R69, R71),
the member and the commands that wait. -/
set_option autoImplicit false

namespace Sys2Proof.Machine

variable {m : Member} {p : List Instr}

theorem tabGet_mem {α : Type} (t : Tab α) (i : Nat) (d : α) : tabGet t i d = d ∨ (i, tabGet t i d) ∈ t := by
  induction t with
  | nil => exact .inl rfl
  | cons p r ih =>
    obtain ⟨j, a⟩ := p
    simp only [tabGet]
    split
    · subst_vars; simp
    · split
      · simp
      · rcases ih with h | h
        · exact .inl h
        · exact .inr (List.mem_cons_of_mem _ h)

theorem tabSet_mem {α : Type} (t : Tab α) (i : Nat) (a : α) (p : Nat × α) (h : p ∈ tabSet t i a) : p = (i, a) ∨ p ∈ t := by
  induction t with
  | nil => simp [tabSet] at h; exact .inl h
  | cons q r ih =>
    obtain ⟨j, b⟩ := q
    simp only [tabSet] at h
    split at h
    · rcases List.mem_cons.mp h with h | h
      · exact .inl h
      · exact .inr (List.mem_cons_of_mem _ h)
    · split at h
      · rcases List.mem_cons.mp h with h | h
        · exact .inl h
        · exact .inr h
      · rcases List.mem_cons.mp h with h | h
        · exact .inr (h ▸ List.mem_cons_self ..)
        · rcases ih h with h | h
          · exact .inl h
          · exact .inr (List.mem_cons_of_mem _ h)

theorem tabGet_tabSet {α : Type} (t : Tab α) (i : Nat) (a d : α) : tabGet (tabSet t i a) i d = a := by
  induction t with
  | nil => simp [tabSet, tabGet]
  | cons p r ih =>
    obtain ⟨j, b⟩ := p
    simp only [tabSet]
    split
    · subst_vars; simp [tabGet]
    · rename_i h1
      split
      · simp [tabGet]
      · rename_i h2
        simp [tabGet, h1, h2, ih]

theorem getQ_setQ (q : Nat) (x : Queue) (s : State) : getQ (setQ q x s) q = x := tabGet_tabSet ..

theorem getQ_modQ (q : Nat) (f : Queue → Queue) (s : State) : getQ (modQ q f s) q = f (getQ s q) := getQ_setQ ..

theorem Queue.init_keepsHost : QueueOk Queue.init := by
  unfold QueueOk CmdOk
  decide

theorem getQ_okq (s : State) (q : Nat) (h : QueuesOk s.queues) : QueueOk (getQ s q) := by
  unfold getQ
  rcases tabGet_mem s.queues q Queue.init with e | e
  · rw [e]; exact Queue.init_keepsHost
  · exact h _ e

theorem setQ_keepsHost (q : Nat) (x : Queue) (s : State) (hx : QueueOk x) (h : HostOk m p s.view) : HostOk m p (setQ q x s).view := by
  refine ⟨h.1, h.2.1, h.2.2.1, fun y hy => ?_⟩
  rcases tabSet_mem _ _ _ _ hy with e | e
  · rw [e]; exact hx
  · exact h.2.2.2 _ e

theorem modQ_keepsHost (q : Nat) (f : Queue → Queue) (s : State) (hf : ∀ x, QueueOk x → QueueOk (f x)) (h : HostOk m p s.view) :
    HostOk m p (modQ q f s).view :=
  setQ_keepsHost _ _ _ (hf _ (getQ_okq s q h.2.2.2)) h

/-- A change of a queue pair that touches neither its event-side words nor its command FIFO. -/
theorem modQ_keep_keepsHost (q : Nat) (f : Queue → Queue) (s : State) (hw : ∀ x, (f x).evt.words = x.evt.words)
    (hc : ∀ x, (f x).cmd = x.cmd) (h : HostOk m p s.view) : HostOk m p (modQ q f s).view :=
  modQ_keepsHost q f s (fun x hx => by unfold QueueOk evtLevel; rw [hw, hc]; exact hx) h

/-- A change of a command side that touches neither the words in it nor the credit. -/
theorem modCmd_keep_keepsHost (q : Nat) (f : CmdSide → CmdSide) (s : State)
    (hf : ∀ c, (f c).vis = c.vis ∧ (f c).inv = c.inv ∧ (f c).open_ = c.open_ ∧ (f c).credLimit = c.credLimit ∧
      (f c).wordsTaken = c.wordsTaken) (h : HostOk m p s.view) : HostOk m p (modCmd q f s).view := by
  refine modQ_keepsHost _ _ _ (fun x hx => ⟨hx.1, ?_⟩) h
  obtain ⟨a, b, c, d, e⟩ := hf x.cmd
  unfold CmdOk outstanding
  dsimp only
  rw [a, b, c, d, e]
  exact hx.2

/-- A change of a command side that keeps the credit. -/
theorem modCmd_keepsHost (q : Nat) (f : CmdSide → CmdSide) (s : State) (hf : ∀ c, CmdOk c → CmdOk (f c)) (h : HostOk m p s.view) :
    HostOk m p (modCmd q f s).view :=
  modQ_keepsHost _ _ _ (fun x hx => ⟨hx.1, hf _ hx.2⟩) h

theorem foldl_keepsHost {α : Type} (l : List α) (g : State → α → State) (s : State)
    (hg : ∀ a x, HostOk m p a.view → HostOk m p (g a x).view) (h : HostOk m p s.view) : HostOk m p (l.foldl g s).view := by
  induction l generalizing s with
  | nil => exact h
  | cons x r ih => exact ih _ (hg _ _ h)

theorem letOk {f : State → State} {e : State} (he : HostOk m p e.view) (hf : ∀ y, HostOk m p y.view → HostOk m p (f y).view) :
    HostOk m p (let y := e; f y).view := hf e he

theorem letAny {α : Type} {f : α → State} {e : α} (hf : ∀ y, HostOk m p (f y).view) : HostOk m p (let y := e; f y).view := hf e

theorem ite_keepsHost {c : Prop} [Decidable c] {a b : State} (ha : HostOk m p a.view) (hb : HostOk m p b.view) :
    HostOk m p (if c then a else b).view := by
  split
  · exact ha
  · exact hb

theorem setStat_keepsHost (k : Nat) (l : List Bool) (b : Bool) (hk : k < 23) (h : IntStatOk l) : IntStatOk (l.set k b) := by
  refine ⟨by simp [h.1], fun j hj => ?_⟩
  have := h.2 j hj
  have hne : k ≠ j := by omega
  simpa [List.getD, List.getElem?_set, hne] using this

theorem setInt_keepsHost (k : Nat) (s : State) (h : HostOk m p s.view) : HostOk m p (setInt k s).view := by
  unfold setInt
  split
  · exact h
  · rename_i hk
    have h2 := setStat_keepsHost k s.intStat true (by omega) h.2.2.1
    dsimp only
    split
    · split
      · exact ⟨h.1, h.2.1, h2, h.2.2.2⟩
      · exact ⟨h.1, h.2.1, h2, h.2.2.2⟩
    · exact ⟨h.1, h.2.1, h2, h.2.2.2⟩

theorem setQueFlag_keepsHost (q : Nat) (f : QueFlag) (s : State) (h : HostOk m p s.view) : HostOk m p (setQueFlag q f s).view := by
  have h1 : HostOk m p (modQ q (fun x => { putQueFlag f true x with occ := occInc x.occ (queFlagNo f) }) s).view :=
    modQ_keep_keepsHost _ _ _ (fun _ => by cases f <;> rfl) (fun _ => by cases f <;> rfl) h
  unfold setQueFlag
  cases f <;> simp only <;> first | exact setInt_keepsHost _ _ h1 | exact h1

theorem setSysErr_keepsHost (i : Nat) (s : State) (h : HostOk m p s.view) : HostOk m p (setSysErr i s).view := setInt_keepsHost _ _ h

theorem countQ_keepsHost (q : Nat) (f : QueCounters → QueCounters) (s : State) (h : HostOk m p s.view) :
    HostOk m p (countQ q f s).view := by
  unfold countQ
  split
  · exact h
  · exact modQ_keep_keepsHost _ _ _ (fun _ => rfl) (fun _ => rfl) h

theorem coalesce_keepsHost (q : Nat) (s : State) (h : HostOk m p s.view) : HostOk m p (coalesce q s).view := by
  unfold coalesce
  dsimp only
  split
  · exact modQ_keep_keepsHost _ _ _ (fun _ => rfl) (fun _ => rfl) h
  · split
    · exact setInt_keepsHost _ _ (modQ_keep_keepsHost _ _ _ (fun _ => rfl) (fun _ => rfl) h)
    · exact modQ_keep_keepsHost _ _ _ (fun _ => rfl) (fun _ => rfl) h

theorem markWords_length (ws : List Word) : (markWords ws).length = ws.length := by simp [markWords]

/-- A packet is placed only where the event side has room for it (R71). -/
theorem placePacket_keepsHost (q : Nat) (ws : List Word) (s : State) (hl : evtLevel (getQ s q) + ws.length ≤ 4096)
    (h : HostOk m p s.view) : HostOk m p (placePacket q ws s).view := by
  unfold placePacket
  apply coalesce_keepsHost
  refine setQ_keepsHost _ _ _ ⟨?_, (getQ_okq s q h.2.2.2).2⟩ h
  simpa [evtLevel, markWords_length] using hl

theorem placeOrWait_keepsHost (q : Nat) (ws : List Word) (s : State) (h : HostOk m p s.view) : HostOk m p (placeOrWait q ws s).view := by
  unfold placeOrWait
  dsimp only
  split
  · rename_i hc
    simp at hc
    exact placePacket_keepsHost _ _ _ hc.2 h
  · exact modQ_keep_keepsHost _ _ _ (fun _ => rfl) (fun _ => rfl) h

theorem placeWaiting_keepsHost (q : Nat) (l : List (List Word)) (s : State) (h : HostOk m p s.view) :
    HostOk m p (placeWaiting q l s).view := by
  induction l generalizing s with
  | nil => exact modQ_keep_keepsHost _ _ _ (fun _ => rfl) (fun _ => rfl) h
  | cons ws r ih =>
    unfold placeWaiting
    split
    · rename_i hl; exact ih _ (placePacket_keepsHost _ _ _ hl h)
    · exact modQ_keep_keepsHost _ _ _ (fun _ => rfl) (fun _ => rfl) h

theorem postEvent_keepsHost (code detail t : Nat) (payload : List Word) (q : Nat) (tag : Word) (s : State)
    (h : HostOk m p s.view) : HostOk m p (postEvent code detail t payload q tag s).view := by
  unfold postEvent
  dsimp only
  split
  · have h1 : HostOk m p (modQ q (fun x => { x with evt := { x.evt with evseq := x.evt.evseq + 1 } }) s).view :=
      modQ_keep_keepsHost _ _ _ (fun _ => rfl) (fun _ => rfl) h
    generalize hz : (if (getQ s q).evt.waiting.isEmpty then modQ q (fun x => { x with evt := { x.evt with evseq := x.evt.evseq + 1 } }) s
      else placeWaiting q (getQ s q).evt.waiting (modQ q (fun x => { x with evt := { x.evt with evseq := x.evt.evseq + 1 } }) s)) = z
    have h2 : HostOk m p z.view := by
      rw [← hz]; exact ite_keepsHost h1 (placeWaiting_keepsHost _ _ _ h1)
    split
    · rename_i hl
      simp at hl
      exact placePacket_keepsHost _ _ _ (Nat.le_trans hl.2 (by decide)) h2
    · exact setQueFlag_keepsHost _ _ _ (countQ_keepsHost _ _ _ h2)
  · exact h

end Sys2Proof.Machine
end

