-- ==== Sys2Proof/Laws/State.lean ====
section
/-! SUPPORT. What the passing of time and the FIFO of a queue pair leave as it was, field by field. -/
set_option autoImplicit false

namespace Sys2Proof.Machine

@[simp] theorem begin_sys (dt : Nat) (s : State) : (begin_ dt s).sys = s.sys := by
  unfold begin_ advance passOpTime; split <;> rfl

@[simp] theorem begin_queues (dt : Nat) (s : State) : (begin_ dt s).queues = s.queues := by
  unfold begin_ advance passOpTime; split <;> rfl

@[simp] theorem begin_getQ (dt q : Nat) (s : State) : getQ (begin_ dt s) q = getQ s q := by
  unfold getQ; rw [begin_queues]

@[simp] theorem begin_queServed (dt q : Nat) (s : State) : queServed (begin_ dt s) q = queServed s q := by
  unfold queServed powered; rw [begin_sys]

@[simp] theorem beginInput_sys (dt : Nat) (s : State) : (beginInput dt s).sys = s.sys := by
  unfold beginInput passOpTime; dsimp only; split
  · split <;> exact begin_sys dt s
  · exact begin_sys dt s

@[simp] theorem beginInput_queues (dt : Nat) (s : State) : (beginInput dt s).queues = s.queues := by
  unfold beginInput passOpTime; dsimp only; split
  · split <;> exact begin_queues dt s
  · exact begin_queues dt s

@[simp] theorem beginInput_getQ (dt q : Nat) (s : State) : getQ (beginInput dt s) q = getQ s q := by
  unfold getQ; rw [beginInput_queues]

@[simp] theorem beginInput_queServed (dt q : Nat) (s : State) : queServed (beginInput dt s) q = queServed s q := by
  unfold queServed powered; rw [beginInput_sys]

/-! ### Fields of words -/

/-- A field of a word built from a number is the number's. -/
theorem fld_wordOf (n lo hi : Nat) (h : hi < 32) (hl : lo ≤ hi) :
    fld (wordOf n) lo hi = n / 2 ^ lo % 2 ^ (hi + 1 - lo) := by
  unfold fld wordOf
  rw [BitVec.toNat_ofNat]
  have e : (2 : Nat) ^ 32 = 2 ^ lo * (2 ^ (hi + 1 - lo) * 2 ^ (31 - hi)) := by
    rw [← Nat.pow_add, ← Nat.pow_add]; congr 1; omega
  rw [e, Nat.mod_mul_right_div_self, Nat.mod_mul_right_mod]

theorem bitAt_wordOf (n i : Nat) (h : i < 32) : bitAt (wordOf n) i = decide (n / 2 ^ i % 2 = 1) := by
  have k := fld_wordOf n i i h (Nat.le_refl i)
  unfold fld at k
  have e : i + 1 - i = 1 := by omega
  rw [e] at k
  unfold bitAt
  rw [show (2 : Nat) = 2 ^ 1 from rfl, show ((2 ^ 1 : Nat)) ^ i = 2 ^ i from rfl, k]

/-! ### The FIFO -/

/-- What passes through the FIFO leaves the event side and the registers of the queue pair. -/
theorem passFifo_evt (q n : Nat) (s : State) (h : q < 16) :
    (getQ (passFifo q n s) q).evt = (getQ s q).evt ∧ (getQ (passFifo q n s) q).epoch = (getQ s q).epoch := by
  have e : q ≠ 16 := by omega
  unfold passFifo countQ
  rw [if_neg e, getQ_modQ, getQ_modQ]
  exact ⟨rfl, rfl⟩

/-! ### Tables and queue pairs -/

/-- Setting one index of a table leaves every other as it was. -/
theorem tabGet_tabSet_ne {α : Type} (t : Tab α) (i j : Nat) (a d : α) (h : j ≠ i) :
    tabGet (tabSet t i a) j d = tabGet t j d := by
  induction t with
  | nil => simp [tabSet, tabGet, h]
  | cons p r ih =>
    obtain ⟨k, b⟩ := p
    unfold tabSet
    split
    · subst_vars; simp [tabGet, h]
    · split
      · simp only [tabGet, h, if_false]
        split
        · have h1 : ¬ j = k := by omega
          have h2 : j < k := by omega
          simp [h1, h2]
        · rfl
      · simp only [tabGet, ih]

theorem tabSet_tabSet {α : Type} (t : Tab α) (i : Nat) (a b : α) : tabSet (tabSet t i a) i b = tabSet t i b := by
  induction t with
  | nil => simp [tabSet]
  | cons p r ih =>
    obtain ⟨k, c⟩ := p
    by_cases h : i = k
    · subst h; simp [tabSet]
    · by_cases h2 : i < k
      · simp [tabSet, h, h2]
      · simp [tabSet, h, h2, ih]

theorem getQ_modQ_ne (q k : Nat) (f : Queue → Queue) (s : State) (h : k ≠ q) : getQ (modQ q f s) k = getQ s k :=
  tabGet_tabSet_ne _ _ _ _ _ h

theorem setQ_setQ (q : Nat) (x y : Queue) (s : State) : setQ q y (setQ q x s) = setQ q y s := by
  unfold setQ; rw [tabSet_tabSet]

/-- Setting an interrupt bit leaves the queue pairs. -/
@[simp] theorem setInt_queues (k : Nat) (s : State) : (setInt k s).queues = s.queues := by
  unfold setInt; dsimp only
  split
  · rfl
  · split
    · split
      · split <;> rfl
      · rfl
    · rfl

theorem nRobots_le (m : Member) : nRobots m ≤ 128 := by cases m <;> decide

end Sys2Proof.Machine
end

