-- ==== Sys2Proof/Laws/Arrive.lean ====
section
/-! SUPPORT. What a host command does that meets nothing in its way: its answer is that of its own checks and effect
(R51). -/
set_option autoImplicit false

namespace Sys2Proof.Machine

variable {d : Desc} {c : Cmd} {s t : State} {rep : Reply} {f : Fail}

/-- The parts of `unhindered`. -/
theorem unhindered_parts (h : unhindered d c s = true) :
    c.q < 16 ∧ c.ch = false ∧ c.at_ = false ∧ cmdShape c = true ∧ queServed s c.q = true ∧
      qEnabled (getQ s c.q) = true ∧ cmdIdle (getQ s c.q).cmd = true ∧ roomFor s c.q (max 3 d.maxResp) = true ∧
      admits d (packetTaken d c s).1 (arrived d c s) = true := by
  simpa [unhindered, and_assoc] using h

theorem admits_parts {r : Req} {a : State} (h : admits d r a = true) :
    a.sys.boot = .ready ∧ groupAllows a r (d.isRead r) = true ∧ lengthOk d r = true ∧ r.ev = false ∧
      (decide (a.pair.role ≠ .standby) || d.standbyOk r) = true ∧ (!a.upd.window || d.isRead r || d.updOk) = true ∧
      ∃ u, d.lock r a = .ok u := by
  simp only [admits, Bool.and_eq_true, decide_eq_true_eq, Bool.not_eq_true'] at h
  obtain ⟨⟨⟨⟨⟨⟨h1, h2⟩, h3⟩, h4⟩, h5⟩, h6⟩, h7⟩ := h
  refine ⟨h1, h2, h3, h4, h5, h6, ?_⟩
  unfold passes at h7
  split at h7
  · exact ⟨_, ‹_›⟩
  · cases h7

theorem need_ok {x : Bool} {st : Status} {n : Nat} (h : x = true) : need x st n = .ok () := by subst h; rfl

theorem headerChecks_admits {r : Req} {a : State} (h : admits d r a = true) : headerChecks d r a = .ok () := by
  obtain ⟨h1, h2, h3, h4, h5, h6, u, h7⟩ := admits_parts h
  have e1 : (!(decide (a.sys.boot = .fault) && !recoveryOk r.op)) = true := by rw [h1]; rfl
  have e4 : (!r.ev) = true := by rw [h4]; rfl
  unfold headerChecks
  rw [need_ok e1, need_ok h2, need_ok h3, need_ok e4, need_ok h5, need_ok h6, h7]
  rfl

theorem roomFor_mono {q n k : Nat} (hk : k ≤ n) (h : roomFor s q n = true) : roomFor s q k = true := by
  simp only [roomFor, Bool.or_eq_true, Bool.and_eq_true, decide_eq_true_eq] at h ⊢
  rcases h with h | ⟨h1, h2⟩
  · exact .inl h
  · exact .inr ⟨h1, by omega⟩

/-- An unhindered command is received and taken at once. -/
theorem arrive_take (h : unhindered d c s = true) :
    arrive d c s = .next (settle (take (some d) (reqOfCmd d.op c (getQ s c.q).epoch)
      (passFifo c.q c.len (beginInput c.dt s)))) := by
  obtain ⟨hq, hc, ha, hs, hv, he, hi, hr, hd⟩ := unhindered_parts h
  have hq' : ¬ 16 < c.q := by omega
  have hq2 : c.q ≠ 16 := by omega
  obtain ⟨k1, k2⟩ := passFifo_evt c.q c.len (beginInput c.dt s) hq
  have hroom : roomFor (passFifo c.q c.len (beginInput c.dt s)) c.q (max 3 d.maxResp) = true := by
    simp only [roomFor, evtLevel, k1, beginInput_getQ] at hr ⊢; exact hr
  unfold arrive hostCommand
  rw [if_neg hq', if_neg hq2]
  simp only [beginInput_queServed, hv, beginInput_getQ, he, hi, hs, receive, if_true, Bool.not_true, Bool.and_self]
  have h3 : ∀ n, n ≤ max 3 d.maxResp → roomFor (passFifo c.q c.len (beginInput c.dt s))
      (reqOfCmd d.op c (getQ s c.q).epoch).q n = true := fun n hn => roomFor_mono hn hroom
  rw [if_pos (h3 _ (by split <;> omega))]
  rfl

/-- A command without AT and CH on a module that is READY runs at once (R43, R51). -/
theorem runNow_plain {r : Req} {a : State} (hc : r.ch = false) (ha : r.at_ = false) (hb : a.sys.boot = .ready) :
    runNow d r true a = match d.body { r with eff := d.eff } a with
      | .error f => failReq { r with eff := d.eff } f a
      | .ok (t, rep) => perform { r with eff := d.eff } t rep := by
  obtain ⟨op, q, ep, tag, ev, at_, nr, ch, len, ex, ps, st, pid, job, net, late, acc, eff⟩ := r
  dsimp only at hc ha
  subst hc ha
  have hg : ∀ r', gatedBody d r' a = d.body r' a := fun r' => by
    unfold gatedBody; rw [if_neg (by rw [hb]; rintro ⟨h, -⟩; cases h)]
  unfold runNow lateness waitsForTime
  dsimp only
  rw [hg]
  split <;> rename_i e <;> (try rw [e]) <;> rfl

/-- What an unhindered command answers is what its own checks and its effect make of it. -/
theorem arrive_runs (h : unhindered d c s = true) :
    arrive d c s = .next (settle (match d.body (arrivedReq d c s) (arrived d c s) with
      | .error f => failReq (arrivedReq d c s) f (arrived d c s)
      | .ok (t, rep) => perform (arrivedReq d c s) t rep)) := by
  obtain ⟨hq, hc, ha, hs, hv, he, hi, hr, hd⟩ := unhindered_parts h
  have hb := (admits_parts hd).1
  have hl := (admits_parts hd).2.2.1
  have hh := headerChecks_admits hd
  rw [arrive_take h]
  congr 2
  have e : take (some d) (reqOfCmd d.op c (getQ s c.q).epoch) (passFifo c.q c.len (beginInput c.dt s)) =
      runNow d { (packetTaken d c s).1 with ch := false } true (arrived d c s) := by
    have kc : (packetTaken d c s).1.ch = false := hc
    have e0 : enterChain { reqOfCmd d.op c (getQ s c.q).epoch with stamp := (passFifo c.q c.len (beginInput c.dt s)).now }
      (passFifo c.q c.len (beginInput c.dt s)) = packetTaken d c s := rfl
    have ea : laneCommand (packetTaken d c s).1 (countQ (packetTaken d c s).1.q (fun n => { n with accepted := cnt32 n.accepted })
      (packetTaken d c s).2.2.2) = arrived d c s := rfl
    unfold take
    rw [e0]
    rcases hp : packetTaken d c s with ⟨r1, n1, o1, s1⟩
    rw [hp] at kc hl hh ea
    dsimp only at kc hl hh ea ⊢
    rw [if_pos hl, ea, hh]
    dsimp only
    rw [kc]
    rfl
  rw [e]
  exact runNow_plain (r := { (packetTaken d c s).1 with ch := false }) rfl ha hb

/-- An unhindered command whose body answers ST_OK. -/
theorem arrive_answered {n : Nat} {ws : List Word} (h : unhindered d c s = true)
    (hb : d.body (arrivedReq d c s) (arrived d c s) = .ok (t, .ok n ws)) : arrive d c s = answered d c s n ws t := by
  rw [arrive_runs h, hb]; rfl

/-- An unhindered command whose body leaves its answer for later. -/
theorem arrive_deferred (h : unhindered d c s = true)
    (hb : d.body (arrivedReq d c s) (arrived d c s) = .ok (t, .later false)) : arrive d c s = deferred d c s t := by
  rw [arrive_runs h, hb]; rfl

/-- An unhindered command whose body refuses it has no effect but the answer (R51). -/
theorem arrive_refused (h : unhindered d c s = true) (hb : d.body (arrivedReq d c s) (arrived d c s) = .error f) :
    arrive d c s = .next (settle (failReq (arrivedReq d c s) f (arrived d c s))) := by
  rw [arrive_runs h, hb]

/-- A host command is what arrives under its descriptor. -/
theorem exec_host (i : Instr) (d : Desc) (c : Cmd) (s : State) (h : hostDesc i = some (d, c)) : exec i s = arrive d c s := by
  cases i <;> simp only [hostDesc, Option.some.injEq, Prod.mk.injEq, reduceCtorEq] at h <;> obtain ⟨rfl, rfl⟩ := h <;> rfl

end Sys2Proof.Machine
end

