-- ==== Sys2Proof/Laws/Tables.lean ====
section
/-! SUPPORT. What each table of the state reads after one of its entries is written: the new value there, and what it read
before anywhere else. -/
set_option autoImplicit false

namespace Sys2Proof.Machine

@[simp] theorem getNavSub_setNavSub (q : Nat) (x : NavSub) (s : State) : getNavSub (setNavSub q x s) q = x := tabGet_tabSet ..

theorem getNavSub_setNavSub_ne (q k' : Nat) (x : NavSub) (s : State) (h : k' ≠ q) : getNavSub (setNavSub q x s) k' = getNavSub s k' :=
  tabGet_tabSet_ne _ _ _ _ _ h

@[simp] theorem getStream_setStream (k : Nat) (x : Stream) (s : State) : getStream (setStream k x s) k = x := tabGet_tabSet ..

theorem getStream_setStream_ne (k k' : Nat) (x : Stream) (s : State) (h : k' ≠ k) : getStream (setStream k x s) k' = getStream s k' :=
  tabGet_tabSet_ne _ _ _ _ _ h

@[simp] theorem getChan_setChan (c : Nat) (x : Channel) (s : State) : getChan (setChan c x s) c = x := tabGet_tabSet ..

theorem getChan_setChan_ne (c k' : Nat) (x : Channel) (s : State) (h : k' ≠ c) : getChan (setChan c x s) k' = getChan s k' :=
  tabGet_tabSet_ne _ _ _ _ _ h

@[simp] theorem getIsb_setIsb (sys : Nat) (x : Isb) (s : State) : getIsb (setIsb sys x s) sys = x := tabGet_tabSet ..

theorem getIsb_setIsb_ne (sys k' : Nat) (x : Isb) (s : State) (h : k' ≠ sys) : getIsb (setIsb sys x s) k' = getIsb s k' :=
  tabGet_tabSet_ne _ _ _ _ _ h

@[simp] theorem getGov_setGov (r : Nat) (x : GovRobot) (s : State) : getGov (setGov r x s) r = x := tabGet_tabSet ..

theorem getGov_setGov_ne (r k' : Nat) (x : GovRobot) (s : State) (h : k' ≠ r) : getGov (setGov r x s) k' = getGov s k' :=
  tabGet_tabSet_ne _ _ _ _ _ h

@[simp] theorem getMem_setMem (k : Nat) (x : EccMem) (s : State) : getMem (setMem k x s) k = x := tabGet_tabSet ..

theorem getMem_setMem_ne (k k' : Nat) (x : EccMem) (s : State) (h : k' ≠ k) : getMem (setMem k x s) k' = getMem s k' :=
  tabGet_tabSet_ne _ _ _ _ _ h

@[simp] theorem getPort_setPort (p : Nat) (x : Port) (s : State) : getPort (setPort p x s) p = x := tabGet_tabSet ..

theorem getPort_setPort_ne (p k' : Nat) (x : Port) (s : State) (h : k' ≠ p) : getPort (setPort p x s) k' = getPort s k' :=
  tabGet_tabSet_ne _ _ _ _ _ h

@[simp] theorem getLink_setLink (r : Nat) (x : Link) (s : State) : getLink (setLink r x s) r = x := tabGet_tabSet ..

theorem getLink_setLink_ne (r k' : Nat) (x : Link) (s : State) (h : k' ≠ r) : getLink (setLink r x s) k' = getLink s k' :=
  tabGet_tabSet_ne _ _ _ _ _ h

@[simp] theorem getSpindle_setSpindle (r : Nat) (x : Spindle) (s : State) : getSpindle (setSpindle r x s) r = x := tabGet_tabSet ..

theorem getSpindle_setSpindle_ne (r k' : Nat) (x : Spindle) (s : State) (h : k' ≠ r) : getSpindle (setSpindle r x s) k' = getSpindle s k' :=
  tabGet_tabSet_ne _ _ _ _ _ h

@[simp] theorem getRover_setRover (r : Nat) (x : Rover) (s : State) : getRover (setRover r x s) r = x := tabGet_tabSet ..

theorem getRover_setRover_ne (r k' : Nat) (x : Rover) (s : State) (h : k' ≠ r) : getRover (setRover r x s) k' = getRover s k' :=
  tabGet_tabSet_ne _ _ _ _ _ h

@[simp] theorem getSlot_setSlot (i : Nat) (x : JobSlot) (s : State) : getSlot (setSlot i x s) i = x := tabGet_tabSet ..

theorem getSlot_setSlot_ne (i k' : Nat) (x : JobSlot) (s : State) (h : k' ≠ i) : getSlot (setSlot i x s) k' = getSlot s k' :=
  tabGet_tabSet_ne _ _ _ _ _ h

@[simp] theorem getHostJob_setHostJob (j : Nat) (x : HostJob) (s : State) : getHostJob (setHostJob j x s) j = x := tabGet_tabSet ..

theorem getHostJob_setHostJob_ne (j k' : Nat) (x : HostJob) (s : State) (h : k' ≠ j) : getHostJob (setHostJob j x s) k' = getHostJob s k' :=
  tabGet_tabSet_ne _ _ _ _ _ h

@[simp] theorem getCore_setCore (c : Nat) (x : Core) (s : State) : getCore (setCore c x s) c = x := tabGet_tabSet ..

theorem getCore_setCore_ne (c k' : Nat) (x : Core) (s : State) (h : k' ≠ c) : getCore (setCore c x s) k' = getCore s k' :=
  tabGet_tabSet_ne _ _ _ _ _ h

@[simp] theorem getSource_setSource (c : Nat) (x : Source) (s : State) : getSource (setSource c x s) c = x := tabGet_tabSet ..

theorem getSource_setSource_ne (c k' : Nat) (x : Source) (s : State) (h : k' ≠ c) : getSource (setSource c x s) k' = getSource s k' :=
  tabGet_tabSet_ne _ _ _ _ _ h

@[simp] theorem getPtpPort_setPtpPort (p : Nat) (x : PtpPort) (s : State) : getPtpPort (setPtpPort p x s) p = x := tabGet_tabSet ..

theorem getPtpPort_setPtpPort_ne (p k' : Nat) (x : PtpPort) (s : State) (h : k' ≠ p) : getPtpPort (setPtpPort p x s) k' = getPtpPort s k' :=
  tabGet_tabSet_ne _ _ _ _ _ h

@[simp] theorem getTr_setTr (r : Nat) (x : TrackRobot) (s : State) : getTr (setTr r x s) r = x := tabGet_tabSet ..

theorem getTr_setTr_ne (r k' : Nat) (x : TrackRobot) (s : State) (h : k' ≠ r) : getTr (setTr r x s) k' = getTr s k' :=
  tabGet_tabSet_ne _ _ _ _ _ h

@[simp] theorem getLaw_setLaw (n : Nat) (x : Law) (s : State) : getLaw (setLaw n x s) n = x := tabGet_tabSet ..

theorem getLaw_setLaw_ne (n k' : Nat) (x : Law) (s : State) (h : k' ≠ n) : getLaw (setLaw n x s) k' = getLaw s k' :=
  tabGet_tabSet_ne _ _ _ _ _ h

@[simp] theorem emit_queues (o : Output) (s : State) : (emit o s).queues = s.queues := rfl

@[simp] theorem emit_sys (o : Output) (s : State) : (emit o s).sys = s.sys := rfl

@[simp] theorem emit_time (o : Output) (s : State) : (emit o s).time = s.time := rfl

@[simp] theorem emit_uz (o : Output) (s : State) : (emit o s).uz = s.uz := rfl

@[simp] theorem emit_track (o : Output) (s : State) : (emit o s).track = s.track := rfl

@[simp] theorem emit_task (o : Output) (s : State) : (emit o s).task = s.task := rfl

@[simp] theorem emit_spin (o : Output) (s : State) : (emit o s).spin = s.spin := rfl

@[simp] theorem emit_stop (o : Output) (s : State) : (emit o s).stop = s.stop := rfl

@[simp] theorem emit_sched (o : Output) (s : State) : (emit o s).sched = s.sched := rfl

@[simp] theorem emit_net (o : Output) (s : State) : (emit o s).net = s.net := rfl

@[simp] theorem emit_rec_ (o : Output) (s : State) : (emit o s).rec_ = s.rec_ := rfl

@[simp] theorem emit_pair (o : Output) (s : State) : (emit o s).pair = s.pair := rfl

@[simp] theorem emit_upd (o : Output) (s : State) : (emit o s).upd = s.upd := rfl

@[simp] theorem emit_health (o : Output) (s : State) : (emit o s).health = s.health := rfl

@[simp] theorem emit_gnss (o : Output) (s : State) : (emit o s).gnss = s.gnss := rfl

@[simp] theorem emit_corr (o : Output) (s : State) : (emit o s).corr = s.corr := rfl

@[simp] theorem emit_rse (o : Output) (s : State) : (emit o s).rse = s.rse := rfl

@[simp] theorem emit_gov (o : Output) (s : State) : (emit o s).gov = s.gov := rfl

@[simp] theorem emit_intStat (o : Output) (s : State) : (emit o s).intStat = s.intStat := rfl

@[simp] theorem setInt_stop (k : Nat) (s : State) : (setInt k s).stop = s.stop := by
  unfold setInt; dsimp only; (repeat' split) <;> rfl

@[simp] theorem setInt_uz (k : Nat) (s : State) : (setInt k s).uz = s.uz := by
  unfold setInt; dsimp only; (repeat' split) <;> rfl

@[simp] theorem setInt_track (k : Nat) (s : State) : (setInt k s).track = s.track := by
  unfold setInt; dsimp only; (repeat' split) <;> rfl

@[simp] theorem setInt_task (k : Nat) (s : State) : (setInt k s).task = s.task := by
  unfold setInt; dsimp only; (repeat' split) <;> rfl

@[simp] theorem setInt_spin (k : Nat) (s : State) : (setInt k s).spin = s.spin := by
  unfold setInt; dsimp only; (repeat' split) <;> rfl

@[simp] theorem setInt_net (k : Nat) (s : State) : (setInt k s).net = s.net := by
  unfold setInt; dsimp only; (repeat' split) <;> rfl

@[simp] theorem setInt_upd (k : Nat) (s : State) : (setInt k s).upd = s.upd := by
  unfold setInt; dsimp only; (repeat' split) <;> rfl

@[simp] theorem setInt_health (k : Nat) (s : State) : (setInt k s).health = s.health := by
  unfold setInt; dsimp only; (repeat' split) <;> rfl

@[simp] theorem setInt_gnss (k : Nat) (s : State) : (setInt k s).gnss = s.gnss := by
  unfold setInt; dsimp only; (repeat' split) <;> rfl

@[simp] theorem setInt_corr (k : Nat) (s : State) : (setInt k s).corr = s.corr := by
  unfold setInt; dsimp only; (repeat' split) <;> rfl

@[simp] theorem setInt_rse (k : Nat) (s : State) : (setInt k s).rse = s.rse := by
  unfold setInt; dsimp only; (repeat' split) <;> rfl

@[simp] theorem setInt_gov (k : Nat) (s : State) : (setInt k s).gov = s.gov := by
  unfold setInt; dsimp only; (repeat' split) <;> rfl

@[simp] theorem setInt_pair (k : Nat) (s : State) : (setInt k s).pair = s.pair := by
  unfold setInt; dsimp only; (repeat' split) <;> rfl

@[simp] theorem setInt_sys (k : Nat) (s : State) : (setInt k s).sys = s.sys := by
  unfold setInt; dsimp only; (repeat' split) <;> rfl

@[simp] theorem setInt_time (k : Nat) (s : State) : (setInt k s).time = s.time := by
  unfold setInt; dsimp only; (repeat' split) <;> rfl

end Sys2Proof.Machine
end

