-- ==== Sys2Proof/Laws/Frames.lean ====
section
/-! SUPPORT. What the writing of one entry leaves of the rest of the state: an equation for each field, which simp takes one by
one. -/
set_option autoImplicit false

namespace Sys2Proof.Machine

@[simp] theorem setQ_rest (q : Nat) (x : Queue) (s : State) :
    (setQ q x s).member = s.member ∧ (setQ q x s).pending = s.pending ∧ (setQ q x s).now = s.now ∧
    (setQ q x s).up = s.up ∧ (setQ q x s).out = s.out ∧ (setQ q x s).sys = s.sys ∧
    (setQ q x s).execs = s.execs ∧ (setQ q x s).intStat = s.intStat ∧ (setQ q x s).acl = s.acl ∧
    (setQ q x s).tick = s.tick ∧ (setQ q x s).fsp = s.fsp ∧ (setQ q x s).ref = s.ref ∧
    (setQ q x s).time = s.time ∧ (setQ q x s).gnss = s.gnss ∧ (setQ q x s).corr = s.corr ∧
    (setQ q x s).rse = s.rse ∧ (setQ q x s).uz = s.uz ∧ (setQ q x s).track = s.track ∧
    (setQ q x s).task = s.task ∧ (setQ q x s).spin = s.spin ∧ (setQ q x s).gov = s.gov ∧
    (setQ q x s).stop = s.stop ∧ (setQ q x s).sched = s.sched ∧ (setQ q x s).net = s.net ∧
    (setQ q x s).rec_ = s.rec_ ∧ (setQ q x s).pair = s.pair ∧ (setQ q x s).upd = s.upd ∧
    (setQ q x s).health = s.health := by
  simp [setQ]

@[simp] theorem setNavSub_rest (q : Nat) (x : NavSub) (s : State) :
    (setNavSub q x s).member = s.member ∧ (setNavSub q x s).pending = s.pending ∧ (setNavSub q x s).now = s.now ∧
    (setNavSub q x s).up = s.up ∧ (setNavSub q x s).out = s.out ∧ (setNavSub q x s).sys = s.sys ∧
    (setNavSub q x s).queues = s.queues ∧ (setNavSub q x s).execs = s.execs ∧ (setNavSub q x s).intStat = s.intStat ∧
    (setNavSub q x s).acl = s.acl ∧ (setNavSub q x s).tick = s.tick ∧ (setNavSub q x s).fsp = s.fsp ∧
    (setNavSub q x s).ref = s.ref ∧ (setNavSub q x s).time = s.time ∧ (setNavSub q x s).gnss = s.gnss ∧
    (setNavSub q x s).rse = s.rse ∧ (setNavSub q x s).uz = s.uz ∧ (setNavSub q x s).track = s.track ∧
    (setNavSub q x s).task = s.task ∧ (setNavSub q x s).spin = s.spin ∧ (setNavSub q x s).gov = s.gov ∧
    (setNavSub q x s).stop = s.stop ∧ (setNavSub q x s).sched = s.sched ∧ (setNavSub q x s).net = s.net ∧
    (setNavSub q x s).rec_ = s.rec_ ∧ (setNavSub q x s).pair = s.pair ∧ (setNavSub q x s).upd = s.upd ∧
    (setNavSub q x s).health = s.health := by
  simp [setNavSub]

@[simp] theorem setStream_rest (k : Nat) (x : Stream) (s : State) :
    (setStream k x s).member = s.member ∧ (setStream k x s).pending = s.pending ∧ (setStream k x s).now = s.now ∧
    (setStream k x s).up = s.up ∧ (setStream k x s).out = s.out ∧ (setStream k x s).sys = s.sys ∧
    (setStream k x s).queues = s.queues ∧ (setStream k x s).execs = s.execs ∧ (setStream k x s).intStat = s.intStat ∧
    (setStream k x s).acl = s.acl ∧ (setStream k x s).tick = s.tick ∧ (setStream k x s).fsp = s.fsp ∧
    (setStream k x s).ref = s.ref ∧ (setStream k x s).time = s.time ∧ (setStream k x s).gnss = s.gnss ∧
    (setStream k x s).rse = s.rse ∧ (setStream k x s).uz = s.uz ∧ (setStream k x s).track = s.track ∧
    (setStream k x s).task = s.task ∧ (setStream k x s).spin = s.spin ∧ (setStream k x s).gov = s.gov ∧
    (setStream k x s).stop = s.stop ∧ (setStream k x s).sched = s.sched ∧ (setStream k x s).net = s.net ∧
    (setStream k x s).rec_ = s.rec_ ∧ (setStream k x s).pair = s.pair ∧ (setStream k x s).upd = s.upd ∧
    (setStream k x s).health = s.health := by
  simp [setStream]

@[simp] theorem setChan_rest (c : Nat) (x : Channel) (s : State) :
    (setChan c x s).member = s.member ∧ (setChan c x s).pending = s.pending ∧ (setChan c x s).now = s.now ∧
    (setChan c x s).up = s.up ∧ (setChan c x s).out = s.out ∧ (setChan c x s).sys = s.sys ∧
    (setChan c x s).queues = s.queues ∧ (setChan c x s).execs = s.execs ∧ (setChan c x s).intStat = s.intStat ∧
    (setChan c x s).acl = s.acl ∧ (setChan c x s).tick = s.tick ∧ (setChan c x s).fsp = s.fsp ∧
    (setChan c x s).ref = s.ref ∧ (setChan c x s).time = s.time ∧ (setChan c x s).corr = s.corr ∧
    (setChan c x s).rse = s.rse ∧ (setChan c x s).uz = s.uz ∧ (setChan c x s).track = s.track ∧
    (setChan c x s).task = s.task ∧ (setChan c x s).spin = s.spin ∧ (setChan c x s).gov = s.gov ∧
    (setChan c x s).stop = s.stop ∧ (setChan c x s).sched = s.sched ∧ (setChan c x s).net = s.net ∧
    (setChan c x s).rec_ = s.rec_ ∧ (setChan c x s).pair = s.pair ∧ (setChan c x s).upd = s.upd ∧
    (setChan c x s).health = s.health := by
  simp [setChan]

@[simp] theorem setChain4_rest (i : Nat) (x : Chain4) (s : State) :
    (setChain4 i x s).member = s.member ∧ (setChain4 i x s).pending = s.pending ∧ (setChain4 i x s).now = s.now ∧
    (setChain4 i x s).up = s.up ∧ (setChain4 i x s).out = s.out ∧ (setChain4 i x s).sys = s.sys ∧
    (setChain4 i x s).queues = s.queues ∧ (setChain4 i x s).execs = s.execs ∧ (setChain4 i x s).intStat = s.intStat ∧
    (setChain4 i x s).acl = s.acl ∧ (setChain4 i x s).tick = s.tick ∧ (setChain4 i x s).fsp = s.fsp ∧
    (setChain4 i x s).ref = s.ref ∧ (setChain4 i x s).time = s.time ∧ (setChain4 i x s).corr = s.corr ∧
    (setChain4 i x s).rse = s.rse ∧ (setChain4 i x s).uz = s.uz ∧ (setChain4 i x s).track = s.track ∧
    (setChain4 i x s).task = s.task ∧ (setChain4 i x s).spin = s.spin ∧ (setChain4 i x s).gov = s.gov ∧
    (setChain4 i x s).stop = s.stop ∧ (setChain4 i x s).sched = s.sched ∧ (setChain4 i x s).net = s.net ∧
    (setChain4 i x s).rec_ = s.rec_ ∧ (setChain4 i x s).pair = s.pair ∧ (setChain4 i x s).upd = s.upd ∧
    (setChain4 i x s).health = s.health := by
  simp [setChain4]

@[simp] theorem setAnt_rest (a : Bool) (x : Antenna) (s : State) :
    (setAnt a x s).member = s.member ∧ (setAnt a x s).pending = s.pending ∧ (setAnt a x s).now = s.now ∧
    (setAnt a x s).up = s.up ∧ (setAnt a x s).out = s.out ∧ (setAnt a x s).sys = s.sys ∧
    (setAnt a x s).queues = s.queues ∧ (setAnt a x s).execs = s.execs ∧ (setAnt a x s).intStat = s.intStat ∧
    (setAnt a x s).acl = s.acl ∧ (setAnt a x s).tick = s.tick ∧ (setAnt a x s).fsp = s.fsp ∧
    (setAnt a x s).ref = s.ref ∧ (setAnt a x s).time = s.time ∧ (setAnt a x s).corr = s.corr ∧
    (setAnt a x s).rse = s.rse ∧ (setAnt a x s).uz = s.uz ∧ (setAnt a x s).track = s.track ∧
    (setAnt a x s).task = s.task ∧ (setAnt a x s).spin = s.spin ∧ (setAnt a x s).gov = s.gov ∧
    (setAnt a x s).stop = s.stop ∧ (setAnt a x s).sched = s.sched ∧ (setAnt a x s).net = s.net ∧
    (setAnt a x s).rec_ = s.rec_ ∧ (setAnt a x s).pair = s.pair ∧ (setAnt a x s).upd = s.upd ∧
    (setAnt a x s).health = s.health := by
  simp [setAnt]

@[simp] theorem setIsb_rest (k : Nat) (x : Isb) (s : State) :
    (setIsb k x s).member = s.member ∧ (setIsb k x s).pending = s.pending ∧ (setIsb k x s).now = s.now ∧
    (setIsb k x s).up = s.up ∧ (setIsb k x s).out = s.out ∧ (setIsb k x s).sys = s.sys ∧
    (setIsb k x s).queues = s.queues ∧ (setIsb k x s).execs = s.execs ∧ (setIsb k x s).intStat = s.intStat ∧
    (setIsb k x s).acl = s.acl ∧ (setIsb k x s).tick = s.tick ∧ (setIsb k x s).fsp = s.fsp ∧
    (setIsb k x s).ref = s.ref ∧ (setIsb k x s).time = s.time ∧ (setIsb k x s).corr = s.corr ∧
    (setIsb k x s).rse = s.rse ∧ (setIsb k x s).uz = s.uz ∧ (setIsb k x s).track = s.track ∧
    (setIsb k x s).task = s.task ∧ (setIsb k x s).spin = s.spin ∧ (setIsb k x s).gov = s.gov ∧
    (setIsb k x s).stop = s.stop ∧ (setIsb k x s).sched = s.sched ∧ (setIsb k x s).net = s.net ∧
    (setIsb k x s).rec_ = s.rec_ ∧ (setIsb k x s).pair = s.pair ∧ (setIsb k x s).upd = s.upd ∧
    (setIsb k x s).health = s.health := by
  simp [setIsb]

@[simp] theorem setGov_rest (r : Nat) (x : GovRobot) (s : State) :
    (setGov r x s).member = s.member ∧ (setGov r x s).pending = s.pending ∧ (setGov r x s).now = s.now ∧
    (setGov r x s).up = s.up ∧ (setGov r x s).out = s.out ∧ (setGov r x s).sys = s.sys ∧
    (setGov r x s).queues = s.queues ∧ (setGov r x s).execs = s.execs ∧ (setGov r x s).intStat = s.intStat ∧
    (setGov r x s).acl = s.acl ∧ (setGov r x s).tick = s.tick ∧ (setGov r x s).fsp = s.fsp ∧
    (setGov r x s).ref = s.ref ∧ (setGov r x s).time = s.time ∧ (setGov r x s).gnss = s.gnss ∧
    (setGov r x s).corr = s.corr ∧ (setGov r x s).rse = s.rse ∧ (setGov r x s).uz = s.uz ∧
    (setGov r x s).track = s.track ∧ (setGov r x s).task = s.task ∧ (setGov r x s).spin = s.spin ∧
    (setGov r x s).stop = s.stop ∧ (setGov r x s).sched = s.sched ∧ (setGov r x s).net = s.net ∧
    (setGov r x s).rec_ = s.rec_ ∧ (setGov r x s).pair = s.pair ∧ (setGov r x s).upd = s.upd ∧
    (setGov r x s).health = s.health := by
  simp [setGov]

@[simp] theorem setLaw_rest (n : Nat) (x : Law) (s : State) :
    (setLaw n x s).member = s.member ∧ (setLaw n x s).pending = s.pending ∧ (setLaw n x s).now = s.now ∧
    (setLaw n x s).up = s.up ∧ (setLaw n x s).out = s.out ∧ (setLaw n x s).sys = s.sys ∧
    (setLaw n x s).queues = s.queues ∧ (setLaw n x s).execs = s.execs ∧ (setLaw n x s).intStat = s.intStat ∧
    (setLaw n x s).acl = s.acl ∧ (setLaw n x s).tick = s.tick ∧ (setLaw n x s).fsp = s.fsp ∧
    (setLaw n x s).ref = s.ref ∧ (setLaw n x s).time = s.time ∧ (setLaw n x s).gnss = s.gnss ∧
    (setLaw n x s).corr = s.corr ∧ (setLaw n x s).rse = s.rse ∧ (setLaw n x s).uz = s.uz ∧
    (setLaw n x s).track = s.track ∧ (setLaw n x s).task = s.task ∧ (setLaw n x s).spin = s.spin ∧
    (setLaw n x s).stop = s.stop ∧ (setLaw n x s).sched = s.sched ∧ (setLaw n x s).net = s.net ∧
    (setLaw n x s).rec_ = s.rec_ ∧ (setLaw n x s).pair = s.pair ∧ (setLaw n x s).upd = s.upd ∧
    (setLaw n x s).health = s.health := by
  simp [setLaw]

@[simp] theorem setMem_rest (k : Nat) (x : EccMem) (s : State) :
    (setMem k x s).member = s.member ∧ (setMem k x s).pending = s.pending ∧ (setMem k x s).now = s.now ∧
    (setMem k x s).up = s.up ∧ (setMem k x s).out = s.out ∧ (setMem k x s).sys = s.sys ∧
    (setMem k x s).queues = s.queues ∧ (setMem k x s).execs = s.execs ∧ (setMem k x s).intStat = s.intStat ∧
    (setMem k x s).acl = s.acl ∧ (setMem k x s).tick = s.tick ∧ (setMem k x s).fsp = s.fsp ∧
    (setMem k x s).ref = s.ref ∧ (setMem k x s).time = s.time ∧ (setMem k x s).gnss = s.gnss ∧
    (setMem k x s).corr = s.corr ∧ (setMem k x s).rse = s.rse ∧ (setMem k x s).uz = s.uz ∧
    (setMem k x s).track = s.track ∧ (setMem k x s).task = s.task ∧ (setMem k x s).spin = s.spin ∧
    (setMem k x s).gov = s.gov ∧ (setMem k x s).stop = s.stop ∧ (setMem k x s).sched = s.sched ∧
    (setMem k x s).net = s.net ∧ (setMem k x s).rec_ = s.rec_ ∧ (setMem k x s).pair = s.pair ∧
    (setMem k x s).upd = s.upd := by
  simp [setMem]

@[simp] theorem setPort_rest (p : Nat) (x : Port) (s : State) :
    (setPort p x s).member = s.member ∧ (setPort p x s).pending = s.pending ∧ (setPort p x s).now = s.now ∧
    (setPort p x s).up = s.up ∧ (setPort p x s).out = s.out ∧ (setPort p x s).sys = s.sys ∧
    (setPort p x s).queues = s.queues ∧ (setPort p x s).execs = s.execs ∧ (setPort p x s).intStat = s.intStat ∧
    (setPort p x s).acl = s.acl ∧ (setPort p x s).tick = s.tick ∧ (setPort p x s).fsp = s.fsp ∧
    (setPort p x s).ref = s.ref ∧ (setPort p x s).time = s.time ∧ (setPort p x s).gnss = s.gnss ∧
    (setPort p x s).corr = s.corr ∧ (setPort p x s).rse = s.rse ∧ (setPort p x s).uz = s.uz ∧
    (setPort p x s).track = s.track ∧ (setPort p x s).task = s.task ∧ (setPort p x s).spin = s.spin ∧
    (setPort p x s).gov = s.gov ∧ (setPort p x s).stop = s.stop ∧ (setPort p x s).sched = s.sched ∧
    (setPort p x s).rec_ = s.rec_ ∧ (setPort p x s).pair = s.pair ∧ (setPort p x s).upd = s.upd ∧
    (setPort p x s).health = s.health := by
  simp [setPort]

@[simp] theorem setFdb_rest (l : List FdbEntry) (s : State) :
    (setFdb l s).member = s.member ∧ (setFdb l s).pending = s.pending ∧ (setFdb l s).now = s.now ∧
    (setFdb l s).up = s.up ∧ (setFdb l s).out = s.out ∧ (setFdb l s).sys = s.sys ∧
    (setFdb l s).queues = s.queues ∧ (setFdb l s).execs = s.execs ∧ (setFdb l s).intStat = s.intStat ∧
    (setFdb l s).acl = s.acl ∧ (setFdb l s).tick = s.tick ∧ (setFdb l s).fsp = s.fsp ∧
    (setFdb l s).ref = s.ref ∧ (setFdb l s).time = s.time ∧ (setFdb l s).gnss = s.gnss ∧
    (setFdb l s).corr = s.corr ∧ (setFdb l s).rse = s.rse ∧ (setFdb l s).uz = s.uz ∧
    (setFdb l s).track = s.track ∧ (setFdb l s).task = s.task ∧ (setFdb l s).spin = s.spin ∧
    (setFdb l s).gov = s.gov ∧ (setFdb l s).stop = s.stop ∧ (setFdb l s).sched = s.sched ∧
    (setFdb l s).rec_ = s.rec_ ∧ (setFdb l s).pair = s.pair ∧ (setFdb l s).upd = s.upd ∧
    (setFdb l s).health = s.health := by
  simp [setFdb]

@[simp] theorem setLink_rest (r : Nat) (x : Link) (s : State) :
    (setLink r x s).member = s.member ∧ (setLink r x s).pending = s.pending ∧ (setLink r x s).now = s.now ∧
    (setLink r x s).up = s.up ∧ (setLink r x s).out = s.out ∧ (setLink r x s).sys = s.sys ∧
    (setLink r x s).queues = s.queues ∧ (setLink r x s).execs = s.execs ∧ (setLink r x s).intStat = s.intStat ∧
    (setLink r x s).acl = s.acl ∧ (setLink r x s).tick = s.tick ∧ (setLink r x s).fsp = s.fsp ∧
    (setLink r x s).ref = s.ref ∧ (setLink r x s).time = s.time ∧ (setLink r x s).gnss = s.gnss ∧
    (setLink r x s).corr = s.corr ∧ (setLink r x s).rse = s.rse ∧ (setLink r x s).track = s.track ∧
    (setLink r x s).task = s.task ∧ (setLink r x s).spin = s.spin ∧ (setLink r x s).gov = s.gov ∧
    (setLink r x s).stop = s.stop ∧ (setLink r x s).sched = s.sched ∧ (setLink r x s).net = s.net ∧
    (setLink r x s).rec_ = s.rec_ ∧ (setLink r x s).pair = s.pair ∧ (setLink r x s).upd = s.upd ∧
    (setLink r x s).health = s.health := by
  simp [setLink]

@[simp] theorem setSpindle_rest (r : Nat) (x : Spindle) (s : State) :
    (setSpindle r x s).member = s.member ∧ (setSpindle r x s).pending = s.pending ∧ (setSpindle r x s).now = s.now ∧
    (setSpindle r x s).up = s.up ∧ (setSpindle r x s).out = s.out ∧ (setSpindle r x s).sys = s.sys ∧
    (setSpindle r x s).queues = s.queues ∧ (setSpindle r x s).execs = s.execs ∧ (setSpindle r x s).intStat = s.intStat ∧
    (setSpindle r x s).acl = s.acl ∧ (setSpindle r x s).tick = s.tick ∧ (setSpindle r x s).fsp = s.fsp ∧
    (setSpindle r x s).ref = s.ref ∧ (setSpindle r x s).time = s.time ∧ (setSpindle r x s).gnss = s.gnss ∧
    (setSpindle r x s).corr = s.corr ∧ (setSpindle r x s).rse = s.rse ∧ (setSpindle r x s).uz = s.uz ∧
    (setSpindle r x s).track = s.track ∧ (setSpindle r x s).task = s.task ∧ (setSpindle r x s).gov = s.gov ∧
    (setSpindle r x s).stop = s.stop ∧ (setSpindle r x s).sched = s.sched ∧ (setSpindle r x s).net = s.net ∧
    (setSpindle r x s).rec_ = s.rec_ ∧ (setSpindle r x s).pair = s.pair ∧ (setSpindle r x s).upd = s.upd ∧
    (setSpindle r x s).health = s.health := by
  simp [setSpindle]

@[simp] theorem setRover_rest (r : Nat) (x : Rover) (s : State) :
    (setRover r x s).member = s.member ∧ (setRover r x s).pending = s.pending ∧ (setRover r x s).now = s.now ∧
    (setRover r x s).up = s.up ∧ (setRover r x s).out = s.out ∧ (setRover r x s).sys = s.sys ∧
    (setRover r x s).queues = s.queues ∧ (setRover r x s).execs = s.execs ∧ (setRover r x s).intStat = s.intStat ∧
    (setRover r x s).acl = s.acl ∧ (setRover r x s).tick = s.tick ∧ (setRover r x s).fsp = s.fsp ∧
    (setRover r x s).ref = s.ref ∧ (setRover r x s).time = s.time ∧ (setRover r x s).gnss = s.gnss ∧
    (setRover r x s).corr = s.corr ∧ (setRover r x s).uz = s.uz ∧ (setRover r x s).track = s.track ∧
    (setRover r x s).task = s.task ∧ (setRover r x s).spin = s.spin ∧ (setRover r x s).gov = s.gov ∧
    (setRover r x s).stop = s.stop ∧ (setRover r x s).sched = s.sched ∧ (setRover r x s).net = s.net ∧
    (setRover r x s).rec_ = s.rec_ ∧ (setRover r x s).pair = s.pair ∧ (setRover r x s).upd = s.upd ∧
    (setRover r x s).health = s.health := by
  simp [setRover]

@[simp] theorem setSlot_rest (i : Nat) (x : JobSlot) (s : State) :
    (setSlot i x s).member = s.member ∧ (setSlot i x s).pending = s.pending ∧ (setSlot i x s).now = s.now ∧
    (setSlot i x s).up = s.up ∧ (setSlot i x s).out = s.out ∧ (setSlot i x s).sys = s.sys ∧
    (setSlot i x s).queues = s.queues ∧ (setSlot i x s).execs = s.execs ∧ (setSlot i x s).intStat = s.intStat ∧
    (setSlot i x s).acl = s.acl ∧ (setSlot i x s).tick = s.tick ∧ (setSlot i x s).fsp = s.fsp ∧
    (setSlot i x s).ref = s.ref ∧ (setSlot i x s).time = s.time ∧ (setSlot i x s).gnss = s.gnss ∧
    (setSlot i x s).corr = s.corr ∧ (setSlot i x s).rse = s.rse ∧ (setSlot i x s).uz = s.uz ∧
    (setSlot i x s).track = s.track ∧ (setSlot i x s).task = s.task ∧ (setSlot i x s).spin = s.spin ∧
    (setSlot i x s).gov = s.gov ∧ (setSlot i x s).stop = s.stop ∧ (setSlot i x s).net = s.net ∧
    (setSlot i x s).rec_ = s.rec_ ∧ (setSlot i x s).pair = s.pair ∧ (setSlot i x s).upd = s.upd ∧
    (setSlot i x s).health = s.health := by
  simp [setSlot]

@[simp] theorem setHostJob_rest (j : Nat) (x : HostJob) (s : State) :
    (setHostJob j x s).member = s.member ∧ (setHostJob j x s).pending = s.pending ∧ (setHostJob j x s).now = s.now ∧
    (setHostJob j x s).up = s.up ∧ (setHostJob j x s).out = s.out ∧ (setHostJob j x s).sys = s.sys ∧
    (setHostJob j x s).queues = s.queues ∧ (setHostJob j x s).execs = s.execs ∧ (setHostJob j x s).intStat = s.intStat ∧
    (setHostJob j x s).acl = s.acl ∧ (setHostJob j x s).tick = s.tick ∧ (setHostJob j x s).fsp = s.fsp ∧
    (setHostJob j x s).ref = s.ref ∧ (setHostJob j x s).time = s.time ∧ (setHostJob j x s).gnss = s.gnss ∧
    (setHostJob j x s).corr = s.corr ∧ (setHostJob j x s).rse = s.rse ∧ (setHostJob j x s).uz = s.uz ∧
    (setHostJob j x s).track = s.track ∧ (setHostJob j x s).task = s.task ∧ (setHostJob j x s).spin = s.spin ∧
    (setHostJob j x s).gov = s.gov ∧ (setHostJob j x s).stop = s.stop ∧ (setHostJob j x s).net = s.net ∧
    (setHostJob j x s).rec_ = s.rec_ ∧ (setHostJob j x s).pair = s.pair ∧ (setHostJob j x s).upd = s.upd ∧
    (setHostJob j x s).health = s.health := by
  simp [setHostJob]

@[simp] theorem setCore_rest (c : Nat) (x : Core) (s : State) :
    (setCore c x s).member = s.member ∧ (setCore c x s).pending = s.pending ∧ (setCore c x s).now = s.now ∧
    (setCore c x s).up = s.up ∧ (setCore c x s).out = s.out ∧ (setCore c x s).sys = s.sys ∧
    (setCore c x s).queues = s.queues ∧ (setCore c x s).execs = s.execs ∧ (setCore c x s).intStat = s.intStat ∧
    (setCore c x s).acl = s.acl ∧ (setCore c x s).tick = s.tick ∧ (setCore c x s).fsp = s.fsp ∧
    (setCore c x s).ref = s.ref ∧ (setCore c x s).time = s.time ∧ (setCore c x s).gnss = s.gnss ∧
    (setCore c x s).corr = s.corr ∧ (setCore c x s).rse = s.rse ∧ (setCore c x s).uz = s.uz ∧
    (setCore c x s).track = s.track ∧ (setCore c x s).task = s.task ∧ (setCore c x s).spin = s.spin ∧
    (setCore c x s).gov = s.gov ∧ (setCore c x s).stop = s.stop ∧ (setCore c x s).net = s.net ∧
    (setCore c x s).rec_ = s.rec_ ∧ (setCore c x s).pair = s.pair ∧ (setCore c x s).upd = s.upd ∧
    (setCore c x s).health = s.health := by
  simp [setCore]

@[simp] theorem setDescs_rest (t : Nat) (l : List AclDesc) (s : State) :
    (setDescs t l s).member = s.member ∧ (setDescs t l s).pending = s.pending ∧ (setDescs t l s).now = s.now ∧
    (setDescs t l s).up = s.up ∧ (setDescs t l s).out = s.out ∧ (setDescs t l s).sys = s.sys ∧
    (setDescs t l s).queues = s.queues ∧ (setDescs t l s).execs = s.execs ∧ (setDescs t l s).intStat = s.intStat ∧
    (setDescs t l s).tick = s.tick ∧ (setDescs t l s).fsp = s.fsp ∧ (setDescs t l s).ref = s.ref ∧
    (setDescs t l s).time = s.time ∧ (setDescs t l s).gnss = s.gnss ∧ (setDescs t l s).corr = s.corr ∧
    (setDescs t l s).rse = s.rse ∧ (setDescs t l s).uz = s.uz ∧ (setDescs t l s).track = s.track ∧
    (setDescs t l s).task = s.task ∧ (setDescs t l s).spin = s.spin ∧ (setDescs t l s).gov = s.gov ∧
    (setDescs t l s).stop = s.stop ∧ (setDescs t l s).sched = s.sched ∧ (setDescs t l s).net = s.net ∧
    (setDescs t l s).rec_ = s.rec_ ∧ (setDescs t l s).pair = s.pair ∧ (setDescs t l s).upd = s.upd ∧
    (setDescs t l s).health = s.health := by
  simp [setDescs]

@[simp] theorem setRobotStop_rest (r : Nat) (x : RobotStop) (s : State) :
    (setRobotStop r x s).member = s.member ∧ (setRobotStop r x s).pending = s.pending ∧ (setRobotStop r x s).now = s.now ∧
    (setRobotStop r x s).up = s.up ∧ (setRobotStop r x s).out = s.out ∧ (setRobotStop r x s).sys = s.sys ∧
    (setRobotStop r x s).queues = s.queues ∧ (setRobotStop r x s).execs = s.execs ∧ (setRobotStop r x s).intStat = s.intStat ∧
    (setRobotStop r x s).acl = s.acl ∧ (setRobotStop r x s).tick = s.tick ∧ (setRobotStop r x s).fsp = s.fsp ∧
    (setRobotStop r x s).ref = s.ref ∧ (setRobotStop r x s).time = s.time ∧ (setRobotStop r x s).gnss = s.gnss ∧
    (setRobotStop r x s).corr = s.corr ∧ (setRobotStop r x s).rse = s.rse ∧ (setRobotStop r x s).uz = s.uz ∧
    (setRobotStop r x s).track = s.track ∧ (setRobotStop r x s).task = s.task ∧ (setRobotStop r x s).spin = s.spin ∧
    (setRobotStop r x s).gov = s.gov ∧ (setRobotStop r x s).sched = s.sched ∧ (setRobotStop r x s).net = s.net ∧
    (setRobotStop r x s).rec_ = s.rec_ ∧ (setRobotStop r x s).pair = s.pair ∧ (setRobotStop r x s).upd = s.upd ∧
    (setRobotStop r x s).health = s.health := by
  simp [setRobotStop]

@[simp] theorem setTask_rest (k : Nat) (x : TaskSlot) (s : State) :
    (setTask k x s).member = s.member ∧ (setTask k x s).pending = s.pending ∧ (setTask k x s).now = s.now ∧
    (setTask k x s).up = s.up ∧ (setTask k x s).out = s.out ∧ (setTask k x s).sys = s.sys ∧
    (setTask k x s).queues = s.queues ∧ (setTask k x s).execs = s.execs ∧ (setTask k x s).intStat = s.intStat ∧
    (setTask k x s).acl = s.acl ∧ (setTask k x s).tick = s.tick ∧ (setTask k x s).fsp = s.fsp ∧
    (setTask k x s).ref = s.ref ∧ (setTask k x s).time = s.time ∧ (setTask k x s).gnss = s.gnss ∧
    (setTask k x s).corr = s.corr ∧ (setTask k x s).rse = s.rse ∧ (setTask k x s).uz = s.uz ∧
    (setTask k x s).track = s.track ∧ (setTask k x s).spin = s.spin ∧ (setTask k x s).gov = s.gov ∧
    (setTask k x s).stop = s.stop ∧ (setTask k x s).sched = s.sched ∧ (setTask k x s).net = s.net ∧
    (setTask k x s).rec_ = s.rec_ ∧ (setTask k x s).pair = s.pair ∧ (setTask k x s).upd = s.upd ∧
    (setTask k x s).health = s.health := by
  simp [setTask]

@[simp] theorem setTime_rest (t : Timebase) (s : State) :
    (setTime t s).member = s.member ∧ (setTime t s).pending = s.pending ∧ (setTime t s).now = s.now ∧
    (setTime t s).up = s.up ∧ (setTime t s).out = s.out ∧ (setTime t s).sys = s.sys ∧
    (setTime t s).queues = s.queues ∧ (setTime t s).execs = s.execs ∧ (setTime t s).intStat = s.intStat ∧
    (setTime t s).acl = s.acl ∧ (setTime t s).tick = s.tick ∧ (setTime t s).fsp = s.fsp ∧
    (setTime t s).ref = s.ref ∧ (setTime t s).gnss = s.gnss ∧ (setTime t s).corr = s.corr ∧
    (setTime t s).rse = s.rse ∧ (setTime t s).uz = s.uz ∧ (setTime t s).track = s.track ∧
    (setTime t s).task = s.task ∧ (setTime t s).spin = s.spin ∧ (setTime t s).gov = s.gov ∧
    (setTime t s).stop = s.stop ∧ (setTime t s).sched = s.sched ∧ (setTime t s).net = s.net ∧
    (setTime t s).rec_ = s.rec_ ∧ (setTime t s).pair = s.pair ∧ (setTime t s).upd = s.upd ∧
    (setTime t s).health = s.health := by
  simp [setTime]

@[simp] theorem setSource_rest (c : Nat) (x : Source) (s : State) :
    (setSource c x s).member = s.member ∧ (setSource c x s).pending = s.pending ∧ (setSource c x s).now = s.now ∧
    (setSource c x s).up = s.up ∧ (setSource c x s).out = s.out ∧ (setSource c x s).sys = s.sys ∧
    (setSource c x s).queues = s.queues ∧ (setSource c x s).execs = s.execs ∧ (setSource c x s).intStat = s.intStat ∧
    (setSource c x s).acl = s.acl ∧ (setSource c x s).tick = s.tick ∧ (setSource c x s).fsp = s.fsp ∧
    (setSource c x s).ref = s.ref ∧ (setSource c x s).gnss = s.gnss ∧ (setSource c x s).corr = s.corr ∧
    (setSource c x s).rse = s.rse ∧ (setSource c x s).uz = s.uz ∧ (setSource c x s).track = s.track ∧
    (setSource c x s).task = s.task ∧ (setSource c x s).spin = s.spin ∧ (setSource c x s).gov = s.gov ∧
    (setSource c x s).stop = s.stop ∧ (setSource c x s).sched = s.sched ∧ (setSource c x s).net = s.net ∧
    (setSource c x s).rec_ = s.rec_ ∧ (setSource c x s).pair = s.pair ∧ (setSource c x s).upd = s.upd ∧
    (setSource c x s).health = s.health := by
  simp [setSource]

@[simp] theorem setPtpPort_rest (p : Nat) (x : PtpPort) (s : State) :
    (setPtpPort p x s).member = s.member ∧ (setPtpPort p x s).pending = s.pending ∧ (setPtpPort p x s).now = s.now ∧
    (setPtpPort p x s).up = s.up ∧ (setPtpPort p x s).out = s.out ∧ (setPtpPort p x s).sys = s.sys ∧
    (setPtpPort p x s).queues = s.queues ∧ (setPtpPort p x s).execs = s.execs ∧ (setPtpPort p x s).intStat = s.intStat ∧
    (setPtpPort p x s).acl = s.acl ∧ (setPtpPort p x s).tick = s.tick ∧ (setPtpPort p x s).fsp = s.fsp ∧
    (setPtpPort p x s).ref = s.ref ∧ (setPtpPort p x s).gnss = s.gnss ∧ (setPtpPort p x s).corr = s.corr ∧
    (setPtpPort p x s).rse = s.rse ∧ (setPtpPort p x s).uz = s.uz ∧ (setPtpPort p x s).track = s.track ∧
    (setPtpPort p x s).task = s.task ∧ (setPtpPort p x s).spin = s.spin ∧ (setPtpPort p x s).gov = s.gov ∧
    (setPtpPort p x s).stop = s.stop ∧ (setPtpPort p x s).sched = s.sched ∧ (setPtpPort p x s).net = s.net ∧
    (setPtpPort p x s).rec_ = s.rec_ ∧ (setPtpPort p x s).pair = s.pair ∧ (setPtpPort p x s).upd = s.upd ∧
    (setPtpPort p x s).health = s.health := by
  simp [setPtpPort]

@[simp] theorem setTr_rest (r : Nat) (x : TrackRobot) (s : State) :
    (setTr r x s).member = s.member ∧ (setTr r x s).pending = s.pending ∧ (setTr r x s).now = s.now ∧
    (setTr r x s).up = s.up ∧ (setTr r x s).out = s.out ∧ (setTr r x s).sys = s.sys ∧
    (setTr r x s).queues = s.queues ∧ (setTr r x s).execs = s.execs ∧ (setTr r x s).intStat = s.intStat ∧
    (setTr r x s).acl = s.acl ∧ (setTr r x s).tick = s.tick ∧ (setTr r x s).fsp = s.fsp ∧
    (setTr r x s).ref = s.ref ∧ (setTr r x s).time = s.time ∧ (setTr r x s).gnss = s.gnss ∧
    (setTr r x s).corr = s.corr ∧ (setTr r x s).rse = s.rse ∧ (setTr r x s).uz = s.uz ∧
    (setTr r x s).task = s.task ∧ (setTr r x s).spin = s.spin ∧ (setTr r x s).gov = s.gov ∧
    (setTr r x s).stop = s.stop ∧ (setTr r x s).sched = s.sched ∧ (setTr r x s).net = s.net ∧
    (setTr r x s).rec_ = s.rec_ ∧ (setTr r x s).pair = s.pair ∧ (setTr r x s).upd = s.upd ∧
    (setTr r x s).health = s.health := by
  simp [setTr]

@[simp] theorem setBank_rest (b : Bool) (x : Bank) (s : State) :
    (setBank b x s).member = s.member ∧ (setBank b x s).pending = s.pending ∧ (setBank b x s).now = s.now ∧
    (setBank b x s).up = s.up ∧ (setBank b x s).out = s.out ∧ (setBank b x s).sys = s.sys ∧
    (setBank b x s).queues = s.queues ∧ (setBank b x s).execs = s.execs ∧ (setBank b x s).intStat = s.intStat ∧
    (setBank b x s).acl = s.acl ∧ (setBank b x s).tick = s.tick ∧ (setBank b x s).fsp = s.fsp ∧
    (setBank b x s).ref = s.ref ∧ (setBank b x s).time = s.time ∧ (setBank b x s).gnss = s.gnss ∧
    (setBank b x s).corr = s.corr ∧ (setBank b x s).rse = s.rse ∧ (setBank b x s).uz = s.uz ∧
    (setBank b x s).track = s.track ∧ (setBank b x s).task = s.task ∧ (setBank b x s).spin = s.spin ∧
    (setBank b x s).gov = s.gov ∧ (setBank b x s).stop = s.stop ∧ (setBank b x s).sched = s.sched ∧
    (setBank b x s).net = s.net ∧ (setBank b x s).rec_ = s.rec_ ∧ (setBank b x s).pair = s.pair ∧
    (setBank b x s).health = s.health := by
  cases b <;> simp [setBank]

@[simp] theorem setRing_rest (b : Bool) (x : Ring) (s : State) :
    (setRing b x s).member = s.member ∧ (setRing b x s).pending = s.pending ∧ (setRing b x s).now = s.now ∧
    (setRing b x s).up = s.up ∧ (setRing b x s).out = s.out ∧ (setRing b x s).sys = s.sys ∧
    (setRing b x s).queues = s.queues ∧ (setRing b x s).execs = s.execs ∧ (setRing b x s).intStat = s.intStat ∧
    (setRing b x s).acl = s.acl ∧ (setRing b x s).tick = s.tick ∧ (setRing b x s).fsp = s.fsp ∧
    (setRing b x s).ref = s.ref ∧ (setRing b x s).time = s.time ∧ (setRing b x s).gnss = s.gnss ∧
    (setRing b x s).corr = s.corr ∧ (setRing b x s).rse = s.rse ∧ (setRing b x s).uz = s.uz ∧
    (setRing b x s).track = s.track ∧ (setRing b x s).task = s.task ∧ (setRing b x s).spin = s.spin ∧
    (setRing b x s).gov = s.gov ∧ (setRing b x s).stop = s.stop ∧ (setRing b x s).sched = s.sched ∧
    (setRing b x s).net = s.net ∧ (setRing b x s).pair = s.pair ∧ (setRing b x s).upd = s.upd ∧
    (setRing b x s).health = s.health := by
  cases b <;> simp [setRing]

@[simp] theorem getChain4_setChain4 (i : Nat) (x : Chain4) (s : State) : getChain4 (setChain4 i x s) i = x :=
  tabGet_tabSet ..

@[simp] theorem getBank_setBank (b : Bool) (x : Bank) (s : State) : getBank (setBank b x s) b = x := by
  cases b <;> rfl

@[simp] theorem getRing_setRing (b : Bool) (x : Ring) (s : State) : getRing (setRing b x s) b = x := by
  cases b <;> rfl

end Sys2Proof.Machine
end

