-- ==== Sys2Proof/Laws/HostOps.lean ====
section
/-! SUPPORT. The shared operations keep the host side (R64, R69, R71), the member and the commands that wait. -/
set_option autoImplicit false

namespace Sys2Proof.Machine

variable {m : Member} {p : List Instr}

theorem passPps_keepsHost (old : Nat) (s : State) (h : HostOk m p s.view) :
    HostOk m p (passPps old s).view := by
  unfold passPps
  try dsimp only
  repeat' first | with_reducible assumption | with_reducible refine ite_keepsHost ?_ ?_ | split

theorem passTime_keepsHost (dt : Nat) (s : State) (h : HostOk m p s.view) :
    HostOk m p (passTime dt s).view := by
  unfold passTime
  try dsimp only
  repeat' first | with_reducible assumption | with_reducible apply passPps_keepsHost
                | with_reducible refine ite_keepsHost ?_ ?_ | split

theorem passOpTime_keepsHost (dt : Nat) (s : State) (h : HostOk m p s.view) :
    HostOk m p (passOpTime dt s).view := by
  unfold passOpTime
  try dsimp only
  repeat' first | with_reducible assumption | with_reducible refine ite_keepsHost ?_ ?_ | split

theorem advance_keepsHost (dt : Nat) (s : State) (h : HostOk m p s.view) :
    HostOk m p (advance dt s).view := by
  unfold advance
  repeat' first | with_reducible assumption | with_reducible apply passTime_keepsHost
                | with_reducible apply passOpTime_keepsHost

theorem begin__keepsHost (dt : Nat) (s : State) (h : HostOk m p s.view) :
    HostOk m p (begin_ dt s).view := by
  unfold begin_
  repeat' first | with_reducible assumption | with_reducible apply advance_keepsHost

theorem beginInput_keepsHost (dt : Nat) (s : State) (h : HostOk m p s.view) :
    HostOk m p (beginInput dt s).view := by
  unfold beginInput
  try dsimp only
  repeat' first | with_reducible assumption | with_reducible apply begin__keepsHost
                | with_reducible apply passOpTime_keepsHost | with_reducible apply passPps_keepsHost
                | with_reducible refine ite_keepsHost ?_ ?_ | split

theorem beginAt_keepsHost (t1 : Nat) (s : State) (h : HostOk m p s.view) :
    HostOk m p (beginAt t1 s).view := by
  unfold beginAt
  try dsimp only
  repeat' first | with_reducible assumption | with_reducible apply passOpTime_keepsHost
                | with_reducible apply passPps_keepsHost | with_reducible refine ite_keepsHost ?_ ?_ | split

theorem beginUp_keepsHost (t1 : Nat) (s : State) (h : HostOk m p s.view) :
    HostOk m p (beginUp t1 s).view := by
  unfold beginUp
  repeat' first | with_reducible assumption | with_reducible apply begin__keepsHost
                | with_reducible refine ite_keepsHost ?_ ?_

theorem emit_keepsHost (o : Output) (s : State) (h : HostOk m p s.view) :
    HostOk m p (emit o s).view := by
  unfold emit
  repeat' first | with_reducible assumption

theorem laneSend_keepsHost (kind : Nat) (ws : List Nat) (s : State) (h : HostOk m p s.view) :
    HostOk m p (laneSend kind ws s).view := by
  unfold laneSend
  repeat' first | with_reducible assumption | with_reducible apply emit_keepsHost
                | with_reducible refine ite_keepsHost ?_ ?_

theorem drawFresh_keepsHost (s : State) (h : HostOk m p s.view) :
    HostOk m p (drawFresh s).2.view := by
  unfold drawFresh
  repeat' first | with_reducible assumption

theorem drawFresh_keepsHost_pair {s : State} {x0 : Nat} {t : State}
    (e : drawFresh s = (x0, t)) (h : HostOk m p s.view) : HostOk m p t.view := by
  have := drawFresh_keepsHost s h
  rwa [e] at this

theorem sendDatagram_keepsHost (src : NetSrc) (op : Nat) (tag : Word) (ws : List Word) (s : State) (h : HostOk m p s.view) :
    HostOk m p (sendDatagram src op tag ws s).view := by
  unfold sendDatagram
  dsimp only
  repeat' first | with_reducible assumption | with_reducible apply emit_keepsHost | split

theorem answer_keepsHost (r : Req) (ws : List Word) (s : State) (h : HostOk m p s.view) :
    HostOk m p (answer r ws s).view := by
  unfold answer
  repeat' first | with_reducible assumption | with_reducible apply placeOrWait_keepsHost
                | with_reducible apply sendDatagram_keepsHost | split

theorem chainFinal_keepsHost (q pid : Nat) (good : Bool) (s : State) (h : HostOk m p s.view) :
    HostOk m p (chainFinal q pid good s).view := by
  unfold chainFinal
  repeat' first | with_reducible assumption

theorem countStatus_keepsHost (r : Req) (st : Status) (s : State) (h : HostOk m p s.view) :
    HostOk m p (countStatus r st s).view := by
  unfold countStatus
  repeat' first | with_reducible assumption | with_reducible apply countQ_keepsHost | split

theorem noteResponse_keepsHost (r : Req) (st : Status) (s : State) (h : HostOk m p s.view) :
    HostOk m p (noteResponse r st s).view := by
  unfold noteResponse
  repeat' first | with_reducible assumption | with_reducible refine ite_keepsHost ?_ ?_

theorem finish_keepsHost (r : Req) (st : Status) (detail : Nat) (ws : List Word) (s : State) (h : HostOk m p s.view) :
    HostOk m p (finish r st detail ws s).view := by
  unfold finish
  repeat' first | with_reducible assumption | with_reducible apply placeOrWait_keepsHost
                | with_reducible apply answer_keepsHost | with_reducible apply chainFinal_keepsHost
                | with_reducible apply countStatus_keepsHost | with_reducible apply noteResponse_keepsHost
                | with_reducible refine modQ_keep_keepsHost _ _ _ (fun _ => rfl) (fun _ => rfl) ?_ | split

theorem accepted_keepsHost (r : Req) (s : State) (h : HostOk m p s.view) :
    HostOk m p (accepted r s).view := by
  unfold accepted
  repeat' first | with_reducible assumption | with_reducible apply answer_keepsHost
                | with_reducible refine ite_keepsHost ?_ ?_

theorem complete_keepsHost (r : Req) (st : Status) (detail : Nat) (ws : List Word) (s : State) (h : HostOk m p s.view) :
    HostOk m p (complete r st detail ws s).view := by
  unfold complete
  repeat' first | with_reducible assumption | with_reducible apply finish_keepsHost

theorem deliver_keepsHost (code detail t1 : Nat) (payload : List Word) (d : Dest) (s : State) (h : HostOk m p s.view) :
    HostOk m p (deliver code detail t1 payload d s).view := by
  unfold deliver
  repeat' first | with_reducible assumption | with_reducible apply postEvent_keepsHost
                | with_reducible refine foldl_keepsHost _ _ _ (fun _ _ _ => ?_) ?_ | split

theorem countOccurrence_keepsHost (code : Nat) (s : State) (h : HostOk m p s.view) :
    HostOk m p (countOccurrence code s).2.view := by
  unfold countOccurrence
  repeat' first | with_reducible assumption

theorem countOccurrence_keepsHost_pair {code : Nat} {s : State} {x0 : Nat} {t : State}
    (e : countOccurrence code s = (x0, t)) (h : HostOk m p s.view) : HostOk m p t.view := by
  have := countOccurrence_keepsHost code s h
  rwa [e] at this

theorem startWrite_keepsHost (audit overflow : Bool) (e1 : Staged) (s : State) (h : HostOk m p s.view) :
    HostOk m p (startWrite audit overflow e1 s).view := by
  unfold startWrite
  try dsimp only
  repeat' first | with_reducible assumption | with_reducible refine ite_keepsHost ?_ ?_ | split

theorem stage_keepsHost (code detail t1 : Nat) (ws : List Word) (s : State) (h : HostOk m p s.view) :
    HostOk m p (stage code detail t1 ws s).view := by
  unfold stage
  try dsimp only
  repeat' first | with_reducible assumption | with_reducible apply startWrite_keepsHost
                | with_reducible apply countOccurrence_keepsHost | with_reducible refine ite_keepsHost ?_ ?_ | split

theorem triggerJobs_keepsHost (code : Nat) (s : State) (h : HostOk m p s.view) :
    HostOk m p (triggerJobs code s).view := by
  unfold triggerJobs
  repeat' first | with_reducible assumption

theorem raiseAt_keepsHost (t1 code detail : Nat) (payload : List Word) (d : Dest) (s : State) (h : HostOk m p s.view) :
    HostOk m p (raiseAt t1 code detail payload d s).view := by
  unfold raiseAt
  repeat' first | with_reducible assumption | with_reducible apply deliver_keepsHost
                | with_reducible apply stage_keepsHost | with_reducible apply triggerJobs_keepsHost

theorem raise_keepsHost (code detail : Nat) (payload : List Word) (d : Dest) (s : State) (h : HostOk m p s.view) :
    HostOk m p (raise code detail payload d s).view := by
  unfold raise
  repeat' first | with_reducible assumption | with_reducible apply raiseAt_keepsHost

theorem flushDenials_keepsHost (s : State) (h : HostOk m p s.view) :
    HostOk m p (flushDenials s).view := by
  unfold flushDenials
  try dsimp only
  repeat' first | with_reducible assumption | with_reducible apply raise_keepsHost
                | with_reducible refine foldl_keepsHost _ _ _ (fun _ _ _ => ?_) ?_
                | with_reducible refine ite_keepsHost ?_ ?_ | split

theorem endDenials_keepsHost (s : State) (h : HostOk m p s.view) :
    HostOk m p (endDenials s).view := by
  unfold endDenials
  try dsimp only
  repeat' first | with_reducible assumption | with_reducible apply flushDenials_keepsHost
                | with_reducible refine ite_keepsHost ?_ ?_ | split

theorem deny_keepsHost (master target off acc : Nat) (s : State) (h : HostOk m p s.view) :
    HostOk m p (deny master target off acc s).view := by
  unfold deny
  try dsimp only
  repeat' first | with_reducible assumption | with_reducible apply endDenials_keepsHost
                | with_reducible apply raise_keepsHost | with_reducible refine ite_keepsHost ?_ ?_ | split

theorem setLink_keepsHost (r : Nat) (l : Link) (s : State) (h : HostOk m p s.view) :
    HostOk m p (setLink r l s).view := by
  unfold setLink
  repeat' first | with_reducible assumption

theorem modLink_keepsHost (r : Nat) (f : Link → Link) (s : State) (h : HostOk m p s.view) :
    HostOk m p (modLink r f s).view := by
  unfold modLink
  repeat' first | with_reducible assumption | with_reducible apply setLink_keepsHost

theorem setSpindle_keepsHost (r : Nat) (x1 : Spindle) (s : State) (h : HostOk m p s.view) :
    HostOk m p (setSpindle r x1 s).view := by
  unfold setSpindle
  repeat' first | with_reducible assumption

theorem modSpindle_keepsHost (r : Nat) (f : Spindle → Spindle) (s : State) (h : HostOk m p s.view) :
    HostOk m p (modSpindle r f s).view := by
  unfold modSpindle
  repeat' first | with_reducible assumption | with_reducible apply setSpindle_keepsHost

theorem touchSession_keepsHost (s : State) (h : HostOk m p s.view) :
    HostOk m p (touchSession s).view := by
  unfold touchSession
  repeat' first | with_reducible assumption

theorem closeSession_keepsHost (cause : Nat) (s : State) (h : HostOk m p s.view) :
    HostOk m p (closeSession cause s).view := by
  unfold closeSession
  repeat' first | with_reducible assumption | with_reducible apply raise_keepsHost
                | with_reducible refine ite_keepsHost ?_ ?_

end Sys2Proof.Machine
end

