-- ==== Sys2Proof/Laws/HostSubmit.lean ====
section
/-! SUPPORT. Receiving, taking, beginning and finishing a command keep the host side; the words of the command FIFO and the
credit (R65, R69). -/
set_option autoImplicit false

namespace Sys2Proof.Machine

variable {m : Member} {p : List Instr}

/-! ### Peeling the checks of a command's body, and outcomes -/

theorem bindNeed {α : Type} {G : Prop} {c : Bool} {st : Status} {d : Nat} {f : Unit → Except Fail α} {y : α}
    (h : f () = .ok y → G) : (need c st d >>= f) = .ok y → G := by
  cases c
  · intro e; cases e
  · exact h

theorem bindAny {α β : Type} {G : Prop} {a : Except Fail β} {f : β → Except Fail α} {y : α}
    (h : ∀ v, a = .ok v → f v = .ok y → G) : (a >>= f) = .ok y → G := by
  cases a with
  | error e => intro k; cases k
  | ok v => exact h v rfl

theorem failAny {α : Type} {G : Prop} {st : Status} {d : Nat} {y : α} : (failWith st d : Except Fail α) = .ok y → G := by
  intro e; cases e

theorem errorAny {α : Type} {G : Prop} {f : Fail} {y : α} : (Except.error f : Except Fail α) = .ok y → G := by
  intro e; cases e

theorem retOk {a t : State} {b x : Reply} (h : HostOk m p a.view) : (Except.ok (a, b) : Res) = .ok (t, x) → HostOk m p t.view := by
  intro e; cases e; exact h

theorem pureOk {a t : State} {b x : Reply} (h : HostOk m p a.view) : (pure (a, b) : Res) = .ok (t, x) → HostOk m p t.view := by
  intro e; cases e; exact h

theorem nextOk {a t : State} (h : HostOk m p a.view) :
    (Host.Outcome.next a : Host.Outcome State Fault Refusal) = .next t → HostOk m p t.view := by
  intro e; cases e; exact h

theorem faultAny {G : Prop} {f : Fault} {t : State} : (Host.Outcome.fault f : Host.Outcome State Fault Refusal) = .next t → G := by
  intro e; cases e

/-- A descriptor's body keeps the host side. -/
def Desc.Keeps (m : Member) (p : List Instr) (d : Desc) : Prop :=
  ∀ r s t x, d.body r s = .ok (t, x) → HostOk m p s.view → HostOk m p t.view

/-- A descriptor whose body first compares LENGTH with what a field names. -/
theorem formLen_keepsHost {d : Desc} {f : Req → Option Nat} {b : Req → State → Res} {n0 : Nat}
    (hb : ∀ r s t x, b r s = .ok (t, x) → HostOk m p s.view → HostOk m p t.view)
    (hd : d.body = fun r s => match f r with
      | some n => if lenNoAt r = n then b r s else failWith .badLength n0
      | none => b r s) : d.Keeps m p := by
  intro r s t x e h
  rw [hd] at e
  dsimp only at e
  split at e
  · split at e
    · exact hb _ _ _ _ e h
    · cases e
  · exact hb _ _ _ _ e h

theorem formLen_keeps {d : Desc} {f : Req → Option Nat} (hd : d.Keeps m p) : (d.formLen f).Keeps m p :=
  formLen_keepsHost hd rfl

theorem gatedBody_keepsHost {d : Desc} (hd : d.Keeps m p) {r : Req} {s t : State} {x : Reply} (e : gatedBody d r s = .ok (t, x))
    (h : HostOk m p s.view) : HostOk m p t.view := by
  unfold gatedBody at e
  split at e
  · split at e
    · split at e <;> cases e
    · cases e
  · exact hd _ _ _ _ e h

theorem failReq_keepsHost (r : Req) (f : Fail) (s : State) (h : HostOk m p s.view) : HostOk m p (failReq r f s).view := by
  unfold failReq
  exact finish_keepsHost _ _ _ _ _ h

theorem perform_keepsHost (r : Req) (s : State) (x : Reply) (h : HostOk m p s.view) : HostOk m p (perform r s x).view := by
  unfold perform
  split
  · exact finish_keepsHost _ _ _ _ _ h
  · exact finish_keepsHost _ _ _ _ _ h
  · split
    · exact h
    · exact accepted_keepsHost _ _ h

theorem enterChain_keepsHost (r : Req) (s : State) {a : Req} {b : Nat} {c : Option Bool} {t : State} (e : enterChain r s = (a, b, c, t))
    (h : HostOk m p s.view) : HostOk m p t.view := by
  unfold enterChain at e
  cases e
  exact h

theorem runNow_keepsHost {d : Desc} (hd : d.Keeps m p) (r : Req) (chain : Bool) (s : State) (h : HostOk m p s.view) :
    HostOk m p (runNow d r chain s).view := by
  unfold runNow
  dsimp only
  split
  · exact failReq_keepsHost _ _ _ h
  · rename_i e1
    split
    · exact failReq_keepsHost _ _ _ h
    · split
      · exact failReq_keepsHost _ _ _ h
      · split
        · exact accepted_keepsHost _ _ h
        · split
          · exact h
          · split
            · split
              · exact failReq_keepsHost _ _ _ h
              · rename_i e2
                exact perform_keepsHost _ _ _ (gatedBody_keepsHost hd e2 h)
            · exact perform_keepsHost _ _ _ (gatedBody_keepsHost hd e1 h)

theorem laneCommand_keepsHost (r : Req) (s : State) (h : HostOk m p s.view) : HostOk m p (laneCommand r s).view := by
  unfold laneCommand
  exact laneSend_keepsHost _ _ _ h

theorem take_keepsHost (d : Option Desc) (hd : ∀ x, d = some x → x.Keeps m p) (r : Req) (s : State) (h : HostOk m p s.view) :
    HostOk m p (take d r s).view := by
  unfold take
  split
  rename_i r1 pred predOk s1 e
  have h1 := enterChain_keepsHost _ _ e h
  cases d with
  | none => exact failReq_keepsHost _ _ _ h1
  | some d =>
    have hk := hd d rfl
    have h2 : HostOk m p (if lengthOk d r1 then
        laneCommand r1 (countQ r1.q (fun c => { c with accepted := cnt32 c.accepted }) s1) else s1).view := by
      split
      · exact laneCommand_keepsHost _ _ (countQ_keepsHost _ _ _ h1)
      · exact h1
    dsimp only
    generalize (if lengthOk d r1 then
        laneCommand r1 (countQ r1.q (fun c => { c with accepted := cnt32 c.accepted }) s1) else s1) = s2 at h2 ⊢
    split
    · split
      · exact failReq_keepsHost _ _ _ (deny_keepsHost _ _ _ _ _ h2)
      · exact failReq_keepsHost _ _ _ h2
    · split
      · split
        · exact runNow_keepsHost hk _ _ _ h2
        · split
          · exact h2
          · exact failReq_keepsHost _ _ _ h2
      · exact runNow_keepsHost hk _ _ _ h2

theorem receive_keepsHost (d : Option Desc) (hd : ∀ x, d = some x → x.Keeps m p) (r : Req) (s : State) (h : HostOk m p s.view) :
    HostOk m p (receive d r s).view := by
  have key : ∀ n, HostOk m p (if roomFor s r.q n then take d r s
      else modQ r.q (fun x => { x with cmd := { x.cmd with held := some r } }) s).view := by
    intro n
    split
    · exact take_keepsHost d hd _ _ h
    · exact modQ_keepsHost _ (fun x => { x with cmd := { x.cmd with held := some r } }) _ (fun x hx => hx) h
  unfold receive
  cases d <;> exact key _

theorem interpFail_keepsHost (q op : Nat) (tag : Word) (st : Status) (detail : Nat) (ws : List Word) (s : State) (h : HostOk m p s.view) :
    HostOk m p (interpFail q op tag st detail ws s).view := by
  unfold interpFail
  exact finish_keepsHost _ _ _ _ _ (enterChain_keepsHost _ _ rfl h)

theorem countPurged_keepsHost (q n : Nat) (s : State) (h : HostOk m p s.view) : HostOk m p (countPurged q n s).view := countQ_keepsHost _ _ _ h

theorem readWord_keepsHost (lookup : Nat → Option Desc) (hl : ∀ op x, lookup op = some x → x.Keeps m p) (q : Nat) (w : Word) (s : State)
    (h : HostOk m p s.view) : HostOk m p (readWord lookup q w s).view := by
  unfold readWord
  dsimp only
  split
  · exact modCmd_keep_keepsHost _ _ _ (fun _ => ⟨rfl, rfl, rfl, rfl, rfl⟩) h
  · exact countPurged_keepsHost _ _ _ h
  · split
    · exact interpFail_keepsHost _ _ _ _ _ _ _ h
    · split
      · exact modCmd_keep_keepsHost _ _ _ (fun _ => ⟨rfl, rfl, rfl, rfl, rfl⟩) h
      · split
        · exact modCmd_keep_keepsHost _ _ _ (fun _ => ⟨rfl, rfl, rfl, rfl, rfl⟩) h
        · exact receive_keepsHost _ (hl _) _ _ (modCmd_keep_keepsHost _ _ _ (fun _ => ⟨rfl, rfl, rfl, rfl, rfl⟩) h)

theorem discardPart_keepsHost (q : Nat) (s : State) (h : HostOk m p s.view) : HostOk m p (discardPart q s).view := by
  unfold discardPart
  exact interpFail_keepsHost _ _ _ _ _ _ _ (modCmd_keep_keepsHost _ _ _ (fun _ => ⟨rfl, rfl, rfl, rfl, rfl⟩) h)

theorem passBell_keepsHost (q : Nat) (s : State) (h : HostOk m p s.view) : HostOk m p (passBell q s).view := by
  unfold passBell
  split
  · exact interpFail_keepsHost _ _ _ _ _ _ _ (countPurged_keepsHost _ _ _ (modCmd_keep_keepsHost _ _ _ (fun _ => ⟨rfl, rfl, rfl, rfl, rfl⟩) h))
  · exact modCmd_keep_keepsHost _ _ _ (fun _ => ⟨rfl, rfl, rfl, rfl, rfl⟩) h
  · exact h


theorem heldWords_nil : heldWords [] = 0 := rfl

theorem heldWords_cons (i : FifoItem) (l : List FifoItem) : heldWords (i :: l) = entryWords i + heldWords l := by
  simp [heldWords]

theorem heldWords_append (a b : List FifoItem) : heldWords (a ++ b) = heldWords a + heldWords b := by
  simp [heldWords]

/-- A release of n words hands back at most n words of credit. -/
theorem credit_release (a b : Word) (n : Nat) : (a + wordOf n - b).toNat ≤ (a - b).toNat + n := by
  have e : a + wordOf n - b = (a - b) + wordOf n := by bv_omega
  rw [e, BitVec.toNat_add]
  refine Nat.le_trans (Nat.mod_le _ _) ?_
  have : (wordOf n).toNat ≤ n := by unfold wordOf; rw [BitVec.toNat_ofNat]; exact Nat.mod_le _ _
  omega

theorem closeEntry_outstanding (c : CmdSide) : outstanding (closeEntry c) = outstanding c := by
  unfold closeEntry
  split
  · rfl
  · simp [outstanding, heldWords_append, heldWords_cons, heldWords_nil, entryWords, Nat.add_assoc]

theorem closeEntry_credit (c : CmdSide) : (closeEntry c).credLimit = c.credLimit ∧ (closeEntry c).wordsTaken = c.wordsTaken := by
  unfold closeEntry
  split <;> exact ⟨rfl, rfl⟩

theorem CmdOk.of_le {c d : CmdSide} (h : CmdOk c) (e : (d.credLimit - d.wordsTaken).toNat + outstanding d ≤
    (c.credLimit - c.wordsTaken).toNat + outstanding c) : CmdOk d := Nat.le_trans e h

theorem interp_keepsHost (lookup : Nat → Option Desc) (hl : ∀ op x, lookup op = some x → x.Keeps m p) (q n : Nat) (s : State)
    (h : HostOk m p s.view) : HostOk m p (interp lookup q n s).view := by
  induction n generalizing s with
  | zero => exact h
  | succ n ih =>
    have hc : CmdOk (getQ s q).cmd := (getQ_okq s q h.2.2.2).2
    have set_ : ∀ f : CmdSide → CmdSide, CmdOk (f (getQ s q).cmd) → HostOk m p (modCmd q f s).view := fun f hf =>
      setQ_keepsHost _ _ _ ⟨(getQ_okq s q h.2.2.2).1, hf⟩ h
    unfold interp
    dsimp only
    split
    · exact h
    · split
      · exact h
      · rename_i k rest e
        refine ih _ (set_ _ (hc.of_le ?_))
        have := credit_release (getQ s q).cmd.credLimit (getQ s q).cmd.wordsTaken k
        simp only [outstanding, e, heldWords_cons, entryWords]
        omega
      · rename_i k w ws rest e
        refine ih _ (readWord_keepsHost _ hl _ _ _ (set_ _ (hc.of_le ?_)))
        simp only [outstanding, e, heldWords_cons, entryWords]
        omega
      · rename_i rest e
        refine ih _ (passBell_keepsHost _ _ (set_ _ (hc.of_le ?_)))
        simp only [outstanding, e, heldWords_cons, entryWords]
        omega
      · rename_i rest e
        have h1 : HostOk m p (modCmd q (fun c => { c with vis := rest }) s).view := by
          refine set_ _ (hc.of_le ?_)
          simp only [outstanding, e, heldWords_cons, entryWords]
          omega
        refine ih _ (modCmd_keep_keepsHost _ _ _ (fun _ => ⟨rfl, rfl, rfl, rfl, rfl⟩) ?_)
        split
        · exact discardPart_keepsHost _ _ h1
        · exact h1

theorem runInterp_keepsHost (lookup : Nat → Option Desc) (hl : ∀ op x, lookup op = some x → x.Keeps m p) (q : Nat) (s : State)
    (h : HostOk m p s.view) : HostOk m p (runInterp lookup q s).view := interp_keepsHost _ hl _ _ _ h

theorem strandStart_keepsHost (q : Nat) (s : State) (h : HostOk m p s.view) : HostOk m p (strandStart q s).view :=
  modCmd_keep_keepsHost _ _ _ (fun _ => ⟨rfl, rfl, rfl, rfl, rfl⟩) h

theorem writeWord_keepsHost (q : Nat) (w : Word) (s : State) (h : HostOk m p s.view) : HostOk m p (writeWord q w s).view := by
  have hc : CmdOk (getQ s q).cmd := (getQ_okq s q h.2.2.2).2
  have set_ : ∀ f : CmdSide → CmdSide, CmdOk (f (getQ s q).cmd) → HostOk m p (modCmd q f s).view := fun f hf =>
    setQ_keepsHost _ _ _ ⟨(getQ_okq s q h.2.2.2).1, hf⟩ h
  unfold writeWord
  dsimp only
  split
  · exact countQ_keepsHost _ _ _ (strandStart_keepsHost _ _ h)
  · split
    · refine setQueFlag_keepsHost _ _ _ (countQ_keepsHost _ _ _ (set_ (fun c => { (if c.dropping then c else
        { closeEntry c with inv := (closeEntry c).inv ++ [.cut], dropping := true }) with strandAt := some s.up }) ?_))
      dsimp only
      split
      · exact hc
      · refine hc.of_le ?_
        have e := closeEntry_outstanding (getQ s q).cmd
        obtain ⟨a, b⟩ := closeEntry_credit (getQ s q).cmd
        simp only [outstanding, heldWords_append, heldWords_cons, heldWords_nil, entryWords, a, b] at e ⊢
        omega
    · rename_i hne
      refine countQ_keepsHost _ _ _ (modQ_keepsHost _ _ _ (fun x hx => hx) (set_ _ ?_))
      have hn : (getQ s q).cmd.credLimit - ((getQ s q).cmd.wordsTaken + 1) + 1 =
          (getQ s q).cmd.credLimit - (getQ s q).cmd.wordsTaken := by bv_omega
      have hlt : ((getQ s q).cmd.credLimit - ((getQ s q).cmd.wordsTaken + 1)).toNat + 1 =
          ((getQ s q).cmd.credLimit - (getQ s q).cmd.wordsTaken).toNat := by
        have hz : (getQ s q).cmd.credLimit - (getQ s q).cmd.wordsTaken ≠ 0 := by
          intro z
          exact hne (by bv_omega)
        generalize (getQ s q).cmd.credLimit - ((getQ s q).cmd.wordsTaken + 1) = u at hn ⊢
        generalize (getQ s q).cmd.credLimit - (getQ s q).cmd.wordsTaken = v at hn hz ⊢
        bv_omega
      split
      · rename_i h4
        refine hc.of_le ?_
        simp only [List.length_append, List.length_cons, List.length_nil] at h4
        simp only [outstanding, heldWords_append, heldWords_cons, heldWords_nil, entryWords, List.length_nil]
        omega
      · refine hc.of_le ?_
        simp only [outstanding, List.length_append, List.length_cons, List.length_nil]
        omega

theorem ringBell_keepsHost (lookup : Nat → Option Desc) (hl : ∀ op x, lookup op = some x → x.Keeps m p) (q : Nat) (s : State)
    (h : HostOk m p s.view) : HostOk m p (ringBell lookup q s).view := by
  unfold ringBell
  dsimp only
  split
  · exact countQ_keepsHost _ _ _ h
  · refine runInterp_keepsHost _ hl _ _ (modCmd_keepsHost _ _ _ (fun c hc => hc.of_le ?_) h)
    have e := closeEntry_outstanding c
    obtain ⟨a, b⟩ := closeEntry_credit c
    simp only [outstanding, heldWords_append, heldWords_cons, heldWords_nil, entryWords, a, b] at e ⊢
    omega

theorem writeWords_keepsHost (lookup : Nat → Option Desc) (hl : ∀ op x, lookup op = some x → x.Keeps m p) (q : Nat) (ws : List Word)
    (s : State) (h : HostOk m p s.view) : HostOk m p (writeWords lookup q ws s).view := by
  unfold writeWords
  refine ringBell_keepsHost _ hl _ _ (foldl_keepsHost _ _ _ (fun a w ha => ?_) h)
  dsimp only
  refine writeWord_keepsHost _ _ _ ?_
  split
  · exact ringBell_keepsHost _ hl _ _ ha
  · exact ha

theorem passFifo_keepsHost (q n : Nat) (s : State) (h : HostOk m p s.view) : HostOk m p (passFifo q n s).view := by
  unfold passFifo
  refine countQ_keepsHost _ _ _ (modQ_keepsHost _ _ _ (fun x hx => ⟨hx.1, hx.2.of_le ?_⟩) h)
  have e : x.cmd.credLimit + wordOf n - (x.cmd.wordsTaken + wordOf n) = x.cmd.credLimit - x.cmd.wordsTaken := by bv_omega
  simp only [outstanding, e]
  omega

theorem hostCommand_keepsHost (d : Desc) (hd : d.Keeps m p) (lookup : Nat → Option Desc)
    (hl : ∀ op x, lookup op = some x → x.Keeps m p) (c : Cmd) (s : State) (h : HostOk m p s.view) :
    HostOk m p (hostCommand d lookup c s).view := by
  have hs : ∀ x, some d = some x → x.Keeps m p := fun x e => by cases e; exact hd
  unfold hostCommand
  dsimp only
  split
  · split
    · exact take_keepsHost _ hs _ _ h
    · exact h
  · split
    · exact h
    · split
      · exact receive_keepsHost _ hs _ _ (passFifo_keepsHost _ _ _ h)
      · exact writeWords_keepsHost _ hl _ _ _ h

end Sys2Proof.Machine
end

