-- ==== Sys2Proof/Laws/HostRec.lean ====
section
/-! SUPPORT. The operations and meanings of the recorder keep the registers of the host side as their tables
say, the member and the commands that wait (R64, R69, R71). -/
set_option autoImplicit false

namespace Sys2Proof.Machine

variable {m : Member} {p : List Instr}

theorem setRing_keepsHost (audit : Bool) (r : Ring) (s : State) (h : HostOk m p s.view) :
    HostOk m p (setRing audit r s).view := by
  unfold setRing
  repeat' first | with_reducible assumption | with_reducible refine ite_keepsHost ?_ ?_

theorem commit_keepsHost (audit : Bool) (e1 : Staged) (s : State) (h : HostOk m p s.view) :
    HostOk m p (commit audit e1 s).view := by
  unfold commit
  repeat' first | with_reducible assumption | with_reducible apply setRing_keepsHost
                | with_reducible refine ite_keepsHost ?_ ?_

theorem refillAudit_keepsHost (s : State) (h : HostOk m p s.view) :
    HostOk m p (refillAudit s).view := by
  unfold refillAudit
  repeat' first | with_reducible assumption

theorem writeOverflow_keepsHost (s : State) (h : HostOk m p s.view) :
    HostOk m p (writeOverflow s).view := by
  unfold writeOverflow
  repeat' first | with_reducible assumption | with_reducible apply deliver_keepsHost
                | with_reducible apply triggerJobs_keepsHost | with_reducible apply commit_keepsHost

theorem takeNext_keepsHost (s : State) (h : HostOk m p s.view) :
    HostOk m p (takeNext s).view := by
  unfold takeNext
  try dsimp only
  repeat' first | with_reducible assumption | with_reducible apply startWrite_keepsHost
                | with_reducible apply refillAudit_keepsHost | with_reducible refine ite_keepsHost ?_ ?_ | split

theorem finishWrite_keepsHost (s : State) (h : HostOk m p s.view) :
    HostOk m p (finishWrite s).view := by
  unfold finishWrite
  try dsimp only
  repeat' first | with_reducible assumption | with_reducible apply takeNext_keepsHost
                | with_reducible apply writeOverflow_keepsHost | with_reducible apply commit_keepsHost
                | with_reducible refine ite_keepsHost ?_ ?_ | split

theorem drain_keepsHost (n : Nat) (s : State) (h : HostOk m p s.view) : HostOk m p (drain n s).view := by
  induction n generalizing s with
  | zero => exact h
  | succ n ih =>
    unfold drain
    split
    · exact h
    · exact ih _ (finishWrite_keepsHost _ h)

theorem drained_keepsHost (s : State) (h : HostOk m p s.view) : HostOk m p (drained s).view :=
  drain_keepsHost _ s h

theorem execRecordCommit_keepsHost (dt : Nat) (s : State) (t : State)
    (e : execRecordCommit dt s = .next t) (h : HostOk m p s.view) : HostOk m p t.view := by
  revert e
  unfold execRecordCommit
  try dsimp only
  repeat' first | exact faultAny | with_reducible refine nextOk ?_ | with_reducible assumption
                | with_reducible apply finishWrite_keepsHost | with_reducible apply beginUp_keepsHost
                | with_reducible apply begin__keepsHost | with_reducible refine ite_keepsHost ?_ ?_ | split

theorem execAuditStageTimeout_keepsHost (dt : Nat) (s : State) (t : State)
    (e : execAuditStageTimeout dt s = .next t) (h : HostOk m p s.view) : HostOk m p t.view := by
  revert e
  unfold execAuditStageTimeout
  try dsimp only
  repeat' first | exact faultAny | with_reducible refine nextOk ?_ | with_reducible assumption
                | with_reducible apply beginUp_keepsHost | with_reducible apply begin__keepsHost
                | with_reducible refine ite_keepsHost ?_ ?_ | split

theorem summarise_keepsHost (s : State) (h : HostOk m p s.view) :
    HostOk m p (summarise s).view := by
  unfold summarise
  try dsimp only
  repeat' first | with_reducible assumption | with_reducible apply take_keepsHost
                | with_reducible apply startWrite_keepsHost | with_reducible apply deliver_keepsHost
                | with_reducible apply triggerJobs_keepsHost | with_reducible refine ite_keepsHost ?_ ?_ | split

theorem execRecSuppressSecond_keepsHost (s : State) (t : State)
    (e : execRecSuppressSecond s = .next t) (h : HostOk m p s.view) : HostOk m p t.view := by
  revert e
  unfold execRecSuppressSecond
  try dsimp only
  repeat' first | exact faultAny | with_reducible refine nextOk ?_ | with_reducible assumption
                | with_reducible apply summarise_keepsHost | with_reducible apply beginAt_keepsHost
                | with_reducible apply begin__keepsHost | with_reducible apply uncorrectable_keepsHost
                | with_reducible refine ite_keepsHost ?_ ?_ | split

theorem recCfgBody_keepsHost (r : Req) (s : State) (t : State) (x : Reply)
    (e : recCfgBody r s = .ok (t, x)) (h : HostOk m p s.view) : HostOk m p t.view := by
  revert e
  unfold recCfgBody
  repeat' first | with_reducible refine bindNeed ?_ | with_reducible refine pureOk ?_ | with_reducible assumption
                | split

theorem descRecCfg_keepsHost : descRecCfg.Keeps m p :=
  formLen_keeps (fun r s t x e h => recCfgBody_keepsHost r s t x e h)

theorem recReadBody_keepsHost (r : Req) (s : State) (t : State) (x : Reply)
    (e : recReadBody r s = .ok (t, x)) (h : HostOk m p s.view) : HostOk m p t.view := by
  revert e
  unfold recReadBody
  repeat' first | with_reducible refine bindNeed ?_ | with_reducible refine pureOk ?_ | with_reducible assumption
                | split

theorem descRecRead_keepsHost : descRecRead.Keeps m p :=
  fun r s t x e h => recReadBody_keepsHost r s t x e h

theorem recMarkBody_keepsHost (r : Req) (s : State) (t : State) (x : Reply)
    (e : recMarkBody r s = .ok (t, x)) (h : HostOk m p s.view) : HostOk m p t.view := by
  revert e
  unfold recMarkBody
  repeat' first | with_reducible refine bindNeed ?_ | with_reducible refine pureOk ?_ | with_reducible assumption
                | split

theorem descRecMark_keepsHost : descRecMark.Keeps m p :=
  formLen_keeps (fun r s t x e h => recMarkBody_keepsHost r s t x e h)

theorem recSnapshotBody_keepsHost (r : Req) (s : State) (t : State) (x : Reply)
    (e : recSnapshotBody r s = .ok (t, x)) (h : HostOk m p s.view) : HostOk m p t.view := by
  revert e
  unfold recSnapshotBody
  repeat' first | with_reducible refine bindNeed ?_ | with_reducible refine pureOk ?_ | with_reducible assumption

theorem descRecSnapshot_keepsHost : descRecSnapshot.Keeps m p :=
  fun r s t x e h => recSnapshotBody_keepsHost r s t x e h

theorem recWriteBody_keepsHost (r : Req) (s : State) (t : State) (x : Reply)
    (e : recWriteBody r s = .ok (t, x)) (h : HostOk m p s.view) : HostOk m p t.view := by
  revert e
  unfold recWriteBody
  dsimp only
  repeat' first | with_reducible refine pureOk ?_ | (with_reducible refine bindAny ?_; intro _ _)
                | with_reducible assumption | with_reducible apply countOccurrence_keepsHost
                | with_reducible apply touchSession_keepsHost | with_reducible apply commit_keepsHost
                | with_reducible apply drained_keepsHost | split

theorem descRecWrite_keepsHost : descRecWrite.Keeps m p :=
  formLen_keeps (fun r s t x e h => recWriteBody_keepsHost r s t x e h)

theorem recEraseBody_keepsHost (r : Req) (s : State) (t : State) (x : Reply)
    (e : recEraseBody r s = .ok (t, x)) (h : HostOk m p s.view) : HostOk m p t.view := by
  revert e
  unfold recEraseBody
  repeat' first | with_reducible refine pureOk ?_ | (with_reducible refine bindAny ?_; intro _ _)
                | with_reducible assumption | with_reducible apply raise_keepsHost
                | with_reducible apply touchSession_keepsHost | with_reducible apply setRing_keepsHost
                | with_reducible apply drained_keepsHost | split

theorem descRecErase_keepsHost : descRecErase.Keeps m p :=
  fun r s t x e h => recEraseBody_keepsHost r s t x e h

end Sys2Proof.Machine
end

