-- ==== Sys2Proof/Laws/HostSys.lean ====
section
/-! SUPPORT. The operations and meanings of the SYS block keep the registers of the host side as their tables
say, the member and the commands that wait (R64, R69, R71). -/
set_option autoImplicit false

namespace Sys2Proof.Machine

variable {m : Member} {p : List Instr}

theorem nopBody_keepsHost (z0 : Req) (s : State) (t : State) (x : Reply)
    (e : nopBody z0 s = .ok (t, x)) (h : HostOk m p s.view) : HostOk m p t.view := by
  revert e
  unfold nopBody
  repeat' first | with_reducible refine retOk ?_ | with_reducible assumption

theorem descNop_keepsHost : descNop.Keeps m p :=
  fun r s t x e h => nopBody_keepsHost r s t x e h

theorem getInfoBody_keepsHost (z0 : Req) (s : State) (t : State) (x : Reply)
    (e : getInfoBody z0 s = .ok (t, x)) (h : HostOk m p s.view) : HostOk m p t.view := by
  revert e
  unfold getInfoBody
  repeat' first | with_reducible refine retOk ?_ | with_reducible assumption

theorem descGetInfo_keepsHost : descGetInfo.Keeps m p :=
  fun r s t x e h => getInfoBody_keepsHost r s t x e h

theorem getStatusBody_keepsHost (z0 : Req) (s : State) (t : State) (x : Reply)
    (e : getStatusBody z0 s = .ok (t, x)) (h : HostOk m p s.view) : HostOk m p t.view := by
  revert e
  unfold getStatusBody
  repeat' first | with_reducible refine retOk ?_ | with_reducible assumption

theorem descGetStatus_keepsHost : descGetStatus.Keeps m p :=
  fun r s t x e h => getStatusBody_keepsHost r s t x e h

theorem setTickBody_keepsHost (r : Req) (s : State) (t : State) (x : Reply)
    (e : setTickBody r s = .ok (t, x)) (h : HostOk m p s.view) : HostOk m p t.view := by
  revert e
  unfold setTickBody
  repeat' first | with_reducible refine bindNeed ?_ | with_reducible refine pureOk ?_ | with_reducible assumption

theorem descSetTick_keepsHost : descSetTick.Keeps m p :=
  fun r s t x e h => setTickBody_keepsHost r s t x e h

theorem softResetBody_keepsHost (r : Req) (s : State) (t : State) (x : Reply)
    (e : softResetBody r s = .ok (t, x)) (h : HostOk m p s.view) : HostOk m p t.view := by
  revert e
  unfold softResetBody
  repeat' first | exact failAny | with_reducible refine bindNeed ?_ | with_reducible refine pureOk ?_
                | with_reducible assumption | split

theorem descSoftReset_keepsHost : descSoftReset.Keeps m p :=
  fun r s t x e h => softResetBody_keepsHost r s t x e h

theorem getCountersBody_keepsHost (r : Req) (s : State) (t : State) (x : Reply)
    (e : getCountersBody r s = .ok (t, x)) (h : HostOk m p s.view) : HostOk m p t.view := by
  revert e
  unfold getCountersBody
  repeat' first | with_reducible refine bindNeed ?_ | with_reducible refine pureOk ?_ | with_reducible assumption
                | with_reducible apply countQ_keepsHost | split

theorem descGetCounters_keepsHost : descGetCounters.Keeps m p :=
  fun r s t x e h => getCountersBody_keepsHost r s t x e h

end Sys2Proof.Machine
end

