-- ==== Sys2Proof/Laws/HostStop.lean ====
section
/-! SUPPORT. The operations and meanings of the stop chain keep the registers of the host side as their tables
say, the member and the commands that wait (R64, R69, R71). -/
set_option autoImplicit false

namespace Sys2Proof.Machine

variable {m : Member} {p : List Instr}

theorem setStopFlag_keepsHost (i : Nat) (s : State) (h : HostOk m p s.view) :
    HostOk m p (setStopFlag i s).view := by
  unfold setStopFlag
  repeat' first | with_reducible assumption

theorem endProof_keepsHost (p1 : ProofRun) (good : Bool) (s : State) (h : HostOk m p s.view) :
    HostOk m p (endProof p1 good s).view := by
  unfold endProof
  repeat' first | with_reducible assumption | with_reducible apply complete_keepsHost
                | with_reducible apply raise_keepsHost | split

theorem abortProof_keepsHost (s : State) (h : HostOk m p s.view) :
    HostOk m p (abortProof s).view := by
  unfold abortProof
  repeat' first | with_reducible assumption | with_reducible apply endProof_keepsHost | split

theorem latchSet_keepsHost (cause icode : Nat) (immediate burst symbol : Bool) (s : State) (h : HostOk m p s.view) :
    HostOk m p (latchSet cause icode immediate burst symbol s).view := by
  unfold latchSet
  repeat' first | with_reducible assumption | with_reducible apply setInt_keepsHost
                | with_reducible apply emit_keepsHost | with_reducible apply setStopFlag_keepsHost
                | with_reducible refine ite_keepsHost ?_ ?_

theorem startPhase_keepsHost (cause icode : Nat) (s : State) (h : HostOk m p s.view) :
    HostOk m p (startPhase cause icode s).view := by
  unfold startPhase
  repeat' first | with_reducible assumption

theorem endPhase_keepsHost (immediate : Bool) (s : State) (h : HostOk m p s.view) :
    HostOk m p (endPhase immediate s).view := by
  unfold endPhase
  repeat' first | with_reducible assumption | with_reducible apply latchSet_keepsHost

theorem requestStop_keepsHost (cause icode : Nat) (immediate : Bool) (s : State) (h : HostOk m p s.view) :
    HostOk m p (requestStop cause icode immediate s).view := by
  unfold requestStop
  repeat' first | with_reducible assumption | with_reducible apply latchSet_keepsHost
                | with_reducible apply startPhase_keepsHost | with_reducible apply endPhase_keepsHost
                | with_reducible refine ite_keepsHost ?_ ?_

theorem setInput_keepsHost (cause icode : Nat) (immediate : Bool) (s : State) (h : HostOk m p s.view) :
    HostOk m p (setInput cause icode immediate s).view := by
  unfold setInput
  repeat' first | with_reducible assumption | with_reducible apply abortProof_keepsHost
                | with_reducible apply requestStop_keepsHost

theorem raiseFault_keepsHost (icode : Nat) (s : State) (h : HostOk m p s.view) :
    HostOk m p (raiseFault icode s).view := by
  unfold raiseFault
  repeat' first | with_reducible assumption | with_reducible apply setInput_keepsHost

theorem ceaseFault_keepsHost (icode : Nat) (s : State) (h : HostOk m p s.view) :
    HostOk m p (ceaseFault icode s).view := by
  unfold ceaseFault
  repeat' first | with_reducible assumption

theorem padTimers_keepsHost (s : State) (h : HostOk m p s.view) :
    HostOk m p (padTimers s).view := by
  unfold padTimers
  repeat' first | with_reducible assumption

theorem execEstopPadChange_keepsHost (a level : Bool) (dt : Nat) (s : State) (t : State)
    (e : execEstopPadChange a level dt s = .next t) (h : HostOk m p s.view) : HostOk m p t.view := by
  revert e
  unfold execEstopPadChange
  repeat' first | with_reducible refine nextOk ?_ | with_reducible assumption
                | with_reducible apply begin__keepsHost | with_reducible apply setInput_keepsHost
                | with_reducible apply padTimers_keepsHost | with_reducible refine ite_keepsHost ?_ ?_

theorem discrepancyIs_keepsHost (on : Bool) (s : State) (h : HostOk m p s.view) :
    HostOk m p (discrepancyIs on s).view := by
  unfold discrepancyIs
  repeat' first | with_reducible assumption | with_reducible apply raise_keepsHost

theorem execDiscTimeout_keepsHost (s : State) (t : State)
    (e : execDiscTimeout s = .next t) (h : HostOk m p s.view) : HostOk m p t.view := by
  revert e
  unfold execDiscTimeout
  repeat' first | with_reducible refine nextOk ?_ | with_reducible assumption
                | with_reducible apply begin__keepsHost | with_reducible apply beginUp_keepsHost
                | with_reducible apply setStopFlag_keepsHost | with_reducible apply discrepancyIs_keepsHost | split

theorem execDiscrepancyClear_keepsHost (s : State) (t : State)
    (e : execDiscrepancyClear s = .next t) (h : HostOk m p s.view) : HostOk m p t.view := by
  revert e
  unfold execDiscrepancyClear
  repeat' first | with_reducible refine nextOk ?_ | with_reducible assumption
                | with_reducible apply begin__keepsHost | with_reducible apply beginUp_keepsHost
                | with_reducible apply discrepancyIs_keepsHost | split

theorem execPartnerStopSymbol_keepsHost (dt : Nat) (s : State) (t : State)
    (e : execPartnerStopSymbol dt s = .next t) (h : HostOk m p s.view) : HostOk m p t.view := by
  revert e
  unfold execPartnerStopSymbol
  repeat' first | with_reducible refine nextOk ?_ | with_reducible assumption
                | with_reducible apply begin__keepsHost | with_reducible apply setInput_keepsHost
                | with_reducible refine ite_keepsHost ?_ ?_

theorem execInternalFault_keepsHost (icode : Nat) (present : Bool) (dt : Nat) (s : State) (t : State)
    (e : execInternalFault icode present dt s = .next t) (h : HostOk m p s.view) : HostOk m p t.view := by
  revert e
  unfold execInternalFault
  repeat' first | exact faultAny | with_reducible refine nextOk ?_ | with_reducible assumption
                | with_reducible apply begin__keepsHost | with_reducible apply raiseFault_keepsHost
                | with_reducible apply ceaseFault_keepsHost | split

theorem execCtrlLimitExpire_keepsHost (s : State) (t : State)
    (e : execCtrlLimitExpire s = .next t) (h : HostOk m p s.view) : HostOk m p t.view := by
  revert e
  unfold execCtrlLimitExpire
  repeat' first | with_reducible refine nextOk ?_ | with_reducible assumption
                | with_reducible apply begin__keepsHost | with_reducible apply beginUp_keepsHost
                | with_reducible apply endPhase_keepsHost | with_reducible refine ite_keepsHost ?_ ?_

theorem execWatchdogExpire_keepsHost (s : State) (t : State)
    (e : execWatchdogExpire s = .next t) (h : HostOk m p s.view) : HostOk m p t.view := by
  revert e
  unfold execWatchdogExpire
  repeat' first | with_reducible refine nextOk ?_ | with_reducible assumption
                | with_reducible apply begin__keepsHost | with_reducible apply beginUp_keepsHost
                | with_reducible apply raiseFault_keepsHost | split

theorem setRobotStop_keepsHost (r : Nat) (x1 : RobotStop) (s : State) (h : HostOk m p s.view) :
    HostOk m p (setRobotStop r x1 s).view := by
  unfold setRobotStop
  repeat' first | with_reducible assumption

theorem forceRobot_keepsHost (r cause : Nat) (immediate : Bool) (s : State) (h : HostOk m p s.view) :
    HostOk m p (forceRobot r cause immediate s).view := by
  unfold forceRobot
  repeat' first | with_reducible assumption | with_reducible apply raise_keepsHost
                | with_reducible apply setStopFlag_keepsHost | with_reducible apply setRobotStop_keepsHost

theorem requestRobotStop_keepsHost (r cause : Nat) (immediate : Bool) (s : State) (h : HostOk m p s.view) :
    HostOk m p (requestRobotStop r cause immediate s).view := by
  unfold requestRobotStop
  repeat' first | with_reducible assumption | with_reducible apply setRobotStop_keepsHost
                | with_reducible apply forceRobot_keepsHost | split

theorem execRobotCtrlLimitExpire_keepsHost (r : Nat) (s : State) (t : State)
    (e : execRobotCtrlLimitExpire r s = .next t) (h : HostOk m p s.view) : HostOk m p t.view := by
  revert e
  unfold execRobotCtrlLimitExpire
  repeat' first | exact faultAny | with_reducible refine nextOk ?_ | with_reducible assumption
                | with_reducible apply begin__keepsHost | with_reducible apply beginUp_keepsHost
                | with_reducible apply forceRobot_keepsHost | split

theorem applyReset_keepsHost (q : ResetReq) (s : State) (h : HostOk m p s.view) :
    HostOk m p (applyReset q s).view := by
  unfold applyReset
  dsimp only
  repeat' first | with_reducible assumption | with_reducible apply complete_keepsHost
                | with_reducible apply raise_keepsHost | with_reducible apply setStopFlag_keepsHost | split

theorem applyResets_keepsHost (s : State) (h : HostOk m p s.view) :
    HostOk m p (applyResets s).view := by
  unfold applyResets
  repeat' first | with_reducible assumption | with_reducible apply applyReset_keepsHost
                | with_reducible refine foldl_keepsHost _ _ _ (fun _ _ _ => ?_) ?_

theorem execResetInputEdge_keepsHost (dt : Nat) (s : State) (t : State)
    (e : execResetInputEdge dt s = .next t) (h : HostOk m p s.view) : HostOk m p t.view := by
  revert e
  unfold execResetInputEdge
  repeat' first | with_reducible refine nextOk ?_ | with_reducible assumption
                | with_reducible apply begin__keepsHost | with_reducible refine ite_keepsHost ?_ ?_

theorem execResetArmTimeout_keepsHost (s : State) (t : State)
    (e : execResetArmTimeout s = .next t) (h : HostOk m p s.view) : HostOk m p t.view := by
  revert e
  unfold execResetArmTimeout
  repeat' first | with_reducible refine nextOk ?_ | with_reducible assumption
                | with_reducible apply begin__keepsHost | with_reducible apply beginUp_keepsHost
                | with_reducible apply complete_keepsHost | split

theorem startProof_keepsHost (req : Option Req) (parts : Nat) (s : State) (h : HostOk m p s.view) :
    HostOk m p (startProof req parts s).view := by
  unfold startProof
  repeat' first | with_reducible assumption

theorem execProofTestPart_keepsHost (part : Nat) (sets : Bool) (lat fail : Nat) (s : State) (t : State)
    (e : execProofTestPart part sets lat fail s = .next t) (h : HostOk m p s.view) : HostOk m p t.view := by
  revert e
  unfold execProofTestPart
  try dsimp only
  repeat' first | exact faultAny | with_reducible refine nextOk ?_ | with_reducible assumption
                | with_reducible apply beginAt_keepsHost | with_reducible apply begin__keepsHost
                | with_reducible apply requestStop_keepsHost | with_reducible apply setStopFlag_keepsHost
                | with_reducible apply ceaseFault_keepsHost | with_reducible apply endProof_keepsHost
                | with_reducible refine ite_keepsHost ?_ ?_ | split

theorem execProofIntervalDue_keepsHost (s : State) (t : State)
    (e : execProofIntervalDue s = .next t) (h : HostOk m p s.view) : HostOk m p t.view := by
  revert e
  unfold execProofIntervalDue
  repeat' first | with_reducible refine nextOk ?_ | with_reducible assumption
                | with_reducible apply begin__keepsHost | with_reducible apply beginUp_keepsHost
                | with_reducible apply startProof_keepsHost | with_reducible refine ite_keepsHost ?_ ?_

theorem stopFleetBody_keepsHost (r : Req) (s : State) (t : State) (x : Reply)
    (e : stopFleetBody r s = .ok (t, x)) (h : HostOk m p s.view) : HostOk m p t.view := by
  revert e
  unfold stopFleetBody
  repeat' first | with_reducible refine bindNeed ?_ | with_reducible refine pureOk ?_ | with_reducible assumption
                | with_reducible apply setInput_keepsHost

theorem descStopFleet_keepsHost : descStopFleet.Keeps m p :=
  fun r s t x e h => stopFleetBody_keepsHost r s t x e h

theorem stopRobotBody_keepsHost (r : Req) (s : State) (t : State) (x : Reply)
    (e : stopRobotBody r s = .ok (t, x)) (h : HostOk m p s.view) : HostOk m p t.view := by
  revert e
  unfold stopRobotBody
  repeat' first | with_reducible refine bindNeed ?_ | with_reducible refine pureOk ?_ | with_reducible assumption
                | with_reducible apply requestRobotStop_keepsHost

theorem descStopRobot_keepsHost : descStopRobot.Keeps m p :=
  fun r s t x e h => stopRobotBody_keepsHost r s t x e h

theorem stopResetBody_keepsHost (r : Req) (s : State) (t : State) (x : Reply)
    (e : stopResetBody r s = .ok (t, x)) (h : HostOk m p s.view) : HostOk m p t.view := by
  revert e
  unfold stopResetBody
  repeat' first | with_reducible refine bindNeed ?_ | with_reducible refine pureOk ?_ | with_reducible assumption
                | split

theorem descStopReset_keepsHost : descStopReset.Keeps m p :=
  fun r s t x e h => stopResetBody_keepsHost r s t x e h

theorem stopCfgBody_keepsHost (r : Req) (s : State) (t : State) (x : Reply)
    (e : stopCfgBody r s = .ok (t, x)) (h : HostOk m p s.view) : HostOk m p t.view := by
  revert e
  unfold stopCfgBody
  repeat' first | with_reducible refine pureOk ?_ | (with_reducible refine bindAny ?_; intro _ _)
                | with_reducible assumption | with_reducible apply touchSession_keepsHost | split

theorem descStopCfg_keepsHost : descStopCfg.Keeps m p :=
  formLen_keeps (fun r s t x e h => stopCfgBody_keepsHost r s t x e h)

theorem stopGetBody_keepsHost (z0 : Req) (s : State) (t : State) (x : Reply)
    (e : stopGetBody z0 s = .ok (t, x)) (h : HostOk m p s.view) : HostOk m p t.view := by
  revert e
  unfold stopGetBody
  repeat' first | with_reducible refine retOk ?_ | with_reducible assumption

theorem descStopGet_keepsHost : descStopGet.Keeps m p :=
  fun r s t x e h => stopGetBody_keepsHost r s t x e h

theorem stopTestBody_keepsHost (r : Req) (s : State) (t : State) (x : Reply)
    (e : stopTestBody r s = .ok (t, x)) (h : HostOk m p s.view) : HostOk m p t.view := by
  revert e
  unfold stopTestBody
  try dsimp only
  repeat' first | exact failAny | with_reducible refine bindNeed ?_ | with_reducible refine retOk ?_
                | with_reducible refine pureOk ?_ | with_reducible assumption
                | with_reducible apply startProof_keepsHost | with_reducible refine ite_keepsHost ?_ ?_ | split

theorem descStopTest_keepsHost : descStopTest.Keeps m p :=
  fun r s t x e h => stopTestBody_keepsHost r s t x e h

end Sys2Proof.Machine
end

