-- ==== Sys2Proof/Laws/HostSec.lean ====
section
/-! SUPPORT. The operations and meanings of the security block keep the registers of the host side as their tables
say, the member and the commands that wait (R64, R69, R71). -/
set_option autoImplicit false

namespace Sys2Proof.Machine

variable {m : Member} {p : List Instr}

theorem aclGetBody_keepsHost (r : Req) (s : State) (t : State) (x : Reply)
    (e : aclGetBody r s = .ok (t, x)) (h : HostOk m p s.view) : HostOk m p t.view := by
  revert e
  unfold aclGetBody
  repeat' first | with_reducible refine bindNeed ?_ | with_reducible refine pureOk ?_ | with_reducible assumption

theorem descSecAclGet_keepsHost : descSecAclGet.Keeps m p :=
  fun r s t x e h => aclGetBody_keepsHost r s t x e h

theorem setDescs_keepsHost (t : Nat) (l : List AclDesc) (s : State) (h : HostOk m p s.view) : HostOk m p (setDescs t l s).view := h

theorem aclSetBody_keepsHost (r : Req) (s : State) (t : State) (x : Reply)
    (e : aclSetBody r s = .ok (t, x)) (h : HostOk m p s.view) : HostOk m p t.view := by
  revert e
  unfold aclSetBody
  repeat' first | with_reducible refine pureOk ?_ | (with_reducible refine bindAny ?_; intro _ _)
                | with_reducible assumption | with_reducible apply raise_keepsHost
                | with_reducible apply touchSession_keepsHost | with_reducible apply setDescs_keepsHost
                | with_reducible refine ite_keepsHost ?_ ?_

theorem descSecAclSet_keepsHost : descSecAclSet.Keeps m p :=
  formLen_keeps (fun r s t x e h => aclSetBody_keepsHost r s t x e h)

theorem touchOwner_keepsHost (q : Nat) (s : State) (h : HostOk m p s.view) :
    HostOk m p (touchOwner q s).view := by
  unfold touchOwner
  repeat' first | with_reducible assumption | with_reducible apply touchSession_keepsHost
                | with_reducible refine ite_keepsHost ?_ ?_

theorem challenge_keepsHost (q : Nat) (s : State) (h : HostOk m p s.view) :
    HostOk m p (challenge q s).1.view := by
  unfold challenge
  repeat' first | with_reducible assumption | with_reducible apply drawFresh_keepsHost

theorem challenge_keepsHost_pair {q : Nat} {s : State} {t : State} {x1 : Nat}
    (e : challenge q s = (t, x1)) (h : HostOk m p s.view) : HostOk m p t.view := by
  have := challenge_keepsHost q s h
  rwa [e] at this

theorem wrongProof_keepsHost (s : State) (h : HostOk m p s.view) :
    HostOk m p (wrongProof s).view := by
  unfold wrongProof
  repeat' first | with_reducible assumption | with_reducible apply raise_keepsHost

theorem cfgSessionBody_keepsHost (r : Req) (s : State) (t : State) (x : Reply)
    (e : cfgSessionBody r s = .ok (t, x)) (h : HostOk m p s.view) : HostOk m p t.view := by
  revert e
  unfold cfgSessionBody cfgSessionLock
  repeat' first | with_reducible refine bindNeed ?_ | with_reducible refine pureOk ?_ | with_reducible assumption
                | with_reducible apply raise_keepsHost | with_reducible apply closeSession_keepsHost
                | with_reducible apply touchOwner_keepsHost | with_reducible apply challenge_keepsHost
                | with_reducible apply wrongProof_keepsHost | split

theorem descSecCfgSession_keepsHost : descSecCfgSession.Keeps m p :=
  formLen_keeps (fun r s t x e h => cfgSessionBody_keepsHost r s t x e h)

theorem execCfgSessionTimeout_keepsHost (s : State) (t : State)
    (e : execCfgSessionTimeout s = .next t) (h : HostOk m p s.view) : HostOk m p t.view := by
  revert e
  unfold execCfgSessionTimeout
  repeat' first | with_reducible refine nextOk ?_ | with_reducible assumption
                | with_reducible apply begin__keepsHost | with_reducible apply beginUp_keepsHost
                | with_reducible apply closeSession_keepsHost | with_reducible refine ite_keepsHost ?_ ?_

end Sys2Proof.Machine
end

