-- ==== Sys2Proof/Laws/HostLaw.lean ====
section
/-! SUPPORT. The operations and meanings of the law slots keep the registers of the host side as their tables
say, the member and the commands that wait (R64, R69, R71). -/
set_option autoImplicit false

namespace Sys2Proof.Machine

variable {m : Member} {p : List Instr}

theorem setLaw_keepsHost (n : Nat) (l : Law) (s : State) (h : HostOk m p s.view) :
    HostOk m p (setLaw n l s).view := by
  unfold setLaw
  repeat' first | with_reducible assumption

end Sys2Proof.Machine
end

