-- ==== Sys2Proof/Laws/HostGov.lean ====
section
/-! SUPPORT. The operations and meanings of the governors keep the registers of the host side as their tables
say, the member and the commands that wait (R64, R69, R71). -/
set_option autoImplicit false

namespace Sys2Proof.Machine

variable {m : Member} {p : List Instr}

theorem setGov_keepsHost (r : Nat) (g : GovRobot) (s : State) (h : HostOk m p s.view) :
    HostOk m p (setGov r g s).view := by
  unfold setGov
  repeat' first | with_reducible assumption

theorem governRobot_keepsHost (r : Nat) (i : GovIn) (s : State) (h : HostOk m p s.view) :
    HostOk m p (governRobot r i s).view := by
  unfold governRobot
  repeat' first | with_reducible assumption | with_reducible apply setLaw_keepsHost
                | with_reducible apply setGov_keepsHost
                | with_reducible refine foldl_keepsHost _ _ _ (fun _ _ _ => ?_) ?_

theorem feMove_keepsHost (r : Nat) (new : FeState) (s : State) (h : HostOk m p s.view) :
    HostOk m p (feMove r new s).view := by
  unfold feMove
  repeat' first | with_reducible assumption | with_reducible apply raise_keepsHost
                | with_reducible apply requestRobotStop_keepsHost | with_reducible apply setGov_keepsHost
                | with_reducible refine ite_keepsHost ?_ ?_

theorem feEvaluate_keepsHost (r : Nat) (fe : Int) (s : State) (h : HostOk m p s.view) :
    HostOk m p (feEvaluate r fe s).view := by
  unfold feEvaluate
  repeat' first | with_reducible assumption | with_reducible apply setGov_keepsHost
                | with_reducible apply feMove_keepsHost

theorem feRest_keepsHost (r : Nat) (s : State) (h : HostOk m p s.view) :
    HostOk m p (feRest r s).view := by
  unfold feRest
  repeat' first | with_reducible assumption | with_reducible apply setGov_keepsHost
                | with_reducible apply feMove_keepsHost

theorem resetGovernors_keepsHost (s : State) (h : HostOk m p s.view) :
    HostOk m p (resetGovernors s).view := by
  unfold resetGovernors
  repeat' first | with_reducible assumption

theorem applyGovCfg_keepsHost (s : State) (h : HostOk m p s.view) :
    HostOk m p (applyGovCfg s).view := by
  unfold applyGovCfg
  repeat' first | with_reducible assumption

theorem govCoefLoadBody_keepsHost (r : Req) (s : State) (t : State) (x : Reply)
    (e : govCoefLoadBody r s = .ok (t, x)) (h : HostOk m p s.view) : HostOk m p t.view := by
  revert e
  unfold govCoefLoadBody
  repeat' first | with_reducible refine pureOk ?_ | (with_reducible refine bindAny ?_; intro _ _)
                | with_reducible assumption | with_reducible apply setLaw_keepsHost
                | with_reducible refine foldl_keepsHost _ _ _ (fun _ _ _ => ?_) ?_ | split

theorem descGovCoefLoad_keepsHost : descGovCoefLoad.Keeps m p :=
  formLen_keeps (fun r s t x e h => govCoefLoadBody_keepsHost r s t x e h)

theorem govCoefSwapBody_keepsHost (r : Req) (s : State) (t : State) (x : Reply)
    (e : govCoefSwapBody r s = .ok (t, x)) (h : HostOk m p s.view) : HostOk m p t.view := by
  revert e
  unfold govCoefSwapBody
  repeat' first | with_reducible refine pureOk ?_ | (with_reducible refine bindAny ?_; intro _ _)
                | with_reducible assumption | with_reducible apply setLaw_keepsHost
                | with_reducible refine foldl_keepsHost _ _ _ (fun _ _ _ => ?_) ?_

theorem descGovCoefSwap_keepsHost : descGovCoefSwap.Keeps m p :=
  fun r s t x e h => govCoefSwapBody_keepsHost r s t x e h

theorem modGovCfg_keepsHost (k : Nat) (f : GovCfg → GovCfg) (s : State) (h : HostOk m p s.view) :
    HostOk m p (modGovCfg k f s).view := by
  unfold modGovCfg
  repeat' first | with_reducible assumption | with_reducible apply setGov_keepsHost
                | with_reducible refine foldl_keepsHost _ _ _ (fun _ _ _ => ?_) ?_

theorem govLimitsBody_keepsHost (r : Req) (s : State) (t : State) (x : Reply)
    (e : govLimitsBody r s = .ok (t, x)) (h : HostOk m p s.view) : HostOk m p t.view := by
  revert e
  unfold govLimitsBody
  repeat' first | with_reducible refine pureOk ?_ | (with_reducible refine bindAny ?_; intro _ _)
                | with_reducible assumption | with_reducible apply modGovCfg_keepsHost | split

theorem descGovLimits_keepsHost : descGovLimits.Keeps m p :=
  formLen_keeps (fun r s t x e h => govLimitsBody_keepsHost r s t x e h)

theorem govFeCfgBody_keepsHost (r : Req) (s : State) (t : State) (x : Reply)
    (e : govFeCfgBody r s = .ok (t, x)) (h : HostOk m p s.view) : HostOk m p t.view := by
  revert e
  unfold govFeCfgBody
  repeat' first | with_reducible refine pureOk ?_ | (with_reducible refine bindAny ?_; intro _ _)
                | with_reducible assumption | with_reducible apply modGovCfg_keepsHost | split

theorem descGovFeCfg_keepsHost : descGovFeCfg.Keeps m p :=
  formLen_keeps (fun r s t x e h => govFeCfgBody_keepsHost r s t x e h)

theorem govGetBody_keepsHost (r : Req) (s : State) (t : State) (x : Reply)
    (e : govGetBody r s = .ok (t, x)) (h : HostOk m p s.view) : HostOk m p t.view := by
  revert e
  unfold govGetBody
  repeat' first | with_reducible refine bindNeed ?_ | with_reducible refine pureOk ?_ | with_reducible assumption
                | split

theorem descGovGet_keepsHost : descGovGet.Keeps m p :=
  fun r s t x e h => govGetBody_keepsHost r s t x e h

theorem govCapSetBody_keepsHost (r : Req) (s : State) (t : State) (x : Reply)
    (e : govCapSetBody r s = .ok (t, x)) (h : HostOk m p s.view) : HostOk m p t.view := by
  revert e
  unfold govCapSetBody
  repeat' first | with_reducible refine pureOk ?_ | (with_reducible refine bindAny ?_; intro _ _)
                | with_reducible assumption | with_reducible apply modGovCfg_keepsHost
                | with_reducible refine ite_keepsHost ?_ ?_

theorem descGovCapSet_keepsHost : descGovCapSet.Keeps m p :=
  fun r s t x e h => govCapSetBody_keepsHost r s t x e h

end Sys2Proof.Machine
end

