-- ==== Sys2Proof/Laws/HostTime.lean ====
section
/-! SUPPORT. The operations and meanings of the timebase keep the registers of the host side as their tables
say, the member and the commands that wait (R64, R69, R71). -/
set_option autoImplicit false

namespace Sys2Proof.Machine

variable {m : Member} {p : List Instr}

theorem setTime_keepsHost (t1 : Timebase) (s : State) (h : HostOk m p s.view) :
    HostOk m p (setTime t1 s).view := by
  unfold setTime
  repeat' first | with_reducible assumption

theorem setTimeFlag_keepsHost (i : Nat) (s : State) (h : HostOk m p s.view) :
    HostOk m p (setTimeFlag i s).view := by
  unfold setTimeFlag
  repeat' first | with_reducible assumption

theorem setServoLaw_keepsHost (j : Nat) (l : Law) (s : State) (h : HostOk m p s.view) :
    HostOk m p (setServoLaw j l s).view := by
  unfold setServoLaw
  repeat' first | with_reducible assumption | with_reducible apply setLaw_keepsHost

theorem evalServo_keepsHost (j : Nat) (e1 : Int) (s : State) (h : HostOk m p s.view) :
    HostOk m p (evalServo j e1 s).view := by
  unfold evalServo
  repeat' first | with_reducible assumption | with_reducible apply setServoLaw_keepsHost

theorem presetServo_keepsHost (j : Nat) (s : State) (h : HostOk m p s.view) :
    HostOk m p (presetServo j s).view := by
  unfold presetServo
  repeat' first | with_reducible assumption | with_reducible apply setServoLaw_keepsHost

theorem resetServo_keepsHost (s : State) (h : HostOk m p s.view) :
    HostOk m p (resetServo s).view := by
  unfold resetServo
  repeat' first | with_reducible assumption | with_reducible apply setServoLaw_keepsHost
                | with_reducible refine foldl_keepsHost _ _ _ (fun _ _ _ => ?_) ?_

theorem updateTq_keepsHost (s : State) (h : HostOk m p s.view) :
    HostOk m p (updateTq s).view := by
  unfold updateTq
  repeat' first | with_reducible assumption | with_reducible apply setInt_keepsHost
                | with_reducible refine ite_keepsHost ?_ ?_

theorem setSource_keepsHost (c : Nat) (x1 : Source) (s : State) (h : HostOk m p s.view) :
    HostOk m p (setSource c x1 s).view := by
  unfold setSource
  repeat' first | with_reducible assumption

theorem holdoverEvent_keepsHost (on : Bool) (s : State) (h : HostOk m p s.view) :
    HostOk m p (holdoverEvent on s).view := by
  unfold holdoverEvent
  repeat' first | with_reducible assumption | with_reducible apply setInt_keepsHost
                | with_reducible apply raise_keepsHost

theorem enterHoldover_keepsHost (unc : Nat) (s : State) (h : HostOk m p s.view) :
    HostOk m p (enterHoldover unc s).view := by
  unfold enterHoldover
  repeat' first | with_reducible assumption | with_reducible apply setTimeFlag_keepsHost
                | with_reducible apply holdoverEvent_keepsHost

theorem leaveHoldover_keepsHost (s : State) (h : HostOk m p s.view) :
    HostOk m p (leaveHoldover s).view := by
  unfold leaveHoldover
  repeat' first | with_reducible assumption | with_reducible apply holdoverEvent_keepsHost

theorem changeSource_keepsHost (new : Nat) (s : State) (h : HostOk m p s.view) :
    HostOk m p (changeSource new s).view := by
  unfold changeSource
  try dsimp only
  repeat' first | with_reducible assumption | with_reducible apply raise_keepsHost
                | with_reducible apply enterHoldover_keepsHost | with_reducible apply leaveHoldover_keepsHost
                | with_reducible apply updateTq_keepsHost | with_reducible refine ite_keepsHost ?_ ?_ | split

theorem reselect_keepsHost (s : State) (h : HostOk m p s.view) :
    HostOk m p (reselect s).view := by
  unfold reselect
  repeat' first | with_reducible assumption | with_reducible apply changeSource_keepsHost

theorem sourceHolds_keepsHost (c : Nat) (s : State) (h : HostOk m p s.view) :
    HostOk m p (sourceHolds c s).view := by
  unfold sourceHolds
  repeat' first | with_reducible assumption | with_reducible apply setSource_keepsHost
                | with_reducible refine ite_keepsHost ?_ ?_

theorem endSuspect_keepsHost (cause : Nat) (s : State) (h : HostOk m p s.view) :
    HostOk m p (endSuspect cause s).view := by
  unfold endSuspect
  repeat' first | with_reducible assumption | with_reducible apply raise_keepsHost
                | with_reducible apply updateTq_keepsHost

theorem loseOnly_keepsHost (c : Nat) (s : State) (h : HostOk m p s.view) :
    HostOk m p (loseOnly c s).view := by
  unfold loseOnly
  repeat' first | with_reducible assumption | with_reducible apply setSource_keepsHost
                | with_reducible apply reselect_keepsHost | with_reducible refine ite_keepsHost ?_ ?_

theorem disqualifyPtp_keepsHost (s : State) (h : HostOk m p s.view) :
    HostOk m p (disqualifyPtp s).view := by
  unfold disqualifyPtp
  repeat' first | with_reducible assumption | with_reducible apply setSource_keepsHost
                | with_reducible apply endSuspect_keepsHost | with_reducible apply loseOnly_keepsHost

theorem loseSource_keepsHost (c : Nat) (s : State) (h : HostOk m p s.view) :
    HostOk m p (loseSource c s).view := by
  unfold loseSource
  repeat' first | with_reducible assumption | with_reducible apply endSuspect_keepsHost
                | with_reducible apply loseOnly_keepsHost | with_reducible apply disqualifyPtp_keepsHost
                | with_reducible refine ite_keepsHost ?_ ?_

theorem execSourceQualify_keepsHost (code : Nat) (theta : Int) (dt : Nat) (s : State) (t : State)
    (e : execSourceQualify code theta dt s = .next t) (h : HostOk m p s.view) : HostOk m p t.view := by
  revert e
  unfold execSourceQualify
  repeat' first | exact faultAny | with_reducible refine nextOk ?_ | with_reducible assumption
                | with_reducible apply begin__keepsHost | with_reducible apply setSource_keepsHost
                | with_reducible apply reselect_keepsHost | split

theorem execWtrExpire_keepsHost (s : State) (t : State)
    (e : execWtrExpire s = .next t) (h : HostOk m p s.view) : HostOk m p t.view := by
  revert e
  unfold execWtrExpire
  repeat' first | with_reducible refine nextOk ?_ | with_reducible assumption
                | with_reducible apply begin__keepsHost | with_reducible apply beginUp_keepsHost
                | with_reducible apply reselect_keepsHost | split

theorem execSourceLost_keepsHost (code dt : Nat) (s : State) (t : State)
    (e : execSourceLost code dt s = .next t) (h : HostOk m p s.view) : HostOk m p t.view := by
  revert e
  unfold execSourceLost
  repeat' first | exact faultAny | with_reducible refine nextOk ?_ | with_reducible assumption
                | with_reducible apply begin__keepsHost | with_reducible apply loseSource_keepsHost | split

theorem execAsymHoldExpire_keepsHost (s : State) (t : State)
    (e : execAsymHoldExpire s = .next t) (h : HostOk m p s.view) : HostOk m p t.view := by
  revert e
  unfold execAsymHoldExpire
  repeat' first | with_reducible refine nextOk ?_ | with_reducible assumption
                | with_reducible apply begin__keepsHost | with_reducible apply beginUp_keepsHost
                | with_reducible apply disqualifyPtp_keepsHost | with_reducible refine ite_keepsHost ?_ ?_

theorem setPtpPort_keepsHost (p1 : Nat) (x1 : PtpPort) (s : State) (h : HostOk m p s.view) :
    HostOk m p (setPtpPort p1 x1 s).view := by
  unfold setPtpPort
  repeat' first | with_reducible assumption

theorem execAsymEstimateSettled_keepsHost (s : State) (t : State)
    (e : execAsymEstimateSettled s = .next t) (h : HostOk m p s.view) : HostOk m p t.view := by
  revert e
  unfold execAsymEstimateSettled
  repeat' first | with_reducible refine nextOk ?_ | with_reducible assumption
                | with_reducible apply begin__keepsHost | with_reducible apply endSuspect_keepsHost
                | with_reducible apply setPtpPort_keepsHost | with_reducible refine ite_keepsHost ?_ ?_

theorem stepTime_keepsHost (cause new : Nat) (s : State) (h : HostOk m p s.view) :
    HostOk m p (stepTime cause new s).view := by
  unfold stepTime
  try dsimp only
  repeat' first | with_reducible assumption | with_reducible apply setTimeFlag_keepsHost
                | with_reducible apply presetServo_keepsHost | with_reducible apply raise_keepsHost
                | with_reducible refine ite_keepsHost ?_ ?_ | split

theorem stepBack_keepsHost (cause : Nat) (theta : Int) (s : State) (h : HostOk m p s.view) :
    HostOk m p (stepBack cause theta s).view := by
  unfold stepBack
  repeat' first | with_reducible assumption | with_reducible apply stepTime_keepsHost

theorem enterNormal_keepsHost (s : State) (h : HostOk m p s.view) :
    HostOk m p (enterNormal s).view := by
  unfold enterNormal
  repeat' first | with_reducible assumption | with_reducible apply raise_keepsHost
                | with_reducible apply updateTq_keepsHost

theorem execTimeNormalEntry_keepsHost (theta : Int) (s : State) (t : State)
    (e : execTimeNormalEntry theta s = .next t) (h : HostOk m p s.view) : HostOk m p t.view := by
  revert e
  unfold execTimeNormalEntry
  repeat' first | with_reducible refine nextOk ?_ | with_reducible assumption
                | with_reducible apply begin__keepsHost | with_reducible apply beginAt_keepsHost
                | with_reducible apply stepBack_keepsHost | with_reducible apply enterNormal_keepsHost
                | with_reducible refine ite_keepsHost ?_ ?_

theorem execBootWaitExpire_keepsHost (s : State) (t : State)
    (e : execBootWaitExpire s = .next t) (h : HostOk m p s.view) : HostOk m p t.view := by
  revert e
  unfold execBootWaitExpire
  repeat' first | with_reducible refine nextOk ?_ | with_reducible assumption
                | with_reducible apply begin__keepsHost | with_reducible apply beginUp_keepsHost
                | with_reducible apply enterNormal_keepsHost | with_reducible refine ite_keepsHost ?_ ?_

theorem rideCheck_keepsHost (s : State) (h : HostOk m p s.view) :
    HostOk m p (rideCheck s).view := by
  unfold rideCheck
  repeat' first | with_reducible assumption | with_reducible apply raise_keepsHost
                | with_reducible apply raiseFault_keepsHost | with_reducible apply ceaseFault_keepsHost
                | with_reducible apply setTimeFlag_keepsHost | with_reducible refine ite_keepsHost ?_ ?_

theorem asymDetect_keepsHost (mpd : Nat) (s : State) (h : HostOk m p s.view) :
    HostOk m p (asymDetect mpd s).view := by
  unfold asymDetect
  repeat' first | with_reducible assumption | with_reducible apply raise_keepsHost
                | with_reducible apply setTimeFlag_keepsHost | with_reducible apply disqualifyPtp_keepsHost
                | with_reducible refine ite_keepsHost ?_ ?_

theorem servoLaws_keepsHost (thetaOf : Nat → Option Int) (s : State) (h : HostOk m p s.view) :
    HostOk m p (servoLaws thetaOf s).view := by
  unfold servoLaws
  dsimp only
  repeat' first | with_reducible assumption | with_reducible apply evalServo_keepsHost | split

theorem takeThetas_keepsHost (partner : Int) (s : State) (h : HostOk m p s.view) :
    HostOk m p (takeThetas partner s).view := by
  unfold takeThetas
  try dsimp only
  repeat' first | with_reducible assumption | with_reducible apply setSource_keepsHost
                | with_reducible refine foldl_keepsHost _ _ _ (fun _ _ _ => ?_) ?_
                | with_reducible refine ite_keepsHost ?_ ?_ | split

theorem ppsPair_keepsHost (edge sec : Nat) (consecutive : Bool) (s : State) (h : HostOk m p s.view) :
    HostOk m p (ppsPair edge sec consecutive s).view := by
  unfold ppsPair
  repeat' first | with_reducible assumption | with_reducible apply setSource_keepsHost
                | with_reducible apply sourceHolds_keepsHost | with_reducible apply loseSource_keepsHost
                | with_reducible refine ite_keepsHost ?_ ?_

theorem todAbsent_keepsHost (s : State) (h : HostOk m p s.view) :
    HostOk m p (todAbsent s).view := by
  unfold todAbsent
  try dsimp only
  repeat' first | with_reducible assumption | with_reducible apply loseSource_keepsHost
                | with_reducible apply setSource_keepsHost | with_reducible refine ite_keepsHost ?_ ?_ | split

theorem execPpsInEdge_keepsHost (dt : Nat) (s : State) (t : State)
    (e : execPpsInEdge dt s = .next t) (h : HostOk m p s.view) : HostOk m p t.view := by
  revert e
  unfold execPpsInEdge
  try dsimp only
  repeat' first | exact faultAny | with_reducible refine nextOk ?_ | with_reducible assumption
                | with_reducible apply begin__keepsHost | with_reducible apply todAbsent_keepsHost
                | with_reducible apply ppsPair_keepsHost | with_reducible apply setSource_keepsHost
                | with_reducible refine ite_keepsHost ?_ ?_ | split

theorem execTodSentence_keepsHost (text : TodText) (dt : Nat) (s : State) (t : State)
    (e : execTodSentence text dt s = .next t) (h : HostOk m p s.view) : HostOk m p t.view := by
  revert e
  unfold execTodSentence
  try dsimp only
  repeat' first | exact faultAny | with_reducible refine nextOk ?_ | with_reducible assumption
                | with_reducible apply begin__keepsHost | with_reducible apply loseSource_keepsHost
                | with_reducible apply todAbsent_keepsHost | with_reducible apply ppsPair_keepsHost
                | with_reducible refine ite_keepsHost ?_ ?_ | split

theorem execExtRefLoss_keepsHost (dt : Nat) (s : State) (t : State)
    (e : execExtRefLoss dt s = .next t) (h : HostOk m p s.view) : HostOk m p t.view := by
  revert e
  unfold execExtRefLoss
  repeat' first | with_reducible refine nextOk ?_ | with_reducible assumption
                | with_reducible apply begin__keepsHost | with_reducible apply raise_keepsHost
                | with_reducible refine ite_keepsHost ?_ ?_

theorem refSelected_keepsHost (usable : Bool) (s : State) (h : HostOk m p s.view) :
    HostOk m p (refSelected usable s).view := by
  unfold refSelected
  repeat' first | with_reducible assumption | with_reducible apply raise_keepsHost
                | with_reducible refine ite_keepsHost ?_ ?_

theorem execRefSelect_keepsHost (usable : Bool) (s : State) (t : State)
    (e : execRefSelect usable s = .next t) (h : HostOk m p s.view) : HostOk m p t.view := by
  revert e
  unfold execRefSelect
  repeat' first | with_reducible refine nextOk ?_ | with_reducible assumption
                | with_reducible apply begin__keepsHost | with_reducible apply beginAt_keepsHost
                | with_reducible apply refSelected_keepsHost | split

theorem timeGetBody_keepsHost (z0 : Req) (s : State) (t : State) (x : Reply)
    (e : timeGetBody z0 s = .ok (t, x)) (h : HostOk m p s.view) : HostOk m p t.view := by
  revert e
  unfold timeGetBody
  repeat' first | with_reducible refine retOk ?_ | with_reducible assumption

theorem descTimeGet_keepsHost : descTimeGet.Keeps m p :=
  fun r s t x e h => timeGetBody_keepsHost r s t x e h

theorem timeSourceCfgBody_keepsHost (r : Req) (s : State) (t : State) (x : Reply)
    (e : timeSourceCfgBody r s = .ok (t, x)) (h : HostOk m p s.view) : HostOk m p t.view := by
  revert e
  unfold timeSourceCfgBody
  repeat' first | with_reducible refine bindNeed ?_ | with_reducible refine pureOk ?_ | with_reducible assumption
                | split

theorem descTimeSourceCfg_keepsHost : descTimeSourceCfg.Keeps m p :=
  formLen_keeps (fun r s t x e h => timeSourceCfgBody_keepsHost r s t x e h)

theorem waitPps_keepsHost (r : Req) (s : State) (h : HostOk m p s.view) :
    HostOk m p (waitPps r s).view := by
  unfold waitPps
  repeat' first | with_reducible assumption

theorem timeSetBody_keepsHost (r : Req) (s : State) (t : State) (x : Reply)
    (e : timeSetBody r s = .ok (t, x)) (h : HostOk m p s.view) : HostOk m p t.view := by
  revert e
  unfold timeSetBody
  repeat' first | with_reducible refine pureOk ?_ | (with_reducible refine bindAny ?_; intro _ _)
                | with_reducible assumption | with_reducible apply waitPps_keepsHost

theorem descTimeSet_keepsHost : descTimeSet.Keeps m p :=
  fun r s t x e h => timeSetBody_keepsHost r s t x e h

theorem ppsCfgBody_keepsHost (r : Req) (s : State) (t : State) (x : Reply)
    (e : ppsCfgBody r s = .ok (t, x)) (h : HostOk m p s.view) : HostOk m p t.view := by
  revert e
  unfold ppsCfgBody
  repeat' first | with_reducible refine bindNeed ?_ | with_reducible refine pureOk ?_ | with_reducible assumption
                | with_reducible apply waitPps_keepsHost | split

theorem descPpsCfg_keepsHost : descPpsCfg.Keeps m p :=
  formLen_keeps (fun r s t x e h => ppsCfgBody_keepsHost r s t x e h)

theorem timeModeBody_keepsHost (r : Req) (s : State) (t : State) (x : Reply)
    (e : timeModeBody r s = .ok (t, x)) (h : HostOk m p s.view) : HostOk m p t.view := by
  revert e
  unfold timeModeBody
  repeat' first | with_reducible refine pureOk ?_ | (with_reducible refine bindAny ?_; intro _ _)
                | with_reducible assumption | with_reducible apply waitPps_keepsHost | split

theorem descTimeMode_keepsHost : descTimeMode.Keeps m p :=
  fun r s t x e h => timeModeBody_keepsHost r s t x e h

theorem timeSetAct_keepsHost (r : Req) (s : State) (h : HostOk m p s.view) :
    HostOk m p (timeSetAct r s).view := by
  unfold timeSetAct
  repeat' first | with_reducible assumption | with_reducible apply stepTime_keepsHost
                | with_reducible refine ite_keepsHost ?_ ?_

theorem timeModeAct_keepsHost (rawWanted : Bool) (s : State) (h : HostOk m p s.view) :
    HostOk m p (timeModeAct rawWanted s).view := by
  unfold timeModeAct
  repeat' first | with_reducible assumption | with_reducible apply raise_keepsHost
                | with_reducible apply updateTq_keepsHost | with_reducible refine ite_keepsHost ?_ ?_

theorem ppsApply_keepsHost (p1 : PpsPending) (s : State) (h : HostOk m p s.view) :
    HostOk m p (ppsApply p1 s).view := by
  unfold ppsApply
  dsimp only
  repeat' first | with_reducible assumption | with_reducible apply complete_keepsHost
                | with_reducible apply updateTq_keepsHost | with_reducible apply timeSetAct_keepsHost
                | with_reducible apply timeModeAct_keepsHost | split

theorem execPpsAlignedApply_keepsHost (s : State) (t : State)
    (e : execPpsAlignedApply s = .next t) (h : HostOk m p s.view) : HostOk m p t.view := by
  revert e
  unfold execPpsAlignedApply
  repeat' first | with_reducible refine nextOk ?_ | with_reducible assumption
                | with_reducible apply begin__keepsHost | with_reducible apply beginAt_keepsHost
                | with_reducible apply ppsApply_keepsHost | split

theorem servoCfgBody_keepsHost (r : Req) (s : State) (t : State) (x : Reply)
    (e : servoCfgBody r s = .ok (t, x)) (h : HostOk m p s.view) : HostOk m p t.view := by
  revert e
  unfold servoCfgBody
  repeat' first | with_reducible refine bindNeed ?_ | with_reducible refine pureOk ?_ | with_reducible assumption
                | with_reducible apply setServoLaw_keepsHost | split

theorem descServoCfg_keepsHost : descServoCfg.Keeps m p :=
  formLen_keeps (fun r s t x e h => servoCfgBody_keepsHost r s t x e h)

end Sys2Proof.Machine
end

