-- ==== Sys2Proof/Laws/HostGnss.lean ====
section
/-! SUPPORT. The operations and meanings of the signal processing keep the registers of the host side as their tables
say, the member and the commands that wait (R64, R69, R71). -/
set_option autoImplicit false

namespace Sys2Proof.Machine

variable {m : Member} {p : List Instr}

theorem setChan_keepsHost (c : Nat) (x1 : Channel) (s : State) (h : HostOk m p s.view) :
    HostOk m p (setChan c x1 s).view := by
  unfold setChan
  repeat' first | with_reducible assumption

theorem setChain4_keepsHost (i : Nat) (x1 : Chain4) (s : State) (h : HostOk m p s.view) :
    HostOk m p (setChain4 i x1 s).view := by
  unfold setChain4
  repeat' first | with_reducible assumption

theorem setAnt_keepsHost (ant : Bool) (x1 : Antenna) (s : State) (h : HostOk m p s.view) :
    HostOk m p (setAnt ant x1 s).view := by
  unfold setAnt
  repeat' first | with_reducible assumption

theorem setIsb_keepsHost (sys : Nat) (x1 : Isb) (s : State) (h : HostOk m p s.view) :
    HostOk m p (setIsb sys x1 s).view := by
  unfold setIsb
  repeat' first | with_reducible assumption

theorem stageLaw_keepsHost (n : Nat) (c : CoefSet) (s : State) (h : HostOk m p s.view) :
    HostOk m p (stageLaw n c s).view := by
  unfold stageLaw
  repeat' first | with_reducible assumption | with_reducible apply setLaw_keepsHost

theorem prepareLaws_keepsHost (c : Nat) (s : State) (h : HostOk m p s.view) :
    HostOk m p (prepareLaws c s).view := by
  unfold prepareLaws
  try dsimp only
  repeat' first | with_reducible assumption | with_reducible apply setLaw_keepsHost
                | with_reducible refine ite_keepsHost ?_ ?_ | split

theorem presetDoppler_keepsHost (c : Nat) (doppler : Int) (s : State) (h : HostOk m p s.view) :
    HostOk m p (presetDoppler c doppler s).view := by
  unfold presetDoppler
  try dsimp only
  repeat' first | with_reducible assumption | with_reducible apply setLaw_keepsHost
                | with_reducible refine ite_keepsHost ?_ ?_ | split

theorem chanMove_keepsHost (c : Nat) (s : State) (h : HostOk m p s.view) :
    HostOk m p (chanMove c s).view := by
  unfold chanMove
  try dsimp only
  repeat' first | with_reducible assumption | with_reducible apply prepareLaws_keepsHost
                | with_reducible apply setChan_keepsHost | with_reducible apply stageLaw_keepsHost
                | with_reducible refine ite_keepsHost ?_ ?_ | split

theorem chanMs_keepsHost (s : State) (m1 : ChanMeas) (h : HostOk m p s.view) :
    HostOk m p (chanMs s m1).view := by
  unfold chanMs
  try dsimp only
  repeat' first | with_reducible assumption | with_reducible apply chanMove_keepsHost
                | with_reducible apply take_keepsHost | with_reducible apply setLaw_keepsHost
                | with_reducible apply setChan_keepsHost | with_reducible refine ite_keepsHost ?_ ?_ | split

theorem handOff_keepsHost (c code : Nat) (doppler : Int) (s : State) (h : HostOk m p s.view) :
    HostOk m p (handOff c code doppler s).view := by
  unfold handOff
  try dsimp only
  repeat' first | with_reducible assumption | with_reducible apply presetDoppler_keepsHost
                | with_reducible apply setChan_keepsHost | with_reducible refine ite_keepsHost ?_ ?_ | split

theorem releaseChan_keepsHost (c : Nat) (s : State) (h : HostOk m p s.view) :
    HostOk m p (releaseChan c s).view := by
  unfold releaseChan
  repeat' first | with_reducible assumption | with_reducible apply setChan_keepsHost
                | with_reducible refine ite_keepsHost ?_ ?_

theorem releaseWhere_keepsHost (f : Channel → Bool) (s : State) (h : HostOk m p s.view) :
    HostOk m p (releaseWhere f s).view := by
  unfold releaseWhere
  repeat' first | with_reducible assumption | with_reducible apply releaseChan_keepsHost
                | with_reducible refine foldl_keepsHost _ _ _ (fun _ _ _ => ?_) ?_

theorem biasMove_keepsHost (ant : Bool) (b : BiasState) (s : State) (h : HostOk m p s.view) :
    HostOk m p (biasMove ant b s).view := by
  unfold biasMove
  repeat' first | with_reducible assumption | with_reducible apply raise_keepsHost
                | with_reducible apply setAnt_keepsHost | with_reducible refine ite_keepsHost ?_ ?_

theorem surveyEvent_keepsHost (r : Req) (detail : Nat) (s : State) (h : HostOk m p s.view) :
    HostOk m p (surveyEvent r detail s).view := by
  unfold surveyEvent
  repeat' first | with_reducible assumption | with_reducible apply raise_keepsHost

theorem putArp_keepsHost (a : Option Arp) (s : State) (h : HostOk m p s.view) :
    HostOk m p (putArp a s).view := by
  unfold putArp
  repeat' first | with_reducible assumption

theorem applyGnssAct_keepsHost (s : State) (a : GnssAct) (h : HostOk m p s.view) :
    HostOk m p (applyGnssAct s a).view := by
  unfold applyGnssAct
  try dsimp only
  repeat' first | with_reducible assumption | with_reducible apply releaseWhere_keepsHost
                | with_reducible apply setChain4_keepsHost | with_reducible apply stageLaw_keepsHost
                | with_reducible apply prepareLaws_keepsHost | with_reducible apply releaseChan_keepsHost
                | with_reducible apply setChan_keepsHost | with_reducible apply presetDoppler_keepsHost
                | with_reducible apply putArp_keepsHost | with_reducible apply setAnt_keepsHost
                | with_reducible apply biasMove_keepsHost | with_reducible apply setIsb_keepsHost
                | with_reducible refine foldl_keepsHost _ _ _ (fun _ _ _ => ?_) ?_
                | with_reducible refine ite_keepsHost ?_ ?_ | split

theorem gnssView_keepsHost (s : State) (h : HostOk m p s.view) :
    HostOk m p (gnssView s).view := by
  unfold gnssView
  repeat' first | with_reducible assumption | with_reducible apply applyGnssAct_keepsHost
                | with_reducible refine foldl_keepsHost _ _ _ (fun _ _ _ => ?_) ?_

theorem agcMs_keepsHost (s : State) (m1 : AgcMeas) (h : HostOk m p s.view) :
    HostOk m p (agcMs s m1).view := by
  unfold agcMs
  try dsimp only
  repeat' first | with_reducible assumption | with_reducible apply foldl_keepsHost
                | with_reducible apply setChain4_keepsHost | with_reducible apply take_keepsHost
                | with_reducible refine foldl_keepsHost _ _ _ (fun _ _ _ => ?_) ?_
                | with_reducible refine ite_keepsHost ?_ ?_ | split

theorem gnssMs_keepsHost (t1 : Nat) (chans : List ChanMeas) (agc : List AgcMeas) (s : State) (h : HostOk m p s.view) :
    HostOk m p (gnssMs t1 chans agc s).view := by
  unfold gnssMs
  repeat' first | with_reducible assumption | with_reducible apply chanMs_keepsHost
                | with_reducible apply gnssView_keepsHost | with_reducible apply agcMs_keepsHost
                | with_reducible refine foldl_keepsHost _ _ _ (fun _ _ _ => ?_) ?_

theorem execGnssMsTick_keepsHost (chans : List ChanMeas) (agc : List AgcMeas) (s : State) (t : State)
    (e : execGnssMsTick chans agc s = .next t) (h : HostOk m p s.view) : HostOk m p t.view := by
  revert e
  unfold execGnssMsTick
  repeat' first | with_reducible refine nextOk ?_ | with_reducible assumption
                | with_reducible apply begin__keepsHost | with_reducible apply beginAt_keepsHost
                | with_reducible apply gnssMs_keepsHost | with_reducible refine ite_keepsHost ?_ ?_

theorem notchLock_keepsHost (tones : List NotchTone) (s : State) (at_ : Nat × Nat) (h : HostOk m p s.view) :
    HostOk m p (notchLock tones s at_).view := by
  unfold notchLock
  try dsimp only
  repeat' first | with_reducible assumption | with_reducible apply setChain4_keepsHost
                | with_reducible refine ite_keepsHost ?_ ?_ | split

theorem notchSearch_keepsHost (t1 : Nat) (tones : List NotchTone) (s : State) (h : HostOk m p s.view) :
    HostOk m p (notchSearch t1 tones s).view := by
  unfold notchSearch
  try dsimp only
  repeat' first | with_reducible assumption | with_reducible apply notchLock_keepsHost
                | with_reducible refine foldl_keepsHost _ _ _ (fun _ _ _ => ?_) ?_
                | with_reducible refine ite_keepsHost ?_ ?_ | split

theorem execNotchSearch_keepsHost (tones : List NotchTone) (s : State) (t : State)
    (e : execNotchSearch tones s = .next t) (h : HostOk m p s.view) : HostOk m p t.view := by
  revert e
  unfold execNotchSearch
  try dsimp only
  repeat' first | exact faultAny | with_reducible refine nextOk ?_ | with_reducible assumption
                | with_reducible apply notchSearch_keepsHost | with_reducible apply beginAt_keepsHost
                | with_reducible apply begin__keepsHost | with_reducible refine ite_keepsHost ?_ ?_ | split

theorem assignSat_keepsHost (almanac : Bool) (s : State) (x1 : SkySat) (h : HostOk m p s.view) :
    HostOk m p (assignSat almanac s x1).view := by
  unfold assignSat
  try dsimp only
  repeat' first | with_reducible assumption | with_reducible apply prepareLaws_keepsHost
                | with_reducible apply setChan_keepsHost | with_reducible refine ite_keepsHost ?_ ?_ | split

theorem repin_keepsHost (s : State) (p1 : Nat × Channel) (h : HostOk m p s.view) :
    HostOk m p (repin s p1).view := by
  unfold repin
  try dsimp only
  repeat' first | with_reducible assumption | with_reducible apply prepareLaws_keepsHost
                | with_reducible apply setChan_keepsHost | with_reducible refine ite_keepsHost ?_ ?_ | split

theorem assignChannels_keepsHost (t1 : Nat) (sky : List SkySat) (s : State) (h : HostOk m p s.view) :
    HostOk m p (assignChannels t1 sky s).view := by
  unfold assignChannels
  try dsimp only
  repeat' first | with_reducible assumption | with_reducible apply assignSat_keepsHost
                | with_reducible apply repin_keepsHost
                | with_reducible refine foldl_keepsHost _ _ _ (fun _ _ _ => ?_) ?_
                | with_reducible refine ite_keepsHost ?_ ?_ | split

theorem execChannelAssign_keepsHost (sky : List SkySat) (s : State) (t : State)
    (e : execChannelAssign sky s = .next t) (h : HostOk m p s.view) : HostOk m p t.view := by
  revert e
  unfold execChannelAssign
  repeat' first | with_reducible refine nextOk ?_ | with_reducible assumption
                | with_reducible apply begin__keepsHost | with_reducible apply beginAt_keepsHost
                | with_reducible apply assignChannels_keepsHost | with_reducible refine ite_keepsHost ?_ ?_

theorem execAcqSearchDone_keepsHost (ch code : Nat) (doppler : Int) (dt : Nat) (s : State) (t : State)
    (e : execAcqSearchDone ch code doppler dt s = .next t) (h : HostOk m p s.view) : HostOk m p t.view := by
  revert e
  unfold execAcqSearchDone
  try dsimp only
  repeat' first | exact faultAny | with_reducible refine nextOk ?_ | with_reducible assumption
                | with_reducible apply begin__keepsHost | with_reducible apply handOff_keepsHost
                | with_reducible refine ite_keepsHost ?_ ?_ | split

theorem searchEnds_keepsHost (ch : Nat) (x1 : Channel) (s : State) (h : HostOk m p s.view) :
    HostOk m p (searchEnds ch x1 s).view := by
  unfold searchEnds
  repeat' first | with_reducible assumption | with_reducible apply setChan_keepsHost
                | with_reducible refine ite_keepsHost ?_ ?_

theorem execAcqTimeout_keepsHost (ch : Nat) (s : State) (t : State)
    (e : execAcqTimeout ch s = .next t) (h : HostOk m p s.view) : HostOk m p t.view := by
  revert e
  unfold execAcqTimeout
  dsimp only
  repeat' first | exact faultAny | with_reducible refine nextOk ?_ | with_reducible assumption
                | with_reducible apply begin__keepsHost | with_reducible apply beginUp_keepsHost
                | with_reducible apply searchEnds_keepsHost | split

theorem biasShown_keepsHost (ant short_ : Bool) (current voltage : Nat) (s : State) (h : HostOk m p s.view) :
    HostOk m p (biasShown ant short_ current voltage s).view := by
  unfold biasShown
  try dsimp only
  repeat' first | with_reducible assumption | with_reducible apply biasMove_keepsHost
                | with_reducible apply setAnt_keepsHost | with_reducible refine ite_keepsHost ?_ ?_ | split

theorem execBiasFault_keepsHost (ant short_ : Bool) (current voltage dt : Nat) (s : State) (t : State)
    (e : execBiasFault ant short_ current voltage dt s = .next t) (h : HostOk m p s.view) : HostOk m p t.view := by
  revert e
  unfold execBiasFault
  try dsimp only
  repeat' first | exact faultAny | with_reducible refine nextOk ?_ | with_reducible assumption
                | with_reducible apply begin__keepsHost | with_reducible apply biasShown_keepsHost
                | with_reducible refine ite_keepsHost ?_ ?_ | split

theorem execBiasRetry_keepsHost (ant : Bool) (current voltage : Nat) (s : State) (t : State)
    (e : execBiasRetry ant current voltage s = .next t) (h : HostOk m p s.view) : HostOk m p t.view := by
  revert e
  unfold execBiasRetry
  try dsimp only
  repeat' first | exact faultAny | with_reducible refine nextOk ?_ | with_reducible assumption
                | with_reducible apply begin__keepsHost | with_reducible apply beginUp_keepsHost
                | with_reducible apply setAnt_keepsHost | with_reducible apply biasShown_keepsHost
                | with_reducible refine ite_keepsHost ?_ ?_ | split

theorem isbSecond_keepsHost (codes : List PvtCode) (out : Option PvtOut) (s : State) (sys : Nat) (h : HostOk m p s.view) :
    HostOk m p (isbSecond codes out s sys).view := by
  unfold isbSecond
  try dsimp only
  repeat' first | with_reducible assumption | with_reducible apply setIsb_keepsHost
                | with_reducible refine ite_keepsHost ?_ ?_ | split

theorem surveySecond_keepsHost (out : Option PvtOut) (s : State) (h : HostOk m p s.view) :
    HostOk m p (surveySecond out s).view := by
  unfold surveySecond
  try dsimp only
  repeat' first | with_reducible assumption | with_reducible apply surveyEvent_keepsHost
                | with_reducible apply putArp_keepsHost | with_reducible refine ite_keepsHost ?_ ?_ | split

theorem clkCheck_keepsHost (sats : Nat) (out : PvtOut) (s : State) (h : HostOk m p s.view) :
    HostOk m p (clkCheck sats out s).view := by
  unfold clkCheck
  try dsimp only
  repeat' first | with_reducible assumption | with_reducible refine ite_keepsHost ?_ ?_ | split

theorem pvtSecond_keepsHost (t1 : Nat) (s : State) (h : HostOk m p s.view) :
    HostOk m p (pvtSecond t1 s).view := by
  unfold pvtSecond
  try dsimp only
  repeat' first | with_reducible assumption | with_reducible apply clkCheck_keepsHost
                | with_reducible apply isbSecond_keepsHost | with_reducible apply surveySecond_keepsHost
                | with_reducible apply setSource_keepsHost | with_reducible apply sourceHolds_keepsHost
                | with_reducible refine foldl_keepsHost _ _ _ (fun _ _ _ => ?_) ?_
                | with_reducible refine ite_keepsHost ?_ ?_ | split

theorem execPvtSolution_keepsHost (dt : Nat) (s : State) (t : State)
    (e : execPvtSolution dt s = .next t) (h : HostOk m p s.view) : HostOk m p t.view := by
  revert e
  unfold execPvtSolution
  try dsimp only
  repeat' first | exact faultAny | with_reducible refine nextOk ?_ | with_reducible assumption
                | with_reducible apply pvtSecond_keepsHost | with_reducible apply beginAt_keepsHost
                | with_reducible apply begin__keepsHost | with_reducible apply snapshot_keepsHost
                | with_reducible refine ite_keepsHost ?_ ?_ | split

theorem applyPendingArp_keepsHost (s : State) (h : HostOk m p s.view) :
    HostOk m p (applyPendingArp s).view := by
  unfold applyPendingArp
  repeat' first | with_reducible assumption | with_reducible apply putArp_keepsHost | split

theorem addAct_keepsHost (a : GnssAct) (s : State) (h : HostOk m p s.view) :
    HostOk m p (addAct a s).view := by
  unfold addAct
  repeat' first | with_reducible assumption

theorem gnssConfigBody_keepsHost (r : Req) (s : State) (t : State) (x : Reply)
    (e : gnssConfigBody r s = .ok (t, x)) (h : HostOk m p s.view) : HostOk m p t.view := by
  revert e
  unfold gnssConfigBody
  repeat' first | exact failAny | with_reducible refine bindNeed ?_ | with_reducible refine pureOk ?_
                | with_reducible assumption | with_reducible apply addAct_keepsHost | split

theorem descGnssConfig_keepsHost : descGnssConfig.Keeps m p :=
  formLen_keeps (fun r s t x e h => gnssConfigBody_keepsHost r s t x e h)

theorem gnssChannelSetBody_keepsHost (r : Req) (s : State) (t : State) (x : Reply)
    (e : gnssChannelSetBody r s = .ok (t, x)) (h : HostOk m p s.view) : HostOk m p t.view := by
  revert e
  unfold gnssChannelSetBody
  repeat' first | with_reducible refine bindNeed ?_ | with_reducible refine pureOk ?_ | with_reducible assumption
                | with_reducible apply addAct_keepsHost

theorem descGnssChannelSet_keepsHost : descGnssChannelSet.Keeps m p :=
  fun r s t x e h => gnssChannelSetBody_keepsHost r s t x e h

theorem gnssGetChannelsBody_keepsHost (r : Req) (s : State) (t : State) (x : Reply)
    (e : gnssGetChannelsBody r s = .ok (t, x)) (h : HostOk m p s.view) : HostOk m p t.view := by
  revert e
  unfold gnssGetChannelsBody
  repeat' first | with_reducible refine bindNeed ?_ | with_reducible refine pureOk ?_ | with_reducible assumption

theorem descGnssGetChannels_keepsHost : descGnssGetChannels.Keeps m p :=
  fun r s t x e h => gnssGetChannelsBody_keepsHost r s t x e h

theorem gnssSetAntennaBody_keepsHost (r : Req) (s : State) (t : State) (x : Reply)
    (e : gnssSetAntennaBody r s = .ok (t, x)) (h : HostOk m p s.view) : HostOk m p t.view := by
  revert e
  unfold gnssSetAntennaBody
  repeat' first | with_reducible refine bindNeed ?_ | with_reducible refine pureOk ?_ | with_reducible assumption
                | with_reducible apply addAct_keepsHost | with_reducible refine ite_keepsHost ?_ ?_

theorem descGnssSetAntenna_keepsHost : descGnssSetAntenna.Keeps m p :=
  formLen_keeps (fun r s t x e h => gnssSetAntennaBody_keepsHost r s t x e h)

theorem gnssSetIsbBody_keepsHost (r : Req) (s : State) (t : State) (x : Reply)
    (e : gnssSetIsbBody r s = .ok (t, x)) (h : HostOk m p s.view) : HostOk m p t.view := by
  revert e
  unfold gnssSetIsbBody
  repeat' first | with_reducible refine bindNeed ?_ | with_reducible refine pureOk ?_ | with_reducible assumption
                | with_reducible apply addAct_keepsHost | with_reducible refine ite_keepsHost ?_ ?_

theorem descGnssSetIsb_keepsHost : descGnssSetIsb.Keeps m p :=
  fun r s t x e h => gnssSetIsbBody_keepsHost r s t x e h

theorem gnssSurveyBody_keepsHost (r : Req) (s : State) (t : State) (x : Reply)
    (e : gnssSurveyBody r s = .ok (t, x)) (h : HostOk m p s.view) : HostOk m p t.view := by
  revert e
  unfold gnssSurveyBody
  repeat' first | exact failAny | with_reducible refine bindNeed ?_ | with_reducible refine retOk ?_
                | with_reducible assumption | with_reducible apply addAct_keepsHost | split

theorem descGnssSurvey_keepsHost : descGnssSurvey.Keeps m p :=
  formLen_keeps (fun r s t x e h => gnssSurveyBody_keepsHost r s t x e h)

theorem gnssGetObsBody_keepsHost (r : Req) (s : State) (t : State) (x : Reply)
    (e : gnssGetObsBody r s = .ok (t, x)) (h : HostOk m p s.view) : HostOk m p t.view := by
  revert e
  unfold gnssGetObsBody
  try dsimp only
  repeat' first | exact failAny | with_reducible refine bindNeed ?_ | with_reducible refine retOk ?_
                | with_reducible refine pureOk ?_ | with_reducible assumption | with_reducible apply take_keepsHost
                | with_reducible apply addAct_keepsHost | with_reducible refine ite_keepsHost ?_ ?_ | split

theorem descGnssGetObs_keepsHost : descGnssGetObs.Keeps m p :=
  fun r s t x e h => gnssGetObsBody_keepsHost r s t x e h

theorem streamObs_keepsHost (e1 : ObsEpoch) (s : State) (h : HostOk m p s.view) :
    HostOk m p (streamObs e1 s).view := by
  unfold streamObs
  repeat' first | with_reducible assumption | with_reducible apply raise_keepsHost
                | with_reducible refine foldl_keepsHost _ _ _ (fun _ _ _ => ?_) ?_

end Sys2Proof.Machine
end

