-- ==== Sys2Proof/Laws/HostPairOps.lean ====
section
/-! SUPPORT. The operations and meanings of the mirror keep the registers of the host side as their tables
say, the member and the commands that wait (R64, R69, R71). -/
set_option autoImplicit false

namespace Sys2Proof.Machine

variable {m : Member} {p : List Instr}

theorem pairState_keepsHost (s : State) (h : HostOk m p s.view) :
    HostOk m p (pairState s).view := by
  unfold pairState
  repeat' first | with_reducible assumption | with_reducible apply setInt_keepsHost
                | with_reducible apply raise_keepsHost

theorem setRole_keepsHost (r : Role) (s : State) (h : HostOk m p s.view) :
    HostOk m p (setRole r s).view := by
  unfold setRole
  repeat' first | with_reducible assumption | with_reducible apply closeSession_keepsHost
                | with_reducible apply pairState_keepsHost | with_reducible refine ite_keepsHost ?_ ?_

theorem partnerTime_keepsHost (s : State) (h : HostOk m p s.view) :
    HostOk m p (partnerTime s).view := by
  unfold partnerTime
  repeat' first | with_reducible assumption | with_reducible apply reselect_keepsHost
                | with_reducible apply sourceHolds_keepsHost | with_reducible apply loseSource_keepsHost
                | with_reducible refine ite_keepsHost ?_ ?_

theorem dropFrames_keepsHost (s : State) (h : HostOk m p s.view) : HostOk m p (dropFrames s).view := h

theorem dropFleet_keepsHost (s : State) (h : HostOk m p s.view) : HostOk m p (dropFleet s).view := h

theorem leaveBase_keepsHost (s : State) (h : HostOk m p s.view) :
    HostOk m p (leaveBase s).view := by
  unfold leaveBase
  try dsimp only
  repeat' first | with_reducible assumption | with_reducible refine ite_keepsHost ?_ ?_ | split

theorem dropResets_keepsHost (s : State) (h : HostOk m p s.view) :
    HostOk m p (dropResets s).view := by
  unfold dropResets
  try dsimp only
  repeat' first | with_reducible assumption | with_reducible apply complete_keepsHost
                | with_reducible refine foldl_keepsHost _ _ _ (fun _ _ _ => ?_) ?_
                | with_reducible refine ite_keepsHost ?_ ?_ | split

theorem becomeStandby_keepsHost (s0 : State) (h : HostOk m p s0.view) :
    HostOk m p (becomeStandby s0).view := by
  unfold becomeStandby
  try dsimp only
  repeat' first | with_reducible assumption | with_reducible apply dropResets_keepsHost
                | with_reducible apply setRole_keepsHost | with_reducible apply leaveBase_keepsHost
                | with_reducible apply dropFleet_keepsHost | with_reducible apply partnerTime_keepsHost
                | with_reducible apply ceaseFault_keepsHost | with_reducible apply emit_keepsHost
                | with_reducible refine ite_keepsHost ?_ ?_ | split

theorem dropSwitch_keepsHost (s : State) (h : HostOk m p s.view) :
    HostOk m p (dropSwitch s).view := by
  unfold dropSwitch
  repeat' first | with_reducible assumption | with_reducible apply complete_keepsHost
                | with_reducible refine foldl_keepsHost _ _ _ (fun _ _ _ => ?_) ?_

theorem leaveActive_keepsHost (s : State) (h : HostOk m p s.view) :
    HostOk m p (leaveActive s).view := by
  unfold leaveActive
  repeat' first | with_reducible assumption | with_reducible apply becomeStandby_keepsHost
                | with_reducible apply dropSwitch_keepsHost | with_reducible refine ite_keepsHost ?_ ?_

theorem assertPfault_keepsHost (s : State) (h : HostOk m p s.view) :
    HostOk m p (assertPfault s).view := by
  unfold assertPfault
  repeat' first | with_reducible assumption | with_reducible apply leaveActive_keepsHost

theorem powerDown_keepsHost (s : State) (h : HostOk m p s.view) :
    HostOk m p (powerDown s).view := by
  unfold powerDown
  repeat' first | with_reducible assumption | with_reducible apply assertPfault_keepsHost

theorem afterBurst_keepsHost (s : State) (h : HostOk m p s.view) :
    HostOk m p (afterBurst s).view := by
  unfold afterBurst
  repeat' first | with_reducible assumption | with_reducible apply powerDown_keepsHost
                | with_reducible refine ite_keepsHost ?_ ?_

theorem recordSwitch_keepsHost (s : State) (h : HostOk m p s.view) :
    HostOk m p (recordSwitch s).view := by
  unfold recordSwitch
  repeat' first | with_reducible assumption | with_reducible apply raise_keepsHost | split

end Sys2Proof.Machine
end

