-- ==== Sys2Proof/Laws/HostRover.lean ====
section
/-! SUPPORT. The operations and meanings of the rover engine keep the registers of the host side as their tables
say, the member and the commands that wait (R64, R69, R71). -/
set_option autoImplicit false

namespace Sys2Proof.Machine

variable {m : Member} {p : List Instr}

theorem setRover_keepsHost (r : Nat) (x1 : Rover) (s : State) (h : HostOk m p s.view) :
    HostOk m p (setRover r x1 s).view := by
  unfold setRover
  repeat' first | with_reducible assumption

theorem modRover_keepsHost (r : Nat) (f : Rover → Rover) (s : State) (h : HostOk m p s.view) :
    HostOk m p (modRover r f s).view := by
  unfold modRover
  repeat' first | with_reducible assumption | with_reducible apply setRover_keepsHost

theorem modStats_keepsHost (r : Nat) (f : RoverStats → RoverStats) (s : State) (h : HostOk m p s.view) :
    HostOk m p (modStats r f s).view := by
  unfold modStats
  repeat' first | with_reducible assumption | with_reducible apply modRover_keepsHost

theorem suspendRovers_keepsHost (s : State) (h : HostOk m p s.view) :
    HostOk m p (suspendRovers s).view := by
  unfold suspendRovers
  repeat' first | with_reducible assumption | with_reducible apply modRover_keepsHost
                | with_reducible refine foldl_keepsHost _ _ _ (fun _ _ _ => ?_) ?_ | split

theorem resumeRovers_keepsHost (s : State) (h : HostOk m p s.view) :
    HostOk m p (resumeRovers s).view := by
  unfold resumeRovers
  repeat' first | with_reducible assumption | with_reducible apply modRover_keepsHost
                | with_reducible refine foldl_keepsHost _ _ _ (fun _ _ _ => ?_) ?_
                | with_reducible refine ite_keepsHost ?_ ?_

theorem capacityChange_keepsHost (s : State) (h : HostOk m p s.view) :
    HostOk m p (capacityChange s).view := by
  unfold capacityChange
  repeat' first | with_reducible assumption | with_reducible apply raise_keepsHost
                | with_reducible apply suspendRovers_keepsHost

theorem setSolve_keepsHost (s : State) (h : HostOk m p s.view) :
    HostOk m p (setSolve s).view := by
  unfold setSolve
  repeat' first | with_reducible assumption | with_reducible apply capacityChange_keepsHost
                | with_reducible refine ite_keepsHost ?_ ?_

theorem applySolve_keepsHost (s : State) (h : HostOk m p s.view) :
    HostOk m p (applySolve s).view := by
  unfold applySolve
  repeat' first | with_reducible assumption | with_reducible apply setSolve_keepsHost | split

theorem freeClusters_keepsHost (r : Nat) (s : State) (h : HostOk m p s.view) :
    HostOk m p (freeClusters r s).view := by
  unfold freeClusters
  try dsimp only
  repeat' first | with_reducible assumption | with_reducible refine ite_keepsHost ?_ ?_ | split

theorem applyRoverAct_keepsHost (s : State) (a : RoverAct) (h : HostOk m p s.view) :
    HostOk m p (applyRoverAct s a).view := by
  unfold applyRoverAct
  try dsimp only
  repeat' first | with_reducible assumption | with_reducible apply resumeRovers_keepsHost
                | with_reducible apply suspendRovers_keepsHost | with_reducible apply modRover_keepsHost
                | with_reducible apply freeClusters_keepsHost | with_reducible refine ite_keepsHost ?_ ?_ | split

theorem rseView_keepsHost (s : State) (h : HostOk m p s.view) :
    HostOk m p (rseView s).view := by
  unfold rseView
  repeat' first | with_reducible assumption | with_reducible apply applyRoverAct_keepsHost
                | with_reducible refine foldl_keepsHost _ _ _ (fun _ _ _ => ?_) ?_

theorem addRoverAct_keepsHost (a : RoverAct) (s : State) (h : HostOk m p s.view) :
    HostOk m p (addRoverAct a s).view := by
  unfold addRoverAct
  repeat' first | with_reducible assumption

theorem closeEpoch_keepsHost (r : Nat) (wait : Bool) (s : State) (h : HostOk m p s.view) :
    HostOk m p (closeEpoch r wait s).view := by
  unfold closeEpoch
  dsimp only
  repeat' first | with_reducible assumption | with_reducible apply setRover_keepsHost | split

theorem addMsm_keepsHost (r sys t1 : Nat) (more : Bool) (obs : List RoverObs) (s : State) (h : HostOk m p s.view) :
    HostOk m p (addMsm r sys t1 more obs s).view := by
  unfold addMsm
  try dsimp only
  repeat' first | with_reducible assumption | with_reducible apply modStats_keepsHost
                | with_reducible apply closeEpoch_keepsHost | with_reducible apply setRover_keepsHost
                | with_reducible refine ite_keepsHost ?_ ?_ | split

theorem execEpochWaitExpire_keepsHost (r : Nat) (s : State) (t : State)
    (e : execEpochWaitExpire r s = .next t) (h : HostOk m p s.view) : HostOk m p t.view := by
  revert e
  unfold execEpochWaitExpire
  repeat' first | exact faultAny | with_reducible refine nextOk ?_ | with_reducible assumption
                | with_reducible apply begin__keepsHost | with_reducible apply beginUp_keepsHost
                | with_reducible apply closeEpoch_keepsHost | split

theorem rseMessage_keepsHost (r : Nat) (s : State) (body : List Byte) (h : HostOk m p s.view) :
    HostOk m p (rseMessage r s body).view := by
  unfold rseMessage
  try dsimp only
  repeat' first | with_reducible assumption | with_reducible apply addMsm_keepsHost
                | with_reducible apply modRover_keepsHost | with_reducible apply modStats_keepsHost
                | with_reducible refine ite_keepsHost ?_ ?_ | split

theorem rseFrame_keepsHost (r : Nat) (bodies : List (List Byte)) (s : State) (h : HostOk m p s.view) :
    HostOk m p (rseFrame r bodies s).view := by
  unfold rseFrame
  try dsimp only
  repeat' first | with_reducible assumption | with_reducible apply modStats_keepsHost
                | with_reducible apply rseMessage_keepsHost
                | with_reducible refine foldl_keepsHost _ _ _ (fun _ _ _ => ?_) ?_
                | with_reducible refine ite_keepsHost ?_ ?_ | split

theorem roverHeard_keepsHost (r : Nat) (s : State) (h : HostOk m p s.view) :
    HostOk m p (roverHeard r s).view := by
  unfold roverHeard
  repeat' first | with_reducible assumption | with_reducible apply modRover_keepsHost

theorem takeBase_keepsHost (t1 : Nat) (recs : List SatObs) (s : State) (h : HostOk m p s.view) :
    HostOk m p (takeBase t1 recs s).view := by
  unfold takeBase
  try dsimp only
  repeat' first | with_reducible assumption | with_reducible apply take_keepsHost
                | with_reducible refine ite_keepsHost ?_ ?_ | split

theorem dropOld_keepsHost (s : State) (h : HostOk m p s.view) :
    HostOk m p (dropOld s).view := by
  unfold dropOld
  try dsimp only
  repeat' first | with_reducible assumption | with_reducible refine ite_keepsHost ?_ ?_ | split

theorem rseRaise_keepsHost (code detail : Nat) (ws : List Word) (d : Dest) (s : State) (h : HostOk m p s.view) :
    HostOk m p (rseRaise code detail ws d s).view := by
  unfold rseRaise
  repeat' first | with_reducible assumption | with_reducible apply raise_keepsHost
                | with_reducible refine ite_keepsHost ?_ ?_

theorem streamFix_keepsHost (r : Nat) (f : Fix) (s : State) (h : HostOk m p s.view) :
    HostOk m p (streamFix r f s).view := by
  unfold streamFix
  repeat' first | with_reducible assumption | with_reducible apply rseRaise_keepsHost
                | with_reducible refine foldl_keepsHost _ _ _ (fun _ _ _ => ?_) ?_
                | with_reducible refine ite_keepsHost ?_ ?_

theorem publishFix_keepsHost (r from_ : Nat) (f0 : Fix) (s : State) (h : HostOk m p s.view) :
    HostOk m p (publishFix r from_ f0 s).view := by
  unfold publishFix
  try dsimp only
  repeat' first | with_reducible assumption | with_reducible apply setRover_keepsHost
                | with_reducible apply rseRaise_keepsHost | with_reducible apply streamFix_keepsHost
                | with_reducible refine ite_keepsHost ?_ ?_ | split

theorem noteEpoch_keepsHost (r base : Nat) (e1 : Epoch) (s : State) (h : HostOk m p s.view) :
    HostOk m p (noteEpoch r base e1 s).view := by
  unfold noteEpoch
  try dsimp only
  repeat' first | with_reducible assumption | with_reducible apply setRover_keepsHost
                | with_reducible apply rseRaise_keepsHost | with_reducible refine ite_keepsHost ?_ ?_ | split

theorem publishNone_keepsHost (r input reason : Nat) (e1 : Epoch) (s : State) (h : HostOk m p s.view) :
    HostOk m p (publishNone r input reason e1 s).view := by
  unfold publishNone
  try dsimp only
  repeat' first | with_reducible assumption | with_reducible apply modRover_keepsHost
                | with_reducible apply publishFix_keepsHost | with_reducible refine ite_keepsHost ?_ ?_ | split

theorem execRoverSolveStart_keepsHost (dt : Nat) (s : State) (t : State)
    (e : execRoverSolveStart dt s = .next t) (h : HostOk m p s.view) : HostOk m p t.view := by
  revert e
  unfold execRoverSolveStart
  try dsimp only
  repeat' first | exact faultAny | with_reducible refine nextOk ?_ | with_reducible assumption
                | with_reducible apply begin__keepsHost | with_reducible apply dropOld_keepsHost
                | with_reducible apply applySolve_keepsHost | with_reducible apply publishNone_keepsHost
                | with_reducible apply noteEpoch_keepsHost | with_reducible apply setRover_keepsHost
                | with_reducible refine ite_keepsHost ?_ ?_ | split

theorem beforeSolve_keepsHost (r : Nat) (s : State) (h : HostOk m p s.view) :
    HostOk m p (beforeSolve r s).view := by
  unfold beforeSolve
  try dsimp only
  repeat' first | with_reducible assumption | with_reducible apply setRover_keepsHost
                | with_reducible apply rseRaise_keepsHost | with_reducible refine ite_keepsHost ?_ ?_ | split

theorem solveFrom_keepsHost (r : Nat) (e1 : Epoch) (u : BaseUse) (arp : Ecef) (code : CodeOut) (dist : Nat) (s : State) (h : HostOk m p s.view) :
    HostOk m p (solveFrom r e1 u arp code dist s).view := by
  unfold solveFrom
  try dsimp only
  repeat' first | with_reducible assumption | with_reducible apply modRover_keepsHost
                | with_reducible apply publishNone_keepsHost | with_reducible apply beforeSolve_keepsHost
                | with_reducible apply setRover_keepsHost | with_reducible apply publishFix_keepsHost
                | with_reducible apply rseRaise_keepsHost | with_reducible refine ite_keepsHost ?_ ?_ | split

theorem solveFix_keepsHost (r : Nat) (e1 : Epoch) (u : BaseUse) (s : State) (h : HostOk m p s.view) :
    HostOk m p (solveFix r e1 u s).view := by
  unfold solveFix
  try dsimp only
  repeat' first | with_reducible assumption | with_reducible apply noteEpoch_keepsHost
                | with_reducible apply publishNone_keepsHost | with_reducible apply solveFrom_keepsHost
                | with_reducible refine ite_keepsHost ?_ ?_ | split

theorem execRoverFixPublish_keepsHost (cluster dt : Nat) (s : State) (t : State)
    (e : execRoverFixPublish cluster dt s = .next t) (h : HostOk m p s.view) : HostOk m p t.view := by
  revert e
  unfold execRoverFixPublish
  try dsimp only
  repeat' first | exact faultAny | with_reducible refine nextOk ?_ | with_reducible assumption
                | with_reducible apply begin__keepsHost | with_reducible apply solveFix_keepsHost
                | with_reducible refine ite_keepsHost ?_ ?_ | split

theorem tickFixes_keepsHost (t1 : Nat) (s : State) (h : HostOk m p s.view) :
    HostOk m p (tickFixes t1 s).view := by
  unfold tickFixes
  repeat' first | with_reducible assumption

theorem setArp_keepsHost (new : Option Arp) (s : State) (h : HostOk m p s.view) :
    HostOk m p (setArp new s).view := by
  unfold setArp
  try dsimp only
  repeat' first | with_reducible assumption | with_reducible apply snapshot_keepsHost
                | with_reducible refine ite_keepsHost ?_ ?_ | split

theorem shiftArp_keepsHost (s : State) (h : HostOk m p s.view) :
    HostOk m p (shiftArp s).view := by
  unfold shiftArp
  try dsimp only
  repeat' first | with_reducible assumption | with_reducible apply setArp_keepsHost
                | with_reducible refine ite_keepsHost ?_ ?_ | split

theorem moveOrigin_keepsHost (old new : Option Origin) (s : State) (h : HostOk m p s.view) :
    HostOk m p (moveOrigin old new s).view := by
  unfold moveOrigin
  try dsimp only
  repeat' first | with_reducible assumption | with_reducible refine ite_keepsHost ?_ ?_ | split

theorem roverBindBody_keepsHost (r : Req) (s : State) (t : State) (x : Reply)
    (e : roverBindBody r s = .ok (t, x)) (h : HostOk m p s.view) : HostOk m p t.view := by
  revert e
  unfold roverBindBody
  dsimp only
  repeat' first | exact failAny | with_reducible refine pureOk ?_ | (with_reducible refine bindAny ?_; intro _ _)
                | with_reducible assumption | with_reducible apply addRoverAct_keepsHost | split

theorem descRoverBind_keepsHost : descRoverBind.Keeps m p :=
  formLen_keeps (fun r s t x e h => roverBindBody_keepsHost r s t x e h)

theorem roverCfgBody_keepsHost (r : Req) (s : State) (t : State) (x : Reply)
    (e : roverCfgBody r s = .ok (t, x)) (h : HostOk m p s.view) : HostOk m p t.view := by
  revert e
  unfold roverCfgBody
  repeat' first | with_reducible refine pureOk ?_ | (with_reducible refine bindAny ?_; intro _ _)
                | with_reducible assumption | with_reducible apply addRoverAct_keepsHost
                | with_reducible refine foldl_keepsHost _ _ _ (fun _ _ _ => ?_) ?_ | split

theorem descRoverCfg_keepsHost : descRoverCfg.Keeps m p :=
  formLen_keeps (fun r s t x e h => roverCfgBody_keepsHost r s t x e h)

theorem roverGetFixBody_keepsHost (r : Req) (s : State) (t : State) (x : Reply)
    (e : roverGetFixBody r s = .ok (t, x)) (h : HostOk m p s.view) : HostOk m p t.view := by
  revert e
  unfold roverGetFixBody
  repeat' first | with_reducible refine pureOk ?_ | (with_reducible refine bindAny ?_; intro _ _)
                | with_reducible assumption

theorem descRoverGetFix_keepsHost : descRoverGetFix.Keeps m p :=
  fun r s t x e h => roverGetFixBody_keepsHost r s t x e h

theorem roverSubscribeBody_keepsHost (r : Req) (s : State) (t : State) (x : Reply)
    (e : roverSubscribeBody r s = .ok (t, x)) (h : HostOk m p s.view) : HostOk m p t.view := by
  revert e
  unfold roverSubscribeBody
  repeat' first | with_reducible refine bindNeed ?_ | with_reducible refine pureOk ?_ | with_reducible assumption
                | with_reducible apply addRoverAct_keepsHost | split

theorem descRoverSubscribe_keepsHost : descRoverSubscribe.Keeps m p :=
  fun r s t x e h => roverSubscribeBody_keepsHost r s t x e h

theorem roverResetAmbBody_keepsHost (r : Req) (s : State) (t : State) (x : Reply)
    (e : roverResetAmbBody r s = .ok (t, x)) (h : HostOk m p s.view) : HostOk m p t.view := by
  revert e
  unfold roverResetAmbBody
  repeat' first | with_reducible refine pureOk ?_ | (with_reducible refine bindAny ?_; intro _ _)
                | with_reducible assumption | with_reducible apply modRover_keepsHost
                | with_reducible refine foldl_keepsHost _ _ _ (fun _ _ _ => ?_) ?_
                | with_reducible refine ite_keepsHost ?_ ?_

theorem descRoverResetAmb_keepsHost : descRoverResetAmb.Keeps m p :=
  fun r s t x e h => roverResetAmbBody_keepsHost r s t x e h

theorem roverGetStatsBody_keepsHost (r : Req) (s : State) (t : State) (x : Reply)
    (e : roverGetStatsBody r s = .ok (t, x)) (h : HostOk m p s.view) : HostOk m p t.view := by
  revert e
  unfold roverGetStatsBody
  repeat' first | with_reducible refine pureOk ?_ | (with_reducible refine bindAny ?_; intro _ _)
                | with_reducible assumption | with_reducible apply modStats_keepsHost
                | with_reducible refine foldl_keepsHost _ _ _ (fun _ _ _ => ?_) ?_ | split

theorem descRoverGetStats_keepsHost : descRoverGetStats.Keeps m p :=
  fun r s t x e h => roverGetStatsBody_keepsHost r s t x e h

end Sys2Proof.Machine
end

