-- ==== Sys2Proof/Laws/HostCorr.lean ====
section
/-! SUPPORT. The operations and meanings of the correction streams keep the registers of the host side as their tables
say, the member and the commands that wait (R64, R69, R71). -/
set_option autoImplicit false

namespace Sys2Proof.Machine

variable {m : Member} {p : List Instr}

theorem setNavSub_keepsHost (q : Nat) (x1 : NavSub) (s : State) (h : HostOk m p s.view) :
    HostOk m p (setNavSub q x1 s).view := by
  unfold setNavSub
  repeat' first | with_reducible assumption

theorem deliverNav_keepsHost (u : NavUnit) (s : State) (p1 : Nat × NavSub) (h : HostOk m p s.view) :
    HostOk m p (deliverNav u s p1).view := by
  unfold deliverNav
  try dsimp only
  repeat' first | with_reducible assumption | with_reducible apply raise_keepsHost
                | with_reducible apply setNavSub_keepsHost | with_reducible refine ite_keepsHost ?_ ?_ | split

theorem storeNav_keepsHost (u : NavUnit) (s : State) (h : HostOk m p s.view) :
    HostOk m p (storeNav u s).view := by
  unfold storeNav
  try dsimp only
  repeat' first | with_reducible assumption | with_reducible apply setIsb_keepsHost
                | with_reducible refine ite_keepsHost ?_ ?_ | split

theorem takeNav_keepsHost (u : NavUnit) (c : Channel) (s : State) (h : HostOk m p s.view) :
    HostOk m p (takeNav u c s).view := by
  unfold takeNav
  try dsimp only
  repeat' first | with_reducible assumption | with_reducible apply storeNav_keepsHost
                | with_reducible apply deliverNav_keepsHost
                | with_reducible refine foldl_keepsHost _ _ _ (fun _ _ _ => ?_) ?_
                | with_reducible refine ite_keepsHost ?_ ?_ | split

theorem execNavUnitDecoded_keepsHost (u : NavUnit) (dt : Nat) (s : State) (t : State)
    (e : execNavUnitDecoded u dt s = .next t) (h : HostOk m p s.view) : HostOk m p t.view := by
  revert e
  unfold execNavUnitDecoded
  try dsimp only
  repeat' first | exact faultAny | with_reducible refine nextOk ?_ | with_reducible assumption
                | with_reducible apply begin__keepsHost | with_reducible apply takeNav_keepsHost
                | with_reducible refine ite_keepsHost ?_ ?_ | split

theorem gnssNavSubscribeBody_keepsHost (r : Req) (s : State) (t : State) (x : Reply)
    (e : gnssNavSubscribeBody r s = .ok (t, x)) (h : HostOk m p s.view) : HostOk m p t.view := by
  revert e
  unfold gnssNavSubscribeBody
  try dsimp only
  repeat' first | exact failAny | with_reducible refine bindNeed ?_ | with_reducible refine retOk ?_
                | with_reducible refine pureOk ?_ | with_reducible assumption | with_reducible apply addAct_keepsHost
                | with_reducible refine ite_keepsHost ?_ ?_ | split

theorem descGnssNavSubscribe_keepsHost : descGnssNavSubscribe.Keeps m p :=
  fun r s t x e h => gnssNavSubscribeBody_keepsHost r s t x e h

theorem setStream_keepsHost (k : Nat) (x1 : Stream) (s : State) (h : HostOk m p s.view) :
    HostOk m p (setStream k x1 s).view := by
  unfold setStream
  repeat' first | with_reducible assumption

theorem streamEpoch_keepsHost (t1 : Nat) (l : List SatObs) (s : State) (k : Nat) (h : HostOk m p s.view) :
    HostOk m p (streamEpoch t1 l s k).view := by
  unfold streamEpoch
  try dsimp only
  repeat' first | with_reducible assumption | with_reducible apply setStream_keepsHost
                | with_reducible apply raise_keepsHost | with_reducible refine ite_keepsHost ?_ ?_ | split

theorem execUartCByteSent_keepsHost (stream dt : Nat) (s : State) (t : State)
    (e : execUartCByteSent stream dt s = .next t) (h : HostOk m p s.view) : HostOk m p t.view := by
  revert e
  unfold execUartCByteSent
  dsimp only
  repeat' first | exact faultAny | with_reducible refine nextOk ?_ | with_reducible assumption
                | with_reducible apply begin__keepsHost | with_reducible apply emit_keepsHost
                | with_reducible apply setStream_keepsHost | split

theorem learnGains_keepsHost (t1 : Nat) (s : State) (h : HostOk m p s.view) :
    HostOk m p (learnGains t1 s).view := by
  unfold learnGains
  repeat' first | with_reducible assumption | with_reducible refine ite_keepsHost ?_ ?_

theorem levelActs_keepsHost (old : Nat) (s : State) (h : HostOk m p s.view) :
    HostOk m p (levelActs old s).view := by
  unfold levelActs
  dsimp only
  repeat' first | with_reducible assumption | with_reducible apply raise_keepsHost
                | with_reducible apply updateTq_keepsHost
                | with_reducible apply raiseFault_keepsHost | with_reducible apply ceaseFault_keepsHost
                | with_reducible apply loseSource_keepsHost | with_reducible refine ite_keepsHost ?_ ?_

theorem integrityEpoch_keepsHost (t1 : Nat) (recs : List SatObs) (s0 : State) (h : HostOk m p s0.view) :
    HostOk m p (integrityEpoch t1 recs s0).view := by
  unfold integrityEpoch
  try dsimp only
  repeat' first | with_reducible assumption | with_reducible apply foldl_keepsHost
                | with_reducible apply learnGains_keepsHost | with_reducible apply levelActs_keepsHost
                | with_reducible refine foldl_keepsHost _ _ _ (fun _ _ _ => ?_) ?_
                | with_reducible refine ite_keepsHost ?_ ?_ | split

theorem integrityCfgBody_keepsHost (r : Req) (s t : State) (x : Reply) (e : integrityCfgBody r s = .ok (t, x))
    (h : HostOk m p s.view) : HostOk m p t.view := by
  revert e
  unfold integrityCfgBody
  dsimp only
  refine bindNeed (bindAny fun v ev => ?_)
  have hv : HostOk m p v.view := by
    split at ev
    · cases ev; exact h
    · revert ev
      refine bindNeed (bindNeed (bindNeed ?_))
      intro ev
      cases ev
      exact h
  exact pureOk hv

theorem descGnssIntegrityCfg_keepsHost : descGnssIntegrityCfg.Keeps m p :=
  formLen_keeps (fun r s t x e h => integrityCfgBody_keepsHost r s t x e h)

theorem corrStreamCfgBody_keepsHost (r : Req) (s : State) (t : State) (x : Reply)
    (e : corrStreamCfgBody r s = .ok (t, x)) (h : HostOk m p s.view) : HostOk m p t.view := by
  revert e
  unfold corrStreamCfgBody
  repeat' first | with_reducible refine bindNeed ?_ | with_reducible refine retOk ?_
                | with_reducible refine pureOk ?_ | with_reducible assumption
                | with_reducible apply setStream_keepsHost | split

theorem descCorrStreamCfg_keepsHost : descCorrStreamCfg.Keeps m p :=
  formLen_keeps (fun r s t x e h => corrStreamCfgBody_keepsHost r s t x e h)

theorem corrGetStatsBody_keepsHost (r : Req) (s : State) (t : State) (x : Reply)
    (e : corrGetStatsBody r s = .ok (t, x)) (h : HostOk m p s.view) : HostOk m p t.view := by
  revert e
  unfold corrGetStatsBody
  repeat' first | with_reducible refine bindNeed ?_ | with_reducible refine pureOk ?_ | with_reducible assumption
                | with_reducible apply setStream_keepsHost | with_reducible refine ite_keepsHost ?_ ?_

theorem descCorrGetStats_keepsHost : descCorrGetStats.Keeps m p :=
  fun r s t x e h => corrGetStatsBody_keepsHost r s t x e h

theorem baselineEpoch_keepsHost (fixed : Option (Int × Int × Int)) (s : State) (h : HostOk m p s.view) :
    HostOk m p (baselineEpoch fixed s).view := by
  unfold baselineEpoch
  dsimp only
  repeat' first | with_reducible assumption | with_reducible apply drawFresh_keepsHost
                | with_reducible apply surveyEvent_keepsHost | split

theorem baseEpoch_keepsHost (t1 : Nat) (recs : List SatObs) (s : State) (h : HostOk m p s.view) :
    HostOk m p (baseEpoch t1 recs s).view := by
  unfold baseEpoch
  try dsimp only
  repeat' first | with_reducible assumption | with_reducible apply take_keepsHost
                | with_reducible apply laneSend_keepsHost | with_reducible apply takeBase_keepsHost
                | with_reducible refine ite_keepsHost ?_ ?_ | split

theorem clearSlips_keepsHost (host own : Bool) (s : State) (h : HostOk m p s.view) :
    HostOk m p (clearSlips host own s).view := by
  unfold clearSlips
  repeat' first | with_reducible assumption

theorem ownEpoch_keepsHost (t1 : Nat) (obs : List ObsMeas) (s : State) (h : HostOk m p s.view) :
    HostOk m p (ownEpoch t1 obs s).view := by
  unfold ownEpoch
  try dsimp only
  repeat' first | with_reducible assumption | with_reducible apply rseView_keepsHost
                | with_reducible apply integrityEpoch_keepsHost | with_reducible apply baselineEpoch_keepsHost
                | with_reducible apply baseEpoch_keepsHost | with_reducible apply streamEpoch_keepsHost
                | with_reducible refine foldl_keepsHost _ _ _ (fun _ _ _ => ?_) ?_
                | with_reducible refine ite_keepsHost ?_ ?_ | split

theorem hostEpoch_keepsHost (t1 : Nat) (obs : List ObsMeas) (s : State) (h : HostOk m p s.view) :
    HostOk m p (hostEpoch t1 obs s).view := by
  unfold hostEpoch
  try dsimp only
  repeat' first | with_reducible assumption | with_reducible apply streamObs_keepsHost
                | with_reducible apply take_keepsHost | with_reducible refine ite_keepsHost ?_ ?_ | split

theorem measEpoch_keepsHost (t1 : Nat) (obs : List ObsMeas) (s : State) (h : HostOk m p s.view) :
    HostOk m p (measEpoch t1 obs s).view := by
  unfold measEpoch
  try dsimp only
  repeat' first | with_reducible assumption | with_reducible apply ownEpoch_keepsHost
                | with_reducible apply hostEpoch_keepsHost | with_reducible apply clearSlips_keepsHost
                | with_reducible refine ite_keepsHost ?_ ?_ | split

theorem execMeasEpoch_keepsHost (obs : List ObsMeas) (s : State) (t : State)
    (e : execMeasEpoch obs s = .next t) (h : HostOk m p s.view) : HostOk m p t.view := by
  revert e
  unfold execMeasEpoch
  try dsimp only
  repeat' first | exact faultAny | with_reducible refine nextOk ?_ | with_reducible assumption
                | with_reducible apply measEpoch_keepsHost | with_reducible apply beginAt_keepsHost
                | with_reducible apply begin__keepsHost | with_reducible refine ite_keepsHost ?_ ?_ | split

end Sys2Proof.Machine
end

