-- ==== Sys2Proof/Laws/HostSched.lean ====
section
/-! SUPPORT. The operations and meanings of the scheduler keep the registers of the host side as their tables
say, the member and the commands that wait (R64, R69, R71). -/
set_option autoImplicit false

namespace Sys2Proof.Machine

variable {m : Member} {p : List Instr}

theorem setSlot_keepsHost (i : Nat) (x1 : JobSlot) (s : State) (h : HostOk m p s.view) :
    HostOk m p (setSlot i x1 s).view := by
  unfold setSlot
  repeat' first | with_reducible assumption

theorem setHostJob_keepsHost (j : Nat) (h1 : HostJob) (s : State) (h : HostOk m p s.view) :
    HostOk m p (setHostJob j h1 s).view := by
  unfold setHostJob
  repeat' first | with_reducible assumption

theorem setCore_keepsHost (c : Nat) (x1 : Core) (s : State) (h : HostOk m p s.view) :
    HostOk m p (setCore c x1 s).view := by
  unfold setCore
  repeat' first | with_reducible assumption

theorem quarantine_keepsHost (c cause : Nat) (s : State) (h : HostOk m p s.view) :
    HostOk m p (quarantine c cause s).view := by
  unfold quarantine
  try dsimp only
  repeat' first | with_reducible assumption | with_reducible apply assertPfault_keepsHost
                | with_reducible apply setInt_keepsHost | with_reducible apply raise_keepsHost
                | with_reducible apply setCore_keepsHost | with_reducible refine ite_keepsHost ?_ ?_ | split

theorem startJob_keepsHost (core : Nat) (j : ReadyJob) (s : State) (h : HostOk m p s.view) :
    HostOk m p (startJob core j s).view := by
  unfold startJob
  repeat' first | with_reducible assumption | with_reducible apply setSlot_keepsHost
                | with_reducible apply setHostJob_keepsHost | with_reducible apply setCore_keepsHost
                | with_reducible refine ite_keepsHost ?_ ?_

theorem prefetchJob_keepsHost (core : Nat) (s : State) (h : HostOk m p s.view) :
    HostOk m p (prefetchJob core s).view := by
  unfold prefetchJob
  repeat' first | with_reducible assumption | with_reducible apply setCore_keepsHost

theorem notePeaks_keepsHost (s : State) (h : HostOk m p s.view) :
    HostOk m p (notePeaks s).view := by
  unfold notePeaks
  repeat' first | with_reducible assumption

theorem execJobComplete_keepsHost (core dt : Nat) (s : State) (t : State)
    (e : execJobComplete core dt s = .next t) (h : HostOk m p s.view) : HostOk m p t.view := by
  revert e
  unfold execJobComplete
  dsimp only
  repeat' first | exact faultAny | with_reducible refine nextOk ?_ | with_reducible assumption
                | with_reducible apply begin__keepsHost | with_reducible apply setSlot_keepsHost
                | with_reducible apply setCore_keepsHost | with_reducible apply quarantine_keepsHost
                | with_reducible apply notePeaks_keepsHost
                | with_reducible refine foldl_keepsHost _ _ _ (fun _ _ _ => ?_) ?_ | split

theorem revoke_keepsHost (core slot : Nat) (s : State) (h : HostOk m p s.view) :
    HostOk m p (revoke core slot s).view := by
  unfold revoke
  repeat' first | with_reducible assumption | with_reducible apply setSlot_keepsHost
                | with_reducible apply setCore_keepsHost | with_reducible apply quarantine_keepsHost
                | with_reducible refine ite_keepsHost ?_ ?_

theorem execJobRevoke_keepsHost (core : Nat) (s : State) (t : State)
    (e : execJobRevoke core s = .next t) (h : HostOk m p s.view) : HostOk m p t.view := by
  revert e
  unfold execJobRevoke
  repeat' first | exact faultAny | with_reducible refine nextOk ?_ | with_reducible assumption
                | with_reducible apply begin__keepsHost | with_reducible apply beginUp_keepsHost
                | with_reducible apply revoke_keepsHost | split

theorem noteSlack_keepsHost (s : State) (h : HostOk m p s.view) :
    HostOk m p (noteSlack s).view := by
  unfold noteSlack
  repeat' first | with_reducible assumption

theorem secondStats_keepsHost (s : State) (h : HostOk m p s.view) :
    HostOk m p (secondStats s).view := by
  unfold secondStats
  repeat' first | with_reducible assumption

theorem periodicJobs_keepsHost (s : State) (h : HostOk m p s.view) :
    HostOk m p (periodicJobs s).view := by
  unfold periodicJobs
  repeat' first | with_reducible assumption

theorem disarmJobs_keepsHost (s : State) (h : HostOk m p s.view) :
    HostOk m p (disarmJobs s).view := by
  unfold disarmJobs
  repeat' first | with_reducible assumption

theorem execHostJobFinal_keepsHost (j dt : Nat) (s : State) (t : State)
    (e : execHostJobFinal j dt s = .next t) (h : HostOk m p s.view) : HostOk m p t.view := by
  revert e
  unfold execHostJobFinal
  dsimp only
  repeat' first | exact faultAny | with_reducible refine nextOk ?_ | with_reducible assumption
                | with_reducible apply begin__keepsHost | with_reducible apply raise_keepsHost
                | with_reducible apply setHostJob_keepsHost
                | with_reducible refine foldl_keepsHost _ _ _ (fun _ _ _ => ?_) ?_ | split

theorem clearTickStats_keepsHost (s : State) (h : HostOk m p s.view) :
    HostOk m p (clearTickStats s).view := by
  unfold clearTickStats
  repeat' first | with_reducible assumption

theorem schedGetBody_keepsHost (r : Req) (s : State) (t : State) (x : Reply)
    (e : schedGetBody r s = .ok (t, x)) (h : HostOk m p s.view) : HostOk m p t.view := by
  revert e
  unfold schedGetBody
  repeat' first | with_reducible refine bindNeed ?_ | with_reducible refine pureOk ?_ | with_reducible assumption
                | with_reducible apply setCore_keepsHost | with_reducible apply clearTickStats_keepsHost | split

theorem descSchedGet_keepsHost : descSchedGet.Keeps m p :=
  fun r s t x e h => schedGetBody_keepsHost r s t x e h

end Sys2Proof.Machine
end

