-- ==== Sys2Proof/Laws/HostUpd.lean ====
section
/-! SUPPORT. The operations and meanings of the update unit keep the registers of the host side as their tables
say, the member and the commands that wait (R64, R69, R71). -/
set_option autoImplicit false

namespace Sys2Proof.Machine

variable {m : Member} {p : List Instr}

theorem setBank_keepsHost (b : Bool) (x1 : Bank) (s : State) (h : HostOk m p s.view) :
    HostOk m p (setBank b x1 s).view := by
  unfold setBank
  repeat' first | with_reducible assumption | with_reducible refine ite_keepsHost ?_ ?_

theorem writeAct_keepsHost (x1 : ActRec) (s : State) (h : HostOk m p s.view) :
    HostOk m p (writeAct x1 s).view := by
  unfold writeAct
  repeat' first | with_reducible assumption | with_reducible refine ite_keepsHost ?_ ?_

theorem setUpd_keepsHost (st : UpdState) (s : State) (h : HostOk m p s.view) :
    HostOk m p (setUpd st s).view := by
  unfold setUpd
  repeat' first | with_reducible assumption | with_reducible apply setInt_keepsHost

theorem touchUpd_keepsHost (s : State) (h : HostOk m p s.view) :
    HostOk m p (touchUpd s).view := by
  unfold touchUpd
  repeat' first | with_reducible assumption

theorem dropUpdWork_keepsHost (s : State) (h : HostOk m p s.view) :
    HostOk m p (dropUpdWork s).view := by
  unfold dropUpdWork
  dsimp only
  repeat' first | with_reducible assumption | with_reducible apply complete_keepsHost | split

theorem abortUpd_keepsHost (cause : Nat) (s : State) (h : HostOk m p s.view) :
    HostOk m p (abortUpd cause s).view := by
  unfold abortUpd
  repeat' first | with_reducible assumption | with_reducible apply raise_keepsHost
                | with_reducible apply setUpd_keepsHost | with_reducible apply dropUpdWork_keepsHost

theorem measureTakeover_keepsHost (hdr : List Byte) (s : State) (h : HostOk m p s.view) :
    HostOk m p (measureTakeover hdr s).view := by
  unfold measureTakeover
  repeat' first | with_reducible assumption

theorem startRevert_keepsHost (cause : Nat) (s : State) (h : HostOk m p s.view) :
    HostOk m p (startRevert cause s).view := by
  unfold startRevert
  repeat' first | with_reducible assumption | with_reducible apply raise_keepsHost
                | with_reducible apply writeAct_keepsHost | with_reducible apply setUpd_keepsHost
                | with_reducible apply measureTakeover_keepsHost | with_reducible refine ite_keepsHost ?_ ?_

theorem updOpenBody_keepsHost (r : Req) (s : State) (t : State) (x : Reply)
    (e : updOpenBody r s = .ok (t, x)) (h : HostOk m p s.view) : HostOk m p t.view := by
  revert e
  unfold updOpenBody
  try dsimp only
  repeat' first | exact failAny | with_reducible refine bindNeed ?_ | with_reducible refine retOk ?_
                | with_reducible refine pureOk ?_ | with_reducible assumption | with_reducible apply setBank_keepsHost
                | with_reducible apply setUpd_keepsHost | with_reducible apply raise_keepsHost
                | with_reducible refine ite_keepsHost ?_ ?_ | split

theorem descUpdOpen_keepsHost : descUpdOpen.Keeps m p :=
  fun r s t x e h => updOpenBody_keepsHost r s t x e h

theorem updHeaderBody_keepsHost (r : Req) (s : State) (t : State) (x : Reply)
    (e : updHeaderBody r s = .ok (t, x)) (h : HostOk m p s.view) : HostOk m p t.view := by
  revert e
  unfold updHeaderBody
  dsimp only
  repeat' first | with_reducible refine pureOk ?_ | (with_reducible refine bindAny ?_; intro _ _)
                | with_reducible assumption | with_reducible apply raise_keepsHost
                | with_reducible apply setBank_keepsHost | with_reducible apply setUpd_keepsHost
                | with_reducible apply touchUpd_keepsHost | split

theorem descUpdHeader_keepsHost : descUpdHeader.Keeps m p :=
  fun r s t x e h => updHeaderBody_keepsHost r s t x e h

theorem updDataBody_keepsHost (r : Req) (s : State) (t : State) (x : Reply)
    (e : updDataBody r s = .ok (t, x)) (h : HostOk m p s.view) : HostOk m p t.view := by
  revert e
  unfold updDataBody
  repeat' first | exact errorAny | with_reducible refine pureOk ?_ | (with_reducible refine bindAny ?_; intro _ _)
                | with_reducible assumption | with_reducible apply setBank_keepsHost
                | with_reducible apply touchUpd_keepsHost | split

theorem descUpdData_keepsHost : descUpdData.Keeps m p :=
  fun r s t x e h => updDataBody_keepsHost r s t x e h

theorem updVerifyBody_keepsHost (r : Req) (s : State) (t : State) (x : Reply)
    (e : updVerifyBody r s = .ok (t, x)) (h : HostOk m p s.view) : HostOk m p t.view := by
  revert e
  unfold updVerifyBody
  repeat' first | with_reducible refine pureOk ?_ | (with_reducible refine bindAny ?_; intro _ _)
                | with_reducible assumption | with_reducible apply setUpd_keepsHost
                | with_reducible apply touchUpd_keepsHost

theorem descUpdVerify_keepsHost : descUpdVerify.Keeps m p :=
  fun r s t x e h => updVerifyBody_keepsHost r s t x e h

theorem execUpdVerifyDone_keepsHost (dt : Nat) (s : State) (t : State)
    (e : execUpdVerifyDone dt s = .next t) (h : HostOk m p s.view) : HostOk m p t.view := by
  revert e
  unfold execUpdVerifyDone
  dsimp only
  repeat' first | with_reducible refine nextOk ?_ | with_reducible assumption
                | with_reducible apply begin__keepsHost | with_reducible apply complete_keepsHost
                | with_reducible apply raise_keepsHost | with_reducible apply setBank_keepsHost
                | with_reducible apply setUpd_keepsHost | split

theorem updActivateBody_keepsHost (r : Req) (s : State) (t : State) (x : Reply)
    (e : updActivateBody r s = .ok (t, x)) (h : HostOk m p s.view) : HostOk m p t.view := by
  revert e
  unfold updActivateBody
  repeat' first | with_reducible refine pureOk ?_ | (with_reducible refine bindAny ?_; intro _ _)
                | with_reducible assumption | with_reducible apply raise_keepsHost
                | with_reducible apply writeAct_keepsHost | with_reducible apply setUpd_keepsHost
                | with_reducible apply touchUpd_keepsHost | split

theorem descUpdActivate_keepsHost : descUpdActivate.Keeps m p :=
  fun r s t x e h => updActivateBody_keepsHost r s t x e h

theorem execUpdBankLoaded_keepsHost (dt : Nat) (s : State) (t : State)
    (e : execUpdBankLoaded dt s = .next t) (h : HostOk m p s.view) : HostOk m p t.view := by
  revert e
  unfold execUpdBankLoaded
  repeat' first | with_reducible refine nextOk ?_ | with_reducible assumption
                | with_reducible apply begin__keepsHost | with_reducible apply writeAct_keepsHost
                | with_reducible refine ite_keepsHost ?_ ?_

theorem abandonRound_keepsHost (s : State) (h : HostOk m p s.view) :
    HostOk m p (abandonRound s).view := by
  unfold abandonRound
  try dsimp only
  repeat' first | with_reducible assumption | with_reducible apply complete_keepsHost
                | with_reducible refine ite_keepsHost ?_ ?_ | split

theorem enterTrial_keepsHost (tick : Nat) (h1 : List Byte) (s : State) (h : HostOk m p s.view) :
    HostOk m p (enterTrial tick h1 s).view := by
  unfold enterTrial
  repeat' first | with_reducible assumption | with_reducible apply complete_keepsHost
                | with_reducible apply raise_keepsHost | with_reducible apply writeAct_keepsHost
                | with_reducible apply setUpd_keepsHost | split

theorem endRevert_keepsHost (h1 : List Byte) (s : State) (h : HostOk m p s.view) :
    HostOk m p (endRevert h1 s).view := by
  unfold endRevert
  repeat' first | with_reducible assumption | with_reducible apply raise_keepsHost
                | with_reducible apply setUpd_keepsHost

theorem doff_keepsHost (act : Bool) (s : State) (h : HostOk m p s.view) :
    HostOk m p (doff act s).view := by
  unfold doff
  repeat' first | with_reducible assumption | with_reducible apply measureTakeover_keepsHost
                | with_reducible apply abandonRound_keepsHost | with_reducible apply enterTrial_keepsHost
                | with_reducible apply endRevert_keepsHost | with_reducible refine ite_keepsHost ?_ ?_

theorem doffFailed_keepsHost (act : Bool) (s : State) (h : HostOk m p s.view) :
    HostOk m p (doffFailed act s).view := by
  unfold doffFailed
  dsimp only
  repeat' first | with_reducible assumption | with_reducible apply complete_keepsHost
                | with_reducible apply raise_keepsHost | with_reducible apply writeAct_keepsHost
                | with_reducible apply setUpd_keepsHost | split

theorem execDoff_keepsHost (exported : Bool) (s : State) (t : State)
    (e : execDoff exported s = .next t) (h : HostOk m p s.view) : HostOk m p t.view := by
  revert e
  unfold execDoff
  repeat' first | with_reducible refine nextOk ?_ | with_reducible assumption
                | with_reducible apply begin__keepsHost | with_reducible apply beginAt_keepsHost
                | with_reducible apply doff_keepsHost | with_reducible apply doffFailed_keepsHost
                | with_reducible refine ite_keepsHost ?_ ?_

theorem updConfirmBody_keepsHost (r : Req) (s : State) (t : State) (x : Reply)
    (e : updConfirmBody r s = .ok (t, x)) (h : HostOk m p s.view) : HostOk m p t.view := by
  revert e
  unfold updConfirmBody
  repeat' first | with_reducible refine pureOk ?_ | (with_reducible refine bindAny ?_; intro _ _)
                | with_reducible assumption | with_reducible apply raise_keepsHost
                | with_reducible apply writeAct_keepsHost | with_reducible apply setUpd_keepsHost

theorem descUpdConfirm_keepsHost : descUpdConfirm.Keeps m p :=
  fun r s t x e h => updConfirmBody_keepsHost r s t x e h

theorem updAbortBody_keepsHost (r : Req) (s : State) (t : State) (x : Reply)
    (e : updAbortBody r s = .ok (t, x)) (h : HostOk m p s.view) : HostOk m p t.view := by
  revert e
  unfold updAbortBody
  repeat' first | exact failAny | with_reducible refine pureOk ?_ | (with_reducible refine bindAny ?_; intro _ _)
                | with_reducible assumption | with_reducible apply touchUpd_keepsHost
                | with_reducible apply abortUpd_keepsHost | with_reducible apply startRevert_keepsHost | split

theorem descUpdAbort_keepsHost : descUpdAbort.Keeps m p :=
  fun r s t x e h => updAbortBody_keepsHost r s t x e h

theorem updGetBody_keepsHost (r : Req) (s : State) (t : State) (x : Reply)
    (e : updGetBody r s = .ok (t, x)) (h : HostOk m p s.view) : HostOk m p t.view := by
  revert e
  unfold updGetBody
  repeat' first | with_reducible refine retOk ?_ | with_reducible assumption
                | with_reducible apply touchUpd_keepsHost | with_reducible refine ite_keepsHost ?_ ?_

theorem descUpdGet_keepsHost : descUpdGet.Keeps m p :=
  fun r s t x e h => updGetBody_keepsHost r s t x e h

theorem execUpdIdleTimeout_keepsHost (s : State) (t : State)
    (e : execUpdIdleTimeout s = .next t) (h : HostOk m p s.view) : HostOk m p t.view := by
  revert e
  unfold execUpdIdleTimeout
  repeat' first | with_reducible refine nextOk ?_ | with_reducible assumption
                | with_reducible apply begin__keepsHost | with_reducible apply beginUp_keepsHost
                | with_reducible apply abortUpd_keepsHost | with_reducible refine ite_keepsHost ?_ ?_

theorem execConfirmWindowExpire_keepsHost (s : State) (t : State)
    (e : execConfirmWindowExpire s = .next t) (h : HostOk m p s.view) : HostOk m p t.view := by
  revert e
  unfold execConfirmWindowExpire
  repeat' first | with_reducible refine nextOk ?_ | with_reducible assumption
                | with_reducible apply begin__keepsHost | with_reducible apply beginUp_keepsHost
                | with_reducible apply startRevert_keepsHost | with_reducible refine ite_keepsHost ?_ ?_

theorem attestBody_keepsHost (r : Req) (s : State) (t : State) (x : Reply)
    (e : attestBody r s = .ok (t, x)) (h : HostOk m p s.view) : HostOk m p t.view := by
  revert e
  unfold attestBody
  repeat' first | with_reducible refine bindNeed ?_ | with_reducible refine pureOk ?_ | with_reducible assumption
                | split

theorem descSecAttest_keepsHost : descSecAttest.Keeps m p :=
  formLen_keeps (fun r s t x e h => attestBody_keepsHost r s t x e h)

end Sys2Proof.Machine
end

