-- ==== Sys2Proof/Laws/HostNet.lean ====
section
/-! SUPPORT. The operations and meanings of the switch keep the registers of the host side as their tables
say, the member and the commands that wait (R64, R69, R71). -/
set_option autoImplicit false

namespace Sys2Proof.Machine

variable {m : Member} {p : List Instr}

theorem setPort_keepsHost (p1 : Nat) (x1 : Port) (s : State) (h : HostOk m p s.view) :
    HostOk m p (setPort p1 x1 s).view := by
  unfold setPort
  repeat' first | with_reducible assumption

theorem modPort_keepsHost (p1 : Nat) (f : Port → Port) (s : State) (h : HostOk m p s.view) :
    HostOk m p (modPort p1 f s).view := by
  unfold modPort
  repeat' first | with_reducible assumption | with_reducible apply setPort_keepsHost

theorem modStat_keepsHost (p1 : Nat) (f : PortStats → PortStats) (s : State) (h : HostOk m p s.view) :
    HostOk m p (modStat p1 f s).view := by
  unfold modStat
  repeat' first | with_reducible assumption | with_reducible apply modPort_keepsHost

theorem enqueueFrame_keepsHost (p1 : Nat) (internal : Bool) (f0 : QFrame) (s : State) (h : HostOk m p s.view) :
    HostOk m p (enqueueFrame p1 internal f0 s).view := by
  unfold enqueueFrame
  try dsimp only
  repeat' first | with_reducible assumption | with_reducible apply modStat_keepsHost
                | with_reducible apply setPort_keepsHost | with_reducible refine ite_keepsHost ?_ ?_ | split

theorem enqueue_keepsHost (p1 prio len : Nat) (internal : Bool) (own : Option TxFrame) (s : State) (h : HostOk m p s.view) :
    HostOk m p (enqueue p1 prio len internal own s).view := by
  unfold enqueue
  try dsimp only
  repeat' first | with_reducible assumption | with_reducible apply enqueueFrame_keepsHost
                | with_reducible refine ite_keepsHost ?_ ?_ | split

theorem countCorrected_keepsHost (port : Nat) (s : State) (h : HostOk m p s.view) :
    HostOk m p (countCorrected port s).view := by
  unfold countCorrected
  repeat' first | with_reducible assumption | with_reducible apply setPtpPort_keepsHost

theorem correctPtp_keepsHost (port egress : Nat) (t : TcMark) (s : State) (h : HostOk m p s.view) :
    HostOk m p (correctPtp port egress t s).2.view := by
  unfold correctPtp
  dsimp only
  split
  · exact h
  · split
    · split
      · exact setPort_keepsHost _ _ _ (setPtpPort_keepsHost _ _ _ h)
      · exact countCorrected_keepsHost _ _ (setPtpPort_keepsHost _ _ _ h)
    · split
      · exact countCorrected_keepsHost _ _ (setPort_keepsHost _ _ _ h)
      · exact h

theorem passPtp_keepsHost (port : Nat) (f : QFrame) (s : State) (h : HostOk m p s.view) :
    HostOk m p (passPtp port f s).view := by
  unfold passPtp
  split
  · exact h
  · exact emit_keepsHost _ _ (correctPtp_keepsHost _ _ _ _ h)

theorem passHead_keepsHost (port : Nat) (f : QFrame) (s : State) (h : HostOk m p s.view) :
    HostOk m p (passHead port f s).view := by
  unfold passHead
  try dsimp only
  repeat' first | with_reducible assumption | with_reducible apply emit_keepsHost
                | with_reducible refine ite_keepsHost ?_ ?_ | split

theorem execEgressFrameSent_keepsHost (port dt : Nat) (s : State) (t : State)
    (e : execEgressFrameSent port dt s = .next t) (h : HostOk m p s.view) : HostOk m p t.view := by
  revert e
  unfold execEgressFrameSent
  try dsimp only
  repeat' first | exact faultAny | with_reducible refine nextOk ?_ | with_reducible assumption
                | with_reducible apply begin__keepsHost | with_reducible apply passPtp_keepsHost
                | with_reducible apply passHead_keepsHost | with_reducible apply emit_keepsHost
                | with_reducible apply modStat_keepsHost | with_reducible apply setPort_keepsHost
                | with_reducible refine ite_keepsHost ?_ ?_ | split

theorem linkChange_keepsHost (p1 : Nat) (up : Bool) (speed : Nat) (s : State) (h : HostOk m p s.view) :
    HostOk m p (linkChange p1 up speed s).view := by
  unfold linkChange
  repeat' first | with_reducible assumption | with_reducible apply raise_keepsHost
                | with_reducible apply setPort_keepsHost | with_reducible refine ite_keepsHost ?_ ?_

theorem execLinkPoll_keepsHost (links : List (Nat × Option Nat)) (dt : Nat) (s : State) (t : State)
    (e : execLinkPoll links dt s = .next t) (h : HostOk m p s.view) : HostOk m p t.view := by
  revert e
  unfold execLinkPoll
  repeat' first | with_reducible refine nextOk ?_ | with_reducible assumption
                | with_reducible apply begin__keepsHost | with_reducible apply linkChange_keepsHost
                | with_reducible refine foldl_keepsHost _ _ _ (fun _ _ _ => ?_) ?_
                | with_reducible refine ite_keepsHost ?_ ?_

theorem execPortLinkChange_keepsHost (port : Nat) (up : Bool) (speed dt : Nat) (s : State) (t : State)
    (e : execPortLinkChange port up speed dt s = .next t) (h : HostOk m p s.view) : HostOk m p t.view := by
  revert e
  unfold execPortLinkChange
  repeat' first | exact faultAny | with_reducible refine nextOk ?_ | with_reducible assumption
                | with_reducible apply begin__keepsHost | with_reducible apply linkChange_keepsHost | split

theorem putFdb_keepsHost (e1 : FdbEntry) (s : State) (h : HostOk m p s.view) :
    HostOk m p (putFdb e1 s).view := by
  unfold putFdb
  repeat' first | with_reducible assumption

theorem learn_keepsHost (p1 mac vid : Nat) (s : State) (h : HostOk m p s.view) :
    HostOk m p (learn p1 mac vid s).view := by
  unfold learn
  dsimp only
  repeat' first | with_reducible assumption | with_reducible apply raise_keepsHost
                | with_reducible apply putFdb_keepsHost | split

theorem execAgeScan_keepsHost (dt : Nat) (s : State) (t : State)
    (e : execAgeScan dt s = .next t) (h : HostOk m p s.view) : HostOk m p t.view := by
  revert e
  unfold execAgeScan
  repeat' first | with_reducible refine nextOk ?_ | with_reducible assumption
                | with_reducible apply begin__keepsHost | with_reducible refine ite_keepsHost ?_ ?_

theorem replyOn_keepsHost (k port kind len : Nat) (ws : List Nat) (s : State) (h : HostOk m p s.view) :
    HostOk m p (replyOn k port kind len ws s).view := by
  unfold replyOn
  repeat' first | with_reducible assumption | with_reducible apply emit_keepsHost
                | with_reducible apply enqueue_keepsHost | with_reducible refine ite_keepsHost ?_ ?_

theorem mapSome_keepsHost {α : Type} {o : Option α} {g : α → State} {t : State} (e : o.map g = some t)
    (hg : ∀ a, HostOk m p (g a).view) : HostOk m p t.view := by
  cases o with
  | none => cases e
  | some a => cases e; exact hg a

theorem someIf {c : Prop} [Decidable c] {s t : State} (e : (if c then some s else none) = some t) : s = t := by
  by_cases hc : c
  · rw [if_pos hc] at e; exact Option.some.inj e
  · rw [if_neg hc] at e; cases e

theorem deliverOwn_keepsHost_pair {f : EthFrame} {vid : Nat} {s t : State} (e : deliverOwn f vid s = some t) (h : HostOk m p s.view) :
    HostOk m p t.view := by
  unfold deliverOwn at e
  split at e
  · exact mapSome_keepsHost e (fun _ => replyOn_keepsHost _ _ _ _ _ _ h)
  · exact mapSome_keepsHost e (fun _ => replyOn_keepsHost _ _ _ _ _ _ h)
  · exact mapSome_keepsHost e (fun _ => replyOn_keepsHost _ _ _ _ _ _ h)
  · split at e
    · dsimp only at e
      split at e <;> cases e
      exact h
    · cases e
  · exact someIf e ▸ h
  · cases e; exact h
  · cases e

theorem dropFiltered_keepsHost (p1 : Nat) (s : State) (h : HostOk m p s.view) :
    HostOk m p (dropFiltered p1 s).view := by
  unfold dropFiltered
  repeat' first | with_reducible assumption | with_reducible apply modStat_keepsHost

theorem sendOut_keepsHost (f : EthFrame) (p1 vid prio base : Nat) (s : State) (h : HostOk m p s.view) :
    HostOk m p (sendOut f p1 vid prio base s).view := by
  unfold sendOut
  try dsimp only
  repeat' first | with_reducible assumption | with_reducible apply dropFiltered_keepsHost
                | with_reducible apply enqueueFrame_keepsHost | with_reducible refine ite_keepsHost ?_ ?_ | split

theorem flood_keepsHost (f : EthFrame) (vid prio base : Nat) (v : Vlan) (s : State) (h : HostOk m p s.view) :
    HostOk m p (flood f vid prio base v s).view := by
  unfold flood
  repeat' first | with_reducible assumption | with_reducible apply setPort_keepsHost
                | with_reducible apply modStat_keepsHost | with_reducible apply sendOut_keepsHost
                | with_reducible refine foldl_keepsHost _ _ _ (fun _ _ _ => ?_) ?_
                | with_reducible refine ite_keepsHost ?_ ?_

theorem forward_keepsHost (f : EthFrame) (vid prio base : Nat) (v : Vlan) (s : State) (h : HostOk m p s.view) :
    HostOk m p (forward f vid prio base v s).view := by
  unfold forward
  try dsimp only
  repeat' first | with_reducible assumption | with_reducible apply sendOut_keepsHost
                | with_reducible apply dropFiltered_keepsHost | with_reducible apply flood_keepsHost
                | with_reducible refine foldl_keepsHost _ _ _ (fun _ _ _ => ?_) ?_
                | with_reducible refine ite_keepsHost ?_ ?_ | split

theorem routeFrame_keepsHost (f : EthFrame) (h1 : IpHdr) (prio base : Nat) (s : State) (h : HostOk m p s.view) :
    HostOk m p (routeFrame f h1 prio base s).view := by
  unfold routeFrame
  try dsimp only
  repeat' first | with_reducible assumption | with_reducible apply sendOut_keepsHost
                | with_reducible apply dropFiltered_keepsHost | with_reducible refine ite_keepsHost ?_ ?_ | split

theorem countRx_keepsHost (p1 len : Nat) (s : State) (h : HostOk m p s.view) :
    HostOk m p (countRx p1 len s).view := by
  unfold countRx
  repeat' first | with_reducible assumption | with_reducible apply modStat_keepsHost

theorem passOn_keepsHost (f : EthFrame) (vid : Nat) (s : State) (h : HostOk m p s.view) :
    HostOk m p (passOn f vid s).view := by
  unfold passOn
  try dsimp only
  repeat' first | with_reducible assumption | with_reducible apply dropFiltered_keepsHost
                | with_reducible apply routeFrame_keepsHost | with_reducible apply forward_keepsHost
                | with_reducible refine ite_keepsHost ?_ ?_ | split

theorem rxFrame_keepsHost (f : EthFrame) (s : State) (h : HostOk m p s.view) :
    HostOk m p (rxFrame f s).view := by
  unfold rxFrame
  dsimp only
  repeat' first | with_reducible assumption | with_reducible apply modStat_keepsHost
                | with_reducible apply learn_keepsHost
                | with_reducible refine deliverOwn_keepsHost_pair (by assumption) ?_
                | with_reducible apply dropFiltered_keepsHost | with_reducible apply countRx_keepsHost
                | with_reducible apply passOn_keepsHost | split

theorem execEthFrameRx_keepsHost (f : EthFrame) (dt : Nat) (s : State) (t : State)
    (e : execEthFrameRx f dt s = .next t) (h : HostOk m p s.view) : HostOk m p t.view := by
  revert e
  unfold execEthFrameRx
  repeat' first | exact faultAny | with_reducible refine nextOk ?_ | with_reducible assumption
                | with_reducible apply begin__keepsHost | with_reducible apply rxFrame_keepsHost | split

theorem writePort_keepsHost (p1 : Nat) (c : PortCfg) (s : State) (h : HostOk m p s.view) :
    HostOk m p (writePort p1 c s).view := by
  unfold writePort
  repeat' first | with_reducible assumption | with_reducible apply modPort_keepsHost
                | with_reducible apply linkChange_keepsHost | with_reducible refine ite_keepsHost ?_ ?_

theorem portSection_keepsHost (p1 : Nat) (read : Bool) (r : Req) (s : State) (t : State) (x : Reply)
    (e : portSection p1 read r s = .ok (t, x)) (h : HostOk m p s.view) : HostOk m p t.view := by
  revert e
  unfold portSection
  repeat' first | with_reducible refine bindNeed ?_ | with_reducible refine pureOk ?_ | with_reducible assumption
                | with_reducible apply writePort_keepsHost | split

theorem ifaceSection_keepsHost (p1 k : Nat) (read : Bool) (r : Req) (s : State) (t : State) (x : Reply)
    (e : ifaceSection p1 k read r s = .ok (t, x)) (h : HostOk m p s.view) : HostOk m p t.view := by
  revert e
  unfold ifaceSection
  repeat' first | with_reducible refine bindNeed ?_ | with_reducible refine pureOk ?_ | with_reducible assumption
                | split

theorem statSection_keepsHost (p1 : Nat) (clear : Bool) (s : State) (t : State) (x : Reply)
    (e : statSection p1 clear s = .ok (t, x)) (h : HostOk m p s.view) : HostOk m p t.view := by
  revert e
  unfold statSection
  repeat' first | with_reducible refine bindNeed ?_ | with_reducible refine pureOk ?_ | with_reducible assumption
                | with_reducible apply modPort_keepsHost | with_reducible refine ite_keepsHost ?_ ?_

theorem netPortCfgBody_keepsHost (r : Req) (s : State) (t : State) (x : Reply)
    (e : netPortCfgBody r s = .ok (t, x)) (h : HostOk m p s.view) : HostOk m p t.view := by
  revert e
  unfold netPortCfgBody
  repeat' first | exact failAny | with_reducible refine bindNeed ?_
                | with_reducible refine portSection_keepsHost _ _ _ _ _ _ (by assumption) ?_
                | with_reducible refine ifaceSection_keepsHost _ _ _ _ _ _ _ (by assumption) ?_
                | with_reducible refine statSection_keepsHost _ _ _ _ _ (by assumption) ?_
                | with_reducible assumption | split | with_reducible intro _

theorem descNetPortCfg_keepsHost : descNetPortCfg.Keeps m p :=
  formLen_keeps (fun r s t x e h => netPortCfgBody_keepsHost r s t x e h)

theorem netVlanBody_keepsHost (r : Req) (s : State) (t : State) (x : Reply)
    (e : netVlanBody r s = .ok (t, x)) (h : HostOk m p s.view) : HostOk m p t.view := by
  revert e
  unfold netVlanBody
  repeat' first | with_reducible refine bindNeed ?_ | with_reducible refine pureOk ?_ | with_reducible assumption
                | split

theorem descNetVlan_keepsHost : descNetVlan.Keeps m p :=
  formLen_keeps (fun r s t x e h => netVlanBody_keepsHost r s t x e h)

theorem setFdb_keepsHost (l : List FdbEntry) (s : State) (h : HostOk m p s.view) :
    HostOk m p (setFdb l s).view := by
  unfold setFdb
  repeat' first | with_reducible assumption

theorem netFdbAddBody_keepsHost (r : Req) (s : State) (t : State) (x : Reply)
    (e : netFdbAddBody r s = .ok (t, x)) (h : HostOk m p s.view) : HostOk m p t.view := by
  revert e
  unfold netFdbAddBody
  repeat' first | exact failAny | with_reducible refine bindNeed ?_ | with_reducible refine pureOk ?_
                | with_reducible assumption | with_reducible apply putFdb_keepsHost
                | with_reducible apply setFdb_keepsHost | split

theorem descNetFdbAdd_keepsHost : descNetFdbAdd.Keeps m p :=
  fun r s t x e h => netFdbAddBody_keepsHost r s t x e h

theorem netFdbGetBody_keepsHost (r : Req) (s : State) (t : State) (x : Reply)
    (e : netFdbGetBody r s = .ok (t, x)) (h : HostOk m p s.view) : HostOk m p t.view := by
  revert e
  unfold netFdbGetBody
  repeat' first | with_reducible refine bindNeed ?_ | with_reducible refine pureOk ?_ | with_reducible assumption
                | split

theorem descNetFdbGet_keepsHost : descNetFdbGet.Keeps m p :=
  fun r s t x e h => netFdbGetBody_keepsHost r s t x e h

theorem netRouteAddBody_keepsHost (r : Req) (s : State) (t : State) (x : Reply)
    (e : netRouteAddBody r s = .ok (t, x)) (h : HostOk m p s.view) : HostOk m p t.view := by
  revert e
  unfold netRouteAddBody
  dsimp only
  repeat' first | with_reducible refine bindNeed ?_ | with_reducible refine pureOk ?_ | with_reducible assumption
                | split

theorem descNetRouteAdd_keepsHost : descNetRouteAdd.Keeps m p :=
  formLen_keeps (fun r s t x e h => netRouteAddBody_keepsHost r s t x e h)

theorem netRouteDelBody_keepsHost (r : Req) (s : State) (t : State) (x : Reply)
    (e : netRouteDelBody r s = .ok (t, x)) (h : HostOk m p s.view) : HostOk m p t.view := by
  revert e
  unfold netRouteDelBody
  repeat' first | with_reducible refine bindNeed ?_ | with_reducible refine pureOk ?_ | with_reducible assumption

theorem descNetRouteDel_keepsHost : descNetRouteDel.Keeps m p :=
  formLen_keeps (fun r s t x e h => netRouteDelBody_keepsHost r s t x e h)

theorem netAgeCfgBody_keepsHost (r : Req) (s : State) (t : State) (x : Reply)
    (e : netAgeCfgBody r s = .ok (t, x)) (h : HostOk m p s.view) : HostOk m p t.view := by
  revert e
  unfold netAgeCfgBody
  repeat' first | with_reducible refine bindNeed ?_ | with_reducible refine pureOk ?_ | with_reducible assumption
                | with_reducible refine ite_keepsHost ?_ ?_

theorem descNetAgeCfg_keepsHost : descNetAgeCfg.Keeps m p :=
  formLen_keeps (fun r s t x e h => netAgeCfgBody_keepsHost r s t x e h)

theorem netQosCfgBody_keepsHost (r : Req) (s : State) (t : State) (x : Reply)
    (e : netQosCfgBody r s = .ok (t, x)) (h : HostOk m p s.view) : HostOk m p t.view := by
  revert e
  unfold netQosCfgBody
  repeat' first | with_reducible refine bindNeed ?_ | with_reducible refine pureOk ?_ | with_reducible assumption
                | with_reducible apply modPort_keepsHost | split

theorem descNetQosCfg_keepsHost : descNetQosCfg.Keeps m p :=
  formLen_keeps (fun r s t x e h => netQosCfgBody_keepsHost r s t x e h)

end Sys2Proof.Machine
end

