-- ==== Sys2Proof/Laws/HostTrack.lean ====
section
/-! SUPPORT. The operations and meanings of the track store keep the registers of the host side as their tables
say, the member and the commands that wait (R64, R69, R71). -/
set_option autoImplicit false

namespace Sys2Proof.Machine

variable {m : Member} {p : List Instr}

theorem setTr_keepsHost (r : Nat) (x1 : TrackRobot) (s : State) (h : HostOk m p s.view) :
    HostOk m p (setTr r x1 s).view := by
  unfold setTr
  repeat' first | with_reducible assumption

theorem modTr_keepsHost (r : Nat) (f : TrackRobot → TrackRobot) (s : State) (h : HostOk m p s.view) :
    HostOk m p (modTr r f s).view := by
  unfold modTr
  repeat' first | with_reducible assumption | with_reducible apply setTr_keepsHost

theorem routeEvent_keepsHost (r cause : Nat) (s : State) (h : HostOk m p s.view) :
    HostOk m p (routeEvent r cause s).view := by
  unfold routeEvent
  repeat' first | with_reducible assumption | with_reducible apply raise_keepsHost

theorem clearRoute_keepsHost (r cause : Nat) (s : State) (h : HostOk m p s.view) :
    HostOk m p (clearRoute r cause s).view := by
  unfold clearRoute
  repeat' first | with_reducible assumption | with_reducible apply setTr_keepsHost
                | with_reducible apply routeEvent_keepsHost | with_reducible refine ite_keepsHost ?_ ?_

theorem applyRoute_keepsHost (r : Nat) (x1 : Route) (cause : Nat) (old : Option (Route × Int × Nat)) (delta : Int) (s : State) (h : HostOk m p s.view) :
    HostOk m p (applyRoute r x1 cause old delta s).view := by
  unfold applyRoute
  dsimp only
  repeat' first | with_reducible assumption | with_reducible apply setTr_keepsHost
                | with_reducible apply routeEvent_keepsHost | with_reducible refine ite_keepsHost ?_ ?_

theorem noteBlocked_keepsHost (n : Nat) (s : State) (h : HostOk m p s.view) :
    HostOk m p (noteBlocked n s).view := by
  unfold noteBlocked
  try dsimp only
  repeat' first | with_reducible assumption | with_reducible apply raise_keepsHost
                | with_reducible refine ite_keepsHost ?_ ?_ | split

theorem refreshBlocked_keepsHost (s : State) (h : HostOk m p s.view) :
    HostOk m p (refreshBlocked s).view := by
  unfold refreshBlocked
  try dsimp only
  repeat' first | with_reducible assumption | with_reducible apply noteBlocked_keepsHost
                | with_reducible apply commit_keepsHost | with_reducible refine ite_keepsHost ?_ ?_ | split

theorem failCommit_keepsHost (st : Status) (detail : Nat) (ws : List Word) (s : State) (h : HostOk m p s.view) :
    HostOk m p (failCommit st detail ws s).view := by
  unfold failCommit
  repeat' first | with_reducible assumption | with_reducible apply complete_keepsHost | split

theorem execCommitComputeDone_keepsHost (dt : Nat) (s : State) (t : State)
    (e : execCommitComputeDone dt s = .next t) (h : HostOk m p s.view) : HostOk m p t.view := by
  revert e
  unfold execCommitComputeDone
  dsimp only
  repeat' first | with_reducible refine nextOk ?_ | with_reducible assumption
                | with_reducible apply begin__keepsHost | with_reducible apply failCommit_keepsHost | split

theorem swapGraph_keepsHost (s : State) (h : HostOk m p s.view) :
    HostOk m p (swapGraph s).1.view := by
  unfold swapGraph
  dsimp only
  repeat' first | with_reducible assumption | with_reducible apply complete_keepsHost
                | with_reducible apply clearRoute_keepsHost | with_reducible apply refreshBlocked_keepsHost
                | with_reducible apply failCommit_keepsHost
                | with_reducible refine foldl_keepsHost _ _ _ (fun _ _ _ => ?_) ?_ | split

theorem swapGraph_keepsHost_pair {s : State} {t : State} {x1 : List Nat}
    (e : swapGraph s = (t, x1)) (h : HostOk m p s.view) : HostOk m p t.view := by
  have := swapGraph_keepsHost s h
  rwa [e] at this

theorem applyOrigin_keepsHost (o : Option Origin) (s : State) (h : HostOk m p s.view) :
    HostOk m p (applyOrigin o s).view := by
  unfold applyOrigin
  try dsimp only
  repeat' first | with_reducible assumption | with_reducible apply clearRoute_keepsHost
                | with_reducible apply commit_keepsHost | with_reducible apply moveOrigin_keepsHost
                | with_reducible apply refreshBlocked_keepsHost | with_reducible apply snapshot_keepsHost
                | with_reducible refine foldl_keepsHost _ _ _ (fun _ _ _ => ?_) ?_
                | with_reducible refine ite_keepsHost ?_ ?_ | split

theorem progressRobot_keepsHost (r : Nat) (s : State) (h : HostOk m p s.view) :
    HostOk m p (progressRobot r s).view := by
  unfold progressRobot
  dsimp only
  repeat' first | with_reducible assumption | with_reducible apply setTr_keepsHost
                | with_reducible apply routeEvent_keepsHost | split

theorem releasePhase_keepsHost (s : State) (h : HostOk m p s.view) :
    HostOk m p (releasePhase s).view := by
  unfold releasePhase
  repeat' first | with_reducible assumption | with_reducible refine ite_keepsHost ?_ ?_

theorem requestWindows_keepsHost (t1 r n : Nat) (sh : Int) (f : Bool) (s : State) (h : HostOk m p s.view) :
    HostOk m p (requestWindows t1 r n sh f s).1.view := by
  induction n generalizing sh f s with
  | zero => exact h
  | succ n ih =>
    unfold requestWindows
    dsimp only
    repeat' split
    all_goals first
      | exact h
      | exact ih _ _ _ (setTr_keepsHost _ _ _ h)

theorem requestWindows_keepsHost_pair {t1 r n : Nat} {sh : Int} {f : Bool} {s t : State} {o : Option (Bool × List Nat)}
    (e : requestWindows t1 r n sh f s = (t, o)) (h : HostOk m p s.view) : HostOk m p t.view := by
  have := requestWindows_keepsHost t1 r n sh f s h
  rwa [e] at this

theorem foldlPair_keepsHost {α β : Type} (l : List α) (g : State × β → α → State × β) (a : State × β)
    (hg : ∀ a x, HostOk m p a.1.view → HostOk m p (g a x).1.view) (h : HostOk m p a.1.view) :
    HostOk m p (l.foldl g a).1.view := by
  induction l generalizing a with
  | nil => exact h
  | cons x r ih => exact ih _ (hg _ _ h)

theorem grantPhase_keepsHost (t1 : Nat) (s : State) (h : HostOk m p s.view) : HostOk m p (grantPhase t1 s).1.view := by
  unfold grantPhase
  dsimp only
  refine foldlPair_keepsHost _ _ _ (fun a k ha => ?_) h
  exact modTr_keepsHost _ _ _ (requestWindows_keepsHost _ _ _ _ _ _ ha)

theorem grantPhase_keepsHost_pair {t1 : Nat} {s t : State} {l : List (Nat × Bool × List Nat)} (e : grantPhase t1 s = (t, l))
    (h : HostOk m p s.view) : HostOk m p t.view := by
  have := grantPhase_keepsHost t1 s h
  rwa [e] at this

theorem limitPhase_keepsHost (s : State) (h : HostOk m p s.view) :
    HostOk m p (limitPhase s).view := by
  unfold limitPhase
  repeat' first | with_reducible assumption

theorem deadlockEvent_keepsHost (v stage : Nat) (g : List Nat) (s : State) (h : HostOk m p s.view) :
    HostOk m p (deadlockEvent v stage g s).view := by
  unfold deadlockEvent
  repeat' first | with_reducible assumption | with_reducible apply raise_keepsHost

theorem actDeadlock_keepsHost (prev : List Deadlock) (s : State) (g : List Nat) (h : HostOk m p s.view) :
    HostOk m p (actDeadlock prev s g).view := by
  unfold actDeadlock
  repeat' first | with_reducible assumption | with_reducible apply setTr_keepsHost
                | with_reducible apply modTr_keepsHost | with_reducible apply routeEvent_keepsHost
                | with_reducible apply deadlockEvent_keepsHost | with_reducible refine ite_keepsHost ?_ ?_

theorem deadlockPhase_keepsHost (fails : List (Nat × Bool × List Nat)) (s : State) (h : HostOk m p s.view) :
    HostOk m p (deadlockPhase fails s).view := by
  unfold deadlockPhase
  repeat' first | with_reducible assumption | with_reducible apply actDeadlock_keepsHost
                | with_reducible refine foldl_keepsHost _ _ _ (fun _ _ _ => ?_) ?_

theorem reservePhase_keepsHost (t1 : Nat) (s : State) (h : HostOk m p s.view) :
    HostOk m p (reservePhase t1 s).view := by
  unfold reservePhase
  repeat' first | with_reducible assumption | with_reducible apply releasePhase_keepsHost
                | with_reducible apply grantPhase_keepsHost | with_reducible apply limitPhase_keepsHost
                | with_reducible apply deadlockPhase_keepsHost | split

theorem addTrackAct_keepsHost (a : TrackAct) (s : State) (h : HostOk m p s.view) :
    HostOk m p (addTrackAct a s).view := by
  unfold addTrackAct
  repeat' first | with_reducible assumption

theorem trackOriginBody_keepsHost (r : Req) (s : State) (t : State) (x : Reply)
    (e : trackOriginBody r s = .ok (t, x)) (h : HostOk m p s.view) : HostOk m p t.view := by
  revert e
  unfold trackOriginBody
  repeat' first | with_reducible refine bindNeed ?_ | with_reducible refine pureOk ?_ | with_reducible assumption
                | with_reducible apply addTrackAct_keepsHost | split

theorem descTrackOrigin_keepsHost : descTrackOrigin.Keeps m p :=
  formLen_keeps (fun r s t x e h => trackOriginBody_keepsHost r s t x e h)

theorem loadBody_keepsHost (count : Nat) (p0Bits : Nat) (bitsOk ok : Word × Word × Word × Word → Bool) (put : Req → Graph → Nat → Graph) (r : Req) (s : State) (t : State) (x : Reply)
    (e : loadBody count p0Bits bitsOk ok put r s = .ok (t, x)) (h : HostOk m p s.view) : HostOk m p t.view := by
  revert e
  unfold loadBody commitLock
  repeat' first | exact failAny | with_reducible refine pureOk ?_ | (with_reducible refine bindAny ?_; intro _ _)
                | with_reducible assumption | split

theorem trackLoadNodesBody_keepsHost (r : Req) (s : State) (t : State) (x : Reply)
    (e : trackLoadNodesBody r s = .ok (t, x)) (h : HostOk m p s.view) : HostOk m p t.view := by
  revert e
  unfold trackLoadNodesBody
  repeat' first | with_reducible refine loadBody_keepsHost _ _ _ _ _ _ _ _ _ (by assumption) ?_
                | with_reducible assumption | with_reducible intro _

theorem descTrackLoadNodes_keepsHost : descTrackLoadNodes.Keeps m p := by
  unfold descTrackLoadNodes loadDesc
  exact formLen_keeps (fun r s t x e h => trackLoadNodesBody_keepsHost r s t x e h)

theorem trackLoadSliversBody_keepsHost (r : Req) (s : State) (t : State) (x : Reply)
    (e : trackLoadSliversBody r s = .ok (t, x)) (h : HostOk m p s.view) : HostOk m p t.view := by
  revert e
  unfold trackLoadSliversBody
  repeat' first | with_reducible refine loadBody_keepsHost _ _ _ _ _ _ _ _ _ (by assumption) ?_
                | with_reducible assumption | with_reducible intro _

theorem descTrackLoadSlivers_keepsHost : descTrackLoadSlivers.Keeps m p := by
  unfold descTrackLoadSlivers loadDesc
  exact formLen_keeps (fun r s t x e h => trackLoadSliversBody_keepsHost r s t x e h)

theorem trackCommitBody_keepsHost (r : Req) (s : State) (t : State) (x : Reply)
    (e : trackCommitBody r s = .ok (t, x)) (h : HostOk m p s.view) : HostOk m p t.view := by
  revert e
  unfold trackCommitBody commitLock
  repeat' first | with_reducible refine pureOk ?_ | (with_reducible refine bindAny ?_; intro _ _)
                | with_reducible assumption

theorem descTrackCommit_keepsHost : descTrackCommit.Keeps m p :=
  fun r s t x e h => trackCommitBody_keepsHost r s t x e h

theorem deckleLoadBody_keepsHost (r : Req) (s : State) (t : State) (x : Reply)
    (e : deckleLoadBody r s = .ok (t, x)) (h : HostOk m p s.view) : HostOk m p t.view := by
  revert e
  unfold deckleLoadBody
  dsimp only
  repeat' first | exact failAny | with_reducible refine pureOk ?_ | (with_reducible refine bindAny ?_; intro _ _)
                | with_reducible assumption | with_reducible apply addTrackAct_keepsHost | split

theorem descDeckleLoad_keepsHost : descDeckleLoad.Keeps m p :=
  formLen_keeps (fun r s t x e h => deckleLoadBody_keepsHost r s t x e h)

theorem resvGetBody_keepsHost (r : Req) (s : State) (t : State) (x : Reply)
    (e : resvGetBody r s = .ok (t, x)) (h : HostOk m p s.view) : HostOk m p t.view := by
  revert e
  unfold resvGetBody
  repeat' first | with_reducible refine pureOk ?_ | (with_reducible refine bindAny ?_; intro _ _)
                | with_reducible assumption | split

theorem descResvGet_keepsHost : descResvGet.Keeps m p :=
  fun r s t x e h => resvGetBody_keepsHost r s t x e h

theorem resvReleaseBody_keepsHost (r : Req) (s : State) (t : State) (x : Reply)
    (e : resvReleaseBody r s = .ok (t, x)) (h : HostOk m p s.view) : HostOk m p t.view := by
  revert e
  unfold resvReleaseBody
  repeat' first | with_reducible refine pureOk ?_ | (with_reducible refine bindAny ?_; intro _ _)
                | with_reducible assumption | with_reducible apply addTrackAct_keepsHost

theorem descResvRelease_keepsHost : descResvRelease.Keeps m p :=
  fun r s t x e h => resvReleaseBody_keepsHost r s t x e h

theorem routeSetBody_keepsHost (r : Req) (s : State) (t : State) (x : Reply)
    (e : routeSetBody r s = .ok (t, x)) (h : HostOk m p s.view) : HostOk m p t.view := by
  revert e
  unfold routeSetBody
  repeat' first | exact errorAny | with_reducible refine pureOk ?_ | (with_reducible refine bindAny ?_; intro _ _)
                | with_reducible assumption | with_reducible apply modTr_keepsHost
                | with_reducible apply addTrackAct_keepsHost | split

theorem descRouteSet_keepsHost : descRouteSet.Keeps m p :=
  formLen_keeps (fun r s t x e h => routeSetBody_keepsHost r s t x e h)

end Sys2Proof.Machine
end

