-- ==== Sys2Proof/Laws/HostSpindle.lean ====
section
/-! SUPPORT. The operations and meanings of the spindles keep the registers of the host side as their tables
say, the member and the commands that wait (R64, R69, R71). -/
set_option autoImplicit false

namespace Sys2Proof.Machine

variable {m : Member} {p : List Instr}

theorem spinEvent_keepsHost (r cause : Nat) (s : State) (h : HostOk m p s.view) :
    HostOk m p (spinEvent r cause s).view := by
  unfold spinEvent
  repeat' first | with_reducible assumption | with_reducible apply raise_keepsHost

theorem enterState_keepsHost (r : Nat) (st : SpinState) (cause : Nat) (s : State) (h : HostOk m p s.view) :
    HostOk m p (enterState r st cause s).view := by
  unfold enterState
  repeat' first | with_reducible assumption | with_reducible apply modSpindle_keepsHost
                | with_reducible apply feRest_keepsHost | with_reducible apply spinEvent_keepsHost | split

theorem endHoming_keepsHost (r : Nat) (res : HomeResult) (s : State) (h : HostOk m p s.view) :
    HostOk m p (endHoming r res s).view := by
  unfold endHoming
  repeat' first | with_reducible assumption | with_reducible apply complete_keepsHost
                | with_reducible apply raise_keepsHost | with_reducible apply modSpindle_keepsHost | split

theorem orderStop_keepsHost (r : Nat) (after : SpinState) (cause : Nat) (s : State) (h : HostOk m p s.view) :
    HostOk m p (orderStop r after cause s).view := by
  unfold orderStop
  repeat' first | with_reducible assumption | with_reducible apply modSpindle_keepsHost
                | with_reducible apply enterState_keepsHost | with_reducible refine ite_keepsHost ?_ ?_

theorem controlledStop_keepsHost (r : Nat) (after : SpinState) (cause : Nat) (s : State) (h : HostOk m p s.view) :
    HostOk m p (controlledStop r after cause s).view := by
  unfold controlledStop
  dsimp only
  repeat' first | with_reducible assumption | with_reducible apply endHoming_keepsHost
                | with_reducible apply orderStop_keepsHost | split

theorem immediateStop_keepsHost (r : Nat) (s : State) (h : HostOk m p s.view) :
    HostOk m p (immediateStop r s).view := by
  unfold immediateStop
  repeat' first | with_reducible assumption | with_reducible apply modSpindle_keepsHost
                | with_reducible apply enterState_keepsHost | with_reducible apply endHoming_keepsHost
                | with_reducible refine ite_keepsHost ?_ ?_

theorem localReport_keepsHost (r : Nat) (s : State) (h : HostOk m p s.view) :
    HostOk m p (localReport r s).view := by
  unfold localReport
  repeat' first | with_reducible assumption | with_reducible apply modSpindle_keepsHost
                | with_reducible apply enterState_keepsHost | with_reducible apply endHoming_keepsHost
                | with_reducible refine ite_keepsHost ?_ ?_

theorem openStream_keepsHost (r : Nat) (due : Nat) (transfer : Bool) (s : State) (h : HostOk m p s.view) :
    HostOk m p (openStream r due transfer s).view := by
  unfold openStream
  repeat' first | with_reducible assumption | with_reducible apply modSpindle_keepsHost

theorem openPhase_keepsHost (r : Nat) (ph : HomePhase) (s : State) (h : HostOk m p s.view) :
    HostOk m p (openPhase r ph s).view := by
  unfold openPhase
  repeat' first | with_reducible assumption | with_reducible apply modSpindle_keepsHost
                | with_reducible apply openStream_keepsHost

theorem judgeContact_keepsHost (t1 : Nat) (s : State) (key : Nat) (h : HostOk m p s.view) :
    HostOk m p (judgeContact t1 s key).view := by
  unfold judgeContact
  repeat' first | with_reducible assumption | with_reducible apply laneSend_keepsHost
                | with_reducible refine foldl_keepsHost _ _ _ (fun _ _ _ => ?_) ?_

theorem judgeContacts_keepsHost (t1 : Nat) (s : State) (h : HostOk m p s.view) :
    HostOk m p (judgeContacts t1 s).view := by
  unfold judgeContacts
  repeat' first | with_reducible assumption | with_reducible apply judgeContact_keepsHost
                | with_reducible refine foldl_keepsHost _ _ _ (fun _ _ _ => ?_) ?_

theorem execContactQualified_keepsHost (owner contact : Nat) (samples : List Bool) (dt : Nat) (s : State) (t : State)
    (e : execContactQualified owner contact samples dt s = .next t) (h : HostOk m p s.view) : HostOk m p t.view := by
  revert e
  unfold execContactQualified
  dsimp only
  repeat' first | exact faultAny | with_reducible refine nextOk ?_ | with_reducible assumption
                | with_reducible apply begin__keepsHost | with_reducible apply beginInput_keepsHost | with_reducible apply judgeContact_keepsHost | split

theorem changeRoute_keepsHost (r : Nat) (x1 : Route) (cause : Nat) (s : State) (h : HostOk m p s.view) :
    HostOk m p (changeRoute r x1 cause s).view := by
  unfold changeRoute
  dsimp only
  repeat' first | with_reducible assumption | with_reducible apply modSpindle_keepsHost
                | with_reducible apply applyRoute_keepsHost | with_reducible apply endHoming_keepsHost
                | with_reducible apply orderStop_keepsHost | split

theorem rejoinRoute_keepsHost (r : Nat) (s : State) (h : HostOk m p s.view) :
    HostOk m p (rejoinRoute r s).view := by
  unfold rejoinRoute
  dsimp only
  repeat' first | with_reducible assumption | with_reducible apply modSpindle_keepsHost
                | with_reducible apply setTr_keepsHost | with_reducible apply progressRobot_keepsHost | split

theorem beginHoming_keepsHost (r : Nat) (h1 : Homing) (s : State) (h : HostOk m p s.view) :
    HostOk m p (beginHoming r h1 s).view := by
  unfold beginHoming
  repeat' first | with_reducible assumption | with_reducible apply modSpindle_keepsHost
                | with_reducible apply enterState_keepsHost | with_reducible apply endHoming_keepsHost
                | with_reducible apply orderStop_keepsHost | with_reducible apply openStream_keepsHost | split

theorem applySpinAct_keepsHost (s : State) (a : SpinAct) (h : HostOk m p s.view) :
    HostOk m p (applySpinAct s a).view := by
  unfold applySpinAct
  dsimp only
  repeat' first | with_reducible assumption | with_reducible apply complete_keepsHost
                | with_reducible apply modSpindle_keepsHost | with_reducible apply enterState_keepsHost
                | with_reducible apply endHoming_keepsHost | with_reducible apply orderStop_keepsHost
                | with_reducible apply controlledStop_keepsHost | with_reducible apply openStream_keepsHost
                | with_reducible apply beginHoming_keepsHost | split

theorem applyTrackAct_keepsHost (s : State) (a : TrackAct) (h : HostOk m p s.view) :
    HostOk m p (applyTrackAct s a).view := by
  unfold applyTrackAct
  repeat' first | with_reducible assumption | with_reducible apply modTr_keepsHost
                | with_reducible apply clearRoute_keepsHost | with_reducible apply refreshBlocked_keepsHost
                | with_reducible apply applyOrigin_keepsHost | with_reducible apply changeRoute_keepsHost | split

theorem applyMotionActs_keepsHost (s : State) (h : HostOk m p s.view) :
    HostOk m p (applyMotionActs s).view := by
  unfold applyMotionActs
  repeat' first | with_reducible assumption | with_reducible apply applySpinAct_keepsHost
                | with_reducible apply applyTrackAct_keepsHost
                | with_reducible refine foldl_keepsHost _ _ _ (fun _ _ _ => ?_) ?_

theorem abortHoming_keepsHost (r : Nat) (res : HomeResult) (s : State) (h : HostOk m p s.view) :
    HostOk m p (abortHoming r res s).view := by
  unfold abortHoming
  repeat' first | with_reducible assumption | with_reducible apply endHoming_keepsHost
                | with_reducible apply orderStop_keepsHost

theorem contactFound_keepsHost (t1 r : Nat) (h1 : Homing) (p1 : Post) (edge : Nat) (s : State) (h : HostOk m p s.view) :
    HostOk m p (contactFound t1 r h1 p1 edge s).view := by
  unfold contactFound
  try dsimp only
  repeat' first | with_reducible assumption | with_reducible apply setSpindle_keepsHost
                | with_reducible apply snapshot_keepsHost | with_reducible refine ite_keepsHost ?_ ?_ | split

theorem homingSnap_keepsHost (t1 r : Nat) (s : State) (h : HostOk m p s.view) :
    HostOk m p (homingSnap t1 r s).view := by
  unfold homingSnap
  try dsimp only
  repeat' first | with_reducible assumption | with_reducible apply settle_keepsHost
                | with_reducible apply abortHoming_keepsHost | with_reducible apply setSpindle_keepsHost
                | with_reducible apply contactFound_keepsHost | with_reducible apply enterState_keepsHost
                | with_reducible apply endHoming_keepsHost | with_reducible apply openPhase_keepsHost
                | with_reducible apply snapshot_keepsHost | with_reducible refine ite_keepsHost ?_ ?_ | split

theorem spinSnap_keepsHost (t1 r : Nat) (s : State) (h : HostOk m p s.view) :
    HostOk m p (spinSnap t1 r s).view := by
  unfold spinSnap
  dsimp only
  repeat' first | with_reducible assumption | with_reducible apply setSpindle_keepsHost
                | with_reducible apply modSpindle_keepsHost | with_reducible apply enterState_keepsHost
                | with_reducible apply rejoinRoute_keepsHost | with_reducible apply homingSnap_keepsHost | split

theorem spinSnapshot_keepsHost (t1 : Nat) (s : State) (h : HostOk m p s.view) :
    HostOk m p (spinSnapshot t1 s).view := by
  unfold spinSnapshot
  repeat' first | with_reducible assumption | with_reducible apply judgeContacts_keepsHost
                | with_reducible apply spinSnap_keepsHost
                | with_reducible refine foldl_keepsHost _ _ _ (fun _ _ _ => ?_) ?_

theorem resumeSpindle_keepsHost (r : Nat) (s : State) (h : HostOk m p s.view) :
    HostOk m p (resumeSpindle r s).view := by
  unfold resumeSpindle
  dsimp only
  repeat' first | with_reducible assumption | with_reducible apply enterState_keepsHost
                | with_reducible apply openStream_keepsHost | with_reducible apply openPhase_keepsHost | split

theorem ceilingStop_keepsHost (r : Nat) (s : State) (h : HostOk m p s.view) :
    HostOk m p (ceilingStop r s).view := by
  unfold ceilingStop
  dsimp only
  repeat' first | with_reducible assumption | with_reducible apply setSpindle_keepsHost
                | with_reducible apply orderStop_keepsHost | split

theorem noteSteps_keepsHost (r : Nat) (x1 : Spindle) (ev : Option Int × Option Nat) (s : State) (h : HostOk m p s.view) :
    HostOk m p (noteSteps r x1 ev s).view := by
  unfold noteSteps
  repeat' first | with_reducible assumption | with_reducible apply raise_keepsHost
                | with_reducible apply setSpindle_keepsHost | split

theorem stepSpindle_keepsHost (r : Nat) (s0 : State) (h : HostOk m p s0.view) :
    HostOk m p (stepSpindle r s0).1.view := by
  unfold stepSpindle
  dsimp only
  repeat' first | with_reducible assumption | with_reducible apply setSpindle_keepsHost
                | with_reducible apply resumeSpindle_keepsHost | with_reducible apply ceilingStop_keepsHost
                | with_reducible apply noteSteps_keepsHost | split

theorem stepSpindle_keepsHost_pair {r : Nat} {s0 : State} {t : State} {x1 : List FrameBody}
    (e : stepSpindle r s0 = (t, x1)) (h : HostOk m p s0.view) : HostOk m p t.view := by
  have := stepSpindle_keepsHost r s0 h
  rwa [e] at this

theorem stepPhase_keepsHost (s : State) (h : HostOk m p s.view) : HostOk m p (stepPhase s).1.view := by
  unfold stepPhase
  exact foldlPair_keepsHost _ _ _ (fun a r ha => stepSpindle_keepsHost _ _ ha) h

theorem stepPhase_keepsHost_pair {s t : State} {l : List (Nat × FrameBody)} (e : stepPhase s = (t, l)) (h : HostOk m p s.view) :
    HostOk m p t.view := by
  have := stepPhase_keepsHost s h
  rwa [e] at this

theorem addSpinAct_keepsHost (a : SpinAct) (s : State) (h : HostOk m p s.view) :
    HostOk m p (addSpinAct a s).view := by
  unfold addSpinAct
  repeat' first | with_reducible assumption

theorem spinProfileSetBody_keepsHost (r : Req) (s : State) (t : State) (x : Reply)
    (e : spinProfileSetBody r s = .ok (t, x)) (h : HostOk m p s.view) : HostOk m p t.view := by
  revert e
  unfold spinProfileSetBody
  repeat' first | with_reducible refine pureOk ?_ | (with_reducible refine bindAny ?_; intro _ _)
                | with_reducible assumption | with_reducible apply modSpindle_keepsHost
                | with_reducible apply addSpinAct_keepsHost
                | with_reducible refine foldl_keepsHost _ _ _ (fun _ _ _ => ?_) ?_ | split

theorem descSpinProfileSet_keepsHost : descSpinProfileSet.Keeps m p :=
  formLen_keeps (fun r s t x e h => spinProfileSetBody_keepsHost r s t x e h)

theorem spinStartAtBody_keepsHost (r : Req) (s : State) (t : State) (x : Reply)
    (e : spinStartAtBody r s = .ok (t, x)) (h : HostOk m p s.view) : HostOk m p t.view := by
  revert e
  unfold spinStartAtBody
  repeat' first | with_reducible refine pureOk ?_ | (with_reducible refine bindAny ?_; intro _ _)
                | with_reducible assumption | with_reducible apply addSpinAct_keepsHost

theorem descSpinStartAt_keepsHost : descSpinStartAt.Keeps m p :=
  fun r s t x e h => spinStartAtBody_keepsHost r s t x e h

theorem spinHoldBody_keepsHost (r : Req) (s : State) (t : State) (x : Reply)
    (e : spinHoldBody r s = .ok (t, x)) (h : HostOk m p s.view) : HostOk m p t.view := by
  revert e
  unfold spinHoldBody
  repeat' first | with_reducible refine pureOk ?_ | (with_reducible refine bindAny ?_; intro _ _)
                | with_reducible assumption | with_reducible apply addSpinAct_keepsHost
                | with_reducible refine foldl_keepsHost _ _ _ (fun _ _ _ => ?_) ?_

theorem descSpinHold_keepsHost : descSpinHold.Keeps m p :=
  fun r s t x e h => spinHoldBody_keepsHost r s t x e h

theorem spinGetBody_keepsHost (r : Req) (s : State) (t : State) (x : Reply)
    (e : spinGetBody r s = .ok (t, x)) (h : HostOk m p s.view) : HostOk m p t.view := by
  revert e
  unfold spinGetBody
  repeat' first | with_reducible refine pureOk ?_ | (with_reducible refine bindAny ?_; intro _ _)
                | with_reducible assumption

theorem descSpinGet_keepsHost : descSpinGet.Keeps m p :=
  fun r s t x e h => spinGetBody_keepsHost r s t x e h

theorem postDefineBody_keepsHost (r : Req) (s : State) (t : State) (x : Reply)
    (e : postDefineBody r s = .ok (t, x)) (h : HostOk m p s.view) : HostOk m p t.view := by
  revert e
  unfold postDefineBody
  repeat' first | exact failAny | with_reducible refine pureOk ?_ | (with_reducible refine bindAny ?_; intro _ _)
                | with_reducible assumption | split

theorem descPostDefine_keepsHost : descPostDefine.Keeps m p :=
  formLen_keeps (fun r s t x e h => postDefineBody_keepsHost r s t x e h)

theorem postHomeBody_keepsHost (r : Req) (s : State) (t : State) (x : Reply)
    (e : postHomeBody r s = .ok (t, x)) (h : HostOk m p s.view) : HostOk m p t.view := by
  revert e
  unfold postHomeBody
  dsimp only
  repeat' first | exact failAny | with_reducible refine pureOk ?_ | (with_reducible refine bindAny ?_; intro _ _)
                | with_reducible assumption | with_reducible apply addSpinAct_keepsHost | split

theorem descPostHome_keepsHost : descPostHome.Keeps m p :=
  fun r s t x e h => postHomeBody_keepsHost r s t x e h

theorem spinModeBody_keepsHost (r : Req) (s : State) (t : State) (x : Reply)
    (e : spinModeBody r s = .ok (t, x)) (h : HostOk m p s.view) : HostOk m p t.view := by
  revert e
  unfold spinModeBody
  dsimp only
  repeat' first | with_reducible refine pureOk ?_ | (with_reducible refine bindAny ?_; intro _ _)
                | with_reducible assumption | with_reducible apply addSpinAct_keepsHost | split

theorem descSpinMode_keepsHost : descSpinMode.Keeps m p :=
  fun r s t x e h => spinModeBody_keepsHost r s t x e h

end Sys2Proof.Machine
end

