-- ==== Sys2Proof/Laws/HostUzoza.lean ====
section
/-! SUPPORT. The operations and meanings of the robot link keep the registers of the host side as their tables
say, the member and the commands that wait (R64, R69, R71). -/
set_option autoImplicit false

namespace Sys2Proof.Machine

variable {m : Member} {p : List Instr}

theorem sessEvent_keepsHost (r cause : Nat) (s : State) (h : HostOk m p s.view) :
    HostOk m p (sessEvent r cause s).view := by
  unfold sessEvent
  repeat' first | with_reducible assumption | with_reducible apply raise_keepsHost

theorem endSession_keepsHost (r cause : Nat) (s : State) (h : HostOk m p s.view) :
    HostOk m p (endSession r cause s).view := by
  unfold endSession
  repeat' first | with_reducible assumption | with_reducible apply setLink_keepsHost
                | with_reducible apply sessEvent_keepsHost | with_reducible refine ite_keepsHost ?_ ?_

theorem awaitFrame_keepsHost (r : Nat) (body : FrameBody) (dest : Option RobotAddr) (s : State) (h : HostOk m p s.view) :
    HostOk m p (awaitFrame r body dest s).view := by
  unfold awaitFrame
  repeat' first | with_reducible assumption

theorem execSessionTimeout_keepsHost (r : Nat) (s : State) (t : State)
    (e : execSessionTimeout r s = .next t) (h : HostOk m p s.view) : HostOk m p t.view := by
  revert e
  unfold execSessionTimeout
  repeat' first | exact faultAny | with_reducible refine nextOk ?_ | with_reducible assumption
                | with_reducible apply begin__keepsHost | with_reducible apply beginInput_keepsHost | with_reducible apply beginUp_keepsHost
                | with_reducible apply endSession_keepsHost | split

theorem writeEntry_keepsHost (r seq : Nat) (a : RobotAddr) (s : State) (h : HostOk m p s.view) :
    HostOk m p (writeEntry r seq a s).view := by
  unfold writeEntry
  dsimp only
  repeat' first | with_reducible assumption | with_reducible apply raise_keepsHost
                | with_reducible apply setLink_keepsHost | with_reducible apply modLink_keepsHost | split

theorem takeEdge_keepsHost (r : Nat) (s : State) (e1 : Nat × Nat × Bool) (h : HostOk m p s.view) :
    HostOk m p (takeEdge r s e1).view := by
  unfold takeEdge
  repeat' first | with_reducible assumption | with_reducible apply setLink_keepsHost
                | with_reducible refine ite_keepsHost ?_ ?_

theorem noteCrowd_keepsHost (r : Nat) (es : List (Nat × Nat × Bool)) (s : State) (h : HostOk m p s.view) :
    HostOk m p (noteCrowd r es s).view := by
  unfold noteCrowd
  repeat' first | with_reducible assumption | split

theorem takeTelem_keepsHost (r : Nat) (bs : List Byte) (s : State) (h : HostOk m p s.view) :
    HostOk m p (takeTelem r bs s).view := by
  unfold takeTelem
  repeat' first | with_reducible assumption | with_reducible apply setLink_keepsHost
                | with_reducible apply modSpindle_keepsHost | with_reducible apply takeEdge_keepsHost
                | with_reducible apply noteCrowd_keepsHost
                | with_reducible refine foldl_keepsHost _ _ _ (fun _ _ _ => ?_) ?_

theorem takeObs_keepsHost (r : Nat) (bs : List Byte) (s : State) (h : HostOk m p s.view) :
    HostOk m p (takeObs r bs s).view := by
  unfold takeObs
  try dsimp only
  repeat' first | with_reducible assumption | with_reducible apply take_keepsHost
                | with_reducible apply rseFrame_keepsHost | with_reducible apply roverHeard_keepsHost
                | with_reducible refine ite_keepsHost ?_ ?_ | split

theorem takeAck_keepsHost (r : Nat) (bs : List Byte) (s : State) (h : HostOk m p s.view) :
    HostOk m p (takeAck r bs s).view := by
  unfold takeAck
  repeat' first | with_reducible assumption | with_reducible apply setLink_keepsHost

theorem noteValid_keepsHost (r : Nat) (f : Uplink) (u w : Nat) (s : State) (h : HostOk m p s.view) :
    HostOk m p (noteValid r f u w s).view := by
  unfold noteValid
  repeat' first | with_reducible assumption | with_reducible apply laneSend_keepsHost
                | with_reducible apply modLink_keepsHost

theorem answerJoin_keepsHost (r : Nat) (f : Uplink) (u w : Nat) (s : State) (h : HostOk m p s.view) :
    HostOk m p (answerJoin r f u w s).view := by
  unfold answerJoin
  try dsimp only
  repeat' first | with_reducible assumption | with_reducible apply drawFresh_keepsHost
                | with_reducible apply awaitFrame_keepsHost | with_reducible apply modLink_keepsHost
                | with_reducible apply take_keepsHost | with_reducible apply setLink_keepsHost
                | with_reducible apply endSession_keepsHost | with_reducible apply sessEvent_keepsHost
                | with_reducible apply writeEntry_keepsHost | with_reducible refine ite_keepsHost ?_ ?_ | split

theorem takeJoin_keepsHost (r : Nat) (f : Uplink) (u w : Nat) (s : State) (h : HostOk m p s.view) :
    HostOk m p (takeJoin r f u w s).view := by
  unfold takeJoin
  try dsimp only
  repeat' first | with_reducible assumption | with_reducible apply modLink_keepsHost
                | with_reducible apply answerJoin_keepsHost | with_reducible apply noteValid_keepsHost
                | with_reducible apply setLink_keepsHost | with_reducible apply snapshot_keepsHost
                | with_reducible refine ite_keepsHost ?_ ?_ | split

theorem captureJoin_keepsHost (s : State) (j : JoinIn) (h : HostOk m p s.view) :
    HostOk m p (captureJoin s j).view := by
  unfold captureJoin
  repeat' first | with_reducible assumption | with_reducible apply setLink_keepsHost
                | with_reducible apply takeJoin_keepsHost | with_reducible refine ite_keepsHost ?_ ?_

theorem captureJoins_keepsHost (s : State) (h : HostOk m p s.view) : HostOk m p (captureJoins s).view := by
  unfold captureJoins
  refine foldl_keepsHost _ _ _ (fun _ _ h1 => captureJoin_keepsHost _ _ h1) ?_
  exact h

theorem takeFrame_keepsHost (r : Nat) (f : Uplink) (s : State) (h : HostOk m p s.view) :
    HostOk m p (takeFrame r f s).view := by
  unfold takeFrame
  try dsimp only
  repeat' first | with_reducible assumption | with_reducible apply setLink_keepsHost
                | with_reducible apply writeEntry_keepsHost | with_reducible apply modLink_keepsHost
                | with_reducible apply noteValid_keepsHost | with_reducible apply takeTelem_keepsHost
                | with_reducible apply takeObs_keepsHost | with_reducible apply takeAck_keepsHost
                | with_reducible apply snapshot_keepsHost | with_reducible refine ite_keepsHost ?_ ?_ | split

theorem joinArrives_keepsHost (r : Nat) (f : Uplink) (s : State) (h : HostOk m p s.view) :
    HostOk m p (joinArrives r f s).view := by
  unfold joinArrives
  try dsimp only
  repeat' first | with_reducible assumption | with_reducible apply setLink_keepsHost
                | with_reducible apply writeEntry_keepsHost | with_reducible refine ite_keepsHost ?_ ?_ | split

theorem uplinkFrame_keepsHost (f : Uplink) (s : State) (h : HostOk m p s.view) :
    HostOk m p (uplinkFrame f s).view := by
  unfold uplinkFrame
  try dsimp only
  repeat' first | with_reducible assumption | with_reducible apply joinArrives_keepsHost
                | with_reducible apply setLink_keepsHost | with_reducible apply takeFrame_keepsHost
                | with_reducible refine ite_keepsHost ?_ ?_ | split

theorem uzCarriage_keepsHost (f : Uplink) (s : State) (h : HostOk m p s.view) :
    HostOk m p (uzCarriage f s).1.view := by
  unfold uzCarriage
  try dsimp only
  repeat' first | with_reducible assumption | with_reducible apply countRx_keepsHost
                | with_reducible apply dropFiltered_keepsHost | with_reducible apply learn_keepsHost
                | with_reducible apply modStat_keepsHost | with_reducible refine ite_keepsHost ?_ ?_ | split

theorem uzCarriage_keepsHost_pair {f : Uplink} {s : State} {t : State} {x1 : Bool}
    (e : uzCarriage f s = (t, x1)) (h : HostOk m p s.view) : HostOk m p t.view := by
  have := uzCarriage_keepsHost f s h
  rwa [e] at this

theorem uplinkAt_keepsHost (f : Uplink) (dt : Nat) (s : State) (h : HostOk m p s.view) :
    HostOk m p (uplinkAt f dt s).view := by
  unfold uplinkAt
  repeat' first | with_reducible assumption | with_reducible apply begin__keepsHost | with_reducible apply beginInput_keepsHost
                | with_reducible apply uplinkFrame_keepsHost | with_reducible apply uzCarriage_keepsHost
                | with_reducible refine ite_keepsHost ?_ ?_

theorem execTelem_keepsHost (f : Uplink) (dt : Nat) (s : State) (t : State)
    (e : execTelem f dt s = .next t) (h : HostOk m p s.view) : HostOk m p t.view := by
  revert e
  unfold execTelem
  repeat' first | exact faultAny | with_reducible refine nextOk ?_ | with_reducible assumption
                | with_reducible apply uplinkAt_keepsHost | split

theorem execObs_keepsHost (f : Uplink) (dt : Nat) (s : State) (t : State)
    (e : execObs f dt s = .next t) (h : HostOk m p s.view) : HostOk m p t.view := by
  revert e
  unfold execObs
  repeat' first | exact faultAny | with_reducible refine nextOk ?_ | with_reducible assumption
                | with_reducible apply uplinkAt_keepsHost | split

theorem execAck_keepsHost (f : Uplink) (dt : Nat) (s : State) (t : State)
    (e : execAck f dt s = .next t) (h : HostOk m p s.view) : HostOk m p t.view := by
  revert e
  unfold execAck
  repeat' first | exact faultAny | with_reducible refine nextOk ?_ | with_reducible assumption
                | with_reducible apply uplinkAt_keepsHost | split

theorem execJoin_keepsHost (f : Uplink) (dt : Nat) (s : State) (t : State)
    (e : execJoin f dt s = .next t) (h : HostOk m p s.view) : HostOk m p t.view := by
  revert e
  unfold execJoin
  repeat' first | exact faultAny | with_reducible refine nextOk ?_ | with_reducible assumption
                | with_reducible apply uplinkAt_keepsHost | split

theorem execRekeyDue_keepsHost (r dt : Nat) (s : State) (t : State)
    (e : execRekeyDue r dt s = .next t) (h : HostOk m p s.view) : HostOk m p t.view := by
  revert e
  unfold execRekeyDue
  repeat' first | exact faultAny | with_reducible refine nextOk ?_ | with_reducible assumption
                | with_reducible apply begin__keepsHost | with_reducible apply beginInput_keepsHost | with_reducible apply modLink_keepsHost | split

theorem execRekeyAbandon_keepsHost (r : Nat) (s : State) (t : State)
    (e : execRekeyAbandon r s = .next t) (h : HostOk m p s.view) : HostOk m p t.view := by
  revert e
  unfold execRekeyAbandon
  repeat' first | exact faultAny | with_reducible refine nextOk ?_ | with_reducible assumption
                | with_reducible apply begin__keepsHost | with_reducible apply beginInput_keepsHost | with_reducible apply beginUp_keepsHost
                | with_reducible apply modLink_keepsHost | split

theorem startRekeys_keepsHost (s : State) (h : HostOk m p s.view) :
    HostOk m p (startRekeys s).view := by
  unfold startRekeys
  repeat' first | with_reducible assumption | with_reducible apply setLink_keepsHost
                | with_reducible apply awaitFrame_keepsHost
                | with_reducible refine foldl_keepsHost _ _ _ (fun _ _ _ => ?_) ?_

theorem captureLink_keepsHost (n : Nat) (s : State) (r : Nat) (h : HostOk m p s.view) :
    HostOk m p (captureLink n s r).view := by
  unfold captureLink
  repeat' first | with_reducible assumption | with_reducible apply raise_keepsHost
                | with_reducible apply setLink_keepsHost | with_reducible apply modLink_keepsHost
                | with_reducible apply sessEvent_keepsHost | split

theorem captureLinks_keepsHost (s : State) (h : HostOk m p s.view) :
    HostOk m p (captureLinks s).view := by
  unfold captureLinks
  try dsimp only
  repeat' first | with_reducible assumption | with_reducible apply captureJoins_keepsHost
                | with_reducible apply captureLink_keepsHost
                | with_reducible refine foldl_keepsHost _ _ _ (fun _ _ _ => ?_) ?_
                | with_reducible refine ite_keepsHost ?_ ?_ | split

theorem actOnLinks_keepsHost (s : State) (h : HostOk m p s.view) :
    HostOk m p (actOnLinks s).view := by
  unfold actOnLinks
  dsimp only
  repeat' first | with_reducible assumption | with_reducible apply setLink_keepsHost
                | with_reducible apply immediateStop_keepsHost | with_reducible apply localReport_keepsHost
                | with_reducible refine foldl_keepsHost _ _ _ (fun _ _ _ => ?_) ?_ | split

theorem takeSeq_keepsHost (s : State) (h : HostOk m p s.view) :
    HostOk m p (takeSeq s).2.view := by
  unfold takeSeq
  repeat' first | with_reducible assumption

theorem takeSeq_keepsHost_pair {s : State} {x0 : Nat} {t : State}
    (e : takeSeq s = (x0, t)) (h : HostOk m p s.view) : HostOk m p t.view := by
  have := takeSeq_keepsHost s h
  rwa [e] at this

theorem uzSend_keepsHost (port prio : Nat) (dst : Option RobotAddr) (bytes : List Byte) (s : State) (h : HostOk m p s.view) :
    HostOk m p (uzSend port prio dst bytes s).view := by
  unfold uzSend
  repeat' first | with_reducible assumption | with_reducible apply enqueue_keepsHost
                | with_reducible refine ite_keepsHost ?_ ?_

theorem noteSigned_keepsHost (rs : List Nat) (s : State) (h : HostOk m p s.view) :
    HostOk m p (noteSigned rs s).view := by
  unfold noteSigned
  try dsimp only
  repeat' first | with_reducible assumption | with_reducible apply modLink_keepsHost
                | with_reducible refine foldl_keepsHost _ _ _ (fun _ _ _ => ?_) ?_
                | with_reducible refine ite_keepsHost ?_ ?_ | split

theorem releaseUnicast_keepsHost (s : State) (h1 : Held) (h : HostOk m p s.view) :
    HostOk m p (releaseUnicast s h1).view := by
  unfold releaseUnicast
  dsimp only
  repeat' first | with_reducible assumption | with_reducible apply modLink_keepsHost
                | with_reducible apply takeSeq_keepsHost | with_reducible apply uzSend_keepsHost | split

theorem releaseGo_keepsHost (s : State) (h1 : Held) (h : HostOk m p s.view) :
    HostOk m p (releaseGo s h1).view := by
  unfold releaseGo
  try dsimp only
  repeat' first | with_reducible assumption | with_reducible apply takeSeq_keepsHost
                | with_reducible apply noteSigned_keepsHost | with_reducible apply uzSend_keepsHost
                | with_reducible refine ite_keepsHost ?_ ?_ | split

theorem fleetBurst_keepsHost (b : Burst) (s : State) (h : HostOk m p s.view) :
    HostOk m p (fleetBurst b s).view := by
  unfold fleetBurst
  try dsimp only
  repeat' first | with_reducible assumption | with_reducible apply takeSeq_keepsHost
                | with_reducible apply uzSend_keepsHost | with_reducible apply noteSigned_keepsHost
                | with_reducible refine foldl_keepsHost _ _ _ (fun _ _ _ => ?_) ?_
                | with_reducible refine ite_keepsHost ?_ ?_ | split

theorem robotBurst_keepsHost (r : Nat) (x1 : RobotStop) (b : Burst) (s : State) (h : HostOk m p s.view) :
    HostOk m p (robotBurst r x1 b s).view := by
  unfold robotBurst
  try dsimp only
  repeat' first | with_reducible assumption | with_reducible apply setRobotStop_keepsHost
                | with_reducible apply takeSeq_keepsHost | with_reducible apply noteSigned_keepsHost
                | with_reducible apply uzSend_keepsHost | with_reducible refine ite_keepsHost ?_ ?_ | split

theorem lastBurst_keepsHost (s : State) (h : HostOk m p s.view) :
    HostOk m p (lastBurst s).view := by
  unfold lastBurst
  try dsimp only
  repeat' first | with_reducible assumption | with_reducible refine ite_keepsHost ?_ ?_ | split

theorem execStopBurstFrame_keepsHost (r : Option Nat) (s : State) (t : State)
    (e : execStopBurstFrame r s = .next t) (h : HostOk m p s.view) : HostOk m p t.view := by
  revert e
  unfold execStopBurstFrame
  try dsimp only
  repeat' first | exact faultAny | with_reducible refine nextOk ?_ | with_reducible assumption
                | with_reducible apply afterBurst_keepsHost | with_reducible apply fleetBurst_keepsHost
                | with_reducible apply beginUp_keepsHost | with_reducible apply lastBurst_keepsHost
                | with_reducible apply begin__keepsHost | with_reducible apply robotBurst_keepsHost
                | with_reducible refine ite_keepsHost ?_ ?_ | split

theorem assembleResv_keepsHost (s : State) (r : Nat) (h : HostOk m p s.view) :
    HostOk m p (assembleResv s r).1.view := by
  unfold assembleResv
  dsimp only
  repeat' first | with_reducible assumption | with_reducible apply setLink_keepsHost | split

theorem assembleResv_keepsHost_pair {s : State} {r : Nat} {t : State} {x1 : List Held}
    (e : assembleResv s r = (t, x1)) (h : HostOk m p s.view) : HostOk m p t.view := by
  have := assembleResv_keepsHost s r h
  rwa [e] at this

theorem assemble_keepsHost (pts : List (Nat × FrameBody)) (s : State) (h : HostOk m p s.view) :
    HostOk m p (assemble pts s).view := by
  unfold assemble
  dsimp only [State.view]
  exact foldlPair_keepsHost _ _ _ (fun a r ha => assembleResv_keepsHost _ _ ha) (startRekeys_keepsHost _ h)

theorem secRobotKeyBody_keepsHost (q : Req) (s : State) (t : State) (x : Reply)
    (e : secRobotKeyBody q s = .ok (t, x)) (h : HostOk m p s.view) : HostOk m p t.view := by
  revert e
  unfold secRobotKeyBody
  repeat' first | with_reducible refine bindNeed ?_ | with_reducible refine pureOk ?_ | with_reducible assumption
                | with_reducible apply raise_keepsHost | with_reducible apply setLink_keepsHost
                | with_reducible apply modLink_keepsHost | with_reducible apply touchSession_keepsHost
                | with_reducible apply endSession_keepsHost | split

theorem descSecRobotKey_keepsHost : descSecRobotKey.Keeps m p :=
  formLen_keeps (fun r s t x e h => secRobotKeyBody_keepsHost r s t x e h)

end Sys2Proof.Machine
end

