-- ==== Sys2Proof/Laws/HostTask.lean ====
section
/-! SUPPORT. The operations and meanings of the task allotment keep the registers of the host side as their tables
say, the member and the commands that wait (R64, R69, R71). -/
set_option autoImplicit false

namespace Sys2Proof.Machine

variable {m : Member} {p : List Instr}

theorem setTask_keepsHost (k : Nat) (x1 : TaskSlot) (s : State) (h : HostOk m p s.view) :
    HostOk m p (setTask k x1 s).view := by
  unfold setTask
  repeat' first | with_reducible assumption

theorem taskEvent_keepsHost (k robot cause : Nat) (x1 : TaskSlot) (s : State) (h : HostOk m p s.view) :
    HostOk m p (taskEvent k robot cause x1 s).view := by
  unfold taskEvent
  repeat' first | with_reducible assumption | with_reducible apply raise_keepsHost

theorem taskFrame_keepsHost (k op robot : Nat) (x1 : TaskRec) (s : State) (h : HostOk m p s.view) :
    HostOk m p (taskFrame k op robot x1 s).view := by
  unfold taskFrame
  repeat' first | with_reducible assumption | with_reducible apply awaitFrame_keepsHost

theorem moveTask_keepsHost (k : Nat) (st : TaskState) (cause : Nat) (s : State) (h : HostOk m p s.view) :
    HostOk m p (moveTask k st cause s).view := by
  unfold moveTask
  repeat' first | with_reducible assumption | with_reducible apply setTask_keepsHost
                | with_reducible apply taskEvent_keepsHost

theorem overrideTasks_keepsHost (s : State) (r : Nat) (h : HostOk m p s.view) :
    HostOk m p (overrideTasks s r).view := by
  unfold overrideTasks
  repeat' first | with_reducible assumption | with_reducible apply taskFrame_keepsHost
                | with_reducible apply moveTask_keepsHost
                | with_reducible refine foldl_keepsHost _ _ _ (fun _ _ _ => ?_) ?_

theorem applyTaskAct_keepsHost (s : State) (a : TaskAct) (h : HostOk m p s.view) :
    HostOk m p (applyTaskAct s a).view := by
  unfold applyTaskAct
  dsimp only
  repeat' first | with_reducible assumption | with_reducible apply setTask_keepsHost
                | with_reducible apply taskEvent_keepsHost | with_reducible apply taskFrame_keepsHost
                | with_reducible apply moveTask_keepsHost | with_reducible apply overrideTasks_keepsHost | split

theorem applyTaskActs_keepsHost (s : State) (h : HostOk m p s.view) :
    HostOk m p (applyTaskActs s).view := by
  unfold applyTaskActs
  repeat' first | with_reducible assumption | with_reducible apply applyTaskAct_keepsHost
                | with_reducible refine foldl_keepsHost _ _ _ (fun _ _ _ => ?_) ?_

theorem execRerouteResult_keepsHost (r routeId dt : Nat) (s : State) (t : State)
    (e : execRerouteResult r routeId dt s = .next t) (h : HostOk m p s.view) : HostOk m p t.view := by
  revert e
  unfold execRerouteResult
  try dsimp only
  repeat' first | exact faultAny | with_reducible refine nextOk ?_ | with_reducible assumption
                | with_reducible apply begin__keepsHost | with_reducible apply addTrackAct_keepsHost
                | with_reducible apply modTr_keepsHost | with_reducible apply routeEvent_keepsHost
                | with_reducible refine ite_keepsHost ?_ ?_ | split

theorem reportRound_keepsHost (req : Option Req) (x1 : Round) (s : State) (h : HostOk m p s.view) :
    HostOk m p (reportRound req x1 s).view := by
  unfold reportRound
  repeat' first | with_reducible assumption | with_reducible apply complete_keepsHost
                | with_reducible apply raise_keepsHost | split

theorem lapseProposal_keepsHost (s : State) (h : HostOk m p s.view) :
    HostOk m p (lapseProposal s).view := by
  unfold lapseProposal
  repeat' first | with_reducible assumption | with_reducible apply moveTask_keepsHost
                | with_reducible refine foldl_keepsHost _ _ _ (fun _ _ _ => ?_) ?_

theorem propose_keepsHost (req : Option Req) (x1 : Round) (s : State) (h : HostOk m p s.view) :
    HostOk m p (propose req x1 s).view := by
  unfold propose
  repeat' first | with_reducible assumption | with_reducible apply setTask_keepsHost
                | with_reducible apply reportRound_keepsHost
                | with_reducible refine foldl_keepsHost _ _ _ (fun _ _ _ => ?_) ?_
                | with_reducible refine ite_keepsHost ?_ ?_

theorem execAllotRoundEnd_keepsHost (dt : Nat) (s : State) (t : State)
    (e : execAllotRoundEnd dt s = .next t) (h : HostOk m p s.view) : HostOk m p t.view := by
  revert e
  unfold execAllotRoundEnd
  dsimp only
  repeat' first | with_reducible refine nextOk ?_ | with_reducible assumption
                | with_reducible apply begin__keepsHost | with_reducible apply propose_keepsHost | split

theorem allotDue_keepsHost (p1 : Nat) (s : State) (h : HostOk m p s.view) :
    HostOk m p (allotDue p1 s).view := by
  unfold allotDue
  repeat' first | with_reducible assumption | with_reducible refine ite_keepsHost ?_ ?_

theorem execAllotPeriod_keepsHost (s : State) (t : State)
    (e : execAllotPeriod s = .next t) (h : HostOk m p s.view) : HostOk m p t.view := by
  revert e
  unfold execAllotPeriod
  repeat' first | with_reducible refine nextOk ?_ | with_reducible assumption
                | with_reducible apply begin__keepsHost
                | with_reducible apply beginAt_keepsHost | with_reducible apply allotDue_keepsHost
                | with_reducible refine ite_keepsHost ?_ ?_

theorem execProposalLapse_keepsHost (s : State) (t : State)
    (e : execProposalLapse s = .next t) (h : HostOk m p s.view) : HostOk m p t.view := by
  revert e
  unfold execProposalLapse
  repeat' first | with_reducible refine nextOk ?_ | with_reducible assumption
                | with_reducible apply begin__keepsHost
                | with_reducible apply beginUp_keepsHost | with_reducible apply lapseProposal_keepsHost | split

theorem clearForRound_keepsHost (t1 : Nat) (s : State) (h : HostOk m p s.view) :
    HostOk m p (clearForRound t1 s).view := by
  unfold clearForRound
  repeat' first | with_reducible assumption | with_reducible apply moveTask_keepsHost
                | with_reducible apply lapseProposal_keepsHost
                | with_reducible refine foldl_keepsHost _ _ _ (fun _ _ _ => ?_) ?_
                | with_reducible refine ite_keepsHost ?_ ?_

theorem allotSettings_keepsHost (s : State) (h : HostOk m p s.view) :
    HostOk m p (allotSettings s).view := by
  unfold allotSettings
  try dsimp only
  repeat' first | with_reducible assumption | with_reducible apply snapshot_keepsHost
                | with_reducible refine ite_keepsHost ?_ ?_ | split

theorem startRound_keepsHost (t1 : Nat) (s : State) (h : HostOk m p s.view) :
    HostOk m p (startRound t1 s).view := by
  unfold startRound
  try dsimp only
  repeat' first | with_reducible assumption | with_reducible apply clearForRound_keepsHost
                | with_reducible apply commit_keepsHost | with_reducible refine ite_keepsHost ?_ ?_ | split

theorem autoStart_keepsHost (r : Nat) (s : State) (h : HostOk m p s.view) :
    HostOk m p (autoStart r s).view := by
  unfold autoStart
  repeat' first | with_reducible assumption | with_reducible apply applySpinAct_keepsHost | split

theorem takeRoute_keepsHost (k r : Nat) (y : Route) (s : State) (h : HostOk m p s.view) :
    HostOk m p (takeRoute k r y s).view := by
  unfold takeRoute
  repeat' first | with_reducible assumption | with_reducible apply modTr_keepsHost
                | with_reducible apply changeRoute_keepsHost | with_reducible apply moveTask_keepsHost
                | with_reducible apply autoStart_keepsHost

theorem foldlSnd_keepsHost {α β : Type} (l : List α) (g : β × State → α → β × State) (a : β × State)
    (hg : ∀ a x, HostOk m p a.2.view → HostOk m p (g a x).2.view) (h : HostOk m p a.2.view) :
    HostOk m p (l.foldl g a).2.view := by
  induction l generalizing a with
  | nil => exact h
  | cons x r ih => exact ih _ (hg _ _ h)

theorem nextTask_keepsHost (r : Nat) (s : State) (h : HostOk m p s.view) : HostOk m p (nextTask r s).view := by
  unfold nextTask
  dsimp only
  split
  · exact h
  · refine foldlSnd_keepsHost _ _ _ (fun a q ha => ?_) h
    split
    · exact ha
    · split
      · dsimp only
        with_reducible apply takeRoute_keepsHost
        exact ha
      · dsimp only
        with_reducible apply moveTask_keepsHost
        exact ha

theorem serviceEnds_keepsHost (r : Nat) (s : State) (h : HostOk m p s.view) :
    HostOk m p (serviceEnds r s).view := by
  unfold serviceEnds
  repeat' first | with_reducible assumption

theorem execTaskServiceElapsed_keepsHost (r : Nat) (s : State) (t : State)
    (e : execTaskServiceElapsed r s = .next t) (h : HostOk m p s.view) : HostOk m p t.view := by
  revert e
  unfold execTaskServiceElapsed
  repeat' first | exact faultAny | with_reducible refine nextOk ?_ | with_reducible assumption
                | with_reducible apply begin__keepsHost
                | with_reducible apply beginAt_keepsHost | with_reducible apply serviceEnds_keepsHost | split

theorem serviceRoutes_keepsHost (s : State) (h : HostOk m p s.view) :
    HostOk m p (serviceRoutes s).view := by
  unfold serviceRoutes
  repeat' first | with_reducible assumption | with_reducible apply nextTask_keepsHost
                | with_reducible refine foldl_keepsHost _ _ _ (fun _ _ _ => ?_) ?_

theorem reachTask_keepsHost (t1 r : Nat) (s : State) (h : HostOk m p s.view) :
    HostOk m p (reachTask t1 r s).view := by
  unfold reachTask
  repeat' first | with_reducible assumption | with_reducible apply setTask_keepsHost
                | with_reducible apply moveTask_keepsHost | split

theorem commitOne_keepsHost (t1 : Nat) (a : List Assign × State) (x : Assign) (h : HostOk m p a.2.view) :
    HostOk m p (commitOne t1 a x).2.view := by
  unfold commitOne
  dsimp only
  split
  · dsimp only
    refine ite_keepsHost (nextTask_keepsHost _ _ ?_) ?_
    · exact taskFrame_keepsHost _ _ _ _ _ (taskEvent_keepsHost _ _ _ _ _ (setTask_keepsHost _ _ _ h))
    · exact taskFrame_keepsHost _ _ _ _ _ (taskEvent_keepsHost _ _ _ _ _ (setTask_keepsHost _ _ _ h))
  · exact ite_keepsHost (moveTask_keepsHost _ _ _ _ h) h

theorem commitAll_keepsHost (t1 : Nat) (l : List Assign) (s : State) (h : HostOk m p s.view) :
    HostOk m p (l.foldl (commitOne t1) ([], s)).2.view :=
  foldlSnd_keepsHost _ _ _ (fun a x ha => commitOne_keepsHost t1 a x ha) h

theorem applyCommit_keepsHost (t1 : Nat) (s : State) (c : CommitReq) (h : HostOk m p s.view) :
    HostOk m p (applyCommit t1 s c).view := by
  unfold applyCommit
  split
  · exact h
  · rename_i res e
    split
    · split
      · split
        · exact complete_keepsHost _ _ _ _ _ h
        · exact h
      · exact propose_keepsHost _ _ _ h
    · have h1 := commitAll_keepsHost t1 (res.assigns.filter (fun x => c.robots.contains x.robot)) s h
      dsimp only
      generalize (res.assigns.filter (fun x => c.robots.contains x.robot)).foldl (commitOne t1) ([], s) = y at h1 ⊢
      repeat' first | with_reducible assumption | with_reducible apply complete_keepsHost
                    | with_reducible apply lapseProposal_keepsHost | with_reducible apply propose_keepsHost
                    | with_reducible apply reportRound_keepsHost | with_reducible refine ite_keepsHost ?_ ?_ | split
                    | exact lapseProposal_keepsHost _ h1 | exact h1

theorem taskSnapshot_keepsHost (t1 : Nat) (s : State) (h : HostOk m p s.view) :
    HostOk m p (taskSnapshot t1 s).view := by
  unfold taskSnapshot
  dsimp only
  have h0 := allotSettings_keepsHost s h
  repeat' first | with_reducible assumption | exact h0 | with_reducible apply startRound_keepsHost
                | with_reducible apply serviceRoutes_keepsHost | with_reducible apply applyCommit_keepsHost
                | with_reducible refine foldl_keepsHost _ _ _ (fun _ _ _ => ?_) ?_

theorem addTaskAct_keepsHost (a : TaskAct) (s : State) (h : HostOk m p s.view) :
    HostOk m p (addTaskAct a s).view := by
  unfold addTaskAct
  repeat' first | with_reducible assumption

theorem taskPostBody_keepsHost (r : Req) (s : State) (t : State) (x : Reply)
    (e : taskPostBody r s = .ok (t, x)) (h : HostOk m p s.view) : HostOk m p t.view := by
  revert e
  unfold taskPostBody
  repeat' first | with_reducible refine pureOk ?_ | (with_reducible refine bindAny ?_; intro _ _)
                | with_reducible assumption | with_reducible apply addTaskAct_keepsHost | split

theorem descTaskPost_keepsHost : descTaskPost.Keeps m p :=
  formLen_keeps (fun r s t x e h => taskPostBody_keepsHost r s t x e h)

theorem taskCancelBody_keepsHost (r : Req) (s : State) (t : State) (x : Reply)
    (e : taskCancelBody r s = .ok (t, x)) (h : HostOk m p s.view) : HostOk m p t.view := by
  revert e
  unfold taskCancelBody
  repeat' first | with_reducible refine pureOk ?_ | (with_reducible refine bindAny ?_; intro _ _)
                | with_reducible assumption | with_reducible apply addTaskAct_keepsHost

theorem descTaskCancel_keepsHost : descTaskCancel.Keeps m p :=
  fun r s t x e h => taskCancelBody_keepsHost r s t x e h

theorem allotCfgBody_keepsHost (r : Req) (s : State) (t : State) (x : Reply)
    (e : allotCfgBody r s = .ok (t, x)) (h : HostOk m p s.view) : HostOk m p t.view := by
  revert e
  unfold allotCfgBody
  repeat' first | with_reducible refine pureOk ?_ | (with_reducible refine bindAny ?_; intro _ _)
                | with_reducible assumption | with_reducible refine ite_keepsHost ?_ ?_

theorem descAllotCfg_keepsHost : descAllotCfg.Keeps m p :=
  formLen_keeps (fun r s t x e h => allotCfgBody_keepsHost r s t x e h)

theorem allotRunBody_keepsHost (r : Req) (s : State) (t : State) (x : Reply)
    (e : allotRunBody r s = .ok (t, x)) (h : HostOk m p s.view) : HostOk m p t.view := by
  revert e
  unfold allotRunBody roundLock
  repeat' first | with_reducible refine pureOk ?_ | (with_reducible refine bindAny ?_; intro _ _)
                | with_reducible assumption

theorem descAllotRun_keepsHost : descAllotRun.Keeps m p :=
  fun r s t x e h => allotRunBody_keepsHost r s t x e h

theorem allotGetBody_keepsHost (r : Req) (s : State) (t : State) (x : Reply)
    (e : allotGetBody r s = .ok (t, x)) (h : HostOk m p s.view) : HostOk m p t.view := by
  revert e
  unfold allotGetBody
  repeat' first | exact failAny | with_reducible refine pureOk ?_ | (with_reducible refine bindAny ?_; intro _ _)
                | with_reducible assumption | split

theorem descAllotGet_keepsHost : descAllotGet.Keeps m p :=
  fun r s t x e h => allotGetBody_keepsHost r s t x e h

theorem allotCommitBody_keepsHost (r : Req) (s : State) (t : State) (x : Reply)
    (e : allotCommitBody r s = .ok (t, x)) (h : HostOk m p s.view) : HostOk m p t.view := by
  revert e
  unfold allotCommitBody
  repeat' first | with_reducible refine pureOk ?_ | (with_reducible refine bindAny ?_; intro _ _)
                | with_reducible assumption

theorem descAllotCommit_keepsHost : descAllotCommit.Keeps m p :=
  fun r s t x e h => allotCommitBody_keepsHost r s t x e h

end Sys2Proof.Machine
end

