-- ==== Sys2Proof/Laws/HostYard.lean ====
section
/-! SUPPORT. The operations and meanings of the yard outputs keep the registers of the host side as their tables
say, the member and the commands that wait (R64, R69, R71). -/
set_option autoImplicit false

namespace Sys2Proof.Machine

variable {m : Member} {p : List Instr}

theorem refreshYard_keepsHost (s : State) (h : HostOk m p s.view) :
    HostOk m p (refreshYard s).view := by
  unfold refreshYard
  repeat' first | with_reducible assumption

theorem yardOutSetBody_keepsHost (r : Req) (s : State) (t : State) (x : Reply)
    (e : yardOutSetBody r s = .ok (t, x)) (h : HostOk m p s.view) : HostOk m p t.view := by
  revert e
  unfold yardOutSetBody
  repeat' first | with_reducible refine bindNeed ?_ | with_reducible refine pureOk ?_ | with_reducible assumption
                | with_reducible refine ite_keepsHost ?_ ?_

theorem descYardOutSet_keepsHost : descYardOutSet.Keeps m p :=
  formLen_keeps (fun r s t x e h => yardOutSetBody_keepsHost r s t x e h)

end Sys2Proof.Machine
end

