-- ==== Sys2Proof/Laws/HostTick.lean ====
section
/-! SUPPORT. The operations and meanings of the tick keep the registers of the host side as their tables
say, the member and the commands that wait (R64, R69, R71). -/
set_option autoImplicit false

namespace Sys2Proof.Machine

variable {m : Member} {p : List Instr}

theorem markOverrun_keepsHost (s : State) (h : HostOk m p s.view) :
    HostOk m p (markOverrun s).view := by
  unfold markOverrun
  repeat' first | with_reducible assumption | with_reducible apply raise_keepsHost

theorem execTickDeadline_keepsHost (s : State) (t : State)
    (e : execTickDeadline s = .next t) (h : HostOk m p s.view) : HostOk m p t.view := by
  revert e
  unfold execTickDeadline
  repeat' first | with_reducible refine nextOk ?_ | with_reducible assumption
                | with_reducible apply begin__keepsHost | with_reducible apply beginAt_keepsHost
                | with_reducible apply markOverrun_keepsHost | with_reducible refine ite_keepsHost ?_ ?_

theorem startTick_keepsHost (k : Tick) (s : State) (h : HostOk m p s.view) :
    HostOk m p (startTick k s).view := by
  unfold startTick
  repeat' first | with_reducible assumption

theorem addBudget_keepsHost (s : State) (h : HostOk m p s.view) :
    HostOk m p (addBudget s).view := by
  unfold addBudget
  repeat' first | with_reducible assumption

theorem openTick_keepsHost (t1 phases : Nat) (s : State) (h : HostOk m p s.view) :
    HostOk m p (openTick t1 phases s).view := by
  unfold openTick
  repeat' first | with_reducible assumption | with_reducible apply applySolve_keepsHost
                | with_reducible apply secondStats_keepsHost | with_reducible apply periodicJobs_keepsHost
                | with_reducible apply startTick_keepsHost | with_reducible apply addBudget_keepsHost
                | with_reducible refine ite_keepsHost ?_ ?_

theorem cancelStarts_keepsHost (s : State) (h : HostOk m p s.view) :
    HostOk m p (cancelStarts s).view := by
  unfold cancelStarts
  repeat' first | with_reducible assumption | with_reducible apply complete_keepsHost
                | with_reducible refine foldl_keepsHost _ _ _ (fun _ _ _ => ?_) ?_

theorem followLatch_keepsHost (s : State) (h : HostOk m p s.view) :
    HostOk m p (followLatch s).view := by
  unfold followLatch
  repeat' first | with_reducible assumption | with_reducible apply raise_keepsHost
                | with_reducible apply immediateStop_keepsHost | with_reducible apply cancelStarts_keepsHost
                | with_reducible refine foldl_keepsHost _ _ _ (fun _ _ _ => ?_) ?_
                | with_reducible refine ite_keepsHost ?_ ?_

theorem followPhase_keepsHost (s : State) (h : HostOk m p s.view) :
    HostOk m p (followPhase s).view := by
  unfold followPhase
  repeat' first | with_reducible assumption | with_reducible apply endPhase_keepsHost
                | with_reducible apply controlledStop_keepsHost | with_reducible apply cancelStarts_keepsHost
                | with_reducible refine foldl_keepsHost _ _ _ (fun _ _ _ => ?_) ?_
                | with_reducible refine ite_keepsHost ?_ ?_

theorem followRobot_keepsHost (s : State) (p1 : Nat × RobotStop) (h : HostOk m p s.view) :
    HostOk m p (followRobot s p1).view := by
  unfold followRobot
  repeat' first | with_reducible assumption | with_reducible apply forceRobot_keepsHost
                | with_reducible apply controlledStop_keepsHost | with_reducible apply immediateStop_keepsHost
                | with_reducible refine ite_keepsHost ?_ ?_

theorem stopSnapshot_keepsHost (s : State) (h : HostOk m p s.view) :
    HostOk m p (stopSnapshot s).view := by
  unfold stopSnapshot
  repeat' first | with_reducible assumption | with_reducible apply applyResets_keepsHost
                | with_reducible apply followLatch_keepsHost | with_reducible apply followPhase_keepsHost
                | with_reducible apply followRobot_keepsHost
                | with_reducible refine foldl_keepsHost _ _ _ (fun _ _ _ => ?_) ?_

theorem graphSnapshot_keepsHost (s : State) (h : HostOk m p s.view) :
    HostOk m p (graphSnapshot s).view := by
  unfold graphSnapshot
  repeat' first | with_reducible assumption | with_reducible apply swapGraph_keepsHost
                | with_reducible apply overrideTasks_keepsHost | with_reducible apply lapseProposal_keepsHost
                | with_reducible refine foldl_keepsHost _ _ _ (fun _ _ _ => ?_) ?_
                | with_reducible refine ite_keepsHost ?_ ?_

theorem progressSnapshot_keepsHost (t1 : Nat) (s : State) (h : HostOk m p s.view) :
    HostOk m p (progressSnapshot t1 s).view := by
  unfold progressSnapshot
  repeat' first | with_reducible assumption | with_reducible apply progressRobot_keepsHost
                | with_reducible apply reachTask_keepsHost
                | with_reducible refine foldl_keepsHost _ _ _ (fun _ _ _ => ?_) ?_
                | with_reducible refine ite_keepsHost ?_ ?_

theorem snapshot_keepsHost (t1 : Nat) (s : State) (h : HostOk m p s.view) :
    HostOk m p (snapshot t1 s).view := by
  unfold snapshot
  repeat' first | with_reducible assumption | with_reducible apply applyGovCfg_keepsHost
                | with_reducible apply applyPendingArp_keepsHost | with_reducible apply tickFixes_keepsHost
                | with_reducible apply shiftArp_keepsHost | with_reducible apply applyMotionActs_keepsHost
                | with_reducible apply spinSnapshot_keepsHost | with_reducible apply captureLinks_keepsHost
                | with_reducible apply actOnLinks_keepsHost | with_reducible apply applyTaskActs_keepsHost
                | with_reducible apply taskSnapshot_keepsHost | with_reducible apply stopSnapshot_keepsHost
                | with_reducible apply graphSnapshot_keepsHost | with_reducible apply progressSnapshot_keepsHost

theorem governOne_keepsHost (t1 : Nat) (g : Region) (s : State) (r : Nat) (h : HostOk m p s.view) :
    HostOk m p (governOne t1 g s r).view := by
  unfold governOne
  dsimp only
  repeat' first | with_reducible assumption | with_reducible apply modLink_keepsHost
                | with_reducible apply governRobot_keepsHost | with_reducible apply feEvaluate_keepsHost
                | with_reducible apply followRobot_keepsHost
                | with_reducible apply modTr_keepsHost | with_reducible refine ite_keepsHost ?_ ?_ | split

theorem governPhase_keepsHost (t1 : Nat) (s : State) (h : HostOk m p s.view) :
    HostOk m p (governPhase t1 s).view := by
  unfold governPhase
  repeat' first | with_reducible assumption | with_reducible apply governOne_keepsHost
                | with_reducible refine foldl_keepsHost _ _ _ (fun _ _ _ => ?_) ?_

theorem tickPhases_keepsHost (phases : Nat) (s : State) (h : HostOk m p s.view) :
    HostOk m p (tickPhases phases s).view := by
  unfold tickPhases
  repeat' first | with_reducible assumption | with_reducible apply recordSwitch_keepsHost
                | with_reducible apply reservePhase_keepsHost | with_reducible apply markOverrun_keepsHost
                | with_reducible apply openTick_keepsHost | with_reducible apply snapshot_keepsHost
                | with_reducible apply governPhase_keepsHost | with_reducible refine ite_keepsHost ?_ ?_

theorem execTickBoundary_keepsHost (phases : Nat) (s : State) (t : State)
    (e : execTickBoundary phases s = .next t) (h : HostOk m p s.view) : HostOk m p t.view := by
  revert e
  unfold execTickBoundary
  repeat' first | with_reducible refine nextOk ?_ | with_reducible assumption
                | with_reducible apply begin__keepsHost | with_reducible apply beginAt_keepsHost
                | with_reducible apply tickPhases_keepsHost | with_reducible refine ite_keepsHost ?_ ?_

theorem sendMirror_keepsHost (s : State) (h : HostOk m p s.view) :
    HostOk m p (sendMirror s).view := by
  unfold sendMirror
  repeat' first | with_reducible assumption | with_reducible apply emit_keepsHost
                | with_reducible apply drawFresh_keepsHost | with_reducible refine ite_keepsHost ?_ ?_

theorem handOver_keepsHost (s : State) (h : HostOk m p s.view) :
    HostOk m p (handOver s).view := by
  unfold handOver
  repeat' first | with_reducible assumption | with_reducible apply complete_keepsHost
                | with_reducible apply becomeStandby_keepsHost
                | with_reducible refine foldl_keepsHost _ _ _ (fun _ _ _ => ?_) ?_
                | with_reducible refine ite_keepsHost ?_ ?_

theorem completeTick_keepsHost (s : State) (h : HostOk m p s.view) :
    HostOk m p (completeTick s).view := by
  unfold completeTick
  repeat' first | with_reducible assumption | with_reducible apply ceaseFault_keepsHost
                | with_reducible apply noteSlack_keepsHost | with_reducible apply sendMirror_keepsHost
                | with_reducible apply handOver_keepsHost

theorem execTickComplete_keepsHost (dt : Nat) (s : State) (t : State)
    (e : execTickComplete dt s = .next t) (h : HostOk m p s.view) : HostOk m p t.view := by
  revert e
  unfold execTickComplete
  repeat' first | with_reducible refine nextOk ?_ | with_reducible assumption
                | with_reducible apply begin__keepsHost | with_reducible apply stepPhase_keepsHost
                | with_reducible apply assemble_keepsHost | with_reducible apply markOverrun_keepsHost
                | with_reducible apply completeTick_keepsHost | with_reducible refine ite_keepsHost ?_ ?_

theorem refreshFsp_keepsHost (s : State) (h : HostOk m p s.view) :
    HostOk m p (refreshFsp s).view := by
  unfold refreshFsp
  repeat' first | with_reducible assumption

theorem releaseBeacons_keepsHost (hs : List Held) (s : State) (h : HostOk m p s.view) :
    HostOk m p (releaseBeacons hs s).view := by
  unfold releaseBeacons
  repeat' first | with_reducible assumption | with_reducible apply releaseGo_keepsHost
                | with_reducible refine foldl_keepsHost _ _ _ (fun _ _ _ => ?_) ?_
                | with_reducible refine ite_keepsHost ?_ ?_

theorem releaseTick_keepsHost (s : State) (h : HostOk m p s.view) :
    HostOk m p (releaseTick s).view := by
  unfold releaseTick
  dsimp only
  repeat' first | with_reducible assumption | with_reducible apply releaseUnicast_keepsHost
                | with_reducible apply releaseBeacons_keepsHost
                | with_reducible refine foldl_keepsHost _ _ _ (fun _ _ _ => ?_) ?_ | split

theorem emitGo_keepsHost (s : State) (h : HostOk m p s.view) :
    HostOk m p (emitGo s).view := by
  unfold emitGo
  repeat' first | with_reducible assumption | with_reducible apply laneSend_keepsHost
                | with_reducible apply refreshYard_keepsHost | with_reducible apply refreshFsp_keepsHost
                | with_reducible apply releaseTick_keepsHost

theorem execGoEmission_keepsHost (s : State) (t : State)
    (e : execGoEmission s = .next t) (h : HostOk m p s.view) : HostOk m p t.view := by
  revert e
  unfold execGoEmission
  repeat' first | with_reducible refine nextOk ?_ | with_reducible assumption
                | with_reducible apply begin__keepsHost | with_reducible apply beginAt_keepsHost
                | with_reducible apply emitGo_keepsHost | with_reducible refine ite_keepsHost ?_ ?_

theorem notAlive_keepsHost (s : State) (h : HostOk m p s.view) :
    HostOk m p (notAlive s).view := by
  unfold notAlive
  repeat' first | with_reducible assumption

theorem execFwAliveTimeout_keepsHost (s : State) (t : State)
    (e : execFwAliveTimeout s = .next t) (h : HostOk m p s.view) : HostOk m p t.view := by
  revert e
  unfold execFwAliveTimeout
  repeat' first | with_reducible refine nextOk ?_ | with_reducible assumption
                | with_reducible apply begin__keepsHost | with_reducible apply beginUp_keepsHost
                | with_reducible apply notAlive_keepsHost | split

end Sys2Proof.Machine
end

