-- ==== Sys2Proof/Laws/HostHealth.lean ====
section
/-! SUPPORT. The operations and meanings of the health monitors keep the registers of the host side as their tables
say, the member and the commands that wait (R64, R69, R71). -/
set_option autoImplicit false

namespace Sys2Proof.Machine

variable {m : Member} {p : List Instr}

theorem setMem_keepsHost (k : Nat) (x1 : EccMem) (s : State) (h : HostOk m p s.view) :
    HostOk m p (setMem k x1 s).view := by
  unfold setMem
  repeat' first | with_reducible assumption

theorem healthEvent_keepsHost (code detail : Nat) (ws : List Word) (s : State) (h : HostOk m p s.view) :
    HostOk m p (healthEvent code detail ws s).view := by
  unfold healthEvent
  repeat' first | with_reducible assumption | with_reducible apply setInt_keepsHost
                | with_reducible apply raise_keepsHost

theorem correctedError_keepsHost (k row : Nat) (s : State) (h : HostOk m p s.view) :
    HostOk m p (correctedError k row s).view := by
  unfold correctedError
  repeat' first | with_reducible assumption | with_reducible apply setMem_keepsHost

theorem execScrub_keepsHost (mem row : Nat) (corrected endPass : Bool) (dt : Nat) (s : State) (t : State)
    (e : execScrub mem row corrected endPass dt s = .next t) (h : HostOk m p s.view) : HostOk m p t.view := by
  revert e
  unfold execScrub
  dsimp only
  repeat' first | exact faultAny | with_reducible refine nextOk ?_ | with_reducible assumption
                | with_reducible apply begin__keepsHost | with_reducible apply setMem_keepsHost
                | with_reducible apply correctedError_keepsHost | split

theorem criticalError_keepsHost (s : State) (h : HostOk m p s.view) :
    HostOk m p (criticalError s).view := by
  unfold criticalError
  repeat' first | with_reducible assumption | with_reducible apply raiseFault_keepsHost
                | with_reducible apply assertPfault_keepsHost | with_reducible refine ite_keepsHost ?_ ?_

theorem errorAt_keepsHost (place : EccPlace) (s : State) (h : HostOk m p s.view) :
    HostOk m p (errorAt place s).view := by
  unfold errorAt
  repeat' first | with_reducible assumption | with_reducible apply setRing_keepsHost
                | with_reducible apply modRover_keepsHost | with_reducible apply modPort_keepsHost
                | with_reducible apply criticalError_keepsHost | split

theorem uncorrectable_keepsHost (mem off : Nat) (place : EccPlace) (s : State) (h : HostOk m p s.view) :
    HostOk m p (uncorrectable mem off place s).view := by
  unfold uncorrectable
  repeat' first | with_reducible assumption | with_reducible apply setMem_keepsHost
                | with_reducible apply healthEvent_keepsHost | with_reducible apply errorAt_keepsHost

theorem execEccUncorrectable_keepsHost (mem off : Nat) (place : EccPlace) (dt : Nat) (s : State) (t : State)
    (e : execEccUncorrectable mem off place dt s = .next t) (h : HostOk m p s.view) : HostOk m p t.view := by
  revert e
  unfold execEccUncorrectable
  repeat' first | exact faultAny | with_reducible refine nextOk ?_ | with_reducible assumption
                | with_reducible apply begin__keepsHost | with_reducible apply uncorrectable_keepsHost | split

theorem spareFail_keepsHost (pool unit left : Nat) (s : State) (h : HostOk m p s.view) :
    HostOk m p (spareFail pool unit left s).view := by
  unfold spareFail
  try dsimp only
  repeat' first | with_reducible assumption | with_reducible apply healthEvent_keepsHost
                | with_reducible refine ite_keepsHost ?_ ?_ | split

theorem laneFails_keepsHost (unit cluster : Nat) (good : Bool) (s : State) (h : HostOk m p s.view) :
    HostOk m p (laneFails unit cluster good s).view := by
  unfold laneFails
  repeat' first | with_reducible assumption | with_reducible apply capacityChange_keepsHost
                | with_reducible apply spareFail_keepsHost | with_reducible refine ite_keepsHost ?_ ?_

theorem channelFails_keepsHost (unit : Nat) (good : Bool) (s : State) (h : HostOk m p s.view) :
    HostOk m p (channelFails unit good s).view := by
  unfold channelFails
  repeat' first | with_reducible assumption | with_reducible apply setChan_keepsHost
                | with_reducible apply releaseChan_keepsHost | with_reducible apply spareFail_keepsHost
                | with_reducible refine ite_keepsHost ?_ ?_

theorem rowFails_keepsHost (mem row : Nat) (place : EccPlace) (good : Bool) (s : State) (h : HostOk m p s.view) :
    HostOk m p (rowFails mem row place good s).view := by
  unfold rowFails
  repeat' first | with_reducible assumption | with_reducible apply setMem_keepsHost
                | with_reducible apply uncorrectable_keepsHost | with_reducible apply spareFail_keepsHost
                | with_reducible refine ite_keepsHost ?_ ?_

theorem execUnitFailure_keepsHost (u : UnitFail) (dt : Nat) (s : State) (t : State)
    (e : execUnitFailure u dt s = .next t) (h : HostOk m p s.view) : HostOk m p t.view := by
  revert e
  unfold execUnitFailure
  dsimp only
  repeat' first | exact faultAny | with_reducible refine nextOk ?_ | with_reducible assumption
                | with_reducible apply begin__keepsHost | with_reducible apply laneFails_keepsHost
                | with_reducible apply channelFails_keepsHost | with_reducible apply rowFails_keepsHost | split

theorem replan_keepsHost (cause sC sS : Nat) (s : State) (h : HostOk m p s.view) :
    HostOk m p (replan cause sC sS s).view := by
  unfold replan
  try dsimp only
  repeat' first | with_reducible assumption | with_reducible apply healthEvent_keepsHost
                | with_reducible refine ite_keepsHost ?_ ?_ | split

theorem noteHour_keepsHost (s : State) (h : HostOk m p s.view) :
    HostOk m p (noteHour s).view := by
  unfold noteHour
  try dsimp only
  repeat' first | with_reducible assumption | with_reducible refine ite_keepsHost ?_ ?_ | split

theorem takeCause_keepsHost (cause : Nat) (s : State) (h : HostOk m p s.view) :
    HostOk m p (takeCause cause s).view := by
  unfold takeCause
  try dsimp only
  repeat' first | with_reducible assumption | with_reducible apply quarantine_keepsHost
                | with_reducible refine ite_keepsHost ?_ ?_ | split

theorem execMarginReplan_keepsHost (cause sC sS hour dt : Nat) (s : State) (t : State)
    (e : execMarginReplan cause sC sS hour dt s = .next t) (h : HostOk m p s.view) : HostOk m p t.view := by
  revert e
  unfold execMarginReplan
  try dsimp only
  repeat' first | exact faultAny | with_reducible refine nextOk ?_ | with_reducible assumption
                | with_reducible apply replan_keepsHost | with_reducible apply noteHour_keepsHost
                | with_reducible apply applySolve_keepsHost | with_reducible apply beginUp_keepsHost
                | with_reducible apply begin__keepsHost | with_reducible apply takeCause_keepsHost
                | with_reducible refine ite_keepsHost ?_ ?_ | split

theorem retireTested_keepsHost (bit unit : Nat) (s : State) (h : HostOk m p s.view) :
    HostOk m p (retireTested bit unit s).view := by
  unfold retireTested
  dsimp only
  repeat' first | with_reducible assumption | with_reducible apply quarantine_keepsHost
                | with_reducible apply setMem_keepsHost | with_reducible apply laneFails_keepsHost
                | with_reducible apply channelFails_keepsHost | split

theorem returnCores_keepsHost (s : State) (h : HostOk m p s.view) :
    HostOk m p (returnCores s).view := by
  unfold returnCores
  repeat' first | with_reducible assumption

theorem endSelftest_keepsHost (r : Req) (mask fail unit : Nat) (s : State) (h : HostOk m p s.view) :
    HostOk m p (endSelftest r mask fail unit s).view := by
  unfold endSelftest
  repeat' first | with_reducible assumption | with_reducible apply complete_keepsHost
                | with_reducible apply retireTested_keepsHost | with_reducible apply returnCores_keepsHost | split

theorem endCycle_keepsHost (fail unit duration : Nat) (s : State) (h : HostOk m p s.view) :
    HostOk m p (endCycle fail unit duration s).view := by
  unfold endCycle
  try dsimp only
  repeat' first | with_reducible assumption | with_reducible apply returnCores_keepsHost
                | with_reducible apply raise_keepsHost | with_reducible apply retireTested_keepsHost
                | with_reducible refine ite_keepsHost ?_ ?_ | split

theorem execSelftestCycleDone_keepsHost (fail unit duration dt : Nat) (s : State) (t : State)
    (e : execSelftestCycleDone fail unit duration dt s = .next t) (h : HostOk m p s.view) : HostOk m p t.view := by
  revert e
  unfold execSelftestCycleDone
  repeat' first | with_reducible refine nextOk ?_ | with_reducible assumption
                | with_reducible apply begin__keepsHost | with_reducible apply endSelftest_keepsHost
                | with_reducible apply endCycle_keepsHost | split

theorem healthGetBody_keepsHost (r : Req) (s : State) (t : State) (x : Reply)
    (e : healthGetBody r s = .ok (t, x)) (h : HostOk m p s.view) : HostOk m p t.view := by
  revert e
  unfold healthGetBody
  repeat' first | with_reducible refine bindNeed ?_ | with_reducible refine pureOk ?_ | with_reducible assumption

theorem descHealthGet_keepsHost : descHealthGet.Keeps m p :=
  fun r s t x e h => healthGetBody_keepsHost r s t x e h

theorem selftestRunBody_keepsHost (r : Req) (s : State) (t : State) (x : Reply)
    (e : selftestRunBody r s = .ok (t, x)) (h : HostOk m p s.view) : HostOk m p t.view := by
  revert e
  unfold selftestRunBody
  try dsimp only
  repeat' first | exact failAny | with_reducible refine bindNeed ?_ | with_reducible refine retOk ?_
                | with_reducible refine pureOk ?_ | with_reducible assumption
                | with_reducible refine ite_keepsHost ?_ ?_ | split

theorem descSelftestRun_keepsHost : descSelftestRun.Keeps m p :=
  fun r s t x e h => selftestRunBody_keepsHost r s t x e h

theorem marginGetBody_keepsHost (z0 : Req) (s : State) (t : State) (x : Reply)
    (e : marginGetBody z0 s = .ok (t, x)) (h : HostOk m p s.view) : HostOk m p t.view := by
  revert e
  unfold marginGetBody
  repeat' first | with_reducible refine retOk ?_ | with_reducible assumption

theorem descMarginGet_keepsHost : descMarginGet.Keeps m p :=
  fun r s t x e h => marginGetBody_keepsHost r s t x e h

end Sys2Proof.Machine
end

