-- ==== Sys2Proof/Laws/HostPair.lean ====
section
/-! SUPPORT. The operations and meanings of the pair unit keep the registers of the host side as their tables
say, the member and the commands that wait (R64, R69, R71). -/
set_option autoImplicit false

namespace Sys2Proof.Machine

variable {m : Member} {p : List Instr}

theorem reportPair_keepsHost (f : State → State) (s : State) (hf : ∀ a, HostOk m p a.view → HostOk m p (f a).view)
    (h : HostOk m p s.view) : HostOk m p (reportPair f s).view := by
  unfold reportPair
  dsimp only
  split
  · exact pairState_keepsHost _ (hf _ h)
  · exact hf _ h

theorem modPair_keepsHost (f : Pair → Pair) (s : State) (h : HostOk m p s.view) :
    HostOk m p (modPair f s).view := by
  unfold modPair
  repeat' first | with_reducible assumption

theorem missTick_keepsHost (n i t1 : Nat) (s : State) (h : HostOk m p s.view) :
    HostOk m p (missTick n i t1 s).view := by
  unfold missTick
  repeat' first | with_reducible assumption

theorem aimAt_keepsHost (t1 : Nat) (s : State) (h : HostOk m p s.view) :
    HostOk m p (aimAt t1 s).view := by
  unfold aimAt
  repeat' first | with_reducible assumption

theorem passBoundaries_keepsHost (s : State) (h : HostOk m p s.view) :
    HostOk m p (passBoundaries s).2.view := by
  unfold passBoundaries
  repeat' first | with_reducible assumption | with_reducible apply markOverrun_keepsHost
                | with_reducible apply missTick_keepsHost | with_reducible apply aimAt_keepsHost
                | with_reducible refine foldl_keepsHost _ _ _ (fun _ _ _ => ?_) ?_ | split

theorem passBoundaries_keepsHost_pair {s : State} {x0 : Nat} {t : State}
    (e : passBoundaries s = (x0, t)) (h : HostOk m p s.view) : HostOk m p t.view := by
  have := passBoundaries_keepsHost s h
  rwa [e] at this

theorem becomeActive_keepsHost (cause gap n passed : Nat) (s : State) (h : HostOk m p s.view) :
    HostOk m p (becomeActive cause gap n passed s).view := by
  unfold becomeActive
  repeat' first | with_reducible assumption | with_reducible apply setRole_keepsHost
                | with_reducible apply partnerTime_keepsHost

theorem arbitrate_keepsHost (wait : Nat) (s : State) (h : HostOk m p s.view) :
    HostOk m p (arbitrate wait s).view := by
  unfold arbitrate
  repeat' first | with_reducible assumption | with_reducible apply setRole_keepsHost
                | with_reducible apply dropFleet_keepsHost | with_reducible apply dropFrames_keepsHost | with_reducible apply abandonRound_keepsHost | with_reducible apply becomeStandby_keepsHost
                | with_reducible apply modPair_keepsHost | with_reducible refine ite_keepsHost ?_ ?_

theorem execArbitrationTimeout_keepsHost (s : State) (t : State)
    (e : execArbitrationTimeout s = .next t) (h : HostOk m p s.view) : HostOk m p t.view := by
  revert e
  unfold execArbitrationTimeout
  repeat' first | with_reducible refine nextOk ?_ | with_reducible assumption | with_reducible apply abandonRound_keepsHost
                | with_reducible apply begin__keepsHost | with_reducible apply beginUp_keepsHost
                | with_reducible apply passBoundaries_keepsHost | with_reducible apply becomeActive_keepsHost
                | with_reducible refine ite_keepsHost ?_ ?_

theorem execActCollision_keepsHost (dt : Nat) (s : State) (t : State)
    (e : execActCollision dt s = .next t) (h : HostOk m p s.view) : HostOk m p t.view := by
  revert e
  unfold execActCollision
  repeat' first | with_reducible refine nextOk ?_ | with_reducible assumption
                | with_reducible apply begin__keepsHost | with_reducible apply drawFresh_keepsHost
                | with_reducible apply raiseFault_keepsHost | with_reducible apply setRole_keepsHost
                | with_reducible apply dropFleet_keepsHost | with_reducible apply dropFrames_keepsHost | with_reducible apply abandonRound_keepsHost | with_reducible apply dropSwitch_keepsHost
                | with_reducible apply modPair_keepsHost | with_reducible refine ite_keepsHost ?_ ?_

theorem execSwitchTicksExpire_keepsHost (s : State) (t : State)
    (e : execSwitchTicksExpire s = .next t) (h : HostOk m p s.view) : HostOk m p t.view := by
  revert e
  unfold execSwitchTicksExpire
  repeat' first | with_reducible refine nextOk ?_ | with_reducible assumption
                | with_reducible apply begin__keepsHost | with_reducible apply beginUp_keepsHost
                | with_reducible apply leaveActive_keepsHost | split

theorem execActInLoss_keepsHost (dt : Nat) (s : State) (t : State)
    (e : execActInLoss dt s = .next t) (h : HostOk m p s.view) : HostOk m p t.view := by
  revert e
  unfold execActInLoss
  dsimp only
  repeat' first | with_reducible refine nextOk ?_ | with_reducible assumption
                | with_reducible apply begin__keepsHost
                | with_reducible refine reportPair_keepsHost _ _ (fun _ _ => ?_) ?_
                | with_reducible apply modPair_keepsHost | split

theorem execActInActive_keepsHost (dt : Nat) (s : State) (t : State)
    (e : execActInActive dt s = .next t) (h : HostOk m p s.view) : HostOk m p t.view := by
  revert e
  unfold execActInActive
  dsimp only
  repeat' first | with_reducible refine nextOk ?_ | with_reducible assumption
                | with_reducible apply begin__keepsHost | with_reducible apply becomeStandby_keepsHost
                | with_reducible refine reportPair_keepsHost _ _ (fun _ _ => ?_) ?_
                | with_reducible apply modPair_keepsHost | split

theorem execPfaultInChange_keepsHost (fault : Bool) (dt : Nat) (s : State) (t : State)
    (e : execPfaultInChange fault dt s = .next t) (h : HostOk m p s.view) : HostOk m p t.view := by
  revert e
  unfold execPfaultInChange
  repeat' first | with_reducible refine nextOk ?_ | with_reducible assumption
                | with_reducible apply begin__keepsHost
                | with_reducible refine reportPair_keepsHost _ _ (fun _ _ => ?_) ?_
                | with_reducible apply modPair_keepsHost | with_reducible refine ite_keepsHost ?_ ?_

theorem takeMirror_keepsHost (m1 : MirrorData) (s : State) (h : HostOk m p s.view) :
    HostOk m p (takeMirror m1 s).view := by
  unfold takeMirror
  repeat' first | with_reducible assumption

theorem followReset_keepsHost (s : State) (h : HostOk m p s.view) :
    HostOk m p (followReset s).view := by
  unfold followReset
  exact ite_keepsHost h h

theorem sendHealth_keepsHost (s : State) (h : HostOk m p s.view) :
    HostOk m p (sendHealth s).view := by
  unfold sendHealth
  repeat' first | with_reducible assumption | with_reducible apply emit_keepsHost
                | with_reducible apply modPair_keepsHost

theorem startResync_keepsHost (s : State) (h : HostOk m p s.view) :
    HostOk m p (startResync s).view := by
  unfold startResync
  repeat' first | with_reducible assumption | with_reducible apply emit_keepsHost
                | with_reducible apply modPair_keepsHost

theorem laneIn_keepsHost (seq : Nat) (s : State) (h : HostOk m p s.view) :
    HostOk m p (laneIn seq s).view := by
  unfold laneIn
  repeat' first | with_reducible assumption | with_reducible apply modPair_keepsHost
                | with_reducible apply startResync_keepsHost | with_reducible refine ite_keepsHost ?_ ?_

theorem unheard_keepsHost (s : State) (h : HostOk m p s.view) :
    HostOk m p (unheard s).view := by
  unfold unheard
  try dsimp only
  repeat' first | with_reducible assumption | with_reducible apply deny_keepsHost
                | with_reducible refine ite_keepsHost ?_ ?_ | split

theorem execMirror_keepsHost (seq : Nat) (m1 : MirrorData) (dt : Nat) (s : State) (t : State)
    (e : execMirror seq m1 dt s = .next t) (h : HostOk m p s.view) : HostOk m p t.view := by
  revert e
  unfold execMirror
  try dsimp only
  repeat' first | exact faultAny | with_reducible refine nextOk ?_ | with_reducible assumption
                | with_reducible apply begin__keepsHost | with_reducible apply unheard_keepsHost
                | with_reducible refine reportPair_keepsHost _ _ (fun _ _ => ?_) ?_
                | with_reducible apply modPair_keepsHost | with_reducible apply laneIn_keepsHost
                | with_reducible apply takeMirror_keepsHost | with_reducible apply followReset_keepsHost
                | with_reducible apply sendHealth_keepsHost | with_reducible refine ite_keepsHost ?_ ?_ | split

theorem execResyncComplete_keepsHost (m1 : MirrorData) (dt : Nat) (s : State) (t : State)
    (e : execResyncComplete m1 dt s = .next t) (h : HostOk m p s.view) : HostOk m p t.view := by
  revert e
  unfold execResyncComplete
  try dsimp only
  repeat' first | exact faultAny | with_reducible refine nextOk ?_ | with_reducible assumption
                | with_reducible apply begin__keepsHost | with_reducible apply unheard_keepsHost
                | with_reducible refine reportPair_keepsHost _ _ (fun _ _ => ?_) ?_
                | with_reducible apply modPair_keepsHost | with_reducible apply takeMirror_keepsHost
                | with_reducible apply followReset_keepsHost | with_reducible refine ite_keepsHost ?_ ?_ | split

theorem execBase_keepsHost (seq : Nat) (b : BaseEpoch) (arp : Option Arp) (dt : Nat) (s : State) (t : State)
    (e : execBase seq b arp dt s = .next t) (h : HostOk m p s.view) : HostOk m p t.view := by
  revert e
  unfold execBase
  try dsimp only
  repeat' first | exact faultAny | with_reducible refine nextOk ?_ | with_reducible assumption
                | with_reducible apply begin__keepsHost | with_reducible apply unheard_keepsHost
                | with_reducible refine reportPair_keepsHost _ _ (fun _ _ => ?_) ?_
                | with_reducible apply takeBase_keepsHost | with_reducible apply setArp_keepsHost
                | with_reducible apply laneIn_keepsHost | with_reducible refine ite_keepsHost ?_ ?_ | split

theorem execReleased_keepsHost (seq tick : Nat) (dt : Nat) (s : State) (t : State)
    (e : execReleased seq tick dt s = .next t) (h : HostOk m p s.view) : HostOk m p t.view := by
  revert e
  unfold execReleased
  try dsimp only
  repeat' first | exact faultAny | with_reducible refine nextOk ?_ | with_reducible assumption
                | with_reducible apply begin__keepsHost | with_reducible apply unheard_keepsHost
                | with_reducible refine reportPair_keepsHost _ _ (fun _ _ => ?_) ?_
                | with_reducible apply modPair_keepsHost | with_reducible apply laneIn_keepsHost
                | with_reducible refine ite_keepsHost ?_ ?_ | split

theorem execLaneError_keepsHost (dt : Nat) (s : State) (t : State)
    (e : execLaneError dt s = .next t) (h : HostOk m p s.view) : HostOk m p t.view := by
  revert e
  unfold execLaneError
  repeat' first | with_reducible refine nextOk ?_ | with_reducible assumption
                | with_reducible apply begin__keepsHost
                | with_reducible refine reportPair_keepsHost _ _ (fun _ _ => ?_) ?_
                | with_reducible apply startResync_keepsHost | with_reducible refine ite_keepsHost ?_ ?_

theorem execHealth_keepsHost (seq word role : Nat) (ready : Bool) (fw : Nat) (dt : Nat) (s : State) (t : State)
    (e : execHealth seq word role ready fw dt s = .next t) (h : HostOk m p s.view) : HostOk m p t.view := by
  revert e
  unfold execHealth
  try dsimp only
  repeat' first | exact faultAny | with_reducible refine nextOk ?_ | with_reducible assumption
                | with_reducible apply begin__keepsHost | with_reducible apply deny_keepsHost
                | with_reducible refine reportPair_keepsHost _ _ (fun _ _ => ?_) ?_
                | with_reducible apply modPair_keepsHost | with_reducible apply setInt_keepsHost
                | with_reducible apply ceaseFault_keepsHost | with_reducible refine ite_keepsHost ?_ ?_ | split

theorem execHexluxLaneChange_keepsHost (up prefer : Bool) (mac dt : Nat) (s : State) (t : State)
    (e : execHexluxLaneChange up prefer mac dt s = .next t) (h : HostOk m p s.view) : HostOk m p t.view := by
  revert e
  unfold execHexluxLaneChange
  repeat' first | with_reducible refine nextOk ?_ | with_reducible assumption
                | with_reducible apply begin__keepsHost | with_reducible apply partnerTime_keepsHost
                | with_reducible refine reportPair_keepsHost _ _ (fun _ _ => ?_) ?_
                | with_reducible apply modPair_keepsHost | with_reducible apply startResync_keepsHost
                | with_reducible refine ite_keepsHost ?_ ?_

theorem execDeadTimeExpire_keepsHost (s : State) (t : State)
    (e : execDeadTimeExpire s = .next t) (h : HostOk m p s.view) : HostOk m p t.view := by
  revert e
  unfold execDeadTimeExpire
  repeat' first | with_reducible refine nextOk ?_ | with_reducible assumption
                | with_reducible apply begin__keepsHost | with_reducible apply beginUp_keepsHost
                | with_reducible apply modPair_keepsHost | split

theorem announcePair_keepsHost (s : State) (h : HostOk m p s.view) :
    HostOk m p (announcePair s).view := by
  unfold announcePair
  repeat' first | with_reducible assumption | with_reducible apply emit_keepsHost
                | with_reducible apply enqueue_keepsHost
                | with_reducible refine foldl_keepsHost _ _ _ (fun _ _ _ => ?_) ?_
                | with_reducible refine ite_keepsHost ?_ ?_

theorem takeoverStop_keepsHost (s : State) (h : HostOk m p s.view) :
    HostOk m p (takeoverStop s).view := by
  unfold takeoverStop
  dsimp only
  repeat' first | with_reducible assumption | with_reducible apply latchSet_keepsHost | split

theorem takeoverFrames_keepsHost (k : Nat) (s : State) (h : HostOk m p s.view) :
    HostOk m p (takeoverFrames k s).view := by
  unfold takeoverFrames
  repeat' first | with_reducible assumption | with_reducible apply releaseTick_keepsHost
                | with_reducible refine ite_keepsHost ?_ ?_

theorem execTakeoverComplete_keepsHost (dt : Nat) (s : State) (t : State)
    (e : execTakeoverComplete dt s = .next t) (h : HostOk m p s.view) : HostOk m p t.view := by
  revert e
  unfold execTakeoverComplete
  try dsimp only
  repeat' first | exact faultAny | with_reducible refine nextOk ?_ | with_reducible assumption
                | with_reducible apply begin__keepsHost | with_reducible apply takeoverStop_keepsHost
                | with_reducible apply passBoundaries_keepsHost | with_reducible apply becomeActive_keepsHost
                | with_reducible apply announcePair_keepsHost | with_reducible apply abandonRound_keepsHost
                | with_reducible apply takeoverFrames_keepsHost | with_reducible refine ite_keepsHost ?_ ?_ | split

theorem becomeLone_keepsHost (s : State) (h : HostOk m p s.view) :
    HostOk m p (becomeLone s).view := by
  unfold becomeLone
  repeat' first | with_reducible assumption | with_reducible apply latchSet_keepsHost
                | with_reducible apply setRole_keepsHost | with_reducible apply partnerTime_keepsHost
                | with_reducible apply dropSwitch_keepsHost | with_reducible apply modPair_keepsHost
                | with_reducible apply passBoundaries_keepsHost | with_reducible refine ite_keepsHost ?_ ?_

theorem pairCfgBody_keepsHost (r : Req) (s : State) (t : State) (x : Reply)
    (e : pairCfgBody r s = .ok (t, x)) (h : HostOk m p s.view) : HostOk m p t.view := by
  revert e
  unfold pairCfgBody
  repeat' first | with_reducible refine pureOk ?_ | (with_reducible refine bindAny ?_; intro _ _)
                | with_reducible assumption | with_reducible apply touchSession_keepsHost
                | with_reducible apply setRole_keepsHost | with_reducible apply modPair_keepsHost
                | with_reducible apply becomeLone_keepsHost | split

theorem descPairCfg_keepsHost : descPairCfg.Keeps m p :=
  formLen_keeps (fun r s t x e h => pairCfgBody_keepsHost r s t x e h)

theorem pairGetBody_keepsHost (z0 : Req) (s : State) (t : State) (x : Reply)
    (e : pairGetBody z0 s = .ok (t, x)) (h : HostOk m p s.view) : HostOk m p t.view := by
  revert e
  unfold pairGetBody
  repeat' first | with_reducible refine retOk ?_ | with_reducible assumption

theorem descPairGet_keepsHost : descPairGet.Keeps m p :=
  fun r s t x e h => pairGetBody_keepsHost r s t x e h

theorem pairSwitchBody_keepsHost (r : Req) (s : State) (t : State) (x : Reply)
    (e : pairSwitchBody r s = .ok (t, x)) (h : HostOk m p s.view) : HostOk m p t.view := by
  revert e
  unfold pairSwitchBody
  repeat' first | with_reducible refine bindNeed ?_ | with_reducible refine pureOk ?_ | with_reducible assumption
                | with_reducible apply modPair_keepsHost

theorem descPairSwitch_keepsHost : descPairSwitch.Keeps m p :=
  fun r s t x e h => pairSwitchBody_keepsHost r s t x e h

theorem pairSelftestCfgBody_keepsHost (r : Req) (s : State) (t : State) (x : Reply)
    (e : pairSelftestCfgBody r s = .ok (t, x)) (h : HostOk m p s.view) : HostOk m p t.view := by
  revert e
  unfold pairSelftestCfgBody
  repeat' first | with_reducible refine bindNeed ?_ | with_reducible refine pureOk ?_ | with_reducible assumption
                | with_reducible apply modPair_keepsHost | with_reducible refine ite_keepsHost ?_ ?_

theorem descPairSelftestCfg_keepsHost : descPairSelftestCfg.Keeps m p :=
  formLen_keeps (fun r s t x e h => pairSelftestCfgBody_keepsHost r s t x e h)

end Sys2Proof.Machine
end

