-- ==== Sys2Proof/Laws/HostBoot.lean ====
section
/-! SUPPORT. The operations and meanings of the boot keep the registers of the host side as their tables
say, the member and the commands that wait (R64, R69, R71). -/
set_option autoImplicit false

namespace Sys2Proof.Machine

variable {m : Member} {p : List Instr}

theorem emptyCmdSide_keepsHost (x : Queue) (h : QueueOk x) : QueueOk (emptyCmdSide x) := by
  refine ⟨h.1, ?_⟩
  have h0 : CmdOk CmdSide.init := by unfold CmdOk; decide
  exact h0

theorem emptyCmdSides_keepsHost (s : State) (h : HostOk m p s.view) : HostOk m p (emptyCmdSides s).view := by
  refine ⟨h.1, h.2.1, h.2.2.1, fun y hy => ?_⟩
  obtain ⟨z, hz, e⟩ := List.mem_map.mp hy
  rw [← e]
  exact emptyCmdSide_keepsHost _ (h.2.2.2 _ hz)

theorem cancelAll_keepsHost (rs : List Req) (s : State) (h : HostOk m p s.view) :
    HostOk m p (cancelAll rs s).view := by
  unfold cancelAll
  repeat' first | with_reducible assumption | with_reducible apply complete_keepsHost
                | with_reducible refine foldl_keepsHost _ _ _ (fun _ _ _ => ?_) ?_

theorem endWaiting_keepsHost (s : State) (h : HostOk m p s.view) :
    HostOk m p (endWaiting s).view := by
  unfold endWaiting
  repeat' first | with_reducible assumption | with_reducible apply cancelAll_keepsHost
                | with_reducible apply finish_keepsHost
                | with_reducible refine foldl_keepsHost _ _ _ (fun _ _ _ => ?_) ?_

theorem endAll_keepsHost (s : State) (h : HostOk m p s.view) :
    HostOk m p (endAll s).view := by
  unfold endAll
  repeat' first | with_reducible assumption | with_reducible apply cancelAll_keepsHost
                | with_reducible apply endWaiting_keepsHost

theorem trainLink_keepsHost (s : State) (h : HostOk m p s.view) : HostOk m p (trainLink s).view :=
  ite_keepsHost h h

theorem bootInts_keepsHost (old s : State) (h : HostOk m p s.view) : HostOk m p (bootInts old s).view := by
  unfold bootInts
  repeat' first | with_reducible assumption | with_reducible apply setInt_keepsHost
                | with_reducible refine ite_keepsHost ?_ ?_

theorem softReset_keepsHost (s : State) (h : HostOk m p s.view) :
    HostOk m p (softReset s).view := by
  unfold softReset
  try dsimp only
  repeat' first | with_reducible assumption | with_reducible apply emptyCmdSides_keepsHost
                | with_reducible apply endWaiting_keepsHost | with_reducible apply endSession_keepsHost
                | with_reducible apply closeSession_keepsHost | with_reducible apply abortUpd_keepsHost
                | with_reducible apply resetGovernors_keepsHost | with_reducible apply noteBlocked_keepsHost
                | with_reducible refine foldl_keepsHost _ _ _ (fun _ _ _ => ?_) ?_
                | with_reducible refine ite_keepsHost ?_ ?_ | split

theorem settle_keepsHost (s : State) (h : HostOk m p s.view) :
    HostOk m p (settle s).view := by
  unfold settle
  repeat' first | with_reducible assumption | with_reducible apply softReset_keepsHost
                | with_reducible refine ite_keepsHost ?_ ?_

theorem execSoftResetReady_keepsHost (dt : Nat) (s : State) (t : State)
    (e : execSoftResetReady dt s = .next t) (h : HostOk m p s.view) : HostOk m p t.view := by
  revert e
  unfold execSoftResetReady
  repeat' first | with_reducible refine nextOk ?_ | with_reducible assumption
                | with_reducible apply begin__keepsHost | with_reducible refine ite_keepsHost ?_ ?_

theorem readRecord_keepsHost (s : State) (h : HostOk m p s.view) :
    HostOk m p (readRecord s).2.2.view := by
  unfold readRecord
  repeat' first | with_reducible assumption | with_reducible apply raise_keepsHost
                | with_reducible apply writeAct_keepsHost | with_reducible apply measureTakeover_keepsHost | split

theorem readRecord_keepsHost_pair {s : State} {x0 : Bool} {x1 : Nat} {t : State}
    (e : readRecord s = (x0, x1, t)) (h : HostOk m p s.view) : HostOk m p t.view := by
  have := readRecord_keepsHost s h
  rwa [e] at this

theorem measureBoot_keepsHost (b : Bool) (s : State) (h : HostOk m p s.view) :
    HostOk m p (measureBoot b s).view := by
  unfold measureBoot
  repeat' first | with_reducible assumption

theorem bootSession_keepsHost (result : Nat) (s : State) (h : HostOk m p s.view) :
    HostOk m p (bootSession result s).view := by
  unfold bootSession
  repeat' first | with_reducible assumption | with_reducible apply raise_keepsHost
                | with_reducible refine ite_keepsHost ?_ ?_

theorem dropStaged_keepsHost (s : State) (h : HostOk m p s.view) :
    HostOk m p (dropStaged s).view := by
  unfold dropStaged
  repeat' first | with_reducible assumption | with_reducible apply setBank_keepsHost
                | with_reducible refine ite_keepsHost ?_ ?_

theorem loadImage_keepsHost (s : State) (h : HostOk m p s.view) :
    HostOk m p (loadImage s).view := by
  unfold loadImage
  repeat' first | with_reducible assumption | with_reducible apply raise_keepsHost
                | with_reducible apply measureTakeover_keepsHost | with_reducible apply readRecord_keepsHost
                | with_reducible apply measureBoot_keepsHost | with_reducible apply bootSession_keepsHost
                | with_reducible refine modQ_keep_keepsHost _ _ _ (fun _ => rfl) (fun _ => rfl) ?_
                | with_reducible refine ite_keepsHost ?_ ?_

theorem bootFresh_keepsHost (s : State) (h : HostOk m p s.view) : HostOk m p (bootFresh s).view := by
  refine ⟨h.1, h.2.1, ?_, fun y hy => ?_⟩
  · show IntStatOk (List.replicate 32 false)
    refine ⟨by simp, fun k hk => ?_⟩
    unfold List.getD
    rw [List.getElem?_replicate]
    split <;> rfl
  · cases hy

theorem bootUp_keepsHost (s : State) (h : HostOk m p s.view) :
    HostOk m p (bootUp s).view := by
  unfold bootUp
  repeat' first | with_reducible assumption | with_reducible apply trainLink_keepsHost | with_reducible apply padTimers_keepsHost
                | with_reducible apply dropStaged_keepsHost | with_reducible apply loadImage_keepsHost
                | with_reducible apply bootFresh_keepsHost

theorem restartFresh_keepsHost (s : State) (h : HostOk m p s.view) : HostOk m p (restartFresh s).view := by
  have h3 := bootFresh_keepsHost s h
  exact ⟨h3.1, h3.2.1, h.2.2.1, h.2.2.2⟩

theorem restart_keepsHost (s : State) (h : HostOk m p s.view) :
    HostOk m p (restart s).view := by
  unfold restart
  try dsimp only
  repeat' first | with_reducible assumption | with_reducible apply complete_keepsHost
                | with_reducible apply emptyCmdSides_keepsHost | with_reducible apply endAll_keepsHost
                | with_reducible apply noteBlocked_keepsHost | with_reducible apply bootInts_keepsHost
                | with_reducible apply loadImage_keepsHost | with_reducible apply trainLink_keepsHost
                | with_reducible apply padTimers_keepsHost | with_reducible apply restartFresh_keepsHost
                | with_reducible refine ite_keepsHost ?_ ?_ | split

theorem execBootReady_keepsHost (dt : Nat) (s : State) (t : State)
    (e : execBootReady dt s = .next t) (h : HostOk m p s.view) : HostOk m p t.view := by
  revert e
  unfold execBootReady
  repeat' first | with_reducible refine nextOk ?_ | with_reducible assumption
                | with_reducible apply begin__keepsHost | with_reducible apply raise_keepsHost
                | with_reducible apply ceaseFault_keepsHost | with_reducible apply arbitrate_keepsHost
                | with_reducible refine ite_keepsHost ?_ ?_

theorem execRevertRestart_keepsHost (dt : Nat) (s : State) (t : State)
    (e : execRevertRestart dt s = .next t) (h : HostOk m p s.view) : HostOk m p t.view := by
  revert e
  unfold execRevertRestart
  repeat' first | with_reducible refine nextOk ?_ | with_reducible assumption
                | with_reducible apply begin__keepsHost | with_reducible apply restart_keepsHost
                | with_reducible refine ite_keepsHost ?_ ?_

end Sys2Proof.Machine
end

