-- ==== Sys2Proof/Laws/HostPower.lean ====
section
/-! SUPPORT. The operations and meanings of the supply keep the registers of the host side as their tables
say, the member and the commands that wait (R64, R69, R71). -/
set_option autoImplicit false

namespace Sys2Proof.Machine

variable {m : Member} {p : List Instr}

theorem riseActs_keepsHost (s : State) (h : HostOk m p s.view) :
    HostOk m p (riseActs s).view := by
  unfold riseActs
  repeat' first | with_reducible assumption | with_reducible apply bootUp_keepsHost | split

theorem execVinOn_keepsHost (dt : Nat) (s : State) (t : State)
    (e : execVinOn dt s = .next t) (h : HostOk m p s.view) : HostOk m p t.view := by
  revert e
  unfold execVinOn
  repeat' first | with_reducible refine nextOk ?_ | with_reducible assumption
                | with_reducible apply begin__keepsHost | with_reducible apply riseActs_keepsHost
                | with_reducible refine ite_keepsHost ?_ ?_

theorem execEnRise_keepsHost (dt : Nat) (s : State) (t : State)
    (e : execEnRise dt s = .next t) (h : HostOk m p s.view) : HostOk m p t.view := by
  revert e
  unfold execEnRise
  repeat' first | with_reducible refine nextOk ?_ | with_reducible assumption
                | with_reducible apply begin__keepsHost | with_reducible apply riseActs_keepsHost
                | with_reducible refine ite_keepsHost ?_ ?_

theorem fallActs_keepsHost (s : State) (h : HostOk m p s.view) :
    HostOk m p (fallActs s).view := by
  unfold fallActs
  repeat' first | with_reducible assumption | with_reducible apply powerDown_keepsHost
                | with_reducible refine ite_keepsHost ?_ ?_

theorem execEnFall_keepsHost (dt : Nat) (s : State) (t : State)
    (e : execEnFall dt s = .next t) (h : HostOk m p s.view) : HostOk m p t.view := by
  revert e
  unfold execEnFall
  repeat' first | with_reducible refine nextOk ?_ | with_reducible assumption
                | with_reducible apply begin__keepsHost | with_reducible apply fallActs_keepsHost

theorem execVinSupFall_keepsHost (dt : Nat) (s : State) (t : State)
    (e : execVinSupFall dt s = .next t) (h : HostOk m p s.view) : HostOk m p t.view := by
  revert e
  unfold execVinSupFall
  repeat' first | with_reducible refine nextOk ?_ | with_reducible assumption
                | with_reducible apply begin__keepsHost | with_reducible apply fallActs_keepsHost

theorem inStandby_keepsHost (s : State) (h : HostOk m p s.view) :
    HostOk m p (inStandby s).view := by
  unfold inStandby
  try dsimp only
  repeat' first | with_reducible assumption | with_reducible refine ite_keepsHost ?_ ?_ | split

theorem execPowerDownEnd_keepsHost (s : State) (t : State)
    (e : execPowerDownEnd s = .next t) (h : HostOk m p s.view) : HostOk m p t.view := by
  revert e
  unfold execPowerDownEnd
  try dsimp only
  repeat' first | exact faultAny | with_reducible refine nextOk ?_ | with_reducible assumption
                | with_reducible apply inStandby_keepsHost | with_reducible apply beginUp_keepsHost
                | with_reducible apply bootUp_keepsHost | with_reducible apply begin__keepsHost
                | with_reducible refine ite_keepsHost ?_ ?_ | split

theorem localSupplyFault_keepsHost (s : State) (h : HostOk m p s.view) :
    HostOk m p (localSupplyFault s).view := by
  unfold localSupplyFault
  repeat' first | with_reducible assumption | with_reducible apply abortProof_keepsHost
                | with_reducible apply latchSet_keepsHost | with_reducible apply assertPfault_keepsHost
                | with_reducible refine ite_keepsHost ?_ ?_

theorem supplyFault_keepsHost (kind mv : Nat) (s : State) (h : HostOk m p s.view) :
    HostOk m p (supplyFault kind mv s).view := by
  unfold supplyFault
  repeat' first | with_reducible assumption | with_reducible apply raise_keepsHost
                | with_reducible apply raiseFault_keepsHost | with_reducible apply localSupplyFault_keepsHost
                | with_reducible refine ite_keepsHost ?_ ?_

theorem execVinLow_keepsHost (mv dt : Nat) (s : State) (t : State)
    (e : execVinLow mv dt s = .next t) (h : HostOk m p s.view) : HostOk m p t.view := by
  revert e
  unfold execVinLow
  repeat' first | with_reducible refine nextOk ?_ | with_reducible assumption
                | with_reducible apply begin__keepsHost | with_reducible apply supplyFault_keepsHost
                | with_reducible refine ite_keepsHost ?_ ?_

theorem execVinHigh_keepsHost (mv dt : Nat) (s : State) (t : State)
    (e : execVinHigh mv dt s = .next t) (h : HostOk m p s.view) : HostOk m p t.view := by
  revert e
  unfold execVinHigh
  repeat' first | with_reducible refine nextOk ?_ | with_reducible assumption
                | with_reducible apply begin__keepsHost | with_reducible apply supplyFault_keepsHost
                | with_reducible refine ite_keepsHost ?_ ?_

theorem ceaseFive_keepsHost (s : State) (h : HostOk m p s.view) :
    HostOk m p (ceaseFive s).view := by
  unfold ceaseFive
  repeat' first | with_reducible assumption | with_reducible apply ceaseFault_keepsHost
                | with_reducible refine ite_keepsHost ?_ ?_

theorem execVinFaultCease_keepsHost (high : Bool) (mv dt : Nat) (s : State) (t : State)
    (e : execVinFaultCease high mv dt s = .next t) (h : HostOk m p s.view) : HostOk m p t.view := by
  revert e
  unfold execVinFaultCease
  repeat' first | with_reducible refine nextOk ?_ | with_reducible assumption
                | with_reducible apply begin__keepsHost | with_reducible apply raise_keepsHost
                | with_reducible refine reportPair_keepsHost _ _ (fun _ _ => ?_) ?_
                | with_reducible apply ceaseFive_keepsHost | with_reducible refine ite_keepsHost ?_ ?_

theorem thermal_keepsHost (detail : Nat) (s : State) (h : HostOk m p s.view) :
    HostOk m p (thermal detail s).view := by
  unfold thermal
  repeat' first | with_reducible assumption | with_reducible apply raise_keepsHost

theorem warnStep_keepsHost (t1 : Int) (s : State) (h : HostOk m p s.view) :
    HostOk m p (warnStep t1 s).view := by
  unfold warnStep
  repeat' first | with_reducible assumption | with_reducible apply thermal_keepsHost
                | with_reducible refine ite_keepsHost ?_ ?_

theorem rangeStep_keepsHost (t1 : Int) (s : State) (h : HostOk m p s.view) :
    HostOk m p (rangeStep t1 s).view := by
  unfold rangeStep
  repeat' first | with_reducible assumption | with_reducible apply raiseFault_keepsHost
                | with_reducible apply ceaseFive_keepsHost | with_reducible refine ite_keepsHost ?_ ?_

theorem execLidTempSample_keepsHost (temp : Int) (dt : Nat) (s : State) (t : State)
    (e : execLidTempSample temp dt s = .next t) (h : HostOk m p s.view) : HostOk m p t.view := by
  revert e
  unfold execLidTempSample
  repeat' first | with_reducible refine nextOk ?_ | with_reducible assumption
                | with_reducible apply begin__keepsHost | with_reducible apply warnStep_keepsHost
                | with_reducible apply rangeStep_keepsHost | with_reducible refine ite_keepsHost ?_ ?_

theorem throttle_keepsHost (s : State) (h : HostOk m p s.view) :
    HostOk m p (throttle s).view := by
  unfold throttle
  repeat' first | with_reducible assumption | with_reducible apply setSolve_keepsHost
                | with_reducible apply thermal_keepsHost | with_reducible refine ite_keepsHost ?_ ?_

theorem execThrottleStep_keepsHost (s : State) (t : State)
    (e : execThrottleStep s = .next t) (h : HostOk m p s.view) : HostOk m p t.view := by
  revert e
  unfold execThrottleStep
  repeat' first | with_reducible refine nextOk ?_ | with_reducible assumption
                | with_reducible apply begin__keepsHost | with_reducible apply beginUp_keepsHost
                | with_reducible apply throttle_keepsHost | with_reducible refine ite_keepsHost ?_ ?_

theorem execJunctionOvertemp_keepsHost (dt : Nat) (s : State) (t : State)
    (e : execJunctionOvertemp dt s = .next t) (h : HostOk m p s.view) : HostOk m p t.view := by
  revert e
  unfold execJunctionOvertemp
  repeat' first | with_reducible refine nextOk ?_ | with_reducible assumption
                | with_reducible apply begin__keepsHost | with_reducible apply raiseFault_keepsHost
                | with_reducible apply afterBurst_keepsHost | with_reducible apply thermal_keepsHost
                | with_reducible refine ite_keepsHost ?_ ?_

theorem execPerstNChange_keepsHost (a : PerstLevel) (dt : Nat) (s : State) (t : State)
    (e : execPerstNChange a dt s = .next t) (h : HostOk m p s.view) : HostOk m p t.view := by
  revert e
  unfold execPerstNChange
  repeat' first | with_reducible refine nextOk ?_ | with_reducible assumption
                | with_reducible apply begin__keepsHost | with_reducible apply trainLink_keepsHost | with_reducible refine ite_keepsHost ?_ ?_

theorem execPcieLinkError_keepsHost (kind : PcieErr) (dt : Nat) (s : State) (t : State)
    (e : execPcieLinkError kind dt s = .next t) (h : HostOk m p s.view) : HostOk m p t.view := by
  revert e
  unfold execPcieLinkError
  repeat' first | with_reducible refine nextOk ?_ | with_reducible assumption
                | with_reducible apply setSysErr_keepsHost | with_reducible apply begin__keepsHost | with_reducible apply trainLink_keepsHost | split

end Sys2Proof.Machine
end

