-- ==== Sys2Proof/Laws/HostPtp.lean ====
section
/-! SUPPORT. The operations and meanings of the PTP instances keep the registers of the host side as their tables
say, the member and the commands that wait (R64, R69, R71). -/
set_option autoImplicit false

namespace Sys2Proof.Machine

variable {m : Member} {p : List Instr}

theorem judgePtp_keepsHost (port : Nat) (s : State) (h : HostOk m p s.view) :
    HostOk m p (judgePtp port s).view := by
  unfold judgePtp
  repeat' first | with_reducible assumption | with_reducible apply sourceHolds_keepsHost
                | with_reducible apply loseSource_keepsHost | with_reducible refine ite_keepsHost ?_ ?_

theorem ptpAnnounce_keepsHost (m1 : PtpMsg) (s : State) (h : HostOk m p s.view) :
    HostOk m p (ptpAnnounce m1 s).view := by
  unfold ptpAnnounce
  repeat' first | with_reducible assumption | with_reducible apply judgePtp_keepsHost

theorem ptpOffset_keepsHost (m1 : PtpMsg) (s : State) (h : HostOk m p s.view) :
    HostOk m p (ptpOffset m1 s).view := by
  unfold ptpOffset
  try dsimp only
  repeat' first | with_reducible assumption | with_reducible apply setSource_keepsHost
                | with_reducible apply setPtpPort_keepsHost | with_reducible refine ite_keepsHost ?_ ?_ | split

theorem ptpAnswer_keepsHost (m1 : PtpMsg) (s : State) (h : HostOk m p s.view) :
    HostOk m p (ptpAnswer m1 s).view := by
  unfold ptpAnswer
  try dsimp only
  repeat' first | with_reducible assumption | with_reducible apply setPtpPort_keepsHost
                | with_reducible apply emit_keepsHost | with_reducible refine ite_keepsHost ?_ ?_ | split

theorem execPtpMessageRx_keepsHost (m1 : PtpMsg) (dt : Nat) (s : State) (t : State)
    (e : execPtpMessageRx m1 dt s = .next t) (h : HostOk m p s.view) : HostOk m p t.view := by
  revert e
  unfold execPtpMessageRx
  try dsimp only
  repeat' first | exact faultAny | with_reducible refine nextOk ?_ | with_reducible assumption
                | with_reducible apply begin__keepsHost | with_reducible apply ptpAnnounce_keepsHost
                | with_reducible apply setPtpPort_keepsHost | with_reducible apply ptpOffset_keepsHost
                | with_reducible apply ptpAnswer_keepsHost | with_reducible refine ite_keepsHost ?_ ?_ | split

theorem dropMaster_keepsHost (port identity : Nat) (s : State) (h : HostOk m p s.view) :
    HostOk m p (dropMaster port identity s).view := by
  unfold dropMaster
  repeat' first | with_reducible assumption | with_reducible apply judgePtp_keepsHost

theorem execPtpAnnounceTimeout_keepsHost (port identity : Nat) (s : State) (t : State)
    (e : execPtpAnnounceTimeout port identity s = .next t) (h : HostOk m p s.view) : HostOk m p t.view := by
  revert e
  unfold execPtpAnnounceTimeout
  repeat' first | exact faultAny | with_reducible refine nextOk ?_ | with_reducible assumption
                | with_reducible apply begin__keepsHost | with_reducible apply beginUp_keepsHost
                | with_reducible apply dropMaster_keepsHost | split

theorem ptpSend_keepsHost (port kind domain n : Nat) (s : State) (h : HostOk m p s.view) :
    HostOk m p (ptpSend port kind domain n s).view := by
  unfold ptpSend
  try dsimp only
  repeat' first | with_reducible assumption | with_reducible apply emit_keepsHost
                | with_reducible refine ite_keepsHost ?_ ?_ | split

theorem fleetSend_keepsHost (sec : Nat) (s : State) (port : Nat) (h : HostOk m p s.view) :
    HostOk m p (fleetSend sec s port).view := by
  unfold fleetSend
  try dsimp only
  repeat' first | with_reducible assumption | with_reducible apply emit_keepsHost
                | with_reducible apply ptpSend_keepsHost | with_reducible apply setPtpPort_keepsHost
                | with_reducible refine ite_keepsHost ?_ ?_ | split

theorem delaySend_keepsHost (sec : Nat) (s : State) (port : Nat) (h : HostOk m p s.view) :
    HostOk m p (delaySend sec s port).view := by
  unfold delaySend
  try dsimp only
  repeat' first | with_reducible assumption | with_reducible apply ptpSend_keepsHost
                | with_reducible refine ite_keepsHost ?_ ?_ | split

theorem ptpSecond_keepsHost (s : State) (h : HostOk m p s.view) :
    HostOk m p (ptpSecond s).view := by
  unfold ptpSecond
  try dsimp only
  repeat' first | with_reducible assumption | with_reducible apply fleetSend_keepsHost
                | with_reducible apply delaySend_keepsHost
                | with_reducible refine foldl_keepsHost _ _ _ (fun _ _ _ => ?_) ?_
                | with_reducible refine ite_keepsHost ?_ ?_ | split

theorem asymWritten_keepsHost (port : Nat) (s : State) (h : HostOk m p s.view) :
    HostOk m p (asymWritten port s).view := by
  unfold asymWritten
  repeat' first | with_reducible assumption | with_reducible apply raise_keepsHost
                | with_reducible apply setSource_keepsHost | with_reducible apply reselect_keepsHost
                | with_reducible apply endSuspect_keepsHost | with_reducible refine ite_keepsHost ?_ ?_

theorem takePtp_keepsHost (s : State) (h : HostOk m p s.view) :
    HostOk m p (takePtp s).view := by
  unfold takePtp
  try dsimp only
  repeat' first | with_reducible assumption | with_reducible apply judgePtp_keepsHost
                | with_reducible apply asymWritten_keepsHost
                | with_reducible refine foldl_keepsHost _ _ _ (fun _ _ _ => ?_) ?_
                | with_reducible refine ite_keepsHost ?_ ?_ | split

theorem noteTrend_keepsHost (s : State) (h : HostOk m p s.view) :
    HostOk m p (noteTrend s).view := by
  unfold noteTrend
  try dsimp only
  repeat' first | with_reducible assumption | with_reducible apply take_keepsHost
                | with_reducible refine ite_keepsHost ?_ ?_ | split

theorem servoSecond_keepsHost (t1 : Nat) (partner : Int) (s0 : State) (h : HostOk m p s0.view) :
    HostOk m p (servoSecond t1 partner s0).view := by
  unfold servoSecond
  try dsimp only
  repeat' first | with_reducible assumption | with_reducible apply endDenials_keepsHost
                | with_reducible apply takeThetas_keepsHost | with_reducible apply takePtp_keepsHost
                | with_reducible apply reselect_keepsHost | with_reducible apply ptpSecond_keepsHost
                | with_reducible apply updateTq_keepsHost | with_reducible apply asymDetect_keepsHost
                | with_reducible apply stepBack_keepsHost | with_reducible apply noteTrend_keepsHost
                | with_reducible apply servoLaws_keepsHost | with_reducible apply rideCheck_keepsHost
                | with_reducible refine ite_keepsHost ?_ ?_ | split

theorem execServoSecond_keepsHost (partner : Int) (s : State) (t : State)
    (e : execServoSecond partner s = .next t) (h : HostOk m p s.view) : HostOk m p t.view := by
  revert e
  unfold execServoSecond
  try dsimp only
  repeat' first | exact faultAny | with_reducible refine nextOk ?_ | with_reducible assumption
                | with_reducible apply servoSecond_keepsHost | with_reducible apply beginAt_keepsHost
                | with_reducible apply begin__keepsHost | with_reducible refine ite_keepsHost ?_ ?_ | split

theorem ptpCfgBody_keepsHost (r : Req) (s : State) (t : State) (x : Reply)
    (e : ptpCfgBody r s = .ok (t, x)) (h : HostOk m p s.view) : HostOk m p t.view := by
  revert e
  unfold ptpCfgBody
  try dsimp only
  repeat' first | exact failAny | with_reducible refine bindNeed ?_ | with_reducible refine retOk ?_
                | with_reducible refine pureOk ?_ | with_reducible assumption
                | with_reducible apply setPtpPort_keepsHost | with_reducible refine ite_keepsHost ?_ ?_ | split

theorem descPtpCfg_keepsHost : descPtpCfg.Keeps m p :=
  formLen_keeps (fun r s t x e h => ptpCfgBody_keepsHost r s t x e h)

end Sys2Proof.Machine
end

