-- ==== Sys2Proof/Laws/HostJobs.lean ====
section
/-! SUPPORT. The operations and meanings of the host jobs keep the registers of the host side as their tables
say, the member and the commands that wait (R64, R69, R71). -/
set_option autoImplicit false

namespace Sys2Proof.Machine

variable {m : Member} {p : List Instr}

theorem descs0_keepsHost : ∀ d ∈ descs0, Desc.Keeps m p d := by
  unfold descs0
  refine List.forall_mem_cons.mpr ⟨descNop_keepsHost, ?_⟩
  refine List.forall_mem_cons.mpr ⟨descGetInfo_keepsHost, ?_⟩
  refine List.forall_mem_cons.mpr ⟨descGetStatus_keepsHost, ?_⟩
  refine List.forall_mem_cons.mpr ⟨descSetTick_keepsHost, ?_⟩
  refine List.forall_mem_cons.mpr ⟨descSoftReset_keepsHost, ?_⟩
  refine List.forall_mem_cons.mpr ⟨descGetCounters_keepsHost, ?_⟩
  refine List.forall_mem_cons.mpr ⟨descGnssConfig_keepsHost, ?_⟩
  refine List.forall_mem_cons.mpr ⟨descGnssChannelSet_keepsHost, ?_⟩
  refine List.forall_mem_cons.mpr ⟨descGnssGetChannels_keepsHost, ?_⟩
  refine List.forall_mem_cons.mpr ⟨descGnssSetAntenna_keepsHost, ?_⟩
  refine List.forall_mem_cons.mpr ⟨descGnssNavSubscribe_keepsHost, ?_⟩
  refine List.forall_mem_cons.mpr ⟨descGnssSetIsb_keepsHost, ?_⟩
  refine List.forall_mem_cons.mpr ⟨descGnssSurvey_keepsHost, ?_⟩
  refine List.forall_mem_cons.mpr ⟨descGnssIntegrityCfg_keepsHost, ?_⟩
  refine List.forall_mem_cons.mpr ⟨descGnssGetObs_keepsHost, ?_⟩
  refine List.forall_mem_cons.mpr ⟨descCorrStreamCfg_keepsHost, ?_⟩
  refine List.forall_mem_cons.mpr ⟨descCorrGetStats_keepsHost, ?_⟩
  refine List.forall_mem_cons.mpr ⟨descRoverBind_keepsHost, ?_⟩
  refine List.forall_mem_cons.mpr ⟨descRoverCfg_keepsHost, ?_⟩
  refine List.forall_mem_cons.mpr ⟨descRoverGetFix_keepsHost, ?_⟩
  exact fun _ h => absurd h (by simp)

theorem descs1_keepsHost : ∀ d ∈ descs1, Desc.Keeps m p d := by
  unfold descs1
  refine List.forall_mem_cons.mpr ⟨descRoverSubscribe_keepsHost, ?_⟩
  refine List.forall_mem_cons.mpr ⟨descRoverResetAmb_keepsHost, ?_⟩
  refine List.forall_mem_cons.mpr ⟨descRoverGetStats_keepsHost, ?_⟩
  refine List.forall_mem_cons.mpr ⟨descTrackOrigin_keepsHost, ?_⟩
  refine List.forall_mem_cons.mpr ⟨descTrackLoadNodes_keepsHost, ?_⟩
  refine List.forall_mem_cons.mpr ⟨descTrackLoadSlivers_keepsHost, ?_⟩
  refine List.forall_mem_cons.mpr ⟨descTrackCommit_keepsHost, ?_⟩
  refine List.forall_mem_cons.mpr ⟨descDeckleLoad_keepsHost, ?_⟩
  refine List.forall_mem_cons.mpr ⟨descResvGet_keepsHost, ?_⟩
  refine List.forall_mem_cons.mpr ⟨descResvRelease_keepsHost, ?_⟩
  refine List.forall_mem_cons.mpr ⟨descRouteSet_keepsHost, ?_⟩
  refine List.forall_mem_cons.mpr ⟨descTaskPost_keepsHost, ?_⟩
  refine List.forall_mem_cons.mpr ⟨descTaskCancel_keepsHost, ?_⟩
  refine List.forall_mem_cons.mpr ⟨descAllotCfg_keepsHost, ?_⟩
  refine List.forall_mem_cons.mpr ⟨descAllotRun_keepsHost, ?_⟩
  refine List.forall_mem_cons.mpr ⟨descAllotGet_keepsHost, ?_⟩
  refine List.forall_mem_cons.mpr ⟨descAllotCommit_keepsHost, ?_⟩
  refine List.forall_mem_cons.mpr ⟨descSpinProfileSet_keepsHost, ?_⟩
  refine List.forall_mem_cons.mpr ⟨descSpinStartAt_keepsHost, ?_⟩
  refine List.forall_mem_cons.mpr ⟨descSpinHold_keepsHost, ?_⟩
  exact fun _ h => absurd h (by simp)

theorem descs2_keepsHost : ∀ d ∈ descs2, Desc.Keeps m p d := by
  unfold descs2
  refine List.forall_mem_cons.mpr ⟨descSpinGet_keepsHost, ?_⟩
  refine List.forall_mem_cons.mpr ⟨descPostDefine_keepsHost, ?_⟩
  refine List.forall_mem_cons.mpr ⟨descPostHome_keepsHost, ?_⟩
  refine List.forall_mem_cons.mpr ⟨descSpinMode_keepsHost, ?_⟩
  refine List.forall_mem_cons.mpr ⟨descYardOutSet_keepsHost, ?_⟩
  refine List.forall_mem_cons.mpr ⟨descGovCoefLoad_keepsHost, ?_⟩
  refine List.forall_mem_cons.mpr ⟨descGovCoefSwap_keepsHost, ?_⟩
  refine List.forall_mem_cons.mpr ⟨descGovLimits_keepsHost, ?_⟩
  refine List.forall_mem_cons.mpr ⟨descGovFeCfg_keepsHost, ?_⟩
  refine List.forall_mem_cons.mpr ⟨descGovGet_keepsHost, ?_⟩
  refine List.forall_mem_cons.mpr ⟨descGovCapSet_keepsHost, ?_⟩
  refine List.forall_mem_cons.mpr ⟨descStopFleet_keepsHost, ?_⟩
  refine List.forall_mem_cons.mpr ⟨descStopRobot_keepsHost, ?_⟩
  refine List.forall_mem_cons.mpr ⟨descStopReset_keepsHost, ?_⟩
  refine List.forall_mem_cons.mpr ⟨descStopCfg_keepsHost, ?_⟩
  refine List.forall_mem_cons.mpr ⟨descStopGet_keepsHost, ?_⟩
  refine List.forall_mem_cons.mpr ⟨descStopTest_keepsHost, ?_⟩
  refine List.forall_mem_cons.mpr ⟨descNetPortCfg_keepsHost, ?_⟩
  refine List.forall_mem_cons.mpr ⟨descNetVlan_keepsHost, ?_⟩
  refine List.forall_mem_cons.mpr ⟨descNetFdbAdd_keepsHost, ?_⟩
  exact fun _ h => absurd h (by simp)

theorem descs3_keepsHost : ∀ d ∈ descs3, Desc.Keeps m p d := by
  unfold descs3
  refine List.forall_mem_cons.mpr ⟨descNetFdbGet_keepsHost, ?_⟩
  refine List.forall_mem_cons.mpr ⟨descNetRouteAdd_keepsHost, ?_⟩
  refine List.forall_mem_cons.mpr ⟨descNetRouteDel_keepsHost, ?_⟩
  refine List.forall_mem_cons.mpr ⟨descNetAgeCfg_keepsHost, ?_⟩
  refine List.forall_mem_cons.mpr ⟨descNetQosCfg_keepsHost, ?_⟩
  refine List.forall_mem_cons.mpr ⟨descTimeSourceCfg_keepsHost, ?_⟩
  refine List.forall_mem_cons.mpr ⟨descTimeGet_keepsHost, ?_⟩
  refine List.forall_mem_cons.mpr ⟨descTimeSet_keepsHost, ?_⟩
  refine List.forall_mem_cons.mpr ⟨descPpsCfg_keepsHost, ?_⟩
  refine List.forall_mem_cons.mpr ⟨descPtpCfg_keepsHost, ?_⟩
  refine List.forall_mem_cons.mpr ⟨descServoCfg_keepsHost, ?_⟩
  refine List.forall_mem_cons.mpr ⟨descTimeMode_keepsHost, ?_⟩
  refine List.forall_mem_cons.mpr ⟨descRecCfg_keepsHost, ?_⟩
  refine List.forall_mem_cons.mpr ⟨descRecRead_keepsHost, ?_⟩
  refine List.forall_mem_cons.mpr ⟨descRecMark_keepsHost, ?_⟩
  refine List.forall_mem_cons.mpr ⟨descRecSnapshot_keepsHost, ?_⟩
  refine List.forall_mem_cons.mpr ⟨descRecWrite_keepsHost, ?_⟩
  refine List.forall_mem_cons.mpr ⟨descRecErase_keepsHost, ?_⟩
  refine List.forall_mem_cons.mpr ⟨descPairCfg_keepsHost, ?_⟩
  refine List.forall_mem_cons.mpr ⟨descPairGet_keepsHost, ?_⟩
  exact fun _ h => absurd h (by simp)

theorem descs4_keepsHost : ∀ d ∈ descs4, Desc.Keeps m p d := by
  unfold descs4
  refine List.forall_mem_cons.mpr ⟨descPairSwitch_keepsHost, ?_⟩
  refine List.forall_mem_cons.mpr ⟨descPairSelftestCfg_keepsHost, ?_⟩
  refine List.forall_mem_cons.mpr ⟨descUpdOpen_keepsHost, ?_⟩
  refine List.forall_mem_cons.mpr ⟨descUpdHeader_keepsHost, ?_⟩
  refine List.forall_mem_cons.mpr ⟨descUpdData_keepsHost, ?_⟩
  refine List.forall_mem_cons.mpr ⟨descUpdVerify_keepsHost, ?_⟩
  refine List.forall_mem_cons.mpr ⟨descUpdActivate_keepsHost, ?_⟩
  refine List.forall_mem_cons.mpr ⟨descUpdConfirm_keepsHost, ?_⟩
  refine List.forall_mem_cons.mpr ⟨descUpdAbort_keepsHost, ?_⟩
  refine List.forall_mem_cons.mpr ⟨descUpdGet_keepsHost, ?_⟩
  refine List.forall_mem_cons.mpr ⟨descSecAttest_keepsHost, ?_⟩
  refine List.forall_mem_cons.mpr ⟨descSecAclGet_keepsHost, ?_⟩
  refine List.forall_mem_cons.mpr ⟨descSecAclSet_keepsHost, ?_⟩
  refine List.forall_mem_cons.mpr ⟨descSecRobotKey_keepsHost, ?_⟩
  refine List.forall_mem_cons.mpr ⟨descSecCfgSession_keepsHost, ?_⟩
  refine List.forall_mem_cons.mpr ⟨descSchedGet_keepsHost, ?_⟩
  refine List.forall_mem_cons.mpr ⟨descHealthGet_keepsHost, ?_⟩
  refine List.forall_mem_cons.mpr ⟨descSelftestRun_keepsHost, ?_⟩
  refine List.forall_mem_cons.mpr ⟨descMarginGet_keepsHost, ?_⟩
  exact fun _ h => absurd h (by simp)

theorem descIn_keepsHost (op : Nat) (d : Desc) (e : descIn op = some d) : d.Keeps m p := by
  have hm := List.mem_of_find?_eq_some e
  unfold descList at hm
  simp only [List.mem_append] at hm
  rcases hm with (((h | h) | h) | h) | h
  · exact descs0_keepsHost d h
  · exact descs1_keepsHost d h
  · exact descs2_keepsHost d h
  · exact descs3_keepsHost d h
  · exact descs4_keepsHost d h

theorem schedJobDefineBody_keepsHost (r : Req) (s : State) (t : State) (x : Reply)
    (e : schedJobDefineBody r s = .ok (t, x)) (h : HostOk m p s.view) : HostOk m p t.view := by
  revert e
  unfold schedJobDefineBody
  repeat' first | exact failAny | with_reducible refine bindNeed ?_ | with_reducible refine pureOk ?_
                | with_reducible assumption | with_reducible apply setHostJob_keepsHost | split

theorem descSchedJobDefine_keepsHost : descSchedJobDefine.Keeps m p :=
  formLen_keeps (fun r s t x e h => schedJobDefineBody_keepsHost r s t x e h)

theorem descOf_keepsHost (op : Nat) (d : Desc) (e : descOf op = some d) : d.Keeps m p := by
  unfold descOf at e
  split at e
  · cases e; exact descSchedJobDefine_keepsHost
  · exact descIn_keepsHost op d e

theorem runHostJob_keepsHost (k : Nat) (s : State) (h : HostOk m p s.view) : HostOk m p (runHostJob k s).view := by
  unfold runHostJob
  split
  · exact h
  · dsimp only
    split
    · exact failReq_keepsHost _ _ _ h
    · rename_i c e
      split
      · exact failReq_keepsHost _ _ _ (ite_keepsHost (deny_keepsHost _ _ _ _ _ h) h)
      · exact runNow_keepsHost (descOf_keepsHost _ _ e) _ _ _ h

theorem execJobDispatch_keepsHost (core dt : Nat) (s : State) (t : State)
    (e : execJobDispatch core dt s = .next t) (h : HostOk m p s.view) : HostOk m p t.view := by
  revert e
  unfold execJobDispatch
  dsimp only
  repeat' first | exact faultAny | with_reducible refine nextOk ?_ | with_reducible assumption
                | with_reducible apply begin__keepsHost | with_reducible apply startJob_keepsHost
                | with_reducible apply prefetchJob_keepsHost | with_reducible apply settle_keepsHost
                | with_reducible apply runHostJob_keepsHost | split

end Sys2Proof.Machine
end

