-- ==== Sys2Proof/Laws/HostHostPort.lean ====
section
/-! SUPPORT. The operations and meanings of the rows of the host port keep the registers of the host side as their tables
say, the member and the commands that wait (R64, R69, R71). -/
set_option autoImplicit false

namespace Sys2Proof.Machine

variable {m : Member} {p : List Instr}

theorem pointerFault_keepsHost (q which : Nat) (s : State) (h : HostOk m p s.view) :
    HostOk m p (pointerFault q which s).view := by
  unfold pointerFault
  refine raise_keepsHost _ _ _ _ _ (modQ_keepsHost _ _ _ (fun x hx => ⟨Nat.zero_le _, ?_⟩) ?_)
  · refine hx.2.of_le ?_
    show (x.cmd.credLimit - x.cmd.wordsTaken).toNat + 0 ≤ _
    omega
  · exact setQueFlag_keepsHost _ _ _ (countQ_keepsHost _ _ _ h)

theorem resetQueue_keepsHost (q : Nat) (s : State) (h : HostOk m p s.view) : HostOk m p (resetQueue q s).view := by
  unfold resetQueue
  refine modQ_keepsHost _ _ _ (fun x _ => ⟨Nat.zero_le _, ?_⟩) h
  have h0 : CmdOk CmdSide.init := by unfold CmdOk; decide
  exact h0

theorem orPointerFault_keepsHost (q : Nat) (fault : Option Nat) (f : State → State) (s : State)
    (hf : HostOk m p (f s).view) (h : HostOk m p s.view) : HostOk m p (orPointerFault q fault f s).view := by
  unfold orPointerFault
  split
  · exact ite_keepsHost hf (pointerFault_keepsHost _ _ _ h)
  · exact hf

theorem hostAccess_keepsHost (target off need_ : Nat) (f : State → State) (s : State) (hf : HostOk m p (f s).view)
    (h : HostOk m p s.view) : HostOk m p (hostAccess target off need_ f s).view := by
  unfold hostAccess
  exact ite_keepsHost hf (ite_keepsHost (emit_keepsHost _ _ (deny_keepsHost _ _ _ _ _ h)) (deny_keepsHost _ _ _ _ _ h))

theorem regionAccess_keepsHost (master target need_ : Nat) (f : State → State) (s : State) (hf : HostOk m p (f s).view)
    (h : HostOk m p s.view) : HostOk m p (regionAccess master target need_ f s).view := by
  unfold regionAccess
  exact ite_keepsHost hf (deny_keepsHost _ _ _ _ _ h)

theorem badWrite_keepsHost (q : Nat) (s : State) (h : HostOk m p s.view) : HostOk m p (badWrite q s).view := by
  have h1 := strandStart_keepsHost q s h
  exact setQueFlag_keepsHost _ _ _ (ite_keepsHost h1 (countQ_keepsHost _ _ _ h1))

theorem execWritePortWrite_keepsHost (q : Nat) (w : Word) (ok : Bool) (fault : Option Nat) (dt : Nat) (s t : State)
    (e : execWritePortWrite q w ok fault dt s = .next t) (h : HostOk m p s.view) : HostOk m p t.view := by
  revert e
  unfold execWritePortWrite
  split
  · exact faultAny
  · split
    · exact faultAny
    · have h0 := begin__keepsHost dt s h
      refine nextOk (ite_keepsHost h0 (hostAccess_keepsHost _ _ _ _ _ (orPointerFault_keepsHost _ _ _ _ ?_ h0) h0))
      exact ite_keepsHost (writeWord_keepsHost _ _ _ h0) (badWrite_keepsHost _ _ h0)

theorem execDoorbellWrite_keepsHost (a : PtrAt) (dt : Nat) (s t : State)
    (e : execDoorbellWrite a dt s = .next t) (h : HostOk m p s.view) : HostOk m p t.view := by
  revert e
  unfold execDoorbellWrite
  split
  · exact faultAny
  · split
    · exact faultAny
    · have h0 := beginInput_keepsHost dt s h
      exact nextOk (ite_keepsHost h0 (hostAccess_keepsHost _ _ _ _ _ (orPointerFault_keepsHost _ _ _ _
        (settle_keepsHost _ (ringBell_keepsHost _ descOf_keepsHost _ _ h0)) h0) h0))

theorem readPort_keepsHost (q : Nat) (wide : Bool) (s : State) (h : HostOk m p s.view) :
    HostOk m p (readPort q wide s).view := by
  unfold readPort
  refine ite_keepsHost (emit_keepsHost _ _ (setQueFlag_keepsHost _ _ _ h)) (ite_keepsHost (emit_keepsHost _ _ h) ?_)
  have hq := getQ_okq s q h.2.2.2
  split
  · exact emit_keepsHost _ _ h
  · rename_i w r e
    refine emit_keepsHost _ _ (setQ_keepsHost _ _ _ ⟨?_, hq.2⟩ h)
    have := hq.1
    unfold evtLevel at this ⊢
    rw [e] at this
    simp only [List.length_cons] at this
    show r.length ≤ 4096
    omega

theorem execReadPortRead_keepsHost (q : Nat) (wide : Bool) (fault : Option Nat) (dt : Nat) (s : State) (t : State)
    (e : execReadPortRead q wide fault dt s = .next t) (h : HostOk m p s.view) : HostOk m p t.view := by
  revert e
  unfold execReadPortRead
  repeat' first | exact faultAny | with_reducible refine nextOk ?_ | with_reducible assumption
                | with_reducible apply begin__keepsHost | with_reducible apply emit_keepsHost
                | with_reducible refine hostAccess_keepsHost _ _ _ _ _ ?_ ?_
                | with_reducible apply pointerFault_keepsHost | with_reducible apply readPort_keepsHost | split

theorem execQueReset_keepsHost (q dt : Nat) (s : State) (t : State)
    (e : execQueReset q dt s = .next t) (h : HostOk m p s.view) : HostOk m p t.view := by
  revert e
  unfold execQueReset
  repeat' first | exact faultAny | with_reducible refine nextOk ?_ | with_reducible assumption
                | with_reducible apply begin__keepsHost | with_reducible apply resetQueue_keepsHost
                | with_reducible refine hostAccess_keepsHost _ _ _ _ _ ?_ ?_ | split

theorem strandPart_keepsHost (q : Nat) (s : State) (h : HostOk m p s.view) :
    HostOk m p (strandPart q s).view := by
  unfold strandPart
  repeat' first | with_reducible assumption | with_reducible apply setQueFlag_keepsHost
                | with_reducible apply countQ_keepsHost | with_reducible apply discardPart_keepsHost
                | with_reducible refine ite_keepsHost ?_ ?_

theorem strand_keepsHost (q : Nat) (s : State) (h : HostOk m p s.view) : HostOk m p (strand q s).view := by
  unfold strand
  have h1 : HostOk m p (runInterp descOf q (modCmd q (fun c =>
      let c1 := closeEntry c
      { c1 with vis := c1.vis ++ c1.inv, inv := [], strandAt := none }) s)).view := by
    refine runInterp_keepsHost _ descOf_keepsHost _ _ (modCmd_keepsHost _ _ _ (fun c hc => hc.of_le ?_) h)
    have e := closeEntry_outstanding c
    obtain ⟨a, b⟩ := closeEntry_credit c
    simp only [outstanding, heldWords_append, heldWords_nil, a, b] at e ⊢
    omega
  exact settle_keepsHost _ (ite_keepsHost h1 (strandPart_keepsHost _ _ h1))

theorem execStrandTimeout_keepsHost (a : PtrAt) (s : State) (t : State)
    (e : execStrandTimeout a s = .next t) (h : HostOk m p s.view) : HostOk m p t.view := by
  revert e
  unfold execStrandTimeout
  repeat' first | exact faultAny | with_reducible refine nextOk ?_ | with_reducible assumption
                | with_reducible apply begin__keepsHost | with_reducible apply beginUp_keepsHost
                | with_reducible refine orPointerFault_keepsHost _ _ _ _ ?_ ?_
                | with_reducible apply strand_keepsHost | split

theorem takeHeld_keepsHost (q : Nat) (r : Req) (s : State) (h : HostOk m p s.view) : HostOk m p (takeHeld q r s).view := by
  have h1 : HostOk m p (runInterp descOf q (take (descOf r.op) r (modCmd q (fun c => { c with held := none }) s))).view :=
    runInterp_keepsHost _ descOf_keepsHost _ _ (take_keepsHost _ (fun x hx => descOf_keepsHost _ _ hx) _ _
      (modCmd_keep_keepsHost _ _ _ (fun _ => ⟨rfl, rfl, rfl, rfl, rfl⟩) h))
  exact settle_keepsHost _ (ite_keepsHost (strandPart_keepsHost _ _ h1) h1)

theorem execCommandTaken_keepsHost (a : PtrAt) (dt : Nat) (s t : State)
    (e : execCommandTaken a dt s = .next t) (h : HostOk m p s.view) : HostOk m p t.view := by
  revert e
  unfold execCommandTaken
  split
  · exact faultAny
  · split
    · exact faultAny
    · refine nextOk ?_
      have h0 := beginInput_keepsHost dt s h
      split
      · exact h0
      · exact ite_keepsHost (orPointerFault_keepsHost _ _ _ _ (takeHeld_keepsHost _ _ _ h0) h0) h0

theorem execCompletionPlaced_keepsHost (a : PtrAt) (s t : State)
    (e : execCompletionPlaced a s = .next t) (h : HostOk m p s.view) : HostOk m p t.view := by
  revert e
  unfold execCompletionPlaced
  split
  · exact faultAny
  · split
    · exact faultAny
    · refine nextOk ?_
      have h0 := begin__keepsHost 0 s h
      dsimp only
      split
      · exact h0
      · split
        · rename_i hc
          simp only [Bool.and_eq_true, decide_eq_true_eq] at hc
          refine orPointerFault_keepsHost _ _ _ _
            (placePacket_keepsHost _ _ _ ?_ (modQ_keep_keepsHost _ _ _ (fun _ => rfl) (fun _ => rfl) h0)) h0
          rw [getQ_modQ]
          exact hc.2
        · exact h0

theorem getQ_emit (o : Output) (s : State) (q : Nat) : getQ (emit o s) q = getQ s q := rfl

theorem getQ_emits (l : List Output) (s : State) (q : Nat) : getQ (l.foldl (fun a o => emit o a) s) q = getQ s q := by
  induction l generalizing s with
  | nil => rfl
  | cons o r ih => exact ih _

theorem writePacket_keepsHost (q : Nat) (ws : List Word) (s : State) (h : HostOk m p s.view) :
    HostOk m p (writePacket q ws s).view := by
  unfold writePacket
  have h1 : HostOk m p ((ringWrites (getQ s q) ws).foldl (fun a o => emit o a) s).view :=
    foldl_keepsHost _ _ _ (fun a o ha => emit_keepsHost _ _ ha) h
  have h2 : HostOk m p (modQ q (fun y => { y with
      ringTail := ((getQ s q).ringTail + ws.length) % ringWords (getQ s q),
      evt := { y.evt with words := y.evt.words.drop ws.length } })
      ((ringWrites (getQ s q) ws).foldl (fun a o => emit o a) s)).view :=
    modQ_keepsHost _ _ _ (fun x hx => ⟨by
      have := hx.1
      unfold evtLevel at this ⊢
      simp only [List.length_drop]
      omega, hx.2⟩) h1
  exact ite_keepsHost h2 (emit_keepsHost _ _ h2)

theorem execPushRingWrite_keepsHost (a : PtrAt) (s t : State)
    (e : execPushRingWrite a s = .next t) (h : HostOk m p s.view) : HostOk m p t.view := by
  revert e
  unfold execPushRingWrite
  split
  · exact faultAny
  · split
    · exact faultAny
    · have h0 := begin__keepsHost 0 s h
      exact nextOk (ite_keepsHost (orPointerFault_keepsHost _ _ _ _ (regionAccess_keepsHost _ _ _ _ _
        (regionAccess_keepsHost _ _ _ _ _ (writePacket_keepsHost _ _ _ h0) h0) h0) h0) h0)

theorem coalFire_keepsHost (q : Nat) (s : State) (h : HostOk m p s.view) :
    HostOk m p (coalFire q s).view := by
  unfold coalFire
  repeat' first | with_reducible assumption | with_reducible apply setInt_keepsHost
                | with_reducible refine modQ_keep_keepsHost _ _ _ (fun _ => rfl) (fun _ => rfl) ?_

theorem execCoalTimeout_keepsHost (q : Nat) (s : State) (t : State)
    (e : execCoalTimeout q s = .next t) (h : HostOk m p s.view) : HostOk m p t.view := by
  revert e
  unfold execCoalTimeout
  repeat' first | exact faultAny | with_reducible refine nextOk ?_ | with_reducible assumption
                | with_reducible apply begin__keepsHost | with_reducible apply beginUp_keepsHost
                | with_reducible apply coalFire_keepsHost | split

theorem recoalesce_keepsHost (q : Nat) (s : State) (h : HostOk m p s.view) :
    HostOk m p (recoalesce q s).view := by
  unfold recoalesce
  repeat' first | with_reducible assumption | with_reducible apply coalFire_keepsHost
                | with_reducible refine modQ_keep_keepsHost _ _ _ (fun _ => rfl) (fun _ => rfl) ?_
                | with_reducible refine ite_keepsHost ?_ ?_

theorem hwInt_keepsHost (k : Nat) (s : State) (h : HostOk m p s.view) : HostOk m p (hwInt k s).view :=
  ite_keepsHost (coalFire_keepsHost _ _ h) (setInt_keepsHost _ _ h)

theorem clearBit_keepsHost (k : Nat) (s : State) (hk : k < 23) (h : HostOk m p s.view) :
    HostOk m p ({ s with intStat := s.intStat.set k false } : State).view :=
  ⟨h.1, h.2.1, setStat_keepsHost k _ false hk h.2.2.1, h.2.2.2⟩

theorem foldlMem_keepsHost {α : Type} (l : List α) (g : State → α → State) (s : State)
    (hg : ∀ a x, x ∈ l → HostOk m p a.view → HostOk m p (g a x).view) (h : HostOk m p s.view) :
    HostOk m p (l.foldl g s).view := by
  induction l generalizing s with
  | nil => exact h
  | cons x r ih =>
    exact ih _ (fun a y hy => hg a y (List.mem_cons_of_mem _ hy)) (hg _ _ (List.mem_cons_self ..) h)

theorem clearInt_keepsHost (mask setNow : Nat) (s : State) (h : HostOk m p s.view) : HostOk m p (clearInt mask setNow s).view := by
  unfold clearInt
  refine foldl_keepsHost _ _ _ (fun a x ha => recoalesce_keepsHost _ _ ha) (foldlMem_keepsHost _ _ _ (fun a x hx ha => ?_)
    (foldl_keepsHost _ _ _ (fun a x ha => hwInt_keepsHost _ _ ha) h))
  refine clearBit_keepsHost _ _ ?_ ha
  have := (List.mem_filter.mp hx).1
  unfold bitsOf at this
  have := (List.mem_filter.mp this).1
  exact List.mem_range.mp this

theorem setFlag_keepsHost (reg : FlagReg) (i : Nat) (s : State) (h : HostOk m p s.view) :
    HostOk m p (setFlag reg i s).view := by
  unfold setFlag
  repeat' first | with_reducible assumption | with_reducible apply hwInt_keepsHost
                | with_reducible apply setQueFlag_keepsHost | with_reducible apply setSysErr_keepsHost
                | with_reducible apply setStopFlag_keepsHost | with_reducible apply setTimeFlag_keepsHost | split

theorem clearFlags_keepsHost (reg : FlagReg) (mask setNow : Nat) (s : State) (h : HostOk m p s.view) :
    HostOk m p (clearFlags reg mask setNow s).view := by
  unfold clearFlags
  have h1 : HostOk m p (if reg = .int then s else
      (bitsOf (flagCount reg) setNow).foldl (fun a i => setFlag reg i a) s).view :=
    ite_keepsHost h (foldl_keepsHost _ _ _ (fun a i ha => setFlag_keepsHost _ _ _ ha) h)
  generalize (if reg = .int then s else (bitsOf (flagCount reg) setNow).foldl (fun a i => setFlag reg i a) s) = s1 at h1 ⊢
  dsimp only
  split
  · exact h1
  · refine foldl_keepsHost _ _ _ (fun a i ha => modQ_keep_keepsHost _ _ _ (fun x => ?_) (fun x => ?_) ha) h1
    · cases queFlagOf i <;> rfl
    · cases queFlagOf i <;> rfl
  · exact clearInt_keepsHost _ _ _ h1
  · exact h1
  · exact h1

theorem execW1cFlagClear_keepsHost (reg : FlagReg) (bits setNow dt : Nat) (s : State) (t : State)
    (e : execW1cFlagClear reg bits setNow dt s = .next t) (h : HostOk m p s.view) : HostOk m p t.view := by
  revert e
  unfold execW1cFlagClear
  repeat' first | exact faultAny | with_reducible refine nextOk ?_ | with_reducible assumption
                | with_reducible apply begin__keepsHost | with_reducible apply clearFlags_keepsHost
                | with_reducible refine hostAccess_keepsHost _ _ _ _ _ ?_ ?_ | split

theorem execIntStatClear_keepsHost (bits setNow dt : Nat) (s : State) (t : State)
    (e : execIntStatClear bits setNow dt s = .next t) (h : HostOk m p s.view) : HostOk m p t.view := by
  revert e
  unfold execIntStatClear
  repeat' first | with_reducible refine nextOk ?_ | with_reducible assumption
                | with_reducible refine hostAccess_keepsHost _ _ _ _ _ ?_ ?_
                | with_reducible apply begin__keepsHost | with_reducible apply clearInt_keepsHost
                | with_reducible refine ite_keepsHost ?_ ?_

theorem clearMark_keepsHost (q : Nat) (b : Bool) (c : Option Nat) (s : State) (h : HostOk m p s.view) :
    HostOk m p (clearMark q b c s).view := by
  unfold clearMark
  refine modQ_keepsHost _ _ _ (fun x hx => ?_) h
  dsimp only
  split
  · exact hx
  · exact hx

theorem execWatermarkFlagClear_keepsHost (q : Nat) (evtSide : Bool) (crossing : Option Nat) (dt : Nat) (s : State) (t : State)
    (e : execWatermarkFlagClear q evtSide crossing dt s = .next t) (h : HostOk m p s.view) : HostOk m p t.view := by
  revert e
  unfold execWatermarkFlagClear
  repeat' first | exact faultAny | with_reducible refine nextOk ?_ | with_reducible assumption
                | with_reducible apply begin__keepsHost | with_reducible apply clearMark_keepsHost
                | with_reducible refine hostAccess_keepsHost _ _ _ _ _ ?_ ?_ | split

theorem putOcc_keepsHost (reg : FlagReg) (l : List Nat) (s : State) (h : HostOk m p s.view) :
    HostOk m p (putOcc reg l s).view := by
  unfold putOcc
  repeat' first | with_reducible assumption
                | with_reducible refine modQ_keep_keepsHost _ _ _ (fun _ => rfl) (fun _ => rfl) ?_ | split

theorem readOcc_keepsHost (reg : FlagReg) (word again : Nat) (s : State) (h : HostOk m p s.view) :
    HostOk m p (readOcc reg word again s).view := by
  unfold readOcc
  repeat' first | with_reducible assumption | with_reducible apply emit_keepsHost
                | with_reducible apply setFlag_keepsHost | with_reducible apply putOcc_keepsHost
                | with_reducible refine foldl_keepsHost _ _ _ (fun _ _ _ => ?_) ?_

theorem execOccCounterRead_keepsHost (reg : FlagReg) (word again dt : Nat) (s : State) (t : State)
    (e : execOccCounterRead reg word again dt s = .next t) (h : HostOk m p s.view) : HostOk m p t.view := by
  revert e
  unfold execOccCounterRead
  repeat' first | exact faultAny | with_reducible refine nextOk ?_ | with_reducible assumption
                | with_reducible apply begin__keepsHost | with_reducible apply emit_keepsHost
                | with_reducible apply readOcc_keepsHost
                | with_reducible refine hostAccess_keepsHost _ _ _ _ _ ?_ ?_ | split

theorem sysReset_keepsHost (v : Nat) (s : State) (h : HostOk m p s.view) : HostOk m p (sysReset v s).view := by
  unfold sysReset
  dsimp only
  refine ite_keepsHost h ?_
  split
  · exact ite_keepsHost (deny_keepsHost _ _ _ _ _ h) h
  · split
    · exact h
    · rename_i e
      have h1 := gatedBody_keepsHost descSoftReset_keepsHost e h
      exact settle_keepsHost _ h1

theorem execSysResetWrite_keepsHost (value dt : Nat) (s : State) (t : State)
    (e : execSysResetWrite value dt s = .next t) (h : HostOk m p s.view) : HostOk m p t.view := by
  revert e
  unfold execSysResetWrite
  repeat' first | with_reducible refine nextOk ?_ | with_reducible assumption
                | with_reducible refine hostAccess_keepsHost _ _ _ _ _ ?_ ?_
                | with_reducible apply begin__keepsHost | with_reducible apply sysReset_keepsHost
                | with_reducible refine ite_keepsHost ?_ ?_

theorem snapTime_keepsHost (s : State) (h : HostOk m p s.view) : HostOk m p (snapTime s).view := emit_keepsHost _ _ h

theorem execTimeSnapRead_keepsHost (dt : Nat) (s : State) (t : State)
    (e : execTimeSnapRead dt s = .next t) (h : HostOk m p s.view) : HostOk m p t.view := by
  revert e
  have h0 := begin__keepsHost dt s h
  exact nextOk (ite_keepsHost (hostAccess_keepsHost _ _ _ _ _ (snapTime_keepsHost _ h0) h0) h0)

theorem barFault_keepsHost (fmt isRead : Bool) (s : State) (h : HostOk m p s.view) :
    HostOk m p (barFault fmt isRead s).view := by
  unfold barFault
  repeat' first | with_reducible assumption | with_reducible apply setSysErr_keepsHost
                | with_reducible apply emit_keepsHost | with_reducible refine ite_keepsHost ?_ ?_

theorem execBarAccessFault_keepsHost (fmt isRead : Bool) (dt : Nat) (s : State) (t : State)
    (e : execBarAccessFault fmt isRead dt s = .next t) (h : HostOk m p s.view) : HostOk m p t.view := by
  revert e
  unfold execBarAccessFault
  repeat' first | with_reducible refine nextOk ?_ | with_reducible assumption
                | with_reducible apply begin__keepsHost | with_reducible apply barFault_keepsHost
                | with_reducible refine ite_keepsHost ?_ ?_

theorem writeCtrl_keepsHost (q : Nat) (w : Word) (s : State) (h : HostOk m p s.view) :
    HostOk m p (writeCtrl q w s).view := by
  unfold writeCtrl
  repeat' first | with_reducible assumption | with_reducible apply resetQueue_keepsHost
                | with_reducible refine modQ_keep_keepsHost _ _ _ (fun _ => rfl) (fun _ => rfl) ?_
                | with_reducible refine ite_keepsHost ?_ ?_

theorem writeCoal_keepsHost (q : Nat) (w : Word) (s : State) (h : HostOk m p s.view) :
    HostOk m p (writeCoal q w s).view := by
  unfold writeCoal
  repeat' first | with_reducible assumption | with_reducible apply coalFire_keepsHost
                | with_reducible refine modQ_keep_keepsHost _ _ _ (fun _ => rfl) (fun _ => rfl) ?_
                | with_reducible refine ite_keepsHost ?_ ?_

theorem writeRing_keepsHost (q : Nat) (f : Queue → Queue) (s : State) (hw : ∀ x, (f x).evt.words = x.evt.words)
    (hc : ∀ x, (f x).cmd = x.cmd) (h : HostOk m p s.view) : HostOk m p (writeRing q f s).view := by
  unfold writeRing
  exact ite_keepsHost h (modQ_keep_keepsHost _ _ _ hw hc h)

theorem writeQue_keepsHost (q off : Nat) (w : Word) (s : State) (h : HostOk m p s.view) :
    HostOk m p (writeQue q off w s).view := by
  unfold writeQue
  dsimp only
  split
  · exact writeCtrl_keepsHost _ _ _ h
  · have h1 : HostOk m p (if bitAt w 6 then clearMark q false none (clearFlags (.que q) (fld w 0 5) 0 s)
        else clearFlags (.que q) (fld w 0 5) 0 s).view :=
      ite_keepsHost (clearMark_keepsHost _ _ _ _ (clearFlags_keepsHost _ _ _ _ h)) (clearFlags_keepsHost _ _ _ _ h)
    exact ite_keepsHost (clearMark_keepsHost _ _ _ _ h1) h1
  · exact modQ_keep_keepsHost _ _ _ (fun _ => rfl) (fun _ => rfl) h
  · exact writeCoal_keepsHost _ _ _ h
  · exact writeRing_keepsHost _ _ _ (fun _ => rfl) (fun _ => rfl) h
  · exact writeRing_keepsHost _ _ _ (fun _ => rfl) (fun _ => rfl) h
  · exact writeRing_keepsHost _ _ _ (fun _ => rfl) (fun _ => rfl) h
  · exact modQ_keep_keepsHost _ _ _ (fun _ => rfl) (fun _ => rfl) h
  · exact writeRing_keepsHost _ _ _ (fun _ => rfl) (fun _ => rfl) h
  · exact writeRing_keepsHost _ _ _ (fun _ => rfl) (fun _ => rfl) h
  · exact h

theorem writeMsix_keepsHost (k field : Nat) (w : Word) (s : State) (h : HostOk m p s.view) :
    HostOk m p (writeMsix k field w s).view := by
  unfold writeMsix
  repeat' first | with_reducible assumption | with_reducible apply emit_keepsHost
                | with_reducible refine ite_keepsHost ?_ ?_

theorem writeBlock_keepsHost (off : Nat) (w : Word) (fault : Option Nat) (s : State) (h : HostOk m p s.view) :
    HostOk m p (writeBlock off w fault s).view := by
  unfold writeBlock
  dsimp only
  repeat' first | with_reducible assumption | with_reducible apply clearInt_keepsHost
                | with_reducible apply clearFlags_keepsHost | with_reducible apply sysReset_keepsHost
                | with_reducible refine orPointerFault_keepsHost _ _ _ _ ?_ ?_
                | with_reducible apply writeQue_keepsHost
                | with_reducible apply writeMsix_keepsHost | split

theorem writeBar0_keepsHost (off : Nat) (w : Word) (fault : Option Nat) (s : State) (h : HostOk m p s.view) :
    HostOk m p (writeBar0 off w fault s).view := by
  unfold writeBar0
  exact ite_keepsHost (barFault_keepsHost _ _ _ h) (ite_keepsHost (barFault_keepsHost _ _ _ h)
    (hostAccess_keepsHost _ _ _ _ _ (writeBlock_keepsHost _ _ _ _ h) h))

theorem execRegisterWrite_keepsHost (off : Nat) (w : BarWrite) (dt : Nat) (s : State) (t : State)
    (e : execRegisterWrite off w dt s = .next t) (h : HostOk m p s.view) : HostOk m p t.view := by
  revert e
  unfold execRegisterWrite
  repeat' first | exact faultAny | with_reducible refine nextOk ?_ | with_reducible assumption
                | with_reducible apply begin__keepsHost | with_reducible apply writeBar0_keepsHost | split

theorem execChainRelease_keepsHost (q dt : Nat) (s t : State) (e : execChainRelease q dt s = .next t)
    (h : HostOk m p s.view) : HostOk m p t.view := by
  revert e
  unfold execChainRelease
  split
  · exact faultAny
  · refine nextOk ?_
    have h0 := begin__keepsHost dt s h
    dsimp only
    refine ite_keepsHost h0 ?_
    split
    · exact h0
    · split
      · exact h0
      · rename_i d e
        exact settle_keepsHost _ (runNow_keepsHost (descOf_keepsHost _ _ e) _ _ _ h0)

theorem runDue_keepsHost {d : Desc} (hd : d.Keeps m p) (r : Req) (s : State) (h : HostOk m p s.view) :
    HostOk m p (runDue d r s).view := by
  unfold runDue
  dsimp only
  refine ite_keepsHost (failReq_keepsHost _ _ _ h) ?_
  split
  · exact failReq_keepsHost _ _ _ h
  · rename_i e
    exact perform_keepsHost _ _ _ (gatedBody_keepsHost hd e h)

theorem execExecAtDue_keepsHost (s t : State) (e : execExecAtDue s = .next t) (h : HostOk m p s.view) : HostOk m p t.view := by
  revert e
  unfold execExecAtDue
  refine nextOk ?_
  split
  · exact begin__keepsHost _ _ h
  · refine ite_keepsHost (begin__keepsHost _ _ h) ?_
    dsimp only
    split
    · exact beginAt_keepsHost _ _ h
    · rename_i d e
      exact settle_keepsHost _ (runDue_keepsHost (descOf_keepsHost _ _ e) _ _ (beginAt_keepsHost _ _ h))

theorem countSec_keepsHost (f : SecCounters → SecCounters) (s : State) (h : HostOk m p s.view) :
    HostOk m p (countSec f s).view := by
  unfold countSec
  repeat' first | with_reducible assumption

theorem takeDatagram_keepsHost (src : NetSrc) (payload : List Byte) (s : State) (h : HostOk m p s.view) :
    HostOk m p (takeDatagram src payload s).view := by
  unfold takeDatagram
  dsimp only
  refine ite_keepsHost h ?_
  split
  · exact h
  · refine ite_keepsHost h (ite_keepsHost (answer_keepsHost _ _ _ h) (ite_keepsHost ?_ (take_keepsHost _ (fun x hx => descOf_keepsHost _ _ hx) _ _ h)))
    exact finish_keepsHost _ _ _ _ _ (enterChain_keepsHost _ _ rfl h)

theorem execMgmtDatagram_keepsHost (iface : Nat) (src : NetSrc) (payload : List Byte) (dt : Nat) (s : State) (t : State)
    (e : execMgmtDatagram iface src payload dt s = .next t) (h : HostOk m p s.view) : HostOk m p t.view := by
  revert e
  unfold execMgmtDatagram
  repeat' first | exact faultAny | with_reducible refine nextOk ?_ | with_reducible assumption
                | with_reducible apply beginInput_keepsHost | with_reducible apply settle_keepsHost
                | with_reducible apply takeDatagram_keepsHost | split

theorem followCommand_keepsHost (d : Desc) (r : Req) (s : State) (h : HostOk m p s.view) :
    HostOk m p (followCommand d r s).view := by
  unfold followCommand
  refine ite_keepsHost h (ite_keepsHost h ?_)
  split
  · exact h
  · have hb : HostOk m p (if r.at_ && decide (d.cls r = .pps) then keepExec r s else s).view := ite_keepsHost h h
    exact hb

theorem followInput_keepsHost (i : LaneInput) (s : State) (h : HostOk m p s.view) :
    HostOk m p (followInput i s).view := by
  unfold followInput
  repeat' first | with_reducible assumption | with_reducible apply uplinkFrame_keepsHost
                | with_reducible apply followCommand_keepsHost | split

theorem execInput_keepsHost (seq : Nat) (i : LaneInput) (dt : Nat) (s : State) (t : State)
    (e : execInput seq i dt s = .next t) (h : HostOk m p s.view) : HostOk m p t.view := by
  revert e
  unfold execInput
  try dsimp only
  repeat' first | exact faultAny | with_reducible refine nextOk ?_ | with_reducible assumption
                | with_reducible apply begin__keepsHost
                | with_reducible refine reportPair_keepsHost _ _ (fun _ _ => ?_) ?_
                | with_reducible apply followInput_keepsHost | with_reducible apply laneIn_keepsHost
                | with_reducible apply unheard_keepsHost | with_reducible refine ite_keepsHost ?_ ?_ | split

end Sys2Proof.Machine
end

