-- ==== Sys2Proof/Laws/HostCommands.lean ====
section
/-! SUPPORT. The operations and meanings of the host commands keep the registers of the host side as their tables
say, the member and the commands that wait (R64, R69, R71). -/
set_option autoImplicit false

namespace Sys2Proof.Machine

variable {m : Member} {p : List Instr}

theorem arrive_keepsHost (d : Desc) (hd : d.Keeps m p) (c : Cmd) (s t : State) (e : arrive d c s = .next t)
    (h : HostOk m p s.view) : HostOk m p t.view := by
  revert e
  unfold arrive
  split
  · exact faultAny
  · exact nextOk (settle_keepsHost _ (hostCommand_keepsHost _ hd _ descOf_keepsHost _ _ (beginInput_keepsHost _ _ h)))

theorem execNop_keepsHost (c : Cmd) (s t : State) (e : execNop c s = .next t) (h : HostOk m p s.view) :
    HostOk m p t.view := arrive_keepsHost _ descNop_keepsHost _ _ _ e h

theorem execGetInfo_keepsHost (c : Cmd) (s t : State) (e : execGetInfo c s = .next t) (h : HostOk m p s.view) :
    HostOk m p t.view := arrive_keepsHost _ descGetInfo_keepsHost _ _ _ e h

theorem execGetStatus_keepsHost (c : Cmd) (s t : State) (e : execGetStatus c s = .next t) (h : HostOk m p s.view) :
    HostOk m p t.view := arrive_keepsHost _ descGetStatus_keepsHost _ _ _ e h

theorem execSetTick_keepsHost (c : Cmd) (s t : State) (e : execSetTick c s = .next t) (h : HostOk m p s.view) :
    HostOk m p t.view := arrive_keepsHost _ descSetTick_keepsHost _ _ _ e h

theorem execSoftReset_keepsHost (c : Cmd) (s t : State) (e : execSoftReset c s = .next t) (h : HostOk m p s.view) :
    HostOk m p t.view := arrive_keepsHost _ descSoftReset_keepsHost _ _ _ e h

theorem execGetCounters_keepsHost (c : Cmd) (s t : State) (e : execGetCounters c s = .next t) (h : HostOk m p s.view) :
    HostOk m p t.view := arrive_keepsHost _ descGetCounters_keepsHost _ _ _ e h

theorem execGnssConfig_keepsHost (c : Cmd) (s t : State) (e : execGnssConfig c s = .next t) (h : HostOk m p s.view) :
    HostOk m p t.view := arrive_keepsHost _ descGnssConfig_keepsHost _ _ _ e h

theorem execGnssChannelSet_keepsHost (c : Cmd) (s t : State) (e : execGnssChannelSet c s = .next t) (h : HostOk m p s.view) :
    HostOk m p t.view := arrive_keepsHost _ descGnssChannelSet_keepsHost _ _ _ e h

theorem execGnssGetChannels_keepsHost (c : Cmd) (s t : State) (e : execGnssGetChannels c s = .next t) (h : HostOk m p s.view) :
    HostOk m p t.view := arrive_keepsHost _ descGnssGetChannels_keepsHost _ _ _ e h

theorem execGnssSetAntenna_keepsHost (c : Cmd) (s t : State) (e : execGnssSetAntenna c s = .next t) (h : HostOk m p s.view) :
    HostOk m p t.view := arrive_keepsHost _ descGnssSetAntenna_keepsHost _ _ _ e h

theorem execGnssNavSubscribe_keepsHost (c : Cmd) (s t : State) (e : execGnssNavSubscribe c s = .next t) (h : HostOk m p s.view) :
    HostOk m p t.view := arrive_keepsHost _ descGnssNavSubscribe_keepsHost _ _ _ e h

theorem execGnssSetIsb_keepsHost (c : Cmd) (s t : State) (e : execGnssSetIsb c s = .next t) (h : HostOk m p s.view) :
    HostOk m p t.view := arrive_keepsHost _ descGnssSetIsb_keepsHost _ _ _ e h

theorem execGnssSurvey_keepsHost (c : Cmd) (s t : State) (e : execGnssSurvey c s = .next t) (h : HostOk m p s.view) :
    HostOk m p t.view := arrive_keepsHost _ descGnssSurvey_keepsHost _ _ _ e h

theorem execGnssIntegrityCfg_keepsHost (c : Cmd) (s t : State) (e : execGnssIntegrityCfg c s = .next t) (h : HostOk m p s.view) :
    HostOk m p t.view := arrive_keepsHost _ descGnssIntegrityCfg_keepsHost _ _ _ e h

theorem execGnssGetObs_keepsHost (c : Cmd) (s t : State) (e : execGnssGetObs c s = .next t) (h : HostOk m p s.view) :
    HostOk m p t.view := arrive_keepsHost _ descGnssGetObs_keepsHost _ _ _ e h

theorem execCorrStreamCfg_keepsHost (c : Cmd) (s t : State) (e : execCorrStreamCfg c s = .next t) (h : HostOk m p s.view) :
    HostOk m p t.view := arrive_keepsHost _ descCorrStreamCfg_keepsHost _ _ _ e h

theorem execCorrGetStats_keepsHost (c : Cmd) (s t : State) (e : execCorrGetStats c s = .next t) (h : HostOk m p s.view) :
    HostOk m p t.view := arrive_keepsHost _ descCorrGetStats_keepsHost _ _ _ e h

theorem execRoverBind_keepsHost (c : Cmd) (s t : State) (e : execRoverBind c s = .next t) (h : HostOk m p s.view) :
    HostOk m p t.view := arrive_keepsHost _ descRoverBind_keepsHost _ _ _ e h

theorem execRoverCfg_keepsHost (c : Cmd) (s t : State) (e : execRoverCfg c s = .next t) (h : HostOk m p s.view) :
    HostOk m p t.view := arrive_keepsHost _ descRoverCfg_keepsHost _ _ _ e h

theorem execRoverGetFix_keepsHost (c : Cmd) (s t : State) (e : execRoverGetFix c s = .next t) (h : HostOk m p s.view) :
    HostOk m p t.view := arrive_keepsHost _ descRoverGetFix_keepsHost _ _ _ e h

theorem execRoverSubscribe_keepsHost (c : Cmd) (s t : State) (e : execRoverSubscribe c s = .next t) (h : HostOk m p s.view) :
    HostOk m p t.view := arrive_keepsHost _ descRoverSubscribe_keepsHost _ _ _ e h

theorem execRoverResetAmb_keepsHost (c : Cmd) (s t : State) (e : execRoverResetAmb c s = .next t) (h : HostOk m p s.view) :
    HostOk m p t.view := arrive_keepsHost _ descRoverResetAmb_keepsHost _ _ _ e h

theorem execRoverGetStats_keepsHost (c : Cmd) (s t : State) (e : execRoverGetStats c s = .next t) (h : HostOk m p s.view) :
    HostOk m p t.view := arrive_keepsHost _ descRoverGetStats_keepsHost _ _ _ e h

theorem execTrackOrigin_keepsHost (c : Cmd) (s t : State) (e : execTrackOrigin c s = .next t) (h : HostOk m p s.view) :
    HostOk m p t.view := arrive_keepsHost _ descTrackOrigin_keepsHost _ _ _ e h

theorem execTrackLoadNodes_keepsHost (c : Cmd) (s t : State) (e : execTrackLoadNodes c s = .next t) (h : HostOk m p s.view) :
    HostOk m p t.view := arrive_keepsHost _ descTrackLoadNodes_keepsHost _ _ _ e h

theorem execTrackLoadSlivers_keepsHost (c : Cmd) (s t : State) (e : execTrackLoadSlivers c s = .next t) (h : HostOk m p s.view) :
    HostOk m p t.view := arrive_keepsHost _ descTrackLoadSlivers_keepsHost _ _ _ e h

theorem execTrackCommit_keepsHost (c : Cmd) (s t : State) (e : execTrackCommit c s = .next t) (h : HostOk m p s.view) :
    HostOk m p t.view := arrive_keepsHost _ descTrackCommit_keepsHost _ _ _ e h

theorem execDeckleLoad_keepsHost (c : Cmd) (s t : State) (e : execDeckleLoad c s = .next t) (h : HostOk m p s.view) :
    HostOk m p t.view := arrive_keepsHost _ descDeckleLoad_keepsHost _ _ _ e h

theorem execResvGet_keepsHost (c : Cmd) (s t : State) (e : execResvGet c s = .next t) (h : HostOk m p s.view) :
    HostOk m p t.view := arrive_keepsHost _ descResvGet_keepsHost _ _ _ e h

theorem execResvRelease_keepsHost (c : Cmd) (s t : State) (e : execResvRelease c s = .next t) (h : HostOk m p s.view) :
    HostOk m p t.view := arrive_keepsHost _ descResvRelease_keepsHost _ _ _ e h

theorem execRouteSet_keepsHost (c : Cmd) (s t : State) (e : execRouteSet c s = .next t) (h : HostOk m p s.view) :
    HostOk m p t.view := arrive_keepsHost _ descRouteSet_keepsHost _ _ _ e h

theorem execTaskPost_keepsHost (c : Cmd) (s t : State) (e : execTaskPost c s = .next t) (h : HostOk m p s.view) :
    HostOk m p t.view := arrive_keepsHost _ descTaskPost_keepsHost _ _ _ e h

theorem execTaskCancel_keepsHost (c : Cmd) (s t : State) (e : execTaskCancel c s = .next t) (h : HostOk m p s.view) :
    HostOk m p t.view := arrive_keepsHost _ descTaskCancel_keepsHost _ _ _ e h

theorem execAllotCfg_keepsHost (c : Cmd) (s t : State) (e : execAllotCfg c s = .next t) (h : HostOk m p s.view) :
    HostOk m p t.view := arrive_keepsHost _ descAllotCfg_keepsHost _ _ _ e h

theorem execAllotRun_keepsHost (c : Cmd) (s t : State) (e : execAllotRun c s = .next t) (h : HostOk m p s.view) :
    HostOk m p t.view := arrive_keepsHost _ descAllotRun_keepsHost _ _ _ e h

theorem execAllotGet_keepsHost (c : Cmd) (s t : State) (e : execAllotGet c s = .next t) (h : HostOk m p s.view) :
    HostOk m p t.view := arrive_keepsHost _ descAllotGet_keepsHost _ _ _ e h

theorem execAllotCommit_keepsHost (c : Cmd) (s t : State) (e : execAllotCommit c s = .next t) (h : HostOk m p s.view) :
    HostOk m p t.view := arrive_keepsHost _ descAllotCommit_keepsHost _ _ _ e h

theorem execSpinProfileSet_keepsHost (c : Cmd) (s t : State) (e : execSpinProfileSet c s = .next t) (h : HostOk m p s.view) :
    HostOk m p t.view := arrive_keepsHost _ descSpinProfileSet_keepsHost _ _ _ e h

theorem execSpinStartAt_keepsHost (c : Cmd) (s t : State) (e : execSpinStartAt c s = .next t) (h : HostOk m p s.view) :
    HostOk m p t.view := arrive_keepsHost _ descSpinStartAt_keepsHost _ _ _ e h

theorem execSpinHold_keepsHost (c : Cmd) (s t : State) (e : execSpinHold c s = .next t) (h : HostOk m p s.view) :
    HostOk m p t.view := arrive_keepsHost _ descSpinHold_keepsHost _ _ _ e h

theorem execSpinGet_keepsHost (c : Cmd) (s t : State) (e : execSpinGet c s = .next t) (h : HostOk m p s.view) :
    HostOk m p t.view := arrive_keepsHost _ descSpinGet_keepsHost _ _ _ e h

theorem execPostDefine_keepsHost (c : Cmd) (s t : State) (e : execPostDefine c s = .next t) (h : HostOk m p s.view) :
    HostOk m p t.view := arrive_keepsHost _ descPostDefine_keepsHost _ _ _ e h

theorem execPostHome_keepsHost (c : Cmd) (s t : State) (e : execPostHome c s = .next t) (h : HostOk m p s.view) :
    HostOk m p t.view := arrive_keepsHost _ descPostHome_keepsHost _ _ _ e h

theorem execSpinMode_keepsHost (c : Cmd) (s t : State) (e : execSpinMode c s = .next t) (h : HostOk m p s.view) :
    HostOk m p t.view := arrive_keepsHost _ descSpinMode_keepsHost _ _ _ e h

theorem execYardOutSet_keepsHost (c : Cmd) (s t : State) (e : execYardOutSet c s = .next t) (h : HostOk m p s.view) :
    HostOk m p t.view := arrive_keepsHost _ descYardOutSet_keepsHost _ _ _ e h

theorem execGovCoefLoad_keepsHost (c : Cmd) (s t : State) (e : execGovCoefLoad c s = .next t) (h : HostOk m p s.view) :
    HostOk m p t.view := arrive_keepsHost _ descGovCoefLoad_keepsHost _ _ _ e h

theorem execGovCoefSwap_keepsHost (c : Cmd) (s t : State) (e : execGovCoefSwap c s = .next t) (h : HostOk m p s.view) :
    HostOk m p t.view := arrive_keepsHost _ descGovCoefSwap_keepsHost _ _ _ e h

theorem execGovLimits_keepsHost (c : Cmd) (s t : State) (e : execGovLimits c s = .next t) (h : HostOk m p s.view) :
    HostOk m p t.view := arrive_keepsHost _ descGovLimits_keepsHost _ _ _ e h

theorem execGovFeCfg_keepsHost (c : Cmd) (s t : State) (e : execGovFeCfg c s = .next t) (h : HostOk m p s.view) :
    HostOk m p t.view := arrive_keepsHost _ descGovFeCfg_keepsHost _ _ _ e h

theorem execGovGet_keepsHost (c : Cmd) (s t : State) (e : execGovGet c s = .next t) (h : HostOk m p s.view) :
    HostOk m p t.view := arrive_keepsHost _ descGovGet_keepsHost _ _ _ e h

theorem execGovCapSet_keepsHost (c : Cmd) (s t : State) (e : execGovCapSet c s = .next t) (h : HostOk m p s.view) :
    HostOk m p t.view := arrive_keepsHost _ descGovCapSet_keepsHost _ _ _ e h

theorem execStopFleet_keepsHost (c : Cmd) (s t : State) (e : execStopFleet c s = .next t) (h : HostOk m p s.view) :
    HostOk m p t.view := arrive_keepsHost _ descStopFleet_keepsHost _ _ _ e h

theorem execStopRobot_keepsHost (c : Cmd) (s t : State) (e : execStopRobot c s = .next t) (h : HostOk m p s.view) :
    HostOk m p t.view := arrive_keepsHost _ descStopRobot_keepsHost _ _ _ e h

theorem execStopReset_keepsHost (c : Cmd) (s t : State) (e : execStopReset c s = .next t) (h : HostOk m p s.view) :
    HostOk m p t.view := arrive_keepsHost _ descStopReset_keepsHost _ _ _ e h

theorem execStopCfg_keepsHost (c : Cmd) (s t : State) (e : execStopCfg c s = .next t) (h : HostOk m p s.view) :
    HostOk m p t.view := arrive_keepsHost _ descStopCfg_keepsHost _ _ _ e h

theorem execStopGet_keepsHost (c : Cmd) (s t : State) (e : execStopGet c s = .next t) (h : HostOk m p s.view) :
    HostOk m p t.view := arrive_keepsHost _ descStopGet_keepsHost _ _ _ e h

theorem execStopTest_keepsHost (c : Cmd) (s t : State) (e : execStopTest c s = .next t) (h : HostOk m p s.view) :
    HostOk m p t.view := arrive_keepsHost _ descStopTest_keepsHost _ _ _ e h

theorem execNetPortCfg_keepsHost (c : Cmd) (s t : State) (e : execNetPortCfg c s = .next t) (h : HostOk m p s.view) :
    HostOk m p t.view := arrive_keepsHost _ descNetPortCfg_keepsHost _ _ _ e h

theorem execNetVlan_keepsHost (c : Cmd) (s t : State) (e : execNetVlan c s = .next t) (h : HostOk m p s.view) :
    HostOk m p t.view := arrive_keepsHost _ descNetVlan_keepsHost _ _ _ e h

theorem execNetFdbAdd_keepsHost (c : Cmd) (s t : State) (e : execNetFdbAdd c s = .next t) (h : HostOk m p s.view) :
    HostOk m p t.view := arrive_keepsHost _ descNetFdbAdd_keepsHost _ _ _ e h

theorem execNetFdbGet_keepsHost (c : Cmd) (s t : State) (e : execNetFdbGet c s = .next t) (h : HostOk m p s.view) :
    HostOk m p t.view := arrive_keepsHost _ descNetFdbGet_keepsHost _ _ _ e h

theorem execNetRouteAdd_keepsHost (c : Cmd) (s t : State) (e : execNetRouteAdd c s = .next t) (h : HostOk m p s.view) :
    HostOk m p t.view := arrive_keepsHost _ descNetRouteAdd_keepsHost _ _ _ e h

theorem execNetRouteDel_keepsHost (c : Cmd) (s t : State) (e : execNetRouteDel c s = .next t) (h : HostOk m p s.view) :
    HostOk m p t.view := arrive_keepsHost _ descNetRouteDel_keepsHost _ _ _ e h

theorem execNetAgeCfg_keepsHost (c : Cmd) (s t : State) (e : execNetAgeCfg c s = .next t) (h : HostOk m p s.view) :
    HostOk m p t.view := arrive_keepsHost _ descNetAgeCfg_keepsHost _ _ _ e h

theorem execNetQosCfg_keepsHost (c : Cmd) (s t : State) (e : execNetQosCfg c s = .next t) (h : HostOk m p s.view) :
    HostOk m p t.view := arrive_keepsHost _ descNetQosCfg_keepsHost _ _ _ e h

theorem execTimeSourceCfg_keepsHost (c : Cmd) (s t : State) (e : execTimeSourceCfg c s = .next t) (h : HostOk m p s.view) :
    HostOk m p t.view := arrive_keepsHost _ descTimeSourceCfg_keepsHost _ _ _ e h

theorem execTimeGet_keepsHost (c : Cmd) (s t : State) (e : execTimeGet c s = .next t) (h : HostOk m p s.view) :
    HostOk m p t.view := arrive_keepsHost _ descTimeGet_keepsHost _ _ _ e h

theorem execTimeSet_keepsHost (c : Cmd) (s t : State) (e : execTimeSet c s = .next t) (h : HostOk m p s.view) :
    HostOk m p t.view := arrive_keepsHost _ descTimeSet_keepsHost _ _ _ e h

theorem execPpsCfg_keepsHost (c : Cmd) (s t : State) (e : execPpsCfg c s = .next t) (h : HostOk m p s.view) :
    HostOk m p t.view := arrive_keepsHost _ descPpsCfg_keepsHost _ _ _ e h

theorem execPtpCfg_keepsHost (c : Cmd) (s t : State) (e : execPtpCfg c s = .next t) (h : HostOk m p s.view) :
    HostOk m p t.view := arrive_keepsHost _ descPtpCfg_keepsHost _ _ _ e h

theorem execServoCfg_keepsHost (c : Cmd) (s t : State) (e : execServoCfg c s = .next t) (h : HostOk m p s.view) :
    HostOk m p t.view := arrive_keepsHost _ descServoCfg_keepsHost _ _ _ e h

theorem execTimeMode_keepsHost (c : Cmd) (s t : State) (e : execTimeMode c s = .next t) (h : HostOk m p s.view) :
    HostOk m p t.view := arrive_keepsHost _ descTimeMode_keepsHost _ _ _ e h

theorem execRecCfg_keepsHost (c : Cmd) (s t : State) (e : execRecCfg c s = .next t) (h : HostOk m p s.view) :
    HostOk m p t.view := arrive_keepsHost _ descRecCfg_keepsHost _ _ _ e h

theorem execRecRead_keepsHost (c : Cmd) (s t : State) (e : execRecRead c s = .next t) (h : HostOk m p s.view) :
    HostOk m p t.view := arrive_keepsHost _ descRecRead_keepsHost _ _ _ e h

theorem execRecMark_keepsHost (c : Cmd) (s t : State) (e : execRecMark c s = .next t) (h : HostOk m p s.view) :
    HostOk m p t.view := arrive_keepsHost _ descRecMark_keepsHost _ _ _ e h

theorem execRecSnapshot_keepsHost (c : Cmd) (s t : State) (e : execRecSnapshot c s = .next t) (h : HostOk m p s.view) :
    HostOk m p t.view := arrive_keepsHost _ descRecSnapshot_keepsHost _ _ _ e h

theorem execRecWrite_keepsHost (c : Cmd) (s t : State) (e : execRecWrite c s = .next t) (h : HostOk m p s.view) :
    HostOk m p t.view := arrive_keepsHost _ descRecWrite_keepsHost _ _ _ e h

theorem execRecErase_keepsHost (c : Cmd) (s t : State) (e : execRecErase c s = .next t) (h : HostOk m p s.view) :
    HostOk m p t.view := arrive_keepsHost _ descRecErase_keepsHost _ _ _ e h

theorem execPairCfg_keepsHost (c : Cmd) (s t : State) (e : execPairCfg c s = .next t) (h : HostOk m p s.view) :
    HostOk m p t.view := arrive_keepsHost _ descPairCfg_keepsHost _ _ _ e h

theorem execPairGet_keepsHost (c : Cmd) (s t : State) (e : execPairGet c s = .next t) (h : HostOk m p s.view) :
    HostOk m p t.view := arrive_keepsHost _ descPairGet_keepsHost _ _ _ e h

theorem execPairSwitch_keepsHost (c : Cmd) (s t : State) (e : execPairSwitch c s = .next t) (h : HostOk m p s.view) :
    HostOk m p t.view := arrive_keepsHost _ descPairSwitch_keepsHost _ _ _ e h

theorem execPairSelftestCfg_keepsHost (c : Cmd) (s t : State) (e : execPairSelftestCfg c s = .next t) (h : HostOk m p s.view) :
    HostOk m p t.view := arrive_keepsHost _ descPairSelftestCfg_keepsHost _ _ _ e h

theorem execUpdOpen_keepsHost (c : Cmd) (s t : State) (e : execUpdOpen c s = .next t) (h : HostOk m p s.view) :
    HostOk m p t.view := arrive_keepsHost _ descUpdOpen_keepsHost _ _ _ e h

theorem execUpdHeader_keepsHost (c : Cmd) (s t : State) (e : execUpdHeader c s = .next t) (h : HostOk m p s.view) :
    HostOk m p t.view := arrive_keepsHost _ descUpdHeader_keepsHost _ _ _ e h

theorem execUpdData_keepsHost (c : Cmd) (s t : State) (e : execUpdData c s = .next t) (h : HostOk m p s.view) :
    HostOk m p t.view := arrive_keepsHost _ descUpdData_keepsHost _ _ _ e h

theorem execUpdVerify_keepsHost (c : Cmd) (s t : State) (e : execUpdVerify c s = .next t) (h : HostOk m p s.view) :
    HostOk m p t.view := arrive_keepsHost _ descUpdVerify_keepsHost _ _ _ e h

theorem execUpdActivate_keepsHost (c : Cmd) (s t : State) (e : execUpdActivate c s = .next t) (h : HostOk m p s.view) :
    HostOk m p t.view := arrive_keepsHost _ descUpdActivate_keepsHost _ _ _ e h

theorem execUpdConfirm_keepsHost (c : Cmd) (s t : State) (e : execUpdConfirm c s = .next t) (h : HostOk m p s.view) :
    HostOk m p t.view := arrive_keepsHost _ descUpdConfirm_keepsHost _ _ _ e h

theorem execUpdAbort_keepsHost (c : Cmd) (s t : State) (e : execUpdAbort c s = .next t) (h : HostOk m p s.view) :
    HostOk m p t.view := arrive_keepsHost _ descUpdAbort_keepsHost _ _ _ e h

theorem execUpdGet_keepsHost (c : Cmd) (s t : State) (e : execUpdGet c s = .next t) (h : HostOk m p s.view) :
    HostOk m p t.view := arrive_keepsHost _ descUpdGet_keepsHost _ _ _ e h

theorem execSecAttest_keepsHost (c : Cmd) (s t : State) (e : execSecAttest c s = .next t) (h : HostOk m p s.view) :
    HostOk m p t.view := arrive_keepsHost _ descSecAttest_keepsHost _ _ _ e h

theorem execSecAclGet_keepsHost (c : Cmd) (s t : State) (e : execSecAclGet c s = .next t) (h : HostOk m p s.view) :
    HostOk m p t.view := arrive_keepsHost _ descSecAclGet_keepsHost _ _ _ e h

theorem execSecAclSet_keepsHost (c : Cmd) (s t : State) (e : execSecAclSet c s = .next t) (h : HostOk m p s.view) :
    HostOk m p t.view := arrive_keepsHost _ descSecAclSet_keepsHost _ _ _ e h

theorem execSecRobotKey_keepsHost (c : Cmd) (s t : State) (e : execSecRobotKey c s = .next t) (h : HostOk m p s.view) :
    HostOk m p t.view := arrive_keepsHost _ descSecRobotKey_keepsHost _ _ _ e h

theorem execSecCfgSession_keepsHost (c : Cmd) (s t : State) (e : execSecCfgSession c s = .next t) (h : HostOk m p s.view) :
    HostOk m p t.view := arrive_keepsHost _ descSecCfgSession_keepsHost _ _ _ e h

theorem execSchedGet_keepsHost (c : Cmd) (s t : State) (e : execSchedGet c s = .next t) (h : HostOk m p s.view) :
    HostOk m p t.view := arrive_keepsHost _ descSchedGet_keepsHost _ _ _ e h

theorem execSchedJobDefine_keepsHost (c : Cmd) (s t : State) (e : execSchedJobDefine c s = .next t) (h : HostOk m p s.view) :
    HostOk m p t.view := arrive_keepsHost _ descSchedJobDefine_keepsHost _ _ _ e h

theorem execHealthGet_keepsHost (c : Cmd) (s t : State) (e : execHealthGet c s = .next t) (h : HostOk m p s.view) :
    HostOk m p t.view := arrive_keepsHost _ descHealthGet_keepsHost _ _ _ e h

theorem execSelftestRun_keepsHost (c : Cmd) (s t : State) (e : execSelftestRun c s = .next t) (h : HostOk m p s.view) :
    HostOk m p t.view := arrive_keepsHost _ descSelftestRun_keepsHost _ _ _ e h

theorem execMarginGet_keepsHost (c : Cmd) (s t : State) (e : execMarginGet c s = .next t) (h : HostOk m p s.view) :
    HostOk m p t.view := arrive_keepsHost _ descMarginGet_keepsHost _ _ _ e h

end Sys2Proof.Machine
end

