-- ==== Sys2Proof/Tests/Slice0.lean ====
section
/-! SUPPORT. Own tests: answers that the spec itself works out, what WellFormed refuses, and for every statement with
hypotheses a theorem `witness_<its name>` that applies the statement to concrete states and operands and discharges every
one of its hypotheses by evaluation: no hypothesis is empty. A statement of several clauses has a row for each clause. -/
set_option autoImplicit false
set_option Elab.async false

namespace Sys2Proof.Tests

open Sys2Proof Sys2Proof.Machine

/-- The module powered and READY, with queue pair 0 enabled. -/
def hot : State :=
  { State.reset with
    sys := { Sys.init with power := .running, vinOn := true, boot := .ready }
    queues := [(0, { Queue.init with en := true })] }

/-- A packet on queue pair 0 with the parameters `ps`. -/
def pk (ps : List Word) : Cmd :=
  { q := 0, len := 2 + ps.length, ch := false, at_ := false, ev := false, nr := false, tag := 0, execAt := 0, params := ps,
    net := none, dt := 0 }

/-! ### Expected answers that the spec works out -/

/-- The SET_TICK of the worked exchange of spec/02_command_packets.md, as it stands on QP[2]. -/
def exchange : Cmd :=
  { q := 2, len := 6, ch := false, at_ := true, ev := false, nr := false, tag := 0xA51, execAt := 1800000010 * 1000000000,
    params := [0xF00, 0], net := none, dt := 0 }

/-- Its six words are those of the table. -/
theorem test_exchange_words :
    cmdWords 0x003 exchange = [0x00340006, 0xA51, 0xE7BFE400, 0x18FAE278, 0xF00, 0] := by decide +kernel

/-- READY at device time 1,800,000,002.000 s in a running tick of 5 ms with queue pair 2 enabled. -/
def ticking : State :=
  { State.reset with
    now := 1800000002000000000
    sys := { Sys.init with power := .running, vinOn := true, boot := .ready }
    tick := { Tick.init with running := true, boundary := 1800000002 * 1000000000, nextAt := 1800000002005000000 }
    queues := [(2, { Queue.init with en := true })] }

/-- The queue pair's event-side words after a command. -/
def wordsOf (q : Nat) (o : Host.Outcome State Fault Refusal) : List Word :=
  match o with
  | .next t => (getQ t q).evt.words.map (fun p => p.1)
  | _ => []

/-- The command is admitted and answers ST_ACCEPTED (the exchange's second row). -/
theorem test_exchange_accepted : wordsOf 2 (exec (.setTick exchange) ticking) = [0x00300003, 0xA51, 0x00010000] := by
  decide +kernel

/-- Without AT its response names the second of the next boundary (the pull-mode exchange of spec/03). -/
theorem test_setTick_effective :
    wordsOf 2 (exec (.setTick { exchange with at_ := false, len := 4, execAt := 0, tag := 0xB10 }) ticking) =
      [0x00300004, 0xB10, 0, 0x6B49D202] := by decide +kernel

/-- The watermark example of spec/03: two excursions over 3,072 words with the peak at 3,500. -/
theorem test_watermark :
    markLevel (markLevel (markLevel (markLevel { flag := false, peak := 0, xcnt := 0 } 3072 0 3300) 3072 3300 1000) 3072 1000 3500)
      3072 3500 200 = { flag := true, peak := 3500, xcnt := 2 } := by decide

/-- The pull-in example of spec/04: the swap to the PLL set does not move the output. -/
theorem test_pll_swap :
    let l := { lawOf (fllCoef 100) (pllCoef 150) with i := -2345678 * 65536, uPrev := -2345678, swap := true }
    (pllCoef 150).kp = 40000 ∧ (pllCoef 150).ki = 800 ∧ (swapIn l 3277 0).i = -2347678 * 65536 ∧
      (evalLaw l 3277 0).u = -2345678 := by decide +kernel

/-- The solve costs of the two examples of spec/06. -/
theorem test_solve_cost : solveCost 96 = 3200 ∧ solveCost 80 = 1939 ∧ 128 * solveCost 96 = 409600 := by decide

/-- The extrapolation of robot 127 in spec/06: E advances by 30 mm and sigma_ext is 11 mm. -/
theorem test_extrapolate :
    let x := extrapolate RoverCfg.init 25000000
      { Fix.none with status := 5, velValid := true, ve := 1200, sigmaH := 9, sigmaVh := 4 }
    x.1.e = 30 ∧ x.2 = 11 := by decide +kernel

/-- The crossing of spec/08: slivers 40 and 41 conflict, robot 5 is 8,000 mm short of 40 and robot 9 is 4,000 mm short of
41. -/
def sl2000 (a b : Nat) : Sliver := { start := a, end_ := b, radius := 0, width := 4000, vmax := 2000, dir := 0, classMask := 255 }
def node2 (e n : Int) : Node := { e := e, n := n, u := 0 }
def crossing : Graph :=
  { nodes := [(0, node2 0 0), (1, node2 10000 0), (2, node2 30000 0), (3, node2 20000 (-31000)), (4, node2 20000 (-6000)),
              (5, node2 20000 6000)],
    slivers := [(38, sl2000 3 4), (39, sl2000 0 1), (40, sl2000 1 2), (41, sl2000 4 5)],
    lens := [(38, 25000), (39, 10000), (40, 20000), (41, 12000)], conflicts := [(40, [41]), (41, [40])], clearance := 300 }

/-- A robot at route distance x of the route over slivers a and b, on its first sliver. -/
def crosser (x : Int) (a b e : Nat) : TrackRobot :=
  { TrackRobot.init with
    prof := { RobotProfile.init with footFront := 1500, footRear := 1000, tGuard := 50, releaseMargin := 20 },
    route := some { entries := [(a, false), (b, false)], endOffset := e, prio := 4 }, x := x, state := .moving,
    windows := [{ sliver := a, rev := false, idx := some 0, from_ := 0, until_ := 20000000000, entered := true, live := true }] }

def atCrossing : State :=
  { hot with
    track := { Track.init with
      active := crossing, wasLatched := false, robots := [(5, crosser 2000 39 40 20000), (9, crosser 21000 38 41 12000)] },
    spin := { hot.spin with spindles :=
      [(5, { Spindle.init with live := { Profile.init with vMax := 2000 } }),
       (9, { Spindle.init with live := { Profile.init with vMax := 2000 } })] },
    rse := { Rse.init 96 with rovers :=
      [(5, { Rover.init with tickFix := some { Fix.none with status := 5 } }),
       (9, { Rover.init with tickFix := some { Fix.none with status := 5 } })] } }

/-- Its windows, [T+2.75 s, T+15.1 s] and [T+15.1 s, T+23.45 s], and robot 9's SEP input, 2,500 mm. -/
theorem test_crossing :
    let s := limitPhase (grantPhase 0 atCrossing).1
    ((getTr s 5).windows.map (fun w => (w.sliver, w.from_, w.until_))).getLast? = some (40, 2750000000, 15100000000) ∧
      ((getTr s 9).windows.map (fun w => (w.sliver, w.from_, w.until_))).getLast? = some (41, 15100000000, 23450000000) ∧
      (getTr s 9).limitDist = 25000 ∧ (getTr s 9).sepIn = 2500 := by decide +kernel

/-- A candidate of the auction in spec/09. -/
def lot (task prio : Nat) (cost : Nat) (benefit : Int) : Cand :=
  { task := task, prio := prio, latest := 0, cost := cost, benefit := benefit, arrival := 0, path := [] }

/-- Its three bids and their outcome. -/
theorem test_auction :
    auction 1 100 [(3, [lot 10 2 40000 800000, lot 11 2 55000 785000, lot 12 0 20000 580000]),
        (8, [lot 10 2 45000 795000, lot 11 2 90000 750000, lot 12 0 30000 570000])] 100
      { prices := [], held := [], dropped := [], bids := 0, truncated := false } =
    { prices := [(10, 45001), (11, 30002)], held := [(10, 8), (11, 3)], dropped := [], bids := 3, truncated := false } := by
  decide +kernel

/-- The profile of the first-steps example of spec/10. -/
def paced : Profile := { Profile.init with a2 := 250 }
def far : Bounds := { target := 100000, points := [], cap := fun _ _ => 1000, stop := false }

/-- Steps 1, 5 and 6 of the example: squared speeds, speeds and intervals. -/
theorem test_steps :
    (let x := nextStep paced far 0 10000 50 5000000; (x.p1, x.n2, x.vn, x.interval)) = (50, 60000, 244, 290697674) ∧
    (let x := nextStep paced far 200 210000 50 5000000; (x.n2, x.vn, x.interval)) = (260000, 509, 103412616) ∧
    (let x := nextStep paced far 250 260000 50 5000000; (x.n2, x.vn, x.interval)) = (285000, 533, 95969290) := by
  decide +kernel

/-- The deceleration examples of spec/10 and spec/11. -/
theorem test_braking :
    allowed2 { Profile.init with d2 := 400 } 100 1200 = 1114000 ∧ allowed2 { Profile.init with d2 := 300 } 100 1200 = 898000 ∧
      brakeDistOf Profile.init 1000000 = 656 := by decide +kernel

/-- SEP's takeover in spec/11: outputs and the raw integrator over ticks n+1 to n+3. -/
theorem test_sep_takeover :
    let l0 := { lawOf (govCoef 1) (govCoef 1) with i := 65536000, uPrev := 1000, ePrev := 4 }
    let a := evalLaw l0 (-1) 0
    let b := evalLaw a.law (-6) 0
    let c := evalLaw b.law (-11) 0
    (a.u, b.u, c.u) = (998, 988, 978) ∧ (a.law.i, b.law.i, c.law.i) = (65532723, 65513061, 65477014) := by decide +kernel

/-- The swap of a saturated LINK in spec/11: the output climbs by R_MAX and the integrator stays at 800. -/
theorem test_link_swap :
    let l0 := { lawOf (govCoef 4) (coef 1311 66 200 65535 0 65535 50) with swap := true, ePrev := -40000 }
    let a := evalLaw l0 (-40000) 0
    let b := evalLaw a.law (-40000) 0
    (a.p, a.u, b.u) = (-800, 50, 100) ∧ (a.law.i, b.law.i) = (800 * 65536, 800 * 65536) := by decide +kernel

/-- QUAL in MANUAL in spec/11: 620, raised to 770 by the rate limit. -/
theorem test_qual_limit :
    (evalLaw { lawOf (govCoef 3) (govCoef 3) with i := 820 * 65536, uPrev := 820 } (-20) 0).u = 770 := by decide +kernel

/-- The slewing of spec/15: at -400 us, and at +15 us after -10 us/s. -/
theorem test_slew :
    let l := lawOf (servoCoef 1) (servoCoef 1)
    (evalLaw l (-400000) 0).u = -5000000 ∧ (evalLaw { l with uPrev := -5000000 } (-395000) 0).u = -10000000 ∧
      (evalLaw { l with uPrev := -10000000 } (-15000) 0).u = -7500000 := by decide +kernel

/-- The three routes of spec/14. -/
def routes : State :=
  { State.reset with net := { State.reset.net with routes :=
      [{ v6 := false, len := 0, pfx := 0, vid := 1, mac := 2 }, { v6 := false, len := 16, pfx := 0x140A, vid := 2, mac := 4 },
       { v6 := false, len := 20, pfx := 0x80140A, vid := 3, mac := 6 }] } }

/-- 10.20.131.7 takes the /20 route, 10.20.7.7 the /16, 10.21.0.1 the default. -/
theorem test_lookup :
    (lookupRoute routes false 0x0783140A).map (fun r => r.len) = some 20 ∧
      (lookupRoute routes false 0x0707140A).map (fun r => r.len) = some 16 ∧
      (lookupRoute routes false 0x0100150A).map (fun r => r.len) = some 0 := by decide +kernel

/-- The re-plan of spec/19, after a trend of 1,740 ppt in a day: supply 40 mV, guard 14 %, SOLVE 850 MHz, holdover
3,500 ppt/day. -/
theorem test_replan :
    let s := replan 0 930 1100 { hot with time := { hot.time with trend := [(86400, 1740), (0, 0)] } }
    s.health.margins.vcore = 40 ∧ s.health.margins.guardReplan = 14 ∧
      s.health.margins.solvePending.map (fun p => p.1) = some 850 ∧ (servoSetOf s).ageing = 3500 := by decide +kernel

/-- The residuals of spec/05, wrapped into a wavelength, in um. -/
theorem test_wrap : wrapInto 866000 190290 = -85450 ∧ wrapInto 342000 190290 = -38580 ∧ wrapInto (-500000) 190290 = 70870 := by
  decide

/-! ### Known answers of the standards that the spec names -/

/-- SHA-384 of the empty message begins 38 B0 60 A7 (FIPS 180-4). -/
theorem test_sha384 : (sha384 []).take 4 = [0x38, 0xB0, 0x60, 0xA7] := by decide +kernel

/-- AES-CMAC of the empty message under the key of RFC 4493. -/
theorem test_cmac :
    cmac [0x2b, 0x7e, 0x15, 0x16, 0x28, 0xae, 0xd2, 0xa6, 0xab, 0xf7, 0x15, 0x88, 0x09, 0xcf, 0x4f, 0x3c] [] =
      [0xbb, 0x1d, 0x69, 0x29, 0xe9, 0x59, 0x37, 0x28, 0x7f, 0xa3, 0x7d, 0x12, 0x9b, 0x75, 0x67, 0x46] := by decide +kernel

/-! ### The statements' hypotheses are met -/

theorem witness_SysReadsAnswer (H : Obligations.SysReadsAnswer) :
    Completes (exec (.nop (pk [])) hot) ∧
    Completes (exec (.getInfo (pk [])) hot) ∧
    Completes (exec (.getStatus (pk [])) hot) ∧
    Completes (exec (.getCounters (pk [0x1000])) hot) ∧
    Completes (exec (.getCounters (pk [0x0001])) hot) ∧
    Completes (exec (.getCounters (pk [0x10002])) hot) :=
  ⟨⟨_, (H (pk []) hot).1 (by decide +kernel)⟩,
   ⟨_, (H (pk []) hot).2.1 (by decide +kernel)⟩,
   ⟨_, (H (pk []) hot).2.2.1 (by decide +kernel)⟩,
   ⟨_, ((H (pk [0x1000]) hot).2.2.2 (by decide +kernel) (by decide +kernel) _ rfl _ rfl).1 (by decide +kernel)
       (by decide +kernel)⟩,
   ⟨_, ((H (pk [0x0001]) hot).2.2.2 (by decide +kernel) (by decide +kernel) _ rfl _ rfl).2.1 (by decide +kernel)⟩,
   ⟨_, ((H (pk [0x10002]) hot).2.2.2 (by decide +kernel) (by decide +kernel) _ rfl _ rfl).2.2 (by decide +kernel)⟩⟩

theorem witness_SetTickKept (H : Obligations.SetTickKept) :
    Completes (exec (.setTick (pk [0, 0])) hot) ∧
    Completes (exec (.setTick (pk [0x0505, 1250])) hot) ∧
    Completes (exec (.setTick (pk [0x3214, 5000])) hot) :=
  ⟨⟨_, (H (pk [0, 0]) hot _ _ _ _ _ rfl rfl (by decide +kernel) (by decide +kernel) (by decide +kernel) rfl rfl rfl
      (by decide +kernel) (by decide +kernel)).1 (by decide +kernel) (by decide +kernel) (by decide +kernel)⟩,
   ⟨_, (H (pk [0x0505, 1250]) hot _ _ _ _ _ rfl rfl (by decide +kernel) (by decide +kernel) (by decide +kernel) rfl
       rfl rfl (by decide +kernel) (by decide +kernel)).1 (by decide +kernel) (by decide +kernel)
       (by decide +kernel)⟩,
   ⟨_, (H (pk [0x3214, 5000]) hot _ _ _ _ _ rfl rfl (by decide +kernel) (by decide +kernel) (by decide +kernel) rfl
       rfl rfl (by decide +kernel) (by decide +kernel)).2 (by decide +kernel) (by decide +kernel) (by decide +kernel)
       (by decide +kernel) (by decide +kernel)⟩⟩

theorem witness_SoftResetRuns (H : Obligations.SoftResetRuns) :
    Completes (exec (.softReset (pk [0x5AFE])) hot) :=
  ⟨_, H (pk [0x5AFE]) hot _ rfl (by decide +kernel) (by decide +kernel) (by decide +kernel) (by decide +kernel)⟩

theorem witness_GnssConfigAnswers (H : Obligations.GnssConfigAnswers) :
    Completes (exec (.gnssConfig (pk [0x0010])) hot) ∧
    Completes (exec (.gnssConfig (pk [0x0772])) hot) ∧
    Completes (exec (.gnssConfig (pk [0xF813])) hot) ∧
    Completes (exec (.gnssConfig (pk [0, 0x1FFFFF, 0x3C64])) hot) ∧
    Completes (exec (.gnssConfig (pk [0x21, 0x81F9, 0x28])) hot) ∧
    Completes (exec (.gnssConfig (pk [0x22, 0x0102, 61380000])) hot) ∧
    Completes (exec (.gnssConfig (pk [0xF803, 0x01F403E8, 0x000A])) hot) :=
  ⟨⟨_, (H (pk [0x0010]) hot _ _ _ _ _ _ _ _ rfl rfl rfl (by decide +kernel) rfl rfl rfl rfl rfl (by decide +kernel)
      (by decide +kernel) (by decide +kernel)).1 (by decide +kernel) (by decide +kernel)⟩,
   ⟨_, (H (pk [0x0772]) hot _ _ _ _ _ _ _ _ rfl rfl rfl (by decide +kernel) rfl rfl rfl rfl rfl (by decide +kernel)
       (by decide +kernel) (by decide +kernel)).1 (by decide +kernel) (by decide +kernel)⟩,
   ⟨_, (H (pk [0xF813]) hot _ _ _ _ _ _ _ _ rfl rfl rfl (by decide +kernel) rfl rfl rfl rfl rfl (by decide +kernel)
       (by decide +kernel) (by decide +kernel)).1 (by decide +kernel) (by decide +kernel)⟩,
   ⟨_, (H (pk [0, 0x1FFFFF, 0x3C64]) hot _ _ _ _ _ _ _ _ rfl rfl rfl (by decide +kernel) rfl rfl rfl rfl rfl
       (by decide +kernel) (by decide +kernel) (by decide +kernel)).2.1 (by decide +kernel) (by decide +kernel)⟩,
   ⟨_, (H (pk [0x21, 0x81F9, 0x28]) hot _ _ _ _ _ _ _ _ rfl rfl rfl (by decide +kernel) rfl rfl rfl rfl rfl
       (by decide +kernel) (by decide +kernel) (by decide +kernel)).2.2.1 (by decide +kernel) (by decide +kernel)⟩,
   ⟨_, (H (pk [0x22, 0x0102, 61380000]) hot _ _ _ _ _ _ _ _ rfl rfl rfl (by decide +kernel) rfl rfl rfl rfl rfl
       (by decide +kernel) (by decide +kernel) (by decide +kernel)).2.2.2.1 (by decide +kernel) (by decide +kernel)⟩,
   ⟨_, (H (pk [0xF803, 0x01F403E8, 0x000A]) hot _ _ _ _ _ _ _ _ rfl rfl rfl (by decide +kernel) rfl rfl rfl rfl rfl
       (by decide +kernel) (by decide +kernel) (by decide +kernel)).2.2.2.2 (by decide +kernel) (by decide +kernel)⟩⟩

/-- READY with an observation epoch held. -/
def seen : State := { hot with gnss := { Gnss.init 32 with
  epochs := [{ time := 5, clkBias := 0, clkDrift := 0, recs := [] }] } }
theorem witness_GnssSettingsAnswer (H : Obligations.GnssSettingsAnswer) :
    Completes (exec (.gnssGetChannels (pk [0x80200])) hot) ∧
    Completes (exec (.gnssChannelSet (pk [0x3FF, 0, 0])) hot) ∧
    Completes (exec (.gnssChannelSet (pk [0x800, 0, 0])) hot) ∧
    Completes (exec (.gnssChannelSet (pk [0x01401400, 0x400301, 0])) hot) ∧
    Completes (exec (.gnssChannelSet (pk [0x00348400, 0x800001, 9])) hot) ∧
    Completes (exec (.gnssSetAntenna (pk [3, 7])) hot) ∧
    Completes (exec (.gnssSetAntenna (pk [4])) hot) ∧
    Completes (exec (.gnssSetIsb (pk [0x25, 5])) hot) ∧
    Completes (exec (.gnssSetIsb (pk [0, 0])) hot) ∧
    Completes (exec (.gnssSurvey (pk [0])) hot) ∧
    Completes (exec (.gnssSurvey (pk [1, 1, 0, 2, 0, 3, 0])) hot) ∧
    Completes (exec (.gnssSurvey (pk [5])) hot) ∧
    Completes (exec (.gnssSurvey (pk [4, 60])) hot) ∧
    Completes (exec (.gnssSurvey (pk [3, 86400, 0x01F4000A])) hot) :=
  ⟨⟨_, (H (pk [0x80200]) hot _ rfl).1 _ _ rfl rfl (by decide +kernel) (by decide +kernel)⟩,
   ⟨_, (H (pk [0x3FF, 0, 0]) hot _ rfl).2.1 1023 _ (Or.inl ⟨(by decide +kernel), rfl⟩) (by decide +kernel)
       (by decide +kernel)⟩,
   ⟨_, (H (pk [0x800, 0, 0]) hot _ rfl).2.1 0 _ (Or.inr ⟨(by decide +kernel), rfl⟩) (by decide +kernel)
       (by decide +kernel)⟩,
   ⟨_, (H (pk [0x01401400, 0x400301, 0]) hot _ rfl).2.2.1 _ _ _ _ _ rfl rfl rfl rfl rfl (by decide +kernel)
       (by decide +kernel)⟩,
   ⟨_, (H (pk [0x00348400, 0x800001, 9]) hot _ rfl).2.2.1 _ _ _ _ _ rfl rfl rfl rfl rfl (by decide +kernel)
       (by decide +kernel)⟩,
   ⟨_, (H (pk [3, 7]) hot _ rfl).2.2.2.1 _ _ rfl rfl (by decide +kernel) (by decide +kernel)⟩,
   ⟨_, (H (pk [4]) hot _ rfl).2.2.2.2.1 _ rfl (by decide +kernel) (by decide +kernel)⟩,
   ⟨_, (H (pk [0x25, 5]) hot _ rfl).2.2.2.2.2.1 (by decide +kernel) (by decide +kernel)⟩,
   ⟨_, (H (pk [0, 0]) hot _ rfl).2.2.2.2.2.2.1 (by decide +kernel) (by decide +kernel)⟩,
   ⟨_, (H (pk [0]) hot _ rfl).2.2.2.2.2.2.2.1 (by decide +kernel) (by decide +kernel)⟩,
   ⟨_, (H (pk [1, 1, 0, 2, 0, 3, 0]) hot _ rfl).2.2.2.2.2.2.2.2.1 _ (Or.inl ⟨(by decide +kernel), (by decide +kernel),
       (by decide +kernel), rfl⟩) (by decide +kernel) (by decide +kernel)⟩,
   ⟨_, (H (pk [5]) hot _ rfl).2.2.2.2.2.2.2.2.1 _ (Or.inr ⟨(by decide +kernel), (by decide +kernel),
       (by decide +kernel), rfl⟩) (by decide +kernel) (by decide +kernel)⟩,
   ⟨_, (H (pk [4, 60]) hot _ rfl).2.2.2.2.2.2.2.2.2.1 _ rfl (by decide +kernel) (by decide +kernel)⟩,
   ⟨_, (H (pk [3, 86400, 0x01F4000A]) hot _ rfl).2.2.2.2.2.2.2.2.2.2 _ rfl (by decide +kernel) (by decide +kernel)⟩⟩

theorem witness_GnssSubscriptionsAnswer (H : Obligations.GnssSubscriptionsAnswer) :
    Completes (exec (.gnssGetObs (pk [0, 0, 0])) seen) ∧
    Completes (exec (.gnssGetObs (pk [0, 5, 0])) seen) ∧
    Completes (exec (.gnssGetObs (pk [0x3F1, 0, 0])) seen) ∧
    Completes (exec (.gnssGetObs (pk [2, 0, 0])) seen) ∧
    Completes (exec (.gnssNavSubscribe (pk [0x1FD, 0x3FFF])) hot) ∧
    Completes (exec (.gnssNavSubscribe (pk [2, 0])) hot) ∧
    Completes (exec (.gnssNavSubscribe (pk [0, 0])) hot) ∧
    Completes (exec (.gnssIntegrityCfg (pk [1])) hot) ∧
    Completes (exec (.gnssIntegrityCfg (pk [0xC, 0x01011405, 0x01014802])) hot) ∧
    Completes (exec (.gnssIntegrityCfg (pk [0, 0x0F285A32, 0xFF400028])) hot) :=
  ⟨⟨_, (H (pk [0, 0, 0]) seen _ _ _ rfl rfl rfl).1 _ _ _ rfl rfl (by decide +kernel) ⟨(by decide +kernel),
      (by decide +kernel), (by decide +kernel), Or.inl ⟨(by decide +kernel), rfl⟩⟩⟩,
   ⟨_, (H (pk [0, 5, 0]) seen _ _ _ rfl rfl rfl).1 _ _ _ rfl rfl (by decide +kernel) ⟨(by decide +kernel),
       (by decide +kernel), (by decide +kernel), Or.inr ⟨(by decide +kernel), rfl⟩⟩⟩,
   ⟨_, (H (pk [0x3F1, 0, 0]) seen _ _ _ rfl rfl rfl).2.1 (by decide +kernel) (by decide +kernel)⟩,
   ⟨_, (H (pk [2, 0, 0]) seen _ _ _ rfl rfl rfl).2.2.1 (by decide +kernel) (by decide +kernel)⟩,
   ⟨_, (H (pk [0x1FD, 0x3FFF]) hot _ _ _ rfl rfl rfl).2.2.2.1 (by decide +kernel) (by decide +kernel)⟩,
   ⟨_, (H (pk [2, 0]) hot _ _ _ rfl rfl rfl).2.2.2.2.1 (by decide +kernel) (by decide +kernel)⟩,
   ⟨_, (H (pk [0, 0]) hot _ _ _ rfl rfl rfl).2.2.2.2.2.1 (by decide +kernel) (by decide +kernel)⟩,
   ⟨_, (H (pk [1]) hot _ _ _ rfl rfl rfl).2.2.2.2.2.2.1 (by decide +kernel) (by decide +kernel)⟩,
   ⟨_, (H (pk [0xC, 0x01011405, 0x01014802]) hot _ _ _ rfl rfl rfl).2.2.2.2.2.2.2 _ rfl (by decide +kernel)
       (by decide +kernel)⟩,
   ⟨_, (H (pk [0, 0x0F285A32, 0xFF400028]) hot _ _ _ rfl rfl rfl).2.2.2.2.2.2.2 _ rfl (by decide +kernel)
       (by decide +kernel)⟩⟩

theorem witness_CorrCommandsAnswer (H : Obligations.CorrCommandsAnswer) :
    Completes (exec (.corrStreamCfg (pk [0, 0xf0101, 0x1e5e3c, 0xFFFF])) hot) ∧
    Completes (exec (.corrStreamCfg (pk [2, 0x100001, 0x1fe00000, 0])) hot) ∧
    Completes (exec (.corrStreamCfg (pk [0x22])) hot) ∧
    Completes (exec (.corrStreamCfg (pk [0x10, 0x050400, 0x41414141, 0, 0, 0, 0, 0, 0, 0])) hot) ∧
    Completes (exec (.corrStreamCfg (pk [0x30, 1])) hot) ∧
    Completes (exec (.corrGetStats (pk [0x102])) hot) :=
  ⟨⟨_, (H (pk [0, 0xf0101, 0x1e5e3c, 0xFFFF]) hot _ _ _ _ rfl rfl rfl rfl).1 _ rfl (by decide +kernel)
      (by decide +kernel)⟩,
   ⟨_, (H (pk [2, 0x100001, 0x1fe00000, 0]) hot _ _ _ _ rfl rfl rfl rfl).1 _ rfl (by decide +kernel)
       (by decide +kernel)⟩,
   ⟨_, (H (pk [0x22]) hot _ _ _ _ rfl rfl rfl rfl).2.1 (by decide +kernel) (by decide +kernel)⟩,
   ⟨_, (H (pk [0x10, 0x050400, 0x41414141, 0, 0, 0, 0, 0, 0, 0]) hot _ _ _ _ rfl rfl rfl rfl).2.2.1 _ _ rfl rfl
       (by decide +kernel) (by decide +kernel)⟩,
   ⟨_, (H (pk [0x30, 1]) hot _ _ _ _ rfl rfl rfl rfl).2.2.2.1 (by decide +kernel) (by decide +kernel)⟩,
   ⟨_, (H (pk [0x102]) hot _ _ _ _ rfl rfl rfl rfl).2.2.2.2 (by decide +kernel) (by decide +kernel)⟩⟩

/-- Two nodes 10 m apart along the east axis and the sliver that joins them. -/
def graph : Graph :=
  { nodes := [(0, { e := 0, n := 0, u := 0 }), (1, { e := 10000, n := 0, u := 0 })]
    slivers := [(0, { start := 0, end_ := 1, radius := 0, width := 4000, vmax := 1000, dir := 0, classMask := 255 })]
    lens := [(0, 10000)], conflicts := [], clearance := 300 }

/-- A fix of STATUS 5 at the first node. -/
def good : Fix := { Fix.none with status := 5 }

/-- The route over sliver 0 to the second node. -/
def road : Route := { entries := [(0, false)], endOffset := 10000, prio := 0 }

def telem0 : Telem :=
  { tSample := 0, stream := 0, mode := 1, sync := true, permit := true, braking := false, stopped := false, goLost := false,
    starved := false, lateSp := false, fault := false, stepDone := 0, queued := 0, speed := 0, odo := 0, ptpOffset := 0,
    faults := 0, stopBad := 0 }

def bound : Binding := { station := 7, rate := 1, phase := 0, maxAmb := 8, anyStation := false }

/-- READY, the graph in force, the stop reset, and robot 0 at rest at the start of its route with a session and a fix;
robot 1 has no route. -/
def fleet : State := { hot with
  track := { Track.init with
    originSet := some { lat := 0, lon := 0, height := 0 }, origin := some { lat := 0, lon := 0, height := 0 }
    active := graph, staged := graph, wasLatched := false
    robots := [(0, { TrackRobot.init with route := some road, state := .moving, windows :=
      [{ sliver := 0, rev := false, idx := some 0, from_ := 0, until_ := 1, entered := false, live := true }] })] }
  rse := { Rse.init 96 with rovers :=
    [(0, { Rover.init with binding := some bound, latest := some good, tickFix := some good }),
     (1, { Rover.init with binding := some bound, tickFix := some good })] }
  uz := { Uz.init with robots := [(0, { Link.init with sess := .active, telem := some telem0 })] }
  stop := { Stop.init with chanX := false, chanY := false, faults := [] } }

/-- The request of robot 0's last entry, held. -/
def rested : State := { fleet with stop := { Stop.init with faults := [] } }

/-- The same with a spindle that is not at rest. -/
def moving : State := { fleet with spin := { Spin.init with
  spindles := [(0, { Spindle.init with state := .run, atRest := false })] } }
theorem witness_RoverBindAnswers (H : Obligations.RoverBindAnswers) :
    Completes (exec (.roverBind (pk [127])) hot) ∧
    Completes (exec (.roverBind (pk [0x201100, 7])) hot) ∧
    Completes (exec (.roverBind (pk [0x3826100, 0xFFF])) hot) ∧
    Completes (exec (.roverBind (pk [0x205])) hot) :=
  ⟨⟨_, (H (pk [127]) hot _ _ _ rfl rfl rfl (by decide +kernel)).1 (by decide +kernel) (by decide +kernel)⟩,
   ⟨_, (H (pk [0x201100, 7]) hot _ _ _ rfl rfl rfl (by decide +kernel)).2.1 _ rfl
       (by decide +kernel) ⟨(by decide +kernel), (by decide +kernel), (by decide +kernel), (by decide +kernel),
       (by decide +kernel), (by decide +kernel), (by decide +kernel), (by decide +kernel),
       (fun o ho => absurd (ho.symm.trans (by decide +kernel)) (Option.some_ne_none o)), (by decide +kernel)⟩⟩,
   ⟨_, (H (pk [0x3826100, 0xFFF]) hot _ _ _ rfl rfl rfl (by decide +kernel)).2.1 _ rfl
       (by decide +kernel) ⟨(by decide +kernel), (by decide +kernel), (by decide +kernel), (by decide +kernel),
       (by decide +kernel), (by decide +kernel), (by decide +kernel), (by decide +kernel),
       (fun o ho => absurd (ho.symm.trans (by decide +kernel)) (Option.some_ne_none o)), (by decide +kernel)⟩⟩,
   ⟨_, (H (pk [0x205]) hot _ _ _ rfl rfl rfl (by decide +kernel)).2.2 (by decide +kernel) (by decide +kernel)⟩⟩

theorem witness_RoverCommandsAnswer (H : Obligations.RoverCommandsAnswer) :
    Completes (exec (.roverCfg (pk [0x17f])) hot) ∧
    Completes (exec (.roverCfg (pk [255, 0x40f1500, 0x1006403c, 0x5020000, 0])) hot) ∧
    Completes (exec (.roverCfg (pk [127, 0x60643cad, 0xf4e203e8, 0x32141388, 5])) hot) ∧
    Completes (exec (.roverGetFix (pk [0])) fleet) ∧
    Completes (exec (.roverGetFix (pk [0x101])) fleet) ∧
    Completes (exec (.roverSubscribe (pk [0x3fd, 0xFFFFFFFF, 0xFFFFFFFF, 0xFFFFFFFF, 0xFFFFFFFF])) hot) ∧
    Completes (exec (.roverSubscribe (pk [2, 0, 0, 0, 0])) hot) ∧
    Completes (exec (.roverSubscribe (pk [0, 0, 0, 0, 0])) hot) ∧
    Completes (exec (.roverResetAmb (pk [255])) hot) ∧
    Completes (exec (.roverResetAmb (pk [0x1ff201])) fleet) ∧
    Completes (exec (.roverGetStats (pk [0x100])) fleet) ∧
    Completes (exec (.roverGetStats (pk [1])) fleet) :=
  ⟨⟨_, (H (pk [0x17f]) hot _ _ _ _ _ rfl rfl rfl rfl rfl).1 (by decide +kernel) (by decide +kernel)⟩,
   ⟨_, (H (pk [255, 0x40f1500, 0x1006403c, 0x5020000, 0]) hot _ _ _ _ _ rfl rfl rfl rfl rfl).2.1 _ rfl
       (by decide +kernel) (by decide +kernel)⟩,
   ⟨_,  (H (pk [127, 0x60643cad, 0xf4e203e8, 0x32141388, 5]) hot _ _ _ _ _ rfl rfl rfl rfl rfl).2.1 _ rfl
       (by decide +kernel) (by decide +kernel)⟩,
   ⟨_, (H (pk [0]) fleet _ _ _ _ _ rfl rfl rfl rfl rfl).2.2.1 good (by decide +kernel) (by decide +kernel)⟩,
   ⟨_, (H (pk [0x101]) fleet _ _ _ _ _ rfl rfl rfl rfl rfl).2.2.1 good (by decide +kernel) (by decide +kernel)⟩,
   ⟨_, (H (pk [0x3fd, 0xFFFFFFFF, 0xFFFFFFFF, 0xFFFFFFFF, 0xFFFFFFFF]) hot _ _ _ _ _ rfl rfl rfl rfl rfl).2.2.2.1 _
       rfl (by decide +kernel) (by decide +kernel)⟩,
   ⟨_, (H (pk [2, 0, 0, 0, 0]) hot _ _ _ _ _ rfl rfl rfl rfl rfl).2.2.2.1 _ rfl (by decide +kernel)
       (by decide +kernel)⟩,
   ⟨_, (H (pk [0, 0, 0, 0, 0]) hot _ _ _ _ _ rfl rfl rfl rfl rfl).2.2.2.1 _ rfl (by decide +kernel)
       (by decide +kernel)⟩,
   ⟨_, (H (pk [255]) hot _ _ _ _ _ rfl rfl rfl rfl rfl).2.2.2.2.1 (by decide +kernel) (by decide +kernel)⟩,
   ⟨_, (H (pk [0x1ff201]) fleet _ _ _ _ _ rfl rfl rfl rfl rfl).2.2.2.2.1 (by decide +kernel) (by decide +kernel)⟩,
   ⟨_, (H (pk [0x100]) fleet _ _ _ _ _ rfl rfl rfl rfl rfl).2.2.2.2.2 5 (by decide +kernel) (by decide +kernel)⟩,
   ⟨_, (H (pk [1]) fleet _ _ _ _ _ rfl rfl rfl rfl rfl).2.2.2.2.2 0 (by decide +kernel) (by decide +kernel)⟩⟩

theorem witness_TrackStoreAnswers (H : Obligations.TrackStoreAnswers) :
    Completes (exec (.trackOrigin (pk [0])) hot) ∧
    Completes (exec (.trackOrigin (pk [1, 0, 0, 0, 0, 5])) hot) ∧
    Completes (exec (.trackOrigin (pk [1, 0xF4653600, 0x14, 0x17359400, 0xFFFFFFD6, 5])) fleet) ∧
    Completes (exec (.trackOrigin (pk [2])) fleet) ∧
    Completes (exec (.trackLoadNodes (pk [0x13fff, 30000000, 0xFE363C80, 1000000, 1])) fleet) ∧
    Completes (exec (.trackLoadNodes (pk [0x8000])) fleet) ∧
    Completes (exec (.trackLoadSlivers (pk [0x17fff, 0x80000001, 0, 0x101f4, 0x102])) fleet) ∧
    Completes (exec (.trackCommit (pk [5000])) fleet) ∧
    Completes (exec (.deckleLoad (pk [63])) fleet) ∧
    Completes (exec (.deckleLoad (pk [0x3213f, 0, 0, 30000000, 0, 0, 30000000])) fleet) ∧
    Completes (exec (.deckleLoad (pk [0x200])) fleet) :=
  ⟨⟨_, (H (pk [0]) hot _ _ _ rfl rfl rfl).1 (by decide +kernel) (by decide +kernel)⟩,
   ⟨_, (H (pk [1, 0, 0, 0, 0, 5]) hot _ _ _ rfl rfl rfl).2.1 _ (Or.inl ⟨(by decide +kernel), (by decide +kernel), rfl,
       (by decide +kernel), (by decide +kernel), (by decide +kernel), (by decide +kernel)⟩) (by decide +kernel)
       (by decide +kernel)⟩,
   ⟨_, (H (pk [1, 0xF4653600, 0x14, 0x17359400, 0xFFFFFFD6, 5]) fleet _ _ _ rfl
       rfl rfl).2.1 _ (Or.inl ⟨(by decide +kernel), (by decide +kernel), rfl, (by decide +kernel),
       (by decide +kernel), (by decide +kernel), (by decide +kernel)⟩) (by decide +kernel) (by decide +kernel)⟩,
   ⟨_, (H (pk [2]) fleet _ _ _ rfl rfl rfl).2.1 _ (Or.inr ⟨(by decide +kernel), (by decide +kernel), rfl⟩)
       (by decide +kernel) (by decide +kernel)⟩,
   ⟨_, (H (pk [0x13fff, 30000000, 0xFE363C80, 1000000, 1]) fleet _ _ _ rfl rfl rfl).2.2.1 _ rfl (by decide +kernel)
       (by decide +kernel)⟩,
   ⟨_, (H (pk [0x8000]) fleet _ _ _ rfl rfl rfl).2.2.1 _ rfl (by decide +kernel) (by decide +kernel)⟩,
   ⟨_, (H (pk [0x17fff, 0x80000001, 0, 0x101f4, 0x102]) fleet _ _ _ rfl rfl rfl).2.2.2.1 _ rfl (by decide +kernel)
       (by decide +kernel)⟩,
   ⟨_, (H (pk [5000]) fleet _ _ _ rfl rfl rfl).2.2.2.2.1 _ rfl (by decide +kernel) (by decide +kernel)⟩,
   ⟨_, (H (pk [63]) fleet _ _ _ rfl rfl rfl).2.2.2.2.2.1 (by decide +kernel) (by decide +kernel)⟩,
   ⟨_, (H (pk [0x3213f, 0, 0, 30000000, 0, 0, 30000000]) fleet _ _ _ rfl rfl rfl).2.2.2.2.2.2.1 _ _ rfl rfl
       (by decide +kernel) (by decide +kernel)⟩,
   ⟨_, (H (pk [0x200]) fleet _ _ _ rfl rfl rfl).2.2.2.2.2.2.2 (by decide +kernel) (by decide +kernel)⟩⟩

theorem witness_ReservationCommandsAnswer (H : Obligations.ReservationCommandsAnswer) :
    Completes (exec (.resvGet (pk [0x7f0000])) fleet) ∧
    Completes (exec (.resvGet (pk [0x7fff0001])) fleet) ∧
    Completes (exec (.resvGet (pk [2])) fleet) ∧
    Completes (exec (.resvRelease (pk [0x100])) fleet) ∧
    Completes (exec (.resvRelease (pk [0])) fleet) ∧
    Completes (exec (.resvRelease (pk [0x200])) rested) ∧
    Completes (exec (.routeSet (pk [127])) fleet) ∧
    Completes (exec (.routeSet (pk [0x10101, 10000, 0])) fleet) ∧
    Completes (exec (.routeSet (pk [0x200])) fleet) ∧
    Completes (exec (.routeSet (pk [0x301, 0x4e204e20, 0x72710, 0x1770])) fleet) :=
  ⟨⟨_, ((H (pk [0x7f0000]) fleet _ _ _ _ _ rfl rfl rfl rfl rfl).1 _ rfl).1 (by decide +kernel) (by decide +kernel)⟩,
   ⟨_, ((H (pk [0x7fff0001]) fleet _ _ _ _ _ rfl rfl rfl rfl rfl).1 _ rfl).2.1 (by decide +kernel)
       (by decide +kernel)⟩,
   ⟨_, ((H (pk [2]) fleet _ _ _ _ _ rfl rfl rfl rfl rfl).1 _ rfl).2.2.1 (by decide +kernel) (by decide +kernel)⟩,
   ⟨_, ((H (pk [0x100]) fleet _ _ _ _ _ rfl rfl rfl rfl rfl).1 _ rfl).2.2.2 _ rfl (by decide +kernel)
       (by decide +kernel)⟩,
   ⟨_, ((H (pk [0]) fleet _ _ _ _ _ rfl rfl rfl rfl rfl).1 _ rfl).2.2.2 _ rfl (by decide +kernel)
       (by decide +kernel)⟩,
   ⟨_, ((H (pk [0x200]) rested _ _ _ _ _ rfl rfl rfl rfl rfl).1 _ rfl).2.2.2 _ rfl (by decide +kernel)
       (by decide +kernel)⟩,
   ⟨_, (H (pk [127]) fleet _ _ _ _ _ rfl rfl rfl rfl rfl).2.1 (by decide +kernel) (by decide +kernel)⟩,
   ⟨_, (H (pk [0x10101, 10000,
     0]) fleet _ _ _ _ _ rfl rfl rfl rfl rfl).2.2.1 _ _ _ (fun a => addTrackAct (.routeSet _ _) (modTr _ _ a)) rfl rfl rfl (fun _ => rfl) (by decide +kernel) ⟨(by decide +kernel), (by decide +kernel), (by decide +kernel), (by decide +kernel), (by decide +kernel), (by decide +kernel), (by decide +kernel), (by decide +kernel), fun e he => by cases Option.some.inj (Eq.trans (by decide +kernel : _ = some ((0, false) : Nat × Bool)).symm he); decide +kernel, (by decide +kernel), (by decide +kernel), (by decide +kernel)⟩⟩,
   ⟨_, (H (pk [0x200]) fleet _ _ _ _ _ rfl rfl rfl rfl rfl).2.2.2.1 _ (fun _ => rfl) (by decide +kernel)
       (by decide +kernel)⟩,
   ⟨_, (H (pk [0x301, 0x4e204e20, 0x72710, 0x1770]) fleet _ _ _ _ _ rfl rfl rfl rfl rfl).2.2.2.2 _ rfl
       (by decide +kernel) (by decide +kernel)⟩⟩

/-- A task at the second node. -/
def task1 : TaskRec := { TaskRec.init with node := 1, pin := 255 }

/-- The result of a round that assigned nothing. -/
def round1 : Round :=
  { id := 5, assigns := [], tasks := 0, robots := 0, skipped := 0, bids := 0, benefit := 0, duration := 0, truncated := false,
    committed := false, dropped := 0, roundsSkipped := 0, endUp := 0 }

/-- Slot 0 OPEN, slot 1 assigned to robot 0, slot 2 REACHED, and the proposal of a round. -/
def tasked : State := { fleet with task := { Task.init with
  slots := [(0, { TaskSlot.init with state := .open_, task := task1 }),
    (1, { TaskSlot.init with state := .assigned, task := task1, robot := 0 }), (2, { TaskSlot.init with state := .reached })]
  last := some round1, proposalAt := some 0 } }

/-- A post 5 m along the sliver. -/
def post1 : Post :=
  { sliver := 0, rev := false, yard := true, input := 0, polarity := false, offset := 5000, searchDist := 100, overrun := 10,
    backoff := 10, triggerOfs := 0, qualN := 1, chatK := 2, chatW := 1 }

def posted : State := { fleet with spin := { Spin.init with posts := [(31, post1)] } }

/-- Robot 0 under manual control, at rest. -/
def manned : State := { fleet with spin := { Spin.init with
  spindles := [(0, { Spindle.init with state := .manual })] } }
theorem witness_TaskCommandsAnswer (H : Obligations.TaskCommandsAnswer) :
    Completes (exec (.taskPost (pk [0xff0707ff, 5, 0x90001, 0, 1, 0, 2, 0, 0, 0, 0, 0, 0, 0, 0, 0])) tasked) ∧
    Completes (exec (.taskPost (pk [0x7f000003, 5, 0, 0, 0, 1, 0, 0, 0, 0, 0, 0, 0, 0, 0, 0])) tasked) ∧
    Completes (exec (.taskPost (pk [0xff001000, 5, 0, 0, 0, 0, 0, 0, 0, 0, 0, 0, 0, 0, 0, 0])) tasked) ∧
    Completes (exec (.taskPost (pk [0xff001001, 5, 1, 0, 0, 0, 0, 0, 0, 0, 0, 0, 0, 0, 0, 0])) tasked) ∧
    Completes (exec (.taskPost (pk [0x27ff])) tasked) ∧
    Completes (exec (.taskCancel (pk [1])) tasked) ∧
    Completes (exec (.taskCancel (pk [0x1002])) tasked) ∧
    Completes (exec (.allotRun (pk [1])) fleet) ∧
    Completes (exec (.allotGet (pk [0x80ffff])) tasked) ∧
    Completes (exec (.allotGet (pk [0x10000])) tasked) ∧
    Completes (exec (.allotCommit (pk [5, 0xFFFFFFFF, 0xFFFFFFFF, 0xFFFFFFFF, 0xFFFFFFFF])) tasked) :=
  ⟨⟨_, ((H (pk [0xff0707ff, 5, 0x90001, 0, 1, 0, 2, 0, 0, 0, 0, 0, 0, 0, 0, 0]) tasked _ _ rfl rfl).1 _ rfl).1
      (by decide +kernel) (by decide +kernel)⟩,
   ⟨_, ((H (pk [0x7f000003, 5, 0, 0, 0, 1, 0, 0, 0, 0, 0, 0, 0, 0, 0, 0]) tasked _ _ rfl rfl).1 _ rfl).1
       (by decide +kernel) (by decide +kernel)⟩,
   ⟨_,  ((H (pk [0xff001000, 5, 0, 0, 0, 0, 0, 0, 0, 0, 0, 0, 0, 0, 0, 0]) tasked _ _ rfl rfl).1 _ rfl).2 _
       (by decide +kernel) ⟨(by decide +kernel), (by decide +kernel), (by decide +kernel), (by decide +kernel),
       (by decide +kernel), (by decide +kernel), (by decide +kernel), (by decide +kernel), (by decide +kernel), rfl,
       (by decide +kernel), (by decide +kernel), (by decide +kernel)⟩⟩,
   ⟨_,  ((H (pk [0xff001001, 5, 1, 0, 0, 0, 0, 0, 0, 0, 0, 0, 0, 0, 0, 0]) tasked _ _ rfl rfl).1 _ rfl).2 _
       (by decide +kernel) ⟨(by decide +kernel), (by decide +kernel), (by decide +kernel), (by decide +kernel),
       (by decide +kernel), (by decide +kernel), (by decide +kernel), (by decide +kernel), (by decide +kernel), rfl,
       (by decide +kernel), (by decide +kernel), (by decide +kernel)⟩⟩,
   ⟨_, (H (pk [0x27ff]) tasked _ _ rfl rfl).2.1 (by decide +kernel) (by decide +kernel)⟩,
   ⟨_, (H (pk [1]) tasked _ _ rfl rfl).2.2.1 _ (by decide +kernel) ⟨(by decide +kernel), (by decide +kernel),
       (by decide +kernel), rfl, (by decide +kernel), (by decide +kernel)⟩⟩,
   ⟨_, (H (pk [0x1002]) tasked _ _ rfl rfl).2.2.1 _ (by decide +kernel) ⟨(by decide +kernel), (by decide +kernel),
       (by decide +kernel), rfl, (by decide +kernel), (by decide +kernel)⟩⟩,
   ⟨_, (H (pk [1]) fleet _ _ rfl rfl).2.2.2.1 (by decide +kernel) (by decide +kernel)⟩,
   ⟨_, (H (pk [0x80ffff]) tasked _ _ rfl rfl).2.2.2.2.1 _ _ _ rfl rfl (by decide +kernel) ⟨(by decide +kernel),
       (by decide +kernel), (by decide +kernel), (by decide +kernel), rfl⟩⟩,
   ⟨_, (H (pk [0x10000]) tasked _ _ rfl rfl).2.2.2.2.1 _ _ _ rfl rfl (by decide +kernel) ⟨(by decide +kernel),
       (by decide +kernel), (by decide +kernel), (by decide +kernel), rfl⟩⟩,
   ⟨_, (H (pk [5, 0xFFFFFFFF, 0xFFFFFFFF, 0xFFFFFFFF, 0xFFFFFFFF]) tasked _ _ rfl rfl).2.2.2.2.2 _ round1 _ rfl rfl
       (by decide +kernel) (by decide +kernel)⟩⟩

theorem witness_AllotCfgAnswers (H : Obligations.AllotCfgAnswers) :
    Completes (exec (.allotCfg (pk [0x7f03])) fleet) ∧
    Completes (exec (.allotCfg (pk [1])) fleet) ∧
    Completes (exec (.allotCfg (pk [2, 0x20000, 0, 0])) fleet) ∧
    Completes (exec (.allotCfg (pk [0x7f02, 0x9ffff, 0, 0])) fleet) ∧
    Completes (exec (.allotCfg (pk [0, 0x1000000, 0x1, 0x1000400])) fleet) ∧
    Completes (exec (.allotCfg (pk [0, 0xff071770, 0xffffffff, 0xff0fffff])) fleet) :=
  ⟨⟨_, (H (pk [0x7f03]) fleet _ _ _ _ _ rfl rfl rfl rfl rfl (by decide +kernel)).1 (by decide +kernel)
      (by decide +kernel)⟩,
   ⟨_, (H (pk [1]) fleet _ _ _ _ _ rfl rfl rfl rfl rfl (by decide +kernel)).2.1 (by decide +kernel)
       (by decide +kernel)⟩,
   ⟨_, (H (pk [2, 0x20000, 0, 0]) fleet _ _ _ _ _ rfl rfl rfl rfl rfl (by decide +kernel)).2.2.1 _ rfl
       (by decide +kernel) (by decide +kernel)⟩,
   ⟨_, (H (pk [0x7f02, 0x9ffff, 0, 0]) fleet _ _ _ _ _ rfl rfl rfl rfl rfl (by decide +kernel)).2.2.1 _ rfl
       (by decide +kernel) (by decide +kernel)⟩,
   ⟨_, (H (pk [0, 0x1000000, 0x1, 0x1000400]) fleet _ _ _ _ _ rfl rfl rfl rfl rfl (by decide +kernel)).2.2.2 _ rfl
       (by decide +kernel) (by decide +kernel)⟩,
   ⟨_, (H (pk [0, 0xff071770, 0xffffffff, 0xff0fffff]) fleet _ _ _ _ _ rfl rfl rfl rfl rfl
       (by decide +kernel)).2.2.2 _ rfl (by decide +kernel) (by decide +kernel)⟩⟩

theorem witness_SpinCommandsAnswer (H : Obligations.SpinCommandsAnswer) :
    Completes (exec (.spinProfileSet (pk [0x17f])) fleet) ∧
    Completes (exec (.spinProfileSet (pk [255, 0xa000a, 0xa000a, 0x640064, 0x640064, 0x1000a])) fleet) ∧
    Completes (exec (.spinProfileSet (pk [127, 0x13881388, 0xffff1388, 0x4e204e20, 0x4e204e20, 0x801f4])) fleet) ∧
    Completes (exec (.spinStartAt (pk [0])) fleet) ∧
    Completes (exec (.spinHold (pk [0x1ff])) moving) ∧
    Completes (exec (.spinHold (pk [0])) moving) ∧
    Completes (exec (.spinGet (pk [127])) fleet) ∧
    Completes (exec (.spinMode (pk [0])) manned) ∧
    Completes (exec (.spinMode (pk [0x100])) moving) ∧
    Completes (exec (.spinMode (pk [0x100])) fleet) ∧
    Completes (exec (.spinMode (pk [0x200])) manned) ∧
    Completes (exec (.postHome (pk [0x1f00, 0x640064, 5000])) posted) :=
  ⟨⟨_, (H (pk [0x17f]) fleet _ _ rfl rfl).1 (by decide +kernel) (by decide +kernel)⟩,
   ⟨_, (H (pk [255, 0xa000a, 0xa000a, 0x640064, 0x640064, 0x1000a]) fleet _ _ rfl rfl).2.1 _ _ rfl (fun _ => rfl)
       (by decide +kernel) (by decide +kernel)⟩,
   ⟨_,  (H (pk [127, 0x13881388, 0xffff1388, 0x4e204e20, 0x4e204e20, 0x801f4]) fleet _ _ rfl rfl).2.1 _ _ rfl
       (fun _ => rfl) (by decide +kernel) (by decide +kernel)⟩,
   ⟨_, (H (pk [0]) fleet _ _ rfl rfl).2.2.1 (by decide +kernel) ⟨(by decide +kernel), (by decide +kernel),
       (by decide +kernel), (by decide +kernel), (by decide +kernel), rfl⟩⟩,
   ⟨_, (H (pk [0x1ff]) moving _ _ rfl rfl).2.2.2.1 _ (fun _ => rfl) (by decide +kernel) (by decide +kernel)⟩,
   ⟨_, (H (pk [0]) moving _ _ rfl rfl).2.2.2.1 _ (fun _ => rfl) (by decide +kernel) (by decide +kernel)⟩,
   ⟨_, (H (pk [127]) fleet _ _ rfl rfl).2.2.2.2.1 (by decide +kernel) (by decide +kernel)⟩,
   ⟨_, (H (pk [0]) manned _ _ rfl rfl).2.2.2.2.2.1 (by decide +kernel) ⟨(by decide +kernel), (by decide +kernel),
       (by decide +kernel), (by decide +kernel), (by decide +kernel), (by decide +kernel), rfl⟩⟩,
   ⟨_, (H (pk [0x100]) moving _ _ rfl rfl).2.2.2.2.2.2.1 (by decide +kernel) (by decide +kernel)⟩,
   ⟨_, (H (pk [0x100]) fleet _ _ rfl rfl).2.2.2.2.2.2.1 (by decide +kernel) (by decide +kernel)⟩,
   ⟨_, (H (pk [0x200]) manned _ _ rfl rfl).2.2.2.2.2.2.2.1 (by decide +kernel) (by decide +kernel)⟩,
   ⟨_, (H (pk [0x1f00, 0x640064, 5000]) posted _ _
       rfl rfl).2.2.2.2.2.2.2.2 _ 5000 post1 road { sliver := 0, rev := false, d0 := 0, d1 := 10000 } _ rfl
       (by decide +kernel) rfl (by decide +kernel) ⟨(by decide +kernel), (by decide +kernel), (by decide +kernel),
       (by decide +kernel), (by decide +kernel), (by decide +kernel), (by decide +kernel), (by decide +kernel),
       (by decide +kernel), (by decide +kernel), (by decide +kernel), rfl, rfl, rfl, rfl, (by decide +kernel),
       (by decide +kernel), (by decide +kernel), (by decide +kernel)⟩⟩⟩

theorem witness_YardCommandsAnswer (H : Obligations.YardCommandsAnswer) :
    Completes (exec (.postDefine (pk [31])) fleet) ∧
    Completes (exec (.postDefine (pk [0x11f, 0, 10, 0xa0064, 0xffff000a, 0x10201])) fleet) ∧
    Completes (exec (.postDefine (pk [0x100, 0x1f8000, 10000, 0x13884e20, 0x7d0, 0x3e8203f])) fleet) ∧
    Completes (exec (.postDefine (pk [0x200])) posted) ∧
    Completes (exec (.yardOutSet (pk [0x107])) hot) ∧
    Completes (exec (.yardOutSet (pk [7, 0x18])) hot) ∧
    Completes (exec (.yardOutSet (pk [0, 0x7f04])) hot) :=
  ⟨⟨_, ((H (pk [31]) fleet _ _ _ rfl rfl).1 rfl (by decide +kernel)).1 (by decide +kernel) (by decide +kernel)⟩,
   ⟨_, ((H (pk [0x11f, 0, 10, 0xa0064, 0xffff000a, 0x10201]) fleet _ _ _ rfl rfl).1 rfl (by decide +kernel)).2.1 _ _
       rfl (by decide +kernel) ⟨(by decide +kernel), (by decide +kernel), (by decide +kernel), (by decide +kernel),
       (by decide +kernel), rfl, (by decide +kernel), (by decide +kernel), (by decide +kernel), (by decide +kernel),
       (by decide +kernel), (by decide +kernel), (by decide +kernel), (by decide +kernel), (by decide +kernel),
       (by decide +kernel), (by decide +kernel), (by decide +kernel), (by decide +kernel), (by decide +kernel),
       (by decide +kernel), (by decide +kernel), (by decide +kernel)⟩⟩,
   ⟨_, ((H (pk [0x100, 0x1f8000, 10000, 0x13884e20, 0x7d0, 0x3e8203f]) fleet _ _ _ rfl rfl).1 rfl
       (by decide +kernel)).2.1 _ _ rfl (by decide +kernel) ⟨(by decide +kernel), (by decide +kernel),
       (by decide +kernel), (by decide +kernel), (by decide +kernel), rfl, (by decide +kernel), (by decide +kernel),
       (by decide +kernel), (by decide +kernel), (by decide +kernel), (by decide +kernel), (by decide +kernel),
       (by decide +kernel), (by decide +kernel), (by decide +kernel), (by decide +kernel), (by decide +kernel),
       (by decide +kernel), (by decide +kernel), (by decide +kernel), (by decide +kernel), (by decide +kernel)⟩⟩,
   ⟨_, ((H (pk [0x200]) posted _ _ _ rfl rfl).1 rfl (by decide +kernel)).2.2 (by decide +kernel) (by decide +kernel)⟩,
   ⟨_, ((H (pk [0x107]) hot _ _ _ rfl rfl).2 rfl (by decide +kernel)).1 (by decide +kernel) (by decide +kernel)⟩,
   ⟨_, ((H (pk [7, 0x18]) hot _ _ _ rfl rfl).2 rfl (by decide +kernel)).2 _ _ rfl (fun _ => rfl) (by decide +kernel)
       (by decide +kernel)⟩,
   ⟨_, ((H (pk [0, 0x7f04]) hot _ _ _ rfl rfl).2 rfl (by decide +kernel)).2 _ _ rfl (fun _ => rfl) (by decide +kernel)
       (by decide +kernel)⟩⟩

theorem witness_GovCommandsAnswer (H : Obligations.GovCommandsAnswer) :
    Completes (exec (.govCoefLoad (pk [0x1c7f])) hot) ∧
    Completes (exec (.govCoefLoad (pk [0x4ff, 1, 2, 3, 0x1f1f1f, 0, 65535, 65535, 65535, 65535])) hot) ∧
    Completes (exec (.govCoefSwap (pk [0x1fff])) hot) ∧
    Completes (exec (.govCoefSwap (pk [127])) hot) ∧
    Completes (exec (.govLimits (pk [0x17f])) hot) ∧
    Completes (exec (.govLimits (pk [255, 0x27102710, 0x10001])) hot) ∧
    Completes (exec (.govLimits (pk [0, 0, 0x3e82710])) hot) ∧
    Completes (exec (.govFeCfg (pk [0x17f])) hot) ∧
    Completes (exec (.govFeCfg (pk [255, 0xb000a, 0x27102710, 2])) hot) ∧
    Completes (exec (.govCapSet (pk [0x17f])) hot) ∧
    Completes (exec (.govCapSet (pk [0xffff00ff])) hot) ∧
    Completes (exec (.govGet (pk [127])) hot) ∧
    Completes (exec (.govGet (pk [0x1bff])) hot) :=
  ⟨⟨_, ((H (pk [0x1c7f]) hot _ _ _ _ rfl rfl rfl rfl).1 _ _ _ rfl rfl (fun _ => rfl)).1 (by decide +kernel)
      (by decide +kernel)⟩,
   ⟨_, ((H (pk [0x4ff, 1, 2, 3, 0x1f1f1f, 0, 65535, 65535, 65535, 65535]) hot _ _ _ _ rfl rfl rfl rfl).1 _ _ _ rfl rfl
       (fun _ => rfl)).2 _ rfl (by decide +kernel) (by decide +kernel)⟩,
   ⟨_, (H (pk [0x1fff]) hot _ _ _ _ rfl rfl rfl rfl).2.1 _ (fun _ => rfl) (by decide +kernel) (by decide +kernel)⟩,
   ⟨_, (H (pk [127]) hot _ _ _ _ rfl rfl rfl rfl).2.1 _ (fun _ => rfl) (by decide +kernel) (by decide +kernel)⟩,
   ⟨_, (H (pk [0x17f]) hot _ _ _ _ rfl rfl rfl rfl).2.2.1 (by decide +kernel) (by decide +kernel)⟩,
   ⟨_, (H (pk [255, 0x27102710, 0x10001]) hot _ _ _ _ rfl rfl rfl rfl).2.2.2.1 _ (fun _ => rfl) (by decide +kernel)
       (by decide +kernel)⟩,
   ⟨_, (H (pk [0, 0, 0x3e82710]) hot _ _ _ _ rfl rfl rfl rfl).2.2.2.1 _ (fun _ => rfl) (by decide +kernel)
       (by decide +kernel)⟩,
   ⟨_, (H (pk [0x17f]) hot _ _ _ _ rfl rfl rfl rfl).2.2.2.2.1 (by decide +kernel) (by decide +kernel)⟩,
   ⟨_, (H (pk [255, 0xb000a, 0x27102710, 2]) hot _ _ _ _ rfl rfl rfl rfl).2.2.2.2.2.1 _ _ rfl (fun _ => rfl)
       (by decide +kernel) (by decide +kernel)⟩,
   ⟨_, (H (pk [0x17f]) hot _ _ _ _ rfl rfl rfl rfl).2.2.2.2.2.2.1 (by decide +kernel) (by decide +kernel)⟩,
   ⟨_, (H (pk [0xffff00ff]) hot _ _ _ _ rfl rfl rfl rfl).2.2.2.2.2.2.2.1 (by decide +kernel) (by decide +kernel)⟩,
   ⟨_, ((H (pk [127]) hot _ _ _ _ rfl rfl rfl rfl).2.2.2.2.2.2.2.2 _ rfl (by decide +kernel)).1 (by decide +kernel)
       (by decide +kernel)⟩,
   ⟨_, ((H (pk [0x1bff]) hot _ _ _ _ rfl rfl rfl rfl).2.2.2.2.2.2.2.2 _ rfl (by decide +kernel)).2 (by decide +kernel)
       (by decide +kernel)⟩⟩

/-- READY with the configuration session open for queue pair 0. -/
def owned : State := { hot with session := { CfgSession.init with phase := 2, owner := 0 } }

/-- The latch set and nothing in the way of its reset: the timebase runs in NORMAL mode and no fault stands. -/
def quiet (mode : Nat) : State := { hot with
  stop := { Stop.init with
    faults := []
    cfg := { StopCfg.init with resetMode := mode }
    robots := [(127, { inForce := true, controlled := false, immediate := true, cause := 5, deadline := 0, burst := none })] }
  time := { Timebase.init with raw := false }
  tick := { Tick.init with running := true } }

/-- The MAC table with a static entry, and a route in a routed VLAN. -/
def netted : State := { hot with net := { Net.init 0 with
  vlans := [(1, { member := 0x83FF, untag := 0x83FF, routed := true, learn := true })]
  fdb := [{ mac := 2, vid := 1, way := 0, static := true, drop := false, ports := 1, hitAt := 0, movedAt := 0, moves := 0 }]
  routes := [{ v6 := false, len := 8, pfx := 10, vid := 1, mac := 2 }] } }
theorem witness_StopRequestsAnswer (H : Obligations.StopRequestsAnswer) :
    Completes (exec (.stopFleet (pk [1])) fleet) ∧
    Completes (exec (.stopFleet (pk [0])) fleet) ∧
    Completes (exec (.stopRobot (pk [0x17f])) fleet) :=
  ⟨⟨_, (H (pk [1]) fleet _ rfl).1 _ _ rfl rfl (by decide +kernel) (by decide +kernel)⟩,
   ⟨_, (H (pk [0]) fleet _ rfl).1 _ _ rfl rfl (by decide +kernel) (by decide +kernel)⟩,
   ⟨_, (H (pk [0x17f]) fleet _ rfl).2 _ _ rfl (fun _ => rfl) (by decide +kernel) (by decide +kernel)⟩⟩

theorem witness_StopControlAnswers (H : Obligations.StopControlAnswers) :
    Completes (exec (.stopReset (pk [255])) (quiet 0)) ∧
    Completes (exec (.stopReset (pk [127])) (quiet 0)) ∧
    Completes (exec (.stopReset (pk [255])) (quiet 2)) ∧
    Completes (exec (.stopCfg (pk [1])) hot) ∧
    Completes (exec (.stopCfg (pk [0, 0x10202, 5, 1])) owned) ∧
    Completes (exec (.stopCfg (pk [0, 0x258401a, 0x1f23e8, 0x12238])) owned) ∧
    Completes (exec (.stopGet (pk [])) hot) ∧
    Completes (exec (.stopTest (pk [7])) hot) :=
  ⟨⟨_, (H (pk [255]) (quiet 0) _ _ _ _ rfl rfl rfl rfl).1 _ _ rfl rfl (by decide +kernel) ⟨(by decide +kernel),
      (by decide +kernel), (by decide +kernel), fun _ => (by decide +kernel), (by decide +kernel)⟩⟩,
   ⟨_, (H (pk [127]) (quiet 0) _ _ _ _ rfl rfl rfl rfl).1 _ _ rfl rfl (by decide +kernel) ⟨(by decide +kernel),
       (by decide +kernel), (by decide +kernel), fun _ => (by decide +kernel), (by decide +kernel)⟩⟩,
   ⟨_, (H (pk [255]) (quiet 2) _ _ _ _ rfl rfl rfl rfl).2.1 (by decide +kernel) (by decide +kernel)⟩,
   ⟨_, (H (pk [1]) hot _ _ _ _ rfl rfl rfl rfl).2.2.1 (by decide +kernel) (by decide +kernel)⟩,
   ⟨_, (H (pk [0, 0x10202, 5, 1]) owned _ _ _ _ rfl rfl rfl rfl).2.2.2.1 _ rfl (by decide +kernel)
       (by decide +kernel)⟩,
   ⟨_, (H (pk [0, 0x258401a, 0x1f23e8, 0x12238]) owned _ _ _ _ rfl rfl rfl rfl).2.2.2.1 _ rfl (by decide +kernel)
       (by decide +kernel)⟩,
   ⟨_, (H (pk []) hot _ _ _ _ rfl rfl rfl rfl).2.2.2.2.1 (by decide +kernel) (by decide +kernel)⟩,
   ⟨_, (H (pk [7]) hot _ _ _ _ rfl rfl rfl rfl).2.2.2.2.2 (by decide +kernel) (by decide +kernel)⟩⟩

theorem witness_NetPortCommandAnswers (H : Obligations.NetPortCommandAnswers) :
    Completes (exec (.netPortCfg (pk [0x49])) hot) ∧
    Completes (exec (.netPortCfg (pk [7, 0x3f0e51, 0xffe0001, 0x64102404])) hot) ∧
    Completes (exec (.netPortCfg (pk [8, 0xc01, 0x1, 0x18005f2])) hot) ∧
    Completes (exec (.netPortCfg (pk [0x35f])) hot) ∧
    Completes (exec (.netPortCfg (pk [0x31f, 0x80200f, 0xffff0ffe, 1, 2, 3, 4, 5])) hot) ∧
    Completes (exec (.netPortCfg (pk [0x429])) hot) :=
  ⟨⟨_, (H (pk [0x49]) hot _ _ _ _ _ rfl rfl rfl rfl rfl).1 (by decide +kernel) (by decide +kernel)⟩,
   ⟨_, (H (pk [7, 0x3f0e51, 0xffe0001, 0x64102404]) hot _ _ _ _ _ rfl rfl rfl rfl rfl).2.1 _ rfl
       (by decide +kernel) ⟨(by decide +kernel), (by decide +kernel), (by decide +kernel), (by decide +kernel),
       (by decide +kernel), (by decide +kernel), (by decide +kernel), (by decide +kernel), (by decide +kernel),
       (by decide +kernel), (by decide +kernel), (by decide +kernel), (by decide +kernel), (by decide +kernel),
       (by decide +kernel), (by decide +kernel), (by decide +kernel), fun _ h => absurd h (by decide +kernel)⟩⟩,
   ⟨_, (H (pk [8, 0xc01, 0x1, 0x18005f2]) hot _ _ _ _ _ rfl rfl rfl rfl rfl).2.1 _ rfl
       (by decide +kernel) ⟨(by decide +kernel), (by decide +kernel), (by decide +kernel), (by decide +kernel),
       (by decide +kernel), (by decide +kernel), (by decide +kernel), (by decide +kernel), (by decide +kernel),
       (by decide +kernel), (by decide +kernel), (by decide +kernel), (by decide +kernel), (by decide +kernel),
       (by decide +kernel), (by decide +kernel), (by decide +kernel), fun h => absurd h (by decide +kernel)⟩⟩,
   ⟨_, (H (pk [0x35f]) hot _ _ _ _ _ rfl rfl rfl rfl rfl).2.2.1 _ rfl (by decide +kernel) (by decide +kernel)⟩,
   ⟨_, (H (pk [0x31f, 0x80200f, 0xffff0ffe, 1, 2, 3, 4, 5]) hot _ _ _ _ _ rfl rfl rfl rfl rfl).2.2.2.1 _ _ _ rfl
       (fun _ => rfl) (fun _ => rfl) (by decide +kernel) (by decide +kernel)⟩,
   ⟨_, (H (pk [0x429]) hot _ _ _ _ _ rfl rfl rfl rfl rfl).2.2.2.2 (by decide +kernel) (by decide +kernel)⟩⟩

theorem witness_NetVlanCommandsAnswer (H : Obligations.NetVlanCommandsAnswer) :
    Completes (exec (.netVlan (pk [4094])) hot) ∧
    Completes (exec (.netVlan (pk [0x31001, 0x83FF83FF])) hot) ∧
    Completes (exec (.netVlan (pk [0x2002])) hot) ∧
    Completes (exec (.netAgeCfg (pk [1])) hot) ∧
    Completes (exec (.netAgeCfg (pk [0, 0, 10000])) hot) ∧
    Completes (exec (.netAgeCfg (pk [0, 1000000, 0])) hot) ∧
    Completes (exec (.netQosCfg (pk [0x19])) hot) ∧
    Completes (exec (.netQosCfg (pk [0xf200, 0xFFFFFF, 1, 2, 3, 4, 5, 6])) hot) :=
  ⟨⟨_, ((H (pk [4094]) hot _ _ _ rfl rfl rfl).1 _ rfl (by decide +kernel) (by decide +kernel) (by decide +kernel)).1
      (by decide +kernel) (by decide +kernel)⟩,
   ⟨_, ((H (pk [0x31001, 0x83FF83FF]) hot _ _ _ rfl rfl rfl).1 _ rfl (by decide +kernel) (by decide +kernel)
       (by decide +kernel)).2.1 _ _ rfl (fun _ => rfl) (by decide +kernel) (by decide +kernel)⟩,
   ⟨_, ((H (pk [0x2002]) hot _ _ _ rfl rfl rfl).1 _ rfl (by decide +kernel) (by decide +kernel)
       (by decide +kernel)).2.2 _ (fun _ => rfl) (by decide +kernel) (by decide +kernel)⟩,
   ⟨_, (H (pk [1]) hot _ _ _ rfl rfl rfl).2.1 (by decide +kernel) (by decide +kernel)⟩,
   ⟨_, (H (pk [0, 0, 10000]) hot _ _ _ rfl rfl rfl).2.2.1 (by decide +kernel) (by decide +kernel)⟩,
   ⟨_, (H (pk [0, 1000000, 0]) hot _ _ _ rfl rfl rfl).2.2.1 (by decide +kernel) (by decide +kernel)⟩,
   ⟨_, ((H (pk [0x19]) hot _ _ _ rfl rfl rfl).2.2.2 _ rfl).1 (by decide +kernel) (by decide +kernel)⟩,
   ⟨_, ((H (pk [0xf200, 0xFFFFFF, 1, 2, 3, 4, 5, 6]) hot _ _ _ rfl rfl rfl).2.2.2 _ rfl).2 _ rfl (by decide +kernel)
       (by decide +kernel)⟩⟩

theorem witness_NetFdbCommandsAnswer (H : Obligations.NetFdbCommandsAnswer) :
    Completes (exec (.netFdbAdd (pk [0x10001, 2, 0x10000])) netted) ∧
    Completes (exec (.netFdbAdd (pk [0xffe, 1, 0x83ff0000])) hot) ∧
    Completes (exec (.netFdbAdd (pk [0x1001, 2, 0])) netted) ∧
    Completes (exec (.netFdbAdd (pk [0x2ffe, 0, 0])) netted) ∧
    Completes (exec (.netFdbGet (pk [0xffe0000, 2, 0])) netted) ∧
    Completes (exec (.netFdbGet (pk [1, 0x801fff, 0])) netted) ∧
    Completes (exec (.netFdbGet (pk [2, 0x17f, 0])) netted) :=
  ⟨⟨_, ((H (pk [0x10001, 2, 0x10000]) netted _ _ _ _ _ rfl rfl rfl rfl).1 _ _ rfl rfl (fun _ _ => rfl)).1 _
      (by decide +kernel) ⟨(by decide +kernel), (by decide +kernel), (by decide +kernel), (by decide +kernel),
      (by decide +kernel), (by decide +kernel), rfl, (by decide +kernel)⟩⟩,
   ⟨_, ((H (pk [0xffe, 1, 0x83ff0000]) hot _ _ _ _ _ rfl rfl rfl rfl).1 _ _ rfl rfl (fun _ _ => rfl)).2.1 0
       (by decide +kernel) ⟨(by decide +kernel), (by decide +kernel), (by decide +kernel), (by decide +kernel),
       (by decide +kernel), (by decide +kernel), (by decide +kernel), rfl, (by decide +kernel)⟩⟩,
   ⟨_, ((H (pk [0x1001, 2, 0]) netted _ _ _ _ _ rfl rfl rfl rfl).1 _ _ rfl rfl (fun _ _ => rfl)).2.2.1 _
       (by decide +kernel) ⟨(by decide +kernel), (by decide +kernel), (by decide +kernel), (by decide +kernel),
       (by decide +kernel), rfl, (by decide +kernel)⟩⟩,
   ⟨_, ((H (pk [0x2ffe, 0, 0]) netted _ _ _ _ _ rfl rfl rfl rfl).1 _ _ rfl rfl (fun _ _ => rfl)).2.2.2 _
       (fun _ => rfl) (by decide +kernel) (by decide +kernel)⟩,
   ⟨_, (H (pk [0xffe0000, 2, 0]) netted _ _ _ _ _ rfl rfl rfl rfl).2.1 rfl (by decide +kernel) (by decide +kernel)⟩,
   ⟨_, (H (pk [1, 0x801fff, 0]) netted _ _ _ 0 _ rfl rfl rfl rfl).2.2.1 _ _ _ rfl rfl (fun _ => rfl)
       (by decide +kernel) (by decide +kernel)⟩,
   ⟨_, (H (pk [2, 0x17f, 0]) netted _ _ _ 0 _ rfl rfl rfl rfl).2.2.2 _ _ rfl (fun _ => rfl) (by decide +kernel)
       (by decide +kernel)⟩⟩

theorem witness_NetRouteCommandsAnswer (H : Obligations.NetRouteCommandsAnswer) :
    Completes (exec (.netRouteAdd (pk [0x10800, 2, 0, 10])) netted) ∧
    Completes (exec (.netRouteAdd (pk [0x18001, 2, 0, 1, 2, 3, 4])) netted) ∧
    Completes (exec (.netRouteDel (pk [0x800, 10])) netted) :=
  ⟨⟨_, ((H (pk [0x10800, 2, 0, 10]) netted _ _ _ rfl rfl rfl).1 _ _ _ _ rfl rfl (fun _ => rfl) (fun _ => rfl)).1
      (by decide +kernel) ⟨(by decide +kernel), (by decide +kernel), (by decide +kernel), (by decide +kernel),
      (by decide +kernel), ⟨_, rfl, rfl⟩, (by decide +kernel)⟩⟩,
   ⟨_, ((H (pk [0x18001, 2, 0, 1, 2, 3, 4]) netted _ _ _ rfl rfl rfl).1 _ _ _ _ rfl rfl (fun _ => rfl)
       (fun _ => rfl)).2 (by decide +kernel) ⟨(by decide +kernel), (by decide +kernel), (by decide +kernel),
       (by decide +kernel), (by decide +kernel), ⟨_, rfl, rfl⟩, (by decide +kernel),
       (by decide +kernel), fun _ h => Or.inl h⟩⟩,
   ⟨_, (H (pk [0x800, 10]) netted _ _ _ rfl rfl rfl).2 _ _ rfl (fun _ => rfl) (by decide +kernel)
       (by decide +kernel)⟩⟩

/-- A record of the diagnostic ring, or of the audit ring. -/
def rec1 (audit : Bool) : Rec :=
  { truncated := false, host := false, timeRaw := false, audit := audit, code := 1, seq := 1, opTime := 0, cycles := 0,
    payload := [1, 2, 3, 4], offset := 0, crcBad := false }

/-- READY with a record in each ring, snapshot 3 open over the audit ring, and the configuration session open. -/
def kept : State := { owned with rec_ := { Recorder.init with
  diag := { recs := [rec1 false], lastSeq := 1, writeOff := 64 }
  audit := { recs := [rec1 true], lastSeq := 1, writeOff := 64 }
  snaps := List.replicate 4 { open_ := true, ended := false, first := 1, last := 1, next := 1 } } }

/-- NORMAL mode without a source. -/
def steady : State := { hot with time := { Timebase.init with raw := false } }

/-- The pair's active module with a partner. -/
def lead : State := { owned with pair := { Pair.init with en := true, role := .active, laneUp := true, partnerReady := true } }

/-- The words of a forerunner image's header: VERSION 0 and a payload of 4 bytes. -/
def header6 : List Word := [0x36495650, 0x71280000, 0, 4] ++ List.replicate 36 0

/-- An update session in a state, on an empty staging bank. -/
def updating (x : UpdState) (hdr payload : List Byte) : State := { hot with upd := { Upd.init with
  bankA := { hdr := [], payload := [], valid := true }
  bankB := { hdr := hdr, payload := payload, valid := true }
  state := x, session := 9, next := payload.length } }
theorem witness_TimeServoCommandsAnswer (H : Obligations.TimeServoCommandsAnswer) :
    Completes (exec (.timeGet (pk [])) hot) ∧
    Completes (exec (.timeSourceCfg (pk [1])) hot) ∧
    Completes (exec (.timeSourceCfg (pk [0, 0x34321, 0xff0e10ff])) hot) ∧
    Completes (exec (.timeSourceCfg (pk [0, 0, 1])) hot) ∧
    Completes (exec (.servoCfg (pk [4])) hot) ∧
    Completes (exec (.servoCfg (pk [0, 0x1000a, 0x10000a, 0xa000a, 10])) hot) ∧
    Completes (exec (.servoCfg (pk [0x10, 0xffffffff, 0x1a186a0, 0xffffffff, 0xffffffff])) hot) ∧
    Completes (exec (.servoCfg (pk [0x35])) hot) ∧
    Completes (exec (.servoCfg (pk [0x31, 1, 2, 3, 0x1F1F1F, 5, 6, 7, 8, 0x7FFFFFFF])) hot) ∧
    Completes (exec (.servoCfg (pk [0x6])) hot) ∧
    Completes (exec (.servoCfg (pk [0x12])) hot) :=
  ⟨⟨_, (H (pk []) hot _ _ _ _ _ rfl rfl rfl rfl rfl).1 (by decide +kernel) (by decide +kernel)⟩,
   ⟨_, (H (pk [1]) hot _ _ _ _ _ rfl rfl rfl rfl rfl).2.1 (by decide +kernel) (by decide +kernel)⟩,
   ⟨_, (H (pk [0, 0x34321, 0xff0e10ff]) hot _ _ _ _ _ rfl rfl rfl rfl rfl).2.2.1 _ _ rfl (fun _ => rfl)
       (by decide +kernel) (by decide +kernel)⟩,
   ⟨_, (H (pk [0, 0, 1]) hot _ _ _ _ _ rfl rfl rfl rfl rfl).2.2.1 _ _ rfl (fun _ => rfl) (by decide +kernel)
       (by decide +kernel)⟩,
   ⟨_, ((H (pk [4]) hot _ _ _ _ _ rfl rfl rfl rfl rfl).2.2.2 _ _ rfl (fun _ => rfl) (by decide +kernel)).1
       (by decide +kernel) (by decide +kernel)⟩,
   ⟨_, ((H (pk [0, 0x1000a, 0x10000a, 0xa000a, 10]) hot _ _ _ _ _ rfl rfl rfl rfl rfl).2.2.2 _ _ rfl (fun _ => rfl)
       (by decide +kernel)).2.1 _ rfl (by decide +kernel) (by decide +kernel)⟩,
   ⟨_, ((H (pk [0x10, 0xffffffff, 0x1a186a0, 0xffffffff, 0xffffffff]) hot _ _ _ _ _ rfl rfl rfl rfl rfl).2.2.2 _ _ rfl
       (fun _ => rfl) (by decide +kernel)).2.1 _ rfl (by decide +kernel) (by decide +kernel)⟩,
   ⟨_, ((H (pk [0x35]) hot _ _ _ _ _ rfl rfl rfl rfl rfl).2.2.2 _ _ rfl (fun _ => rfl) (by decide +kernel)).2.2.1
       (by decide +kernel) (by decide +kernel)⟩,
   ⟨_, ((H (pk [0x31, 1, 2, 3, 0x1F1F1F, 5, 6, 7, 8, 0x7FFFFFFF]) hot _ _ _ _ _ rfl rfl rfl rfl rfl).2.2.2 _ _ rfl
       (fun _ => rfl) (by decide +kernel)).2.2.2.1 _ _ rfl (fun _ => rfl) (by decide +kernel) (by decide +kernel)⟩,
   ⟨_, ((H (pk [0x6]) hot _ _ _ _ _ rfl rfl rfl rfl rfl).2.2.2 _ _ rfl (fun _ => rfl) (by decide +kernel)).2.2.2.2.1
       (by decide +kernel) (by decide +kernel)⟩,
   ⟨_, ((H (pk [0x12]) hot _ _ _ _ _ rfl rfl rfl rfl rfl).2.2.2 _ _ rfl (fun _ => rfl)
       (by decide +kernel)).2.2.2.2.2 _ (fun _ => rfl) (by decide +kernel) (by decide +kernel)⟩⟩

theorem witness_PpsAlignedCommandsAnswer (H : Obligations.PpsAlignedCommandsAnswer) :
    Completes (exec (.timeSet (pk [0, 1000000000, 0, 0])) hot) ∧
    Completes (exec (.timeSet (pk [1, 0, 0, 0x2ffff])) steady) ∧
    Completes (exec (.timeSet (pk [2, 0xFFFFFFFF, 0xFFFFFFFF, 0])) hot) ∧
    Completes (exec (.ppsCfg (pk [1])) hot) ∧
    Completes (exec (.ppsCfg (pk [0, 0xc3500422, 100000000, 0xfa0a1f00])) hot) ∧
    Completes (exec (.timeMode (pk [1])) hot) ∧
    Completes (exec (.timeMode (pk [0])) steady) ∧
    Completes (exec (.timeMode (pk [0])) hot) ∧
    Completes (exec (.timeMode (pk [1])) steady) :=
  ⟨⟨_, (H (pk [0, 1000000000, 0, 0]) hot _ _ _ _ rfl rfl rfl rfl).1 (by decide +kernel) (by decide +kernel)⟩,
   ⟨_, (H (pk [1, 0, 0, 0x2ffff]) steady _ _ _ _ rfl rfl rfl rfl).2.1 (by decide +kernel) (by decide +kernel)⟩,
   ⟨_, (H (pk [2, 0xFFFFFFFF, 0xFFFFFFFF, 0]) hot _ _ _ _ rfl rfl rfl rfl).2.2.1 (by decide +kernel)
       (by decide +kernel)⟩,
   ⟨_, (H (pk [1]) hot _ _ _ _ rfl rfl rfl rfl).2.2.2.1 (by decide +kernel) (by decide +kernel)⟩,
   ⟨_, (H (pk [0, 0xc3500422, 100000000, 0xfa0a1f00]) hot _ _ _ _ rfl rfl rfl rfl).2.2.2.2.1 (by decide +kernel)
       (by decide +kernel)⟩,
   ⟨_, (H (pk [1]) hot _ _ _ _ rfl rfl rfl rfl).2.2.2.2.2.1 (by decide +kernel) (by decide +kernel)⟩,
   ⟨_, (H (pk [0]) steady _ _ _ _ rfl rfl rfl rfl).2.2.2.2.2.1 (by decide +kernel) (by decide +kernel)⟩,
   ⟨_, (H (pk [0]) hot _ _ _ _ rfl rfl rfl rfl).2.2.2.2.2.2.1 (by decide +kernel) (by decide +kernel)⟩,
   ⟨_, (H (pk [1]) steady _ _ _ _ rfl rfl rfl rfl).2.2.2.2.2.2.2 (by decide +kernel) (by decide +kernel)⟩⟩

theorem witness_PtpCommandAnswers (H : Obligations.PtpCommandAnswers) :
    Completes (exec (.ptpCfg (pk [4])) hot) ∧
    Completes (exec (.ptpCfg (pk [0, 0xffff007f, 0xa9949])) hot) ∧
    Completes (exec (.ptpCfg (pk [0, 0x100, 0x25501])) hot) ∧
    Completes (exec (.ptpCfg (pk [0x905])) hot) ∧
    Completes (exec (.ptpCfg (pk [0x801, 0xbe, 7])) hot) ∧
    Completes (exec (.ptpCfg (pk [0x701, 0, 7])) hot) ∧
    Completes (exec (.ptpCfg (pk [0x1902])) hot) :=
  ⟨⟨_, (H (pk [4]) hot _ _ _ _ rfl rfl rfl rfl).1 (by decide +kernel) (by decide +kernel)⟩,
   ⟨_, (H (pk [0, 0xffff007f, 0xa9949]) hot _ _ _ _ rfl rfl rfl rfl).2.1 _ rfl (by decide +kernel)
       (by decide +kernel)⟩,
   ⟨_, (H (pk [0, 0x100, 0x25501]) hot _ _ _ _ rfl rfl rfl rfl).2.1 _ rfl (by decide +kernel) (by decide +kernel)⟩,
   ⟨_, (H (pk [0x905]) hot _ _ _ _ rfl rfl rfl rfl).2.2.1 (by decide +kernel) (by decide +kernel)⟩,
   ⟨_, (H (pk [0x801, 0xbe, 7]) hot _ _ _ _ rfl rfl rfl rfl).2.2.2.1 _ rfl (by decide +kernel) ⟨(by decide +kernel),
       (by decide +kernel), (by decide +kernel), (by decide +kernel), (by decide +kernel), (by decide +kernel),
       (by decide +kernel), (by decide +kernel), (by decide +kernel), fun _ => (by decide +kernel)⟩⟩,
   ⟨_, (H (pk [0x701, 0, 7]) hot _ _ _ _ rfl rfl rfl rfl).2.2.2.1 _ rfl (by decide +kernel) ⟨(by decide +kernel),
       (by decide +kernel), (by decide +kernel), (by decide +kernel), (by decide +kernel), (by decide +kernel),
       (by decide +kernel), (by decide +kernel), (by decide +kernel), fun h => absurd h (by decide +kernel)⟩⟩,
   ⟨_, (H (pk [0x1902]) hot _ _ _ _ rfl rfl rfl rfl).2.2.2.2 (by decide +kernel) (by decide +kernel)⟩⟩

theorem witness_RecSettingsAnswer (H : Obligations.RecSettingsAnswer) :
    Completes (exec (.recCfg (pk [0xFFFF])) hot) ∧
    Completes (exec (.recCfg (pk [0x18000, 0xFFFF])) hot) ∧
    Completes (exec (.recCfg (pk [0x10001, 1])) hot) ∧
    Completes (exec (.recCfg (pk [0x20000])) hot) ∧
    Completes (exec (.recMark (pk [7])) hot) ∧
    Completes (exec (.recMark (pk [0x117])) kept) ∧
    Completes (exec (.recMark (pk [0x20])) kept) ∧
    Completes (exec (.recMark (pk [0x30, 1])) kept) ∧
    Completes (exec (.recSnapshot (pk [3])) hot) ∧
    Completes (exec (.recSnapshot (pk [0x10])) kept) ∧
    Completes (exec (.recSnapshot (pk [0x23])) kept) :=
  ⟨⟨_, ((H (pk [0xFFFF]) hot _ _ rfl rfl).1 _ _ rfl (fun _ => rfl)).1 (by decide +kernel) (by decide +kernel)⟩,
   ⟨_, ((H (pk [0x18000, 0xFFFF]) hot _ _ rfl rfl).1 _ _ rfl (fun _ => rfl)).2 _ (fun _ => rfl)
       (by decide +kernel) ⟨(by decide +kernel), (by decide +kernel), (by decide +kernel), (by decide +kernel),
       (by decide +kernel), Or.inr (by decide +kernel)⟩⟩,
   ⟨_, ((H (pk [0x10001, 1]) hot _ _ rfl rfl).1 _ _ rfl (fun _ => rfl)).2 _ (fun _ => rfl)
       (by decide +kernel) ⟨(by decide +kernel), (by decide +kernel), (by decide +kernel), (by decide +kernel),
       (by decide +kernel), Or.inl (by decide +kernel)⟩⟩,
   ⟨_, (H (pk [0x20000]) hot _ _ rfl rfl).2.1 (by decide +kernel) (by decide +kernel)⟩,
   ⟨_, ((H (pk [7]) hot _ _ rfl rfl).2.2.1 _ _ _ rfl (by decide +kernel) (fun _ => rfl)).1 (fun _ => rfl)
       (by decide +kernel) (by decide +kernel)⟩,
   ⟨_, ((H (pk [0x117]) kept _ _ rfl rfl).2.2.1 _ _ _ rfl (by decide +kernel) (fun _ => rfl)).2.1 (fun _ => rfl)
       (by decide +kernel) (by decide +kernel)⟩,
   ⟨_, ((H (pk [0x20]) kept _ _ rfl rfl).2.2.1 _ _ _ rfl (by decide +kernel) (fun _ => rfl)).2.2.1 (fun _ => rfl)
       (by decide +kernel) (by decide +kernel)⟩,
   ⟨_, ((H (pk [0x30, 1]) kept _ _ rfl rfl).2.2.1 _ _ _ rfl (by decide +kernel) (fun _ => rfl)).2.2.2 (fun _ => rfl)
       (by decide +kernel) (by decide +kernel)⟩,
   ⟨_, (H (pk [3]) hot _ _ rfl rfl).2.2.2 _ (fun a => getSnap a _) _ rfl (by decide +kernel)
       (fun _ => rfl) (Or.inl ⟨(by decide +kernel), (fun _ => rfl)⟩) (by decide +kernel) trivial⟩,
   ⟨_, (H (pk [0x10]) kept _ _ rfl rfl).2.2.2 _ (fun a => (fun f : Nat => { open_ := true, ended := false, first := f, last := a.rec_.audit.lastSeq, next := f }) (if a.rec_.audit.recs = [] then seqNext a.rec_.audit.lastSeq else firstSeq a.rec_.audit)) _ rfl (by decide +kernel) (fun _ => rfl) (Or.inr (Or.inl ⟨(by decide +kernel), fun _ _ e => by subst e; rfl⟩)) (by decide +kernel) trivial⟩,
   ⟨_, (H (pk [0x23]) kept _ _ rfl rfl).2.2.2 _ _ _ rfl (by decide +kernel)
       (fun _ => rfl) (Or.inr (Or.inr ⟨(by decide +kernel), (fun _ => rfl)⟩)) (by decide +kernel) trivial⟩⟩

theorem witness_RecRecordsAnswer (H : Obligations.RecRecordsAnswer) :
    Completes (exec (.recRead (pk [0xff00])) kept) ∧
    Completes (exec (.recRead (pk [0x107])) kept) ∧
    Completes (exec (.recWrite (pk [0xffff00ff, 5, 1, 2])) hot) ∧
    Completes (exec (.recWrite (pk [0x101, 0])) owned) ∧
    Completes (exec (.recErase (pk [0])) kept) ∧
    Completes (exec (.recErase (pk [1])) kept) :=
  ⟨⟨_, ((H (pk [0xff00]) kept _ _ rfl rfl).1 _ _ (fun _ => recsFrom _ _) _ _ rfl rfl (by decide +kernel)
      (by decide +kernel) rfl (fun _ => rfl) (fun _ _ => rfl)).1 _ (fun _ => rfl) (fun _ => rfl) (by decide +kernel)
      (by decide +kernel)⟩,
   ⟨_, ((H (pk [0x107]) kept _ _ rfl rfl).1 _ _ (fun _ => ite _ _ _) _ _ rfl rfl (by decide +kernel)
       (by decide +kernel) rfl (fun _ => rfl) (fun _ _ => rfl)).2 _ (fun a => getSnap a _) (fun _ => rfl)
       (fun _ => rfl) (fun _ => rfl) (by decide +kernel) (by decide +kernel)⟩,
   ⟨_, (H (pk [0xffff00ff, 5, 1, 2]) hot _ _ rfl rfl).2.1 _ _ _ _ _ rfl rfl rfl (fun _ => rfl) (fun _ => rfl) _ rfl
       (by decide +kernel) (by decide +kernel) (by decide +kernel) (by decide +kernel) (fun h => absurd h
       (by decide +kernel)) (by decide +kernel)⟩,
   ⟨_, (H (pk [0x101, 0]) owned _ _ rfl rfl).2.1 _ _ _ _ _ rfl rfl rfl (fun _ => rfl) (fun _ => rfl) _ rfl
       (by decide +kernel) (by decide +kernel) (by decide +kernel) (by decide +kernel) (fun _ => (by decide +kernel))
       (by decide +kernel)⟩,
   ⟨_, (H (pk [0]) kept _ _ rfl rfl).2.2 _ _ _ rfl (fun _ => rfl) (fun _ _ e => by subst e; rfl) (by decide +kernel) ⟨(by decide +kernel), fun _ => (by decide +kernel)⟩⟩,
   ⟨_, (H (pk [1]) kept _ _ rfl rfl).2.2 _ _ _ rfl (fun _ => rfl) (fun _ _ e => by subst e; rfl) (by decide +kernel) ⟨(by decide +kernel), fun _ => (by decide +kernel)⟩⟩⟩

theorem witness_PairCommandsAnswer (H : Obligations.PairCommandsAnswer) :
    Completes (exec (.pairCfg (pk [1])) hot) ∧
    Completes (exec (.pairCfg (pk [0, 0x133, 2, 0xFFFF])) owned) ∧
    Completes (exec (.pairCfg (pk [0, 0x10, 0xFFFFFFFE, 0])) lead) ∧
    Completes (exec (.pairGet (pk [])) lead) ∧
    Completes (exec (.pairSwitch (pk [1])) lead) ∧
    Completes (exec (.pairSelftestCfg (pk [1])) hot) ∧
    Completes (exec (.pairSelftestCfg (pk [0, 0x7f0032])) hot) :=
  ⟨⟨_, (H (pk [1]) hot _ _ rfl rfl).1 (by decide +kernel) (by decide +kernel)⟩,
   ⟨_, (H (pk [0, 0x133, 2, 0xFFFF]) owned _ _ rfl rfl).2.1 _ _ (fun _ => rfl) (fun _ => rfl)
       (by decide +kernel) ⟨(by decide +kernel), (by decide +kernel), (by decide +kernel), (by decide +kernel),
       (by decide +kernel), (by decide +kernel), (by decide +kernel), (by decide +kernel),
       (by decide +kernel), fun h => absurd h (by decide +kernel), fun _ _ => (by decide +kernel),
       (by decide +kernel)⟩⟩,
   ⟨_, (H (pk [0, 0x10, 0xFFFFFFFE, 0]) lead _ _ rfl rfl).2.1 _ _ (fun _ => rfl) (fun _ => rfl)
       (by decide +kernel) ⟨(by decide +kernel), (by decide +kernel), (by decide +kernel), (by decide +kernel),
       (by decide +kernel), (by decide +kernel), (by decide +kernel), (by decide +kernel),
       (by decide +kernel), fun _ _ _ => (by decide +kernel), fun h => absurd h (by decide +kernel),
       (by decide +kernel)⟩⟩,
   ⟨_, (H (pk []) lead _ _ rfl rfl).2.2.1 (by decide +kernel) (by decide +kernel)⟩,
   ⟨_, (H (pk [1]) lead _ _ rfl rfl).2.2.2.1 (by decide +kernel) (by decide +kernel)⟩,
   ⟨_, (H (pk [1]) hot _ _ rfl rfl).2.2.2.2.1 (by decide +kernel) (by decide +kernel)⟩,
   ⟨_, (H (pk [0, 0x7f0032]) hot _ _ rfl rfl).2.2.2.2.2 (by decide +kernel) (by decide +kernel)⟩⟩

theorem witness_UpdCommandsAnswer (H : Obligations.UpdCommandsAnswer) (hs : Config.headerSigOk 4 ((wordBytes header6).take 64) (((wordBytes header6).drop 64).take 96) = true) :
    Completes (exec (.updOpen (pk [])) (updating .idle [] [])) ∧
    Completes (exec (.updHeader (pk (9 :: header6))) (updating .open_ [] [])) ∧
    Completes (exec (.updData (pk [9, 0, 0x04030201])) (updating .headerOk (wordBytes header6) [])) ∧
    Completes (exec (.updVerify (pk [9])) (updating .headerOk (wordBytes header6) [1, 2, 3, 4])) ∧
    Completes (exec (.updConfirm (pk [9])) (updating .trial [] [])) ∧
    Completes (exec (.updAbort (pk [9])) (updating .verified [] [])) ∧
    Completes (exec (.updAbort (pk [9])) (updating .activating [] [])) ∧
    Completes (exec (.updAbort (pk [9])) (updating .trial [] [])) ∧
    Completes (exec (.updGet (pk [])) hot) :=
  ⟨⟨_, (H (pk []) (updating .idle [] []) _ rfl).1 _ _ (fun _ => rfl) (fun _ => rfl) (by decide +kernel)
      (by decide +kernel)⟩,
   ⟨_, ((H (pk (9 :: header6)) (updating .open_ [] []) _ rfl).2.1 _ (fun _ => Iff.rfl)).1 _ _ rfl (fun _ => rfl) (by decide +kernel) ⟨(by decide +kernel), (by decide +kernel), by show imageChecks _ _ _ (wordBytes header6) = none; unfold imageChecks; rw [if_pos (by decide +kernel), if_neg (by decide +kernel)]; rw [show (!Config.headerSigOk 4 _ _) = false from congrArg not hs]; decide +kernel, (by decide +kernel)⟩⟩,
   ⟨_, ((H (pk [9, 0, 0x04030201]) (updating .headerOk (wordBytes header6) []) _ rfl).2.1 _
       (fun _ => Iff.rfl)).2.1 _ _ _ _ rfl rfl rfl (fun _ => rfl) (by decide +kernel) (by decide +kernel)⟩,
   ⟨_, ((H (pk [9]) (updating .headerOk (wordBytes header6) [1, 2, 3, 4]) _ rfl).2.1 _ (fun _ => Iff.rfl)).2.2.1
       (by decide +kernel) (by decide +kernel)⟩,
   ⟨_, ((H (pk [9]) (updating .trial [] []) _ rfl).2.1 _ (fun _ => Iff.rfl)).2.2.2.1 _ _ (fun _ => rfl) (fun _ => rfl)
       (by decide +kernel) (by decide +kernel)⟩,
   ⟨_, ((H (pk [9]) (updating .verified [] []) _ rfl).2.1 _ (fun _ => Iff.rfl)).2.2.2.2.1 (by decide +kernel)
       (by decide +kernel)⟩,
   ⟨_, ((H (pk [9]) (updating .activating [] []) _ rfl).2.1 _ (fun _ => Iff.rfl)).2.2.2.2.1 (by decide +kernel)
       (by decide +kernel)⟩,
   ⟨_, ((H (pk [9]) (updating .trial [] []) _ rfl).2.1 _ (fun _ => Iff.rfl)).2.2.2.2.2 (by decide +kernel)
       (by decide +kernel)⟩,
   ⟨_, (H (pk []) hot _ rfl).2.2 (by decide +kernel) (by decide +kernel)⟩⟩

theorem witness_UpdActivateAnswers (H : Obligations.UpdActivateAnswers) :
    Completes (exec (.updActivate (pk [9, 60])) (updating .verified (wordBytes header6) [])) ∧
    Completes (exec (.updActivate (pk [9, 86400])) (updating .verified [] [])) :=
  ⟨⟨_, H (pk [9, 60]) (updating .verified (wordBytes header6) []) _ _ rfl rfl _ _ _ (fun _ => rfl) (fun _ => rfl)
      (fun _ => rfl) (by decide +kernel) ⟨(by decide +kernel), (by decide +kernel), (by decide +kernel),
      (by decide +kernel), (by decide +kernel), (by decide +kernel), fun _ => (by decide +kernel)⟩⟩,
   ⟨_, H (pk [9, 86400]) (updating .verified [] []) _ _ rfl rfl _ _ _ (fun _ => rfl) (fun _ => rfl) (fun _ => rfl)
       (by decide +kernel) ⟨(by decide +kernel), (by decide +kernel), (by decide +kernel), (by decide +kernel),
       (by decide +kernel), (by decide +kernel), fun h => absurd h (by decide +kernel)⟩⟩⟩

theorem leNat_lt (l : List Byte) : leNat l < 256 ^ l.length := by
  induction l with
  | nil => decide
  | cons b r ih =>
    have h : b.toNat < 256 := b.isLt
    simp only [leNat, List.length_cons, Nat.pow_succ]
    omega

/-- The 8 bytes of a PROOF are the two parameter words that carry it. -/
theorem proof_words (k n s m : Nat) :
    (BitVec.ofNat 32 (proofOf k n s m)).toNat + 2 ^ 32 * (BitVec.ofNat 32 (proofOf k n s m / 2 ^ 32)).toNat = proofOf k n s m := by
  have h : proofOf k n s m < 256 ^ 8 := Nat.lt_of_lt_of_le (leNat_lt _)
    (Nat.pow_le_pow_right (by decide) (by first | (simp [cmacTag]; done) | (simp [cmacTag]; omega)))
  simp only [BitVec.toNat_ofNat]
  omega

theorem pk_arg64 (a lo hi : Word) : arg64 (pk [a, lo, hi]) 1 = lo.toNat + 2 ^ 32 * hi.toNat := rfl

/-- A challenge with a key set. -/
def challenged : State := { hot with session := { CfgSession.init with key := some 5, phase := 1, session := 3 } }

/-- The packet that carries the right PROOF. -/
def proofPk : Cmd := pk [0x30002, BitVec.ofNat 32 (proofOf 5 0 3 0), BitVec.ofNat 32 (proofOf 5 0 3 0 / 2 ^ 32)]

/-- Host job 31 defined and armed. -/
def jobbed (armed : Bool) : State := { hot with sched := { Sched.init with jobs := [(31, { HostJob.init with
  armed := armed
  defn := some { trigger := 0, deps := 0, rearm := false, stopOnFail := false, eventCode := 0, periodTicks := 0, succMask := 0,
                 packet := [0x00000002, 0], queue := 0, epoch := 0 } })] } }
theorem witness_SecTableCommandsAnswer (H : Obligations.SecTableCommandsAnswer) (hl : 0 < Config.certLen.val) :
    Completes (exec (.secAttest (pk [0xff00, 1, 2, 3, 4])) hot) ∧
    Completes (exec (.secAttest (pk [0, 1, 2, 3, 4])) hot) ∧
    Completes (exec (.secAttest (pk [1])) hot) ∧
    Completes (exec (.secAttest (pk [2, 0])) hot) ∧
    Completes (exec (.secAclGet (pk [0x1f1011])) hot) ∧
    Completes (exec (.secAclGet (pk [0x100200f])) hot) ∧
    Completes (exec (.secAclSet (pk [0xf2001, 5, 5, 0x7FFFFFFF])) owned) ∧
    Completes (exec (.secAclSet (pk [0x102001])) owned) ∧
    Completes (exec (.secAclSet (pk [0x202001])) owned) :=
  ⟨⟨_, (H (pk [0xff00, 1, 2, 3, 4]) hot _ rfl).1 _ _ rfl (fun _ => rfl) (by decide +kernel) (by decide +kernel)⟩,
   ⟨_, (H (pk [0, 1, 2, 3, 4]) hot _ rfl).1 _ _ rfl (fun _ => rfl) (by decide +kernel) (by decide +kernel)⟩,
   ⟨_, (H (pk [1]) hot _ rfl).2.1 (by decide +kernel) (by decide +kernel)⟩,
   ⟨_, (H (pk [2, 0]) hot _ rfl).2.2.1 _ _ rfl rfl (by decide +kernel) ⟨(by decide +kernel), (by decide +kernel),
       (by decide +kernel), (by decide +kernel), hl⟩⟩,
   ⟨_, ((H (pk [0x1f1011]) hot _ rfl).2.2.2 _ _ rfl rfl (by decide +kernel)).1 _ rfl (by decide +kernel)
       (by decide +kernel)⟩,
   ⟨_, ((H (pk [0x100200f]) hot _ rfl).2.2.2 _ _ rfl rfl (by decide +kernel)).1 _ rfl (by decide +kernel)
       (by decide +kernel)⟩,
   ⟨_, (((H (pk [0xf2001, 5, 5, 0x7FFFFFFF]) owned _ rfl).2.2.2 _ _ rfl rfl (by decide +kernel)).2 _ _ _ rfl
       (fun _ => rfl) (by decide +kernel)).1 _ rfl (fun _ => rfl) (by decide +kernel) (by decide +kernel)⟩,
   ⟨_, (((H (pk [0x102001]) owned _ rfl).2.2.2 _ _ rfl rfl (by decide +kernel)).2 _ _ _ rfl (fun _ => rfl)
       (by decide +kernel)).2.1 (fun _ => rfl) (by decide +kernel) (by decide +kernel)⟩,
   ⟨_, (((H (pk [0x202001]) owned _ rfl).2.2.2 _ _ rfl rfl (by decide +kernel)).2 _ _ _ rfl (fun _ => rfl)
       (by decide +kernel)).2.2 (fun _ => rfl) (by decide +kernel) (by decide +kernel)⟩⟩

theorem witness_SecKeyCommandsAnswer (H : Obligations.SecKeyCommandsAnswer) :
    Completes (exec (.secRobotKey (pk [255])) hot) ∧
    Completes (exec (.secRobotKey (pk [0x17f, 1, 2, 3, 4])) owned) ∧
    Completes (exec (.secRobotKey (pk [0x200])) owned) ∧
    Completes (exec (.secRobotKey (pk [0x300])) fleet) ∧
    Completes (exec (.secRobotKey (pk [0x4ff, 0x13880101])) hot) ∧
    Completes (exec (.secRobotKey (pk [0x4ff, 0xffa8])) hot) ∧
    Completes (exec (.secCfgSession (pk [0])) hot) ∧
    Completes (exec (.secCfgSession (pk [1])) challenged) ∧
    Completes (exec (.secCfgSession (proofPk)) challenged) ∧
    Completes (exec (.secCfgSession (pk [3])) owned) ∧
    Completes (exec (.secCfgSession (pk [4, 1, 2, 3, 4])) hot) ∧
    Completes (exec (.secCfgSession (pk [0x305, 1, 2, 3, 4])) owned) ∧
    Completes (exec (.secCfgSession (pk [0x306])) owned) :=
  ⟨⟨_, ((H (pk [255]) hot _ _ rfl rfl).1 _ rfl (by decide +kernel)).1 (by decide +kernel) (by decide +kernel)⟩,
   ⟨_, ((H (pk [0x17f, 1, 2, 3, 4]) owned _ _ rfl rfl).1 _ rfl (by decide +kernel)).2.1 _ _ rfl (fun _ => rfl)
       (by decide +kernel) (by decide +kernel)⟩,
   ⟨_, ((H (pk [0x200]) owned _ _ rfl rfl).1 _ rfl (by decide +kernel)).2.2.1 _ (fun _ => rfl) (by decide +kernel)
       (by decide +kernel)⟩,
   ⟨_, ((H (pk [0x300]) fleet _ _ rfl rfl).1 _ rfl (by decide +kernel)).2.2.2.1
       (fun p => if (_ ∨ p.1 = _) ∧ p.2.sess = .active ∧ p.2.rekey = none then (p.1, { p.2 with rekeyDue := true }) else p)
       (fun _ _ => rfl) (by decide +kernel) (by decide +kernel)⟩,
   ⟨_, ((H (pk [0x4ff, 0x13880101]) hot _ _ rfl rfl).1 _ rfl (by decide +kernel)).2.2.2.2 (by decide +kernel)
       (by decide +kernel)⟩,
   ⟨_, ((H (pk [0x4ff, 0xffa8]) hot _ _ rfl rfl).1 _ rfl (by decide +kernel)).2.2.2.2 (by decide +kernel)
       (by decide +kernel)⟩,
   ⟨_, (H (pk [0]) hot _ _ rfl rfl).2.1 (by decide +kernel) (by decide +kernel)⟩,
   ⟨_, (H (pk [1]) challenged _ _ rfl rfl).2.2.1 (by decide +kernel) (by decide +kernel)⟩,
   ⟨_, (H (proofPk) challenged _ _ rfl rfl).2.2.2.1 _ (fun _ => rfl) (by decide +kernel) ⟨(by decide +kernel),
     (by decide +kernel), (by decide +kernel), (by decide +kernel), (by decide +kernel), (by decide +kernel),
     (by decide +kernel), by rw [show (arrived descSecCfgSession proofPk challenged).session = challenged.session by decide +kernel]; exact ((pk_arg64 _ _ _).trans (proof_words 5 0 3 0)).symm⟩⟩,
   ⟨_, (H (pk [3]) owned _ _ rfl rfl).2.2.2.2.1 (by decide +kernel) (by decide +kernel)⟩,
   ⟨_, (H (pk [4, 1, 2, 3, 4]) hot _ _ rfl rfl).2.2.2.2.2.1 _ _ rfl (fun _ => rfl) (by decide +kernel)
       (by decide +kernel)⟩,
   ⟨_, (H (pk [0x305, 1, 2, 3, 4]) owned _ _ rfl rfl).2.2.2.2.2.2 _ _ _ rfl (by decide +kernel)
       (fun _ => rfl) (Or.inl ⟨rfl, (by decide +kernel), (by decide +kernel)⟩) (by decide +kernel)
       (by decide +kernel)⟩,
   ⟨_, (H (pk [0x306]) owned _ _ rfl rfl).2.2.2.2.2.2 _ _ _ rfl (by decide +kernel) (fun _ => rfl) (Or.inr ⟨rfl,
       (by decide +kernel), (by decide +kernel)⟩) (by decide +kernel) (by decide +kernel)⟩⟩

theorem witness_SchedCommandsAnswer (H : Obligations.SchedCommandsAnswer) :
    Completes (exec (.schedGet (pk [0x10000])) hot) ∧
    Completes (exec (.schedGet (pk [1])) hot) ∧
    Completes (exec (.schedGet (pk [0x10f02])) hot) ∧
    Completes (exec (.schedJobDefine (pk [31])) (jobbed true)) ∧
    Completes (exec (.schedJobDefine (pk [0x11f, 0xffff03f2, 65535, 0xFFFFFFFF, 2, 0])) (jobbed false)) ∧
    Completes (exec (.schedJobDefine (pk [0x21f])) (jobbed false)) ∧
    Completes (exec (.schedJobDefine (pk [0x31f])) (jobbed false)) ∧
    Completes (exec (.schedJobDefine (pk [0x41f])) (jobbed true)) :=
  ⟨⟨_, ((H (pk [0x10000]) hot _ _ rfl rfl).1 (by decide +kernel)).1 (by decide +kernel) (by decide +kernel)⟩,
   ⟨_, ((H (pk [1]) hot _ _ rfl rfl).1 (by decide +kernel)).2.1 (by decide +kernel) (by decide +kernel)⟩,
   ⟨_, ((H (pk [0x10f02]) hot _ _ rfl rfl).1 (by decide +kernel)).2.2 _ rfl (by decide +kernel) (by decide +kernel)⟩,
   ⟨_, ((H (pk [31]) (jobbed true) _ _ rfl rfl).2 _ rfl (by decide +kernel)).1 (by decide +kernel)
       (by decide +kernel)⟩,
   ⟨_, ((H (pk [0x11f, 0xffff03f2, 65535, 0xFFFFFFFF, 2, 0]) (jobbed false) _ _ rfl rfl).2 _ rfl
       (by decide +kernel)).2.1 _ _ _ rfl (fun _ => rfl) (fun _ => rfl) (by decide +kernel) (by decide +kernel)⟩,
   ⟨_, ((H (pk [0x21f]) (jobbed false) _ _ rfl rfl).2 _ rfl (by decide +kernel)).2.2.1 (by decide +kernel)
       (by decide +kernel)⟩,
   ⟨_, ((H (pk [0x31f]) (jobbed false) _ _ rfl rfl).2 _ rfl (by decide +kernel)).2.2.2.1 _ _ (fun _ => rfl)
       (by decide +kernel) ⟨(by decide +kernel), (by decide +kernel), (by decide +kernel), rfl⟩⟩,
   ⟨_, ((H (pk [0x41f]) (jobbed true) _ _ rfl rfl).2 _ rfl (by decide +kernel)).2.2.2.2 _ (fun _ => rfl)
       (by decide +kernel) (by decide +kernel)⟩⟩

theorem witness_HealthCommandsAnswer (H : Obligations.HealthCommandsAnswer) :
    Completes (exec (.healthGet (pk [0])) hot) ∧
    Completes (exec (.healthGet (pk [0xa01])) hot) ∧
    Completes (exec (.selftestRun (pk [127])) hot) ∧
    Completes (exec (.marginGet (pk [])) hot) :=
  ⟨⟨_, (H (pk [0]) hot _ rfl).1 (by decide +kernel) (by decide +kernel)⟩,
   ⟨_, (H (pk [0xa01]) hot _ rfl).2.1 (by decide +kernel) (by decide +kernel)⟩,
   ⟨_, (H (pk [127]) hot _ rfl).2.2.1 (by decide +kernel) (by decide +kernel)⟩,
   ⟨_, (H (pk []) hot _ rfl).2.2.2 (by decide +kernel) (by decide +kernel)⟩⟩

/-- READY with queue pair 15 as given. -/
def qp (x : Queue) : State := { hot with queues := [(15, x)] }

/-- An enabled queue pair with its command side and its event side. -/
def qx (c : CmdSide) (e : EvtSide) : Queue := { Queue.init with en := true, cmd := c, evt := e }

def ev1 : EvWord := { word := 7, sop := true, eop := true }

/-- READY with the permissions `perm` on the first 4 KiB of the target `t`. -/
def opened (t perm : Nat) : State :=
  { hot with acl := [(t, [{ base := 0, limit := 0xFFF, perm := perm, valid := true, lock := false }])] }
theorem witness_PortAccessesRun (H : Obligations.PortAccessesRun) :
    Completes (exec (.writePortWrite 15 5 true none 1) (qp (qx CmdSide.init EvtSide.init))) ∧
    Completes (exec (.writePortWrite 15 5 true none 1) (qp (qx { CmdSide.init with open_ := [1, 2, 3], wordsTaken := 3 } EvtSide.init))) ∧
    Completes (exec (.writePortWrite 15 5 true none 1) (qp (qx { CmdSide.init with wordsTaken := 1024, dropping := true } EvtSide.init))) ∧
    Completes (exec (.writePortWrite 15 5 false none 1) hot) ∧
    Completes (exec (.doorbellWrite ⟨15, none⟩ 1) hot) ∧
    Completes (exec (.writePortWrite 15 5 false none 1) (qp (qx CmdSide.init EvtSide.init))) ∧
    Completes (exec (.doorbellWrite ⟨15, none⟩ 1) (qp (qx { CmdSide.init with open_ := [2, 0] } EvtSide.init))) ∧
    Completes (exec (.readPortRead 15 true none 1) (qp (qx CmdSide.init { EvtSide.init with words := [ev1] }))) ∧
    Completes (exec (.readPortRead 15 true none 1) (qp (qx CmdSide.init EvtSide.init))) ∧
    Completes (exec (.readPortRead 15 true none 1) (qp { (qx CmdSide.init { EvtSide.init with words := [ev1] }) with push := true })) ∧
    Completes (exec (.readPortRead 15 false none 1) (qp (qx CmdSide.init EvtSide.init))) ∧
    Completes (exec (.queReset 15 1) (qp (qx CmdSide.init EvtSide.init))) ∧
    Completes (exec (.writePortWrite 15 5 true (some 4) 1) (qp (qx CmdSide.init EvtSide.init))) ∧
    Completes (exec (.doorbellWrite ⟨15, some 3⟩ 1) (qp (qx CmdSide.init EvtSide.init))) ∧
    Completes (exec (.readPortRead 15 true (some 0) 1) (qp (qx CmdSide.init EvtSide.init))) ∧
    Completes (exec (.writePortWrite 15 5 true none 1) (opened 1 0)) ∧
    Completes (exec (.queReset 15 1) (opened 1 0)) ∧
    Completes (exec (.doorbellWrite ⟨15, some 4⟩ 1) (opened 1 0)) ∧
    Completes (exec (.readPortRead 15 false none 1) (opened 1 0)) :=
  ⟨⟨_, ((H 15 1 (qp (qx CmdSide.init EvtSide.init)) _ _ _ _ (by decide +kernel) rfl (by decide +kernel) rfl rfl
      (by decide +kernel) rfl).1 (by decide +kernel) 5 _ _ (by decide +kernel) rfl rfl (by decide +kernel)).1
      (by decide +kernel)⟩,
   ⟨_, ((H 15 1 (qp (qx { CmdSide.init with open_ := [1, 2, 3], wordsTaken := 3 } EvtSide.init)) _ _ _ _
       (by decide +kernel) rfl (by decide +kernel) rfl rfl (by decide +kernel) rfl).1 (by decide +kernel) 5 _ _
       (by decide +kernel) rfl rfl (by decide +kernel)).2 (by decide +kernel)⟩,
   ⟨_, (H 15 1 (qp (qx { CmdSide.init with wordsTaken := 1024, dropping := true } EvtSide.init)) _ _ _ _
       (by decide +kernel) rfl (by decide +kernel) rfl rfl (by decide +kernel) rfl).2.1 (by decide +kernel) 5 _
       (by decide +kernel) (by decide +kernel) (by decide +kernel) rfl⟩,
   ⟨_, (H 15 1 hot _ _ _ _ (by decide +kernel) rfl (by decide +kernel) rfl rfl (by decide +kernel) rfl).2.2.1
       (by decide +kernel) 5 false _ (by decide +kernel) rfl⟩,
   ⟨_, (H 15 1 hot _ _ _ _ (by decide +kernel) rfl (by decide +kernel) rfl rfl (by decide +kernel) rfl).2.2.2.1
       (by decide +kernel) (by decide +kernel)⟩,
   ⟨_, (H 15 1 (qp (qx CmdSide.init EvtSide.init)) _ _ _ _ (by decide +kernel) rfl (by decide +kernel) rfl rfl
       (by decide +kernel) rfl).2.2.2.2.1 (by decide +kernel) 5 (by decide +kernel)⟩,
   ⟨_, (H 15 1 (qp (qx { CmdSide.init with open_ := [2, 0] } EvtSide.init)) _ _ _ _ (by decide +kernel) rfl
       (by decide +kernel) rfl rfl (by decide +kernel) rfl).2.2.2.2.2.1 (by decide +kernel) _
       (by decide +kernel) rfl⟩,
   ⟨_, (H 15 1 (qp (qx CmdSide.init { EvtSide.init with words := [ev1] })) _ _ _ _ (by decide +kernel) rfl
       (by decide +kernel) rfl rfl (by decide +kernel) rfl).2.2.2.2.2.2.1 (by decide +kernel) _ _ rfl
       (by decide +kernel)⟩,
   ⟨_, (H 15 1 (qp (qx CmdSide.init EvtSide.init)) _ _ _ _ (by decide +kernel) rfl (by decide +kernel) rfl rfl
       (by decide +kernel) rfl).2.2.2.2.2.2.2.1 (by decide +kernel) (Or.inl (by decide +kernel))⟩,
   ⟨_, (H 15 1 (qp { (qx CmdSide.init { EvtSide.init with words := [ev1] }) with push := true }) _ _ _ _
       (by decide +kernel) rfl (by decide +kernel) rfl rfl (by decide +kernel) rfl).2.2.2.2.2.2.2.1
       (by decide +kernel) (Or.inr (by decide +kernel))⟩,
   ⟨_, (H 15 1 (qp (qx CmdSide.init EvtSide.init)) _ _ _ _ (by decide +kernel) rfl (by decide +kernel) rfl rfl
       (by decide +kernel) rfl).2.2.2.2.2.2.2.2.1 (by decide +kernel)⟩,
   ⟨_, (H 15 1 (qp (qx CmdSide.init EvtSide.init)) _ _ _ _ (by decide +kernel) rfl (by decide +kernel) rfl rfl
       (by decide +kernel) rfl).2.2.2.2.2.2.2.2.2.1 (by decide +kernel)⟩,
   ⟨_, ((H 15 1 (qp (qx CmdSide.init EvtSide.init)) _ _ _ _ (by decide +kernel) rfl (by decide +kernel) rfl rfl
       (by decide +kernel) rfl).2.2.2.2.2.2.2.2.2.2.1 4 5 true true (by decide +kernel)).1 (by decide +kernel)
       (by decide +kernel)⟩,
   ⟨_, ((H 15 1 (qp (qx CmdSide.init EvtSide.init)) _ _ _ _ (by decide +kernel) rfl (by decide +kernel) rfl rfl
       (by decide +kernel) rfl).2.2.2.2.2.2.2.2.2.2.1 3 5 true true (by decide +kernel)).2.1 (by decide +kernel)
       (by decide +kernel)⟩,
   ⟨_, ((H 15 1 (qp (qx CmdSide.init EvtSide.init)) _ _ _ _ (by decide +kernel) rfl (by decide +kernel) rfl rfl
       (by decide +kernel) rfl).2.2.2.2.2.2.2.2.2.2.1 0 5 true true (by decide +kernel)).2.2 (by decide +kernel)
       (by decide +kernel)⟩,
   ⟨_, (((H 15 1 (opened 1 0) _ _ _ _ (by decide +kernel) rfl (by decide +kernel) rfl rfl
       (by decide +kernel) rfl).2.2.2.2.2.2.2.2.2.2.2 none 5 true true (fun _ e => nomatch e)).1
       (by decide +kernel)).1⟩,
   ⟨_, (((H 15 1 (opened 1 0) _ _ _ _ (by decide +kernel) rfl (by decide +kernel) rfl rfl
       (by decide +kernel) rfl).2.2.2.2.2.2.2.2.2.2.2 none 5 true true (fun _ e => nomatch e)).1
       (by decide +kernel)).2⟩,
   ⟨_, ((H 15 1 (opened 1 0) _ _ _ _ (by decide +kernel) rfl (by decide +kernel) rfl rfl (by decide +kernel) rfl).2.2.2.2.2.2.2.2.2.2.2 _ 5 true true (fun _ e => by cases e; decide)).2.1 (by decide +kernel)⟩,
   ⟨_, ((H 15 1 (opened 1 0) _ _ _ _ (by decide +kernel) rfl (by decide +kernel) rfl rfl
       (by decide +kernel) rfl).2.2.2.2.2.2.2.2.2.2.2 none 5 true false (fun _ e => nomatch e)).2.2
       (by decide +kernel)⟩⟩

theorem witness_RegisterAccessesRun (H : Obligations.RegisterAccessesRun) :
    Completes (exec (.w1cFlagClear .sysErr 15 2 1) hot) ∧
    Completes (exec (.w1cFlagClear .stop 31 2 1) (opened 3 0xFFFF)) ∧
    Completes (exec (.w1cFlagClear .time 15 2 1) (opened 4 0xFFFF)) ∧
    Completes (exec (.w1cFlagClear (.que 15) 63 0 1) hot) ∧
    Completes (exec (.w1cFlagClear .int 15 2 1) hot) ∧
    Completes (exec (.intStatClear 15 2 1) hot) ∧
    Completes (exec (.intStatClear (2 ^ 22) 0 1) hot) ∧
    Completes (exec (.watermarkFlagClear 15 true none 1) hot) ∧
    Completes (exec (.watermarkFlagClear 15 false none 1) hot) ∧
    Completes (exec (.watermarkFlagClear 15 true (some 4) 1) hot) ∧
    Completes (exec (.watermarkFlagClear 15 false (some 4) 1) hot) ∧
    Completes (exec (.occCounterRead .sysErr 0 0 1) hot) ∧
    Completes (exec (.occCounterRead (.que 15) 1 0 1) hot) ∧
    Completes (exec (.occCounterRead .sysErr 0 0 1) (opened 0 0)) ∧
    Completes (exec (.w1cFlagClear .stop 31 0 1) hot) ∧
    Completes (exec (.sysResetWrite 0x5AFE 1) (opened 0 0)) ∧
    Completes (exec (.sysResetWrite 5 1) hot) ∧
    Completes (exec (.sysResetWrite 0x5AFE 1) { hot with sys := { hot.sys with boot := .fault } }) ∧
    Completes (exec (.sysResetWrite 0x5AFE 1) hot) ∧
    Completes (exec (.timeSnapRead 1) hot) ∧
    Completes (exec (.barAccessFault true true 1) hot) ∧
    Completes (exec (.registerWrite 0xFFFF ⟨1, none⟩ 1) hot) ∧
    Completes (exec (.registerWrite 0x18 ⟨5, none⟩ 1) (opened 0 0)) ∧
    Completes (exec (.registerWrite 0x18 ⟨5, none⟩ 1) hot) ∧
    Completes (exec (.registerWrite 0x2004 ⟨5, none⟩ 1) hot) ∧
    Completes (exec (.registerWrite (0x1000 + 0x100 * 15) ⟨10000 * 2 ^ 16 + 3, none⟩ 1) hot) :=
  ⟨⟨_, (H 1 hot _ rfl (by decide +kernel)).1 (by decide +kernel) 15 2⟩,
   ⟨_, (H 1 (opened 3 0xFFFF) _ rfl (by decide +kernel)).2.1 (by decide +kernel) 31 2⟩,
   ⟨_, (H 1 (opened 4 0xFFFF) _ rfl (by decide +kernel)).2.2.1 (by decide +kernel) 15 2⟩,
   ⟨_, (H 1 hot _ rfl (by decide +kernel)).2.2.2.1 15 63 (by decide +kernel) (by decide +kernel) (by decide +kernel)⟩,
   ⟨_, ((H 1 hot _ rfl (by decide +kernel)).2.2.2.2.1 (by decide +kernel) 15 2).1⟩,
   ⟨_, ((H 1 hot _ rfl (by decide +kernel)).2.2.2.2.1 (by decide +kernel) 15 2).2⟩,
   ⟨_, (H 1 hot _ rfl (by decide +kernel)).2.2.2.2.2.1 (by decide +kernel) 22 (by decide +kernel)
       (by decide +kernel)⟩,
   ⟨_, ((H 1 hot _ rfl (by decide +kernel)).2.2.2.2.2.2.1 15 (by decide +kernel) (by decide +kernel)
       (by decide +kernel) _ rfl).1⟩,
   ⟨_, ((H 1 hot _ rfl (by decide +kernel)).2.2.2.2.2.2.1 15 (by decide +kernel) (by decide +kernel)
       (by decide +kernel) _ rfl).2.1⟩,
   ⟨_, (((H 1 hot _ rfl (by decide +kernel)).2.2.2.2.2.2.1 15 (by decide +kernel) (by decide +kernel)
       (by decide +kernel) _ rfl).2.2 4).1⟩,
   ⟨_, (((H 1 hot _ rfl (by decide +kernel)).2.2.2.2.2.2.1 15 (by decide +kernel) (by decide +kernel)
       (by decide +kernel) _ rfl).2.2 4).2⟩,
   ⟨_, (H 1 hot _ rfl (by decide +kernel)).2.2.2.2.2.2.2.1 _ _ _ _ (by decide +kernel) rfl⟩,
   ⟨_, ((H 1 hot _ rfl (by decide +kernel)).2.2.2.2.2.2.2.2.1 _ 1 0 (fun q e => by cases e; decide +kernel)).1 (by decide +kernel)⟩,
   ⟨_, ((H 1 (opened 0 0) _ rfl (by decide +kernel)).2.2.2.2.2.2.2.2.1 .sysErr 0 0 (fun q e => nomatch e)).2
       (by decide +kernel)⟩,
   ⟨_, (H 1 hot _ rfl (by decide +kernel)).2.2.2.2.2.2.2.2.2.1 .stop 31 0 (fun q e => nomatch e) (by decide +kernel)⟩,
   ⟨_, (H 1 (opened 0 0) _ rfl (by decide +kernel)).2.2.2.2.2.2.2.2.2.2.1 0x5AFE (by decide +kernel)⟩,
   ⟨_, (H 1 hot _ rfl (by decide +kernel)).2.2.2.2.2.2.2.2.2.2.2.1 5 (by decide +kernel) (by decide +kernel)⟩,
   ⟨_, (H 1 { hot with sys := { hot.sys with boot := .fault } } _ rfl
       (by decide +kernel)).2.2.2.2.2.2.2.2.2.2.2.2.1 0x5AFE { status := _, detail := _, words := _ } _
       (by decide +kernel) (by decide +kernel) rfl rfl (by decide +kernel)⟩,
   ⟨_, (H 1 hot _ rfl (by decide +kernel)).2.2.2.2.2.2.2.2.2.2.2.2.2.1 0x5AFE _ _ _ (by decide +kernel)
       (by decide +kernel) rfl rfl rfl⟩,
   ⟨_, (H 1 hot _ rfl (by decide +kernel)).2.2.2.2.2.2.2.2.2.2.2.2.2.2.1 (by decide +kernel)⟩,
   ⟨_, (H 1 hot _ rfl (by decide +kernel)).2.2.2.2.2.2.2.2.2.2.2.2.2.2.2.1 true true⟩,
   ⟨_, (H 1 hot _ rfl (by decide +kernel)).2.2.2.2.2.2.2.2.2.2.2.2.2.2.2.2.1 0xFFFF 1 none (by decide +kernel)
       (fun _ e => nomatch e)⟩,
   ⟨_, (H 1 (opened 0 0) _ rfl (by decide +kernel)).2.2.2.2.2.2.2.2.2.2.2.2.2.2.2.2.2.1 0x18 5 (by decide +kernel)
       (by decide +kernel) (by decide +kernel)⟩,
   ⟨_, ((H 1 hot _ rfl (by decide +kernel)).2.2.2.2.2.2.2.2.2.2.2.2.2.2.2.2.2.2.1 5).1 (by decide +kernel)⟩,
   ⟨_, ((H 1 hot _ rfl (by decide +kernel)).2.2.2.2.2.2.2.2.2.2.2.2.2.2.2.2.2.2.1 5).2 (by decide +kernel)⟩,
   ⟨_, (H 1 hot _ rfl (by decide +kernel)).2.2.2.2.2.2.2.2.2.2.2.2.2.2.2.2.2.2.2 15 _ _ (by decide +kernel)
       (by decide +kernel) (by decide +kernel) rfl (by decide +kernel)⟩⟩

/-- A NOP of queue pair 15 as the module holds it. -/
def nop15 : Req := { Req.none with q := 15 }

/-- READY with a tick running. -/
def beat (x : Tick) : State := { hot with tick := { x with running := true } }

/-- READY with core 15 and slot 0 as given. -/
def cored (x : Core) (j : JobSlot) : State := { hot with sched := { Sched.init with cores := [(15, x)], slots := [(0, j)] } }

/-- Host job 31 with a result that waits to be taken. -/
def ran : State := { hot with sched := { Sched.init with jobs := [(31, { HostJob.init with
  running := true
  result := some (0, [])
  defn := some { trigger := 0, deps := 3, rearm := true, stopOnFail := false, eventCode := 0, periodTicks := 0, succMask := 0,
                 packet := [0x00000002, 0], queue := 0, epoch := 0 } })] } }
theorem witness_HostTimersRun (H : Obligations.HostTimersRun) :
    Completes (exec (.strandTimeout ⟨15, none⟩) (qp (qx { CmdSide.init with strandAt := some 0, open_ := [2, 0] } EvtSide.init))) ∧
    Completes (exec (.strandTimeout ⟨15, none⟩) (qp (qx { CmdSide.init with strandAt := some 0, part := [3] } EvtSide.init))) ∧
    Completes (exec (.commandTaken ⟨15, none⟩ 0) (qp (qx { CmdSide.init with held := some nop15 } EvtSide.init))) ∧
    Completes (exec (.completionPlaced ⟨15, none⟩) (qp (qx CmdSide.init { EvtSide.init with waiting := [[1, 2, 3]] }))) ∧
    Completes (exec (.pushRingWrite ⟨15, none⟩) (qp { qx CmdSide.init { EvtSide.init with words := [ev1] } with push := true })) ∧
    Completes (exec (.coalTimeout 15) (qp (qx CmdSide.init { EvtSide.init with coalAt := some 0 }))) ∧
    Completes (exec (.chainRelease 16 0) { hot with chains := [(16, { Chain.init with waiters := [{ req := nop15, pred := 0, outcome := some true }] })] }) ∧
    Completes (exec (.execAtDue) { hot with execs := [nop15] }) ∧
    Completes (exec (.ppsAlignedApply) { hot with time := { Timebase.init with waiting := [{ req := nop15, second := 1 }] } }) ∧
    Completes (exec (.mgmtDatagram 0 { key := 0, addr := 0, port := 0, ip6 := false } [] 0) hot) :=
  ⟨⟨_, ((H 15 0 (qp (qx { CmdSide.init with strandAt := some 0, open_ := [2, 0] } EvtSide.init))
      (by decide +kernel)).1 _ _ _ _ rfl (by decide +kernel) rfl rfl rfl).1 (Or.inr (by decide +kernel))⟩,
   ⟨_, ((H 15 0 (qp (qx { CmdSide.init with strandAt := some 0, part := [3] } EvtSide.init))
       (by decide +kernel)).1 _ _ _ _ rfl (by decide +kernel) rfl rfl rfl).2 (by decide +kernel) (by decide +kernel)⟩,
   ⟨_, (H 15 0 (qp (qx { CmdSide.init with held := some nop15 } EvtSide.init)) (by decide +kernel)).2.1 _ _ _ _ rfl
       rfl rfl (by decide +kernel) (by decide +kernel) rfl (Or.inr (Or.inr (by decide +kernel)))⟩,
   ⟨_, (H 15 0 (qp (qx CmdSide.init { EvtSide.init with waiting := [[1, 2, 3]] })) (by decide +kernel)).2.2.1 _ _ _ _
       rfl rfl rfl (by decide +kernel) (by decide +kernel)⟩,
   ⟨_, (H 15 0 (qp { qx CmdSide.init { EvtSide.init with words := [ev1] } with push := true })
       (by decide +kernel)).2.2.2.1 _ _ _ _ rfl rfl (by decide +kernel) (by decide +kernel) (by decide +kernel) rfl
       (by decide +kernel) (by decide +kernel) (by decide +kernel) (by decide +kernel) rfl⟩,
   ⟨_, (H 15 0 (qp (qx CmdSide.init { EvtSide.init with coalAt := some 0 })) (by decide +kernel)).2.2.2.2.1 _ _ _ rfl
       (by decide +kernel) (by decide +kernel) rfl rfl⟩,
   ⟨_, 
       (H 0 0 { hot with chains := [(16, { Chain.init with waiters := [{ req := nop15, pred := 0, outcome := some true }] })] }
       (by decide +kernel)).2.2.2.2.2.1 16 _ _ _ _ _ (by decide +kernel) rfl (by decide +kernel) rfl rfl⟩,
   ⟨_, (H 0 0 { hot with execs := [nop15] } (by decide +kernel)).2.2.2.2.2.2.1 _ _ _ rfl (by decide +kernel)
       (by decide +kernel) (by decide +kernel) rfl⟩,
   ⟨_, (H 0 0 { hot with time := { Timebase.init with waiting := [{ req := nop15, second := 1 }] } }
       (by decide +kernel)).2.2.2.2.2.2.2.1 _ rfl (by decide +kernel) (by decide +kernel)⟩,
   ⟨_, (H 0 0 hot (by decide +kernel)).2.2.2.2.2.2.2.2 _ 0 _ [] (by decide +kernel) rfl (by decide +kernel)⟩⟩

theorem witness_TickAndJobsRun (H : Obligations.TickAndJobsRun) :
    Completes (exec (.tickBoundary 0) (beat Tick.init)) ∧
    Completes (exec (.tickBoundary 5) (beat { Tick.init with completed := false })) ∧
    Completes (exec (.tickComplete 0) (beat { Tick.init with completed := false, phases := 4 })) ∧
    Completes (exec (.tickComplete 1) (beat { Tick.init with completed := false, phases := 4, nextAt := 1 })) ∧
    Completes (exec (.tickDeadline) (beat { Tick.init with completed := false })) ∧
    Completes (exec (.goEmission) (beat { Tick.init with started := true, emitted := false, nextAt := 5000000 })) ∧
    Completes (exec (.watchdogExpire) { hot with stop := { Stop.init with wdogArmed := true } }) ∧
    Completes (exec (.jobDispatch 15 0) (cored Core.init { JobSlot.init with ready := true })) ∧
    Completes (exec (.jobDispatch 0 0) { hot with sched := { Sched.init with jobs := [(31, { HostJob.init with ready := true })] } }) ∧
    Completes (exec (.jobComplete 15 0) (cored { Core.init with job := some (224, 0) } JobSlot.init)) ∧
    Completes (exec (.jobComplete 15 0) (cored { Core.init with job := some (0, 0) } { JobSlot.init with prio := 5, succs := [0] })) ∧
    Completes (exec (.jobRevoke 15) (cored { Core.init with job := some (0, 0) } JobSlot.init)) ∧
    Completes (exec (.hostJobFinal 31 0) ran) :=
  ⟨⟨_, (H 0 (beat Tick.init)).1 0 _ _ _ _ _ (by decide +kernel) rfl rfl rfl rfl rfl⟩,
   ⟨_, (H 0 (beat { Tick.init with completed := false })).1 5 _ _ _ _ _ (by decide +kernel) rfl rfl rfl rfl rfl⟩,
   ⟨_, ((H 0 (beat { Tick.init with completed := false, phases := 4 })).2.1 _ rfl (by decide +kernel)
       (by decide +kernel) (by decide +kernel) (by decide +kernel)).1 (by decide +kernel)⟩,
   ⟨_, ((H 1 (beat { Tick.init with completed := false, phases := 4, nextAt := 1 })).2.1 _ rfl (by decide +kernel)
       (by decide +kernel) (by decide +kernel) (by decide +kernel)).2 (by decide +kernel)⟩,
   ⟨_, (H 0 (beat { Tick.init with completed := false })).2.2.1 (by decide +kernel) (by decide +kernel)
       (by decide +kernel) (by decide +kernel)⟩,
   ⟨_, (H 0 (beat { Tick.init with started := true, emitted := false, nextAt := 5000000 })).2.2.2.1 _ _ rfl
       (by decide +kernel) (by decide +kernel) (by decide +kernel) (by decide +kernel) rfl⟩,
   ⟨_, (H 0 { hot with stop := { Stop.init with wdogArmed := true } }).2.2.2.2.1 _ rfl (by decide +kernel)⟩,
   ⟨_, (H 0 (cored Core.init { JobSlot.init with ready := true })).2.2.2.2.2.1 15 _ _ _ (by decide +kernel) rfl
       (by decide +kernel) (by decide +kernel) (by decide +kernel) (Or.inr (by decide +kernel)) rfl rfl⟩,
   ⟨_,
       (H 0 { hot with sched := { Sched.init with jobs := [(31, { HostJob.init with ready := true })] } }).2.2.2.2.2.1 0 _ _ _
       (by decide +kernel) rfl (by decide +kernel) (by decide +kernel) (by decide +kernel) (Or.inr
       (by decide +kernel)) rfl rfl⟩,
   ⟨_, ((H 0 (cored { Core.init with job := some (224, 0) } JobSlot.init)).2.2.2.2.2.2.1 15 _ _ _ _
       (by decide +kernel) rfl rfl rfl).1 (by decide +kernel)⟩,
   ⟨_, ((H 0 (cored { Core.init with job := some (0, 0) } { JobSlot.init with prio := 5, succs := [0] })).2.2.2.2.2.2.1 15 _ _ _ _
       (by decide +kernel) rfl rfl rfl).2 _ _ (by decide +kernel) rfl (by decide +kernel) rfl⟩,
   ⟨_, (H 0 (cored { Core.init with job := some (0, 0) } JobSlot.init)).2.2.2.2.2.2.2.1 15 _ _
       (by decide +kernel) rfl⟩,
   ⟨_, (H 0 ran).2.2.2.2.2.2.2.2 31 _ _ _ _ _ (by decide +kernel) rfl rfl rfl rfl rfl⟩⟩

theorem aesNextKey_length (k : List Byte) (r : Byte) (h : k.length = 16) : (aesNextKey k r).length = 16 := by
  simp [aesNextKey, xorBytes, h]

theorem aesRounds_length (rs : List Byte) : ∀ s k : List Byte, s.length = 16 → k.length = 16 → (aesRounds s k rs).length = 16 := by
  induction rs with
  | nil => intro s k hs _; simpa [aesRounds] using hs
  | cons r rs ih =>
    intro s k hs hk
    cases rs with
    | nil => simp [aesRounds, xorBytes, aesShiftRows, aesNextKey_length k r hk]
    | cons q rs =>
      refine ih _ _ ?_ (aesNextKey_length k r hk)
      simp [xorBytes, aesNextKey_length k r hk, aesMixColumns, aesShiftRows, aesMixColumn]

theorem leBytes_length (n k : Nat) : (leBytes n k).length = k := by
  induction k generalizing n with
  | zero => rfl
  | succ k ih => simp [leBytes, ih]

theorem aesEncrypt_length (k x : List Byte) (hk : k.length = 16) (hx : x.length = 16) : (aesEncrypt k x).length = 16 :=
  aesRounds_length _ _ _ (by simp [xorBytes, hk, hx]) hk

theorem cmacChain_length (k k1 k2 : List Byte) (hk : k.length = 16) (h1 : k1.length = 16) (h2 : k2.length = 16) (n : Nat) :
    ∀ x m : List Byte, x.length = 16 → (cmacChain k k1 k2 n x m).length = 16 := by
  induction n with
  | zero => intro x m hx; simpa [cmacChain] using hx
  | succ n ih =>
    intro x m hx
    unfold cmacChain
    split
    · split
      · exact aesEncrypt_length k _ hk (by simp [xorBytes, *])
      · exact aesEncrypt_length k _ hk (by simp [xorBytes, *]; omega)
    · exact ih _ _ (aesEncrypt_length k _ hk (by simp [xorBytes, *]; omega))

theorem cmac_length (k : Nat) (m : List Byte) : (cmac (keyBytes k) m).length = 16 :=
  cmacChain_length _ _ _ (leBytes_length _ _) (by simp [cmacDouble, beBytes, leBytes_length])
    (by simp [cmacDouble, beBytes, leBytes_length]) _ _ _ (by simp)

/-- A frame whose head fits and whose tag is that of its key passes the first checks. -/
theorem firstChecks_own (l : Link) (k : Nat) (b B : List Byte) (hB : B = b ++ cmacTag (keyBytes k) b 8)
    (hn : bytesAt B 4 2 = b.length + 8) (hv : byteAt B 0 % 16 = 1) (hk : uplinkKey l B = some k)
    (hf : (match byteAt B 1 with
      | 0x41 => decide (bytesAt B 4 2 = 112)
      | 0x42 => inRange (bytesAt B 4 2) 45 1444
      | 0x43 => (List.range 8).any (fun i => decide (bytesAt B 4 2 = 40 + 16 * (i + 1)))
      | 0x44 => decide (bytesAt B 4 2 = 64)
      | _ => false) = true)
    (hs : (decide (l.sess = .active) || decide (l.sess = .joining) || decide (byteAt B 1 = 0x44)) = true) :
    firstChecks l B = true := by
  have ht : tagOk k B = true := by
    unfold tagOk
    have h2 : (B.drop b.length).take 8 = cmacTag (keyBytes k) (B.take b.length) 8 := by
      rw [hB, List.drop_left, List.take_left, cmacTag, List.take_take]; rfl
    simp only [hn, Nat.add_sub_cancel, h2, decide_true]
  have hl : uplinkLength B = true := by
    have h3 : bytesAt B 4 2 ≤ B.length := by
      rw [hn, hB, List.length_append, cmacTag, List.length_take, cmac_length]; simp
    unfold uplinkLength
    exact (Bool.and_eq_true _ _).mpr ⟨hf, decide_eq_true h3⟩
  unfold firstChecks
  simp only [hv, hl, hs, hk, ht, decide_true, Bool.and_true]
/-- An uplink frame of a robot, key epoch 1 (a JOIN: root key), with the tag that key 5 gives it. -/
def frame (kind robot flags len seq : Nat) (rest : List Byte) : Uplink :=
  { port := 0, src := RobotAddr.init, udp := none
    bytes := ([1, byteOf kind, byteOf robot, byteOf flags] ++ leBytes len 2 ++
        leBytes (if kind = 0x44 ∧ flags = 0 then 0 else 1) 2 ++ leBytes seq 8 ++ rest) ++
      cmacTag (keyBytes 5) ([1, byteOf kind, byteOf robot, byteOf flags] ++ leBytes len 2 ++
        leBytes (if kind = 0x44 ∧ flags = 0 then 0 else 1) 2 ++ leBytes seq 8 ++ rest) 8 }

def telemF (robot seq : Nat) : Uplink := frame 0x41 robot 0 112 seq (List.replicate 88 0)

/-- READY with port 0 up and robot 0's link as given. -/
def linked (l : Link) : State := { hot with
  net := { Net.init 0 with loaded := true, ports := [(0, { Port.init 0 with link := true })] }
  uz := { Uz.init with robots := [(0, l)] } }

/-- A session that has taken frame 100. -/
def live : Link := { Link.init with
  rootKey := some 5, sess := .active, keyEpoch := 1, key := 5, window := { highest := 100, seen := [100] } }
/-- The same while a rekey waits for its JOIN, or after it took the JOIN numbered `n`. -/
def rekeyed (n : Option Nat) : Link :=
  { live with rekey := some { since := 0, newKey := none, newEpoch := 2, joinSeq := n, acked := false } }
theorem witness_UplinkFramesRun (H : Obligations.UplinkFramesRun) :
    Completes (exec (.telem (telemF 200 1) 1) (linked live)) ∧
    Completes (exec (.obs (telemF 200 1) 1) (linked live)) ∧
    Completes (exec (.ack (telemF 200 1) 1) (linked live)) ∧
    Completes (exec (.join (telemF 200 1) 1) (linked live)) ∧
    Completes (exec (.telem (telemF 127 1) 1) (linked live)) ∧
    Completes (exec (.telem (telemF 0 100) 1) (linked live)) ∧
    Completes (exec (.telem (telemF 0 35) 1) (linked live)) ∧
    Completes (exec (.telem (frame 0x41 0 0 112 101 (List.replicate 18 0 ++ [4] ++ List.replicate 69 0)) 1) (linked live)) ∧
    Completes (exec (.telem (telemF 0 36) 1) (linked live)) ∧
    Completes (exec (.obs (frame 0x42 0 0 45 101 (List.replicate 18 0 ++ [1, 0, 0])) 1) (linked live)) ∧
    Completes (exec (.ack (frame 0x43 0 0 56 101 (List.replicate 8 0 ++ [1] ++ List.replicate 23 0)) 1) (linked live)) ∧
    Completes (exec (.join (frame 0x44 0 0 64 0 (List.replicate 40 0)) 1) (linked live)) ∧
    Completes (exec (.join (frame 0x44 0 1 64 102 (List.replicate 40 0)) 1) (linked Link.init)) ∧
    Completes (exec (.join (frame 0x44 0 1 64 102 (List.replicate 40 0)) 1) (linked live)) ∧
    Completes (exec (.join (frame 0x44 0 1 64 102 (List.replicate 40 0)) 1) (linked { rekeyed none with joinAt := some 0 })) ∧
    Completes (exec (.join (frame 0x44 0 1 64 102 (List.replicate 40 0)) 1) (linked (rekeyed (some 102)))) ∧
    Completes (exec (.join (frame 0x44 0 1 64 102 (List.replicate 40 0)) 1) (linked (rekeyed none))) ∧
    captureJoin (linked Link.init) { frame := frame 0x44 0 0 64 0 (List.replicate 40 0), up := 1, now := 1 }
        = setLink 0
        { getLink (linked Link.init) 0 with authFail := cnt32 (getLink (linked Link.init) 0).authFail } (linked
        Link.init) ∧
    captureJoin (linked { live with sess := .keyed, joinAt := some 0 })
        { frame := frame 0x44 0 0 64 0 (List.replicate 40 0), up := 1, now := 1 } = (linked
        { live with sess := .keyed, joinAt := some 0 }) ∧
    captureJoin (linked { live with sess := .keyed })
        { frame := frame 0x44 0 0 64 0 (List.replicate 40 0), up := 1, now := 1 } = answerJoin 0 (frame 0x44 0 0
        64 0 (List.replicate 40 0)) 1 1 (noteValid 0 (frame 0x44 0 0 64 0 (List.replicate 40 0)) 1 1 (linked
        { live with sess := .keyed })) ∧
    captureJoin (linked (rekeyed (some 102)))
        { frame := frame 0x44 0 1 64 102 (List.replicate 40 0), up := 1, now := 1 } = answerJoin 0 (frame 0x44 0
        1 64 102 (List.replicate 40 0)) 1 1 (noteValid 0 (frame 0x44 0 1 64 102 (List.replicate 40 0)) 1 1
        (linked (rekeyed (some 102)))) ∧
    captureJoin (linked live) { frame := frame 0x44 0 1 64 100 (List.replicate 40 0), up := 1, now := 1 } =
        setLink 0 { getLink (linked live) 0 with dups := cnt32 (getLink (linked live) 0).dups } (linked live) :=
  ⟨⟨_, (H _ 1 _ (linked live) _ _ _ _ (by decide +kernel) rfl (by decide +kernel) (Or.inr (by decide +kernel)) rfl rfl
      rfl rfl).1 (by decide +kernel) _ (.head _)⟩,
   ⟨_, (H _ 1 _ (linked live) _ _ _ _ (by decide +kernel) rfl (by decide +kernel) (Or.inr (by decide +kernel)) rfl rfl
       rfl rfl).1 (by decide +kernel) _ (.tail _ (.head _))⟩,
   ⟨_, (H _ 1 _ (linked live) _ _ _ _ (by decide +kernel) rfl (by decide +kernel) (Or.inr (by decide +kernel)) rfl rfl
       rfl rfl).1 (by decide +kernel) _ (.tail _ (.tail _ (.head _)))⟩,
   ⟨_, (H _ 1 _ (linked live) _ _ _ _ (by decide +kernel) rfl (by decide +kernel) (Or.inr (by decide +kernel)) rfl rfl
       rfl rfl).1 (by decide +kernel) _ (.tail _ (.tail _ (.tail _ (.head _))))⟩,
   ⟨_, (H _ 1 _ (linked live) _ _ _ _ (by decide +kernel) rfl (by decide +kernel) (Or.inr (by decide +kernel)) rfl rfl
       rfl rfl).2.1 (by decide +kernel) (by decide +kernel) (by decide +kernel) _ (.head _)⟩,
   ⟨_, ((H _ 1 _ (linked live) _ _ _ _ (by decide +kernel) rfl (by decide +kernel) (Or.inr (by decide +kernel)) rfl
       rfl rfl rfl).2.2.1 (by decide +kernel) (firstChecks_own _ 5 _ _ rfl (by decide +kernel) (by decide +kernel)
       (by decide +kernel) (by decide +kernel) (by decide +kernel)) (by decide +kernel)).1
       (by decide +kernel) _ (.head _)⟩,
   ⟨_, ((H _ 1 _ (linked live) _ _ _ _ (by decide +kernel) rfl (by decide +kernel) (Or.inr (by decide +kernel)) rfl
       rfl rfl rfl).2.2.1 (by decide +kernel) (firstChecks_own _ 5 _ _ rfl (by decide +kernel) (by decide +kernel)
       (by decide +kernel) (by decide +kernel) (by decide +kernel)) (by decide +kernel)).2.1 (by decide +kernel)
       (by decide +kernel) _ (.head _)⟩,
   ⟨_, ((H _ 1 _ (linked live) _ _ _ _ (by decide +kernel) rfl (by decide +kernel) (Or.inr (by decide +kernel)) rfl
       rfl rfl rfl).2.2.1 (by decide +kernel) (firstChecks_own _ 5 _ _ rfl (by decide +kernel) (by decide +kernel)
       (by decide +kernel) (by decide +kernel) (by decide +kernel)) (by decide +kernel)).2.2.1 (by decide +kernel)
       (by decide +kernel) (by decide +kernel) _ (.head _)⟩,
   ⟨_, (((H _ 1 _ (linked live) _ _ _ _ (by decide +kernel) rfl (by decide +kernel) (Or.inr (by decide +kernel)) rfl
       rfl rfl rfl).2.2.1 (by decide +kernel) (firstChecks_own _ 5 _ _ rfl (by decide +kernel) (by decide +kernel)
       (by decide +kernel) (by decide +kernel) (by decide +kernel)) (by decide +kernel)).2.2.2 (by decide +kernel)
       (by decide +kernel) (by decide +kernel)).1 (by decide +kernel)⟩,
   ⟨_, (((H _ 1 _ (linked live) _ _ _ _ (by decide +kernel) rfl (by decide +kernel) (Or.inr (by decide +kernel)) rfl
       rfl rfl rfl).2.2.1 (by decide +kernel) (firstChecks_own _ 5 _ _ rfl (by decide +kernel) (by decide +kernel)
       (by decide +kernel) (by decide +kernel) (by decide +kernel)) (by decide +kernel)).2.2.2 (by decide +kernel)
       (by decide +kernel) (by decide +kernel)).2.1 (by decide +kernel)⟩,
   ⟨_, (((H _ 1 _ (linked live) _ _ _ _ (by decide +kernel) rfl (by decide +kernel) (Or.inr (by decide +kernel)) rfl
       rfl rfl rfl).2.2.1 (by decide +kernel) (firstChecks_own _ 5 _ _ rfl (by decide +kernel) (by decide +kernel)
       (by decide +kernel) (by decide +kernel) (by decide +kernel)) (by decide +kernel)).2.2.2 (by decide +kernel)
       (by decide +kernel) (by decide +kernel)).2.2 (by decide +kernel)⟩,
   ⟨_, ((H _ 1 _ (linked live) _ _ _ _ (by decide +kernel) rfl (by decide +kernel) (Or.inr (by decide +kernel)) rfl
       rfl rfl rfl).2.2.2.1 (by decide +kernel)
       (by decide +kernel) _ (.tail _ (.tail _ (.tail _ (.head _)))) _ rfl).1 (Or.inl (by decide +kernel))⟩,
   ⟨_, ((H _ 1 _ (linked Link.init) _ _ _ _ (by decide +kernel) rfl (by decide +kernel) (Or.inr (by decide +kernel))
       rfl rfl rfl rfl).2.2.2.1 (by decide +kernel)
       (by decide +kernel) _ (.tail _ (.tail _ (.tail _ (.head _)))) _ rfl).1 (Or.inr (Or.inl (by decide +kernel)))⟩,
   ⟨_, ((H _ 1 _ (linked live) _ _ _ _ (by decide +kernel) rfl (by decide +kernel) (Or.inr (by decide +kernel)) rfl
       rfl rfl rfl).2.2.2.1 (by decide +kernel)
       (by decide +kernel) _ (.tail _ (.tail _ (.tail _ (.head _)))) _ rfl).1 (Or.inr (Or.inr ⟨(by decide +kernel), Or.inl
       (by decide +kernel)⟩))⟩,
   ⟨_, ((H _ 1 _ (linked { rekeyed none with joinAt := some 0 }) _ _ _ _ (by decide +kernel) rfl
       (by decide +kernel) (Or.inr (by decide +kernel)) rfl rfl rfl rfl).2.2.2.1 (by decide +kernel)
       (by decide +kernel) _ (.tail _ (.tail _ (.tail _ (.head _)))) _ rfl).1 (Or.inr (Or.inr ⟨(by decide +kernel), Or.inr
       (by decide +kernel)⟩))⟩,
   ⟨_, ((H _ 1 _ (linked (rekeyed (some 102))) _ _ _ _ (by decide +kernel) rfl (by decide +kernel) (Or.inr
       (by decide +kernel)) rfl rfl rfl rfl).2.2.2.1 (by decide +kernel)
       (by decide +kernel) _ (.tail _ (.tail _ (.tail _ (.head _)))) _ rfl).2.1
       (by decide +kernel) (firstChecks_own _ 5 _ _ rfl (by decide +kernel) (by decide +kernel) (by decide +kernel)
       (by decide +kernel) (by decide +kernel)) (by decide +kernel)⟩,
   ⟨_, ((H _ 1 _ (linked (rekeyed none)) _ _ _ _ (by decide +kernel) rfl (by decide +kernel) (Or.inr
       (by decide +kernel)) rfl rfl rfl rfl).2.2.2.1 (by decide +kernel)
       (by decide +kernel) _ (.tail _ (.tail _ (.tail _ (.head _)))) _ rfl).2.2 _ _
       (by decide +kernel) (firstChecks_own _ 5 _ _ rfl (by decide +kernel) (by decide +kernel) (by decide +kernel)
       (by decide +kernel) (by decide +kernel)) (by decide +kernel) rfl rfl rfl rfl⟩,
   ((H (frame 0x44 0 0 64 0 (List.replicate 40 0)) 1 _ (linked live) _ _ _ _ (by decide +kernel) rfl
       (by decide +kernel) (Or.inr (by decide +kernel)) rfl rfl rfl rfl).2.2.2.2 (linked Link.init) 1 1 _ _ rfl rfl).1
       (by decide +kernel),
   (((H (frame 0x44 0 0 64 0 (List.replicate 40 0)) 1 _ (linked live) _ _ _ _ (by decide +kernel) rfl (by decide +kernel) (Or.inr (by decide +kernel)) rfl rfl rfl rfl).2.2.2.2 (linked { live with sess := .keyed, joinAt := some 0 }) 1 1 _ _ rfl rfl).2 (firstChecks_own _ 5 _ _ rfl (by decide +kernel) (by decide +kernel) (by decide +kernel) (by decide +kernel) (by decide +kernel))).1 _ rfl (by decide +kernel) (by decide +kernel),
   (((H (frame 0x44 0 0 64 0 (List.replicate 40 0)) 1 _ (linked live) _ _ _ _ (by decide +kernel) rfl (by decide +kernel) (Or.inr (by decide +kernel)) rfl rfl rfl rfl).2.2.2.2 (linked { live with sess := .keyed }) 1 1 _ _ rfl rfl).2 (firstChecks_own _ 5 _ _ rfl (by decide +kernel) (by decide +kernel) (by decide +kernel) (by decide +kernel) (by decide +kernel))).2.1 (fun t e => absurd (e.symm.trans (by decide +kernel)) (Option.some_ne_none t)) (by decide +kernel),
   (((H (frame 0x44 0 1 64 102 (List.replicate 40 0)) 1 _ (linked live) _ _ _ _ (by decide +kernel) rfl (by decide +kernel) (Or.inr (by decide +kernel)) rfl rfl rfl rfl).2.2.2.2 (linked (rekeyed (some 102))) 1 1 _ _ rfl rfl).2 (firstChecks_own _ 5 _ _ rfl (by decide +kernel) (by decide +kernel) (by decide +kernel) (by decide +kernel) (by decide +kernel))).2.2.1 (fun t e => absurd (e.symm.trans (by decide +kernel)) (Option.some_ne_none t)) (by decide +kernel),
   (((H (frame 0x44 0 1 64 100 (List.replicate 40 0)) 1 _ (linked live) _ _ _ _ (by decide +kernel) rfl (by decide +kernel) (Or.inr (by decide +kernel)) rfl rfl rfl rfl).2.2.2.2 (linked live) 1 1 _ _ rfl rfl).2 (firstChecks_own _ 5 _ _ rfl (by decide +kernel) (by decide +kernel) (by decide +kernel) (by decide +kernel) (by decide +kernel))).2.2.2 (by decide +kernel) (by decide +kernel) (by decide +kernel) (by decide +kernel)⟩

def epoch0 : Epoch := { time := 0, systems := [], obs := [], firstAt := 0, lastAt := 0, closedAt := 0, isPartial := false, future := false }

/-- READY with channel 1023 as given. -/
def tuned (x : Channel) : State := { hot with gnss := { Gnss.init 32 with channels := [(1023, x)] } }

/-- READY with rover 127 as given, and base data of epoch 0. -/
def roving (arp : Option Arp) (clusters : List (Option Nat)) (x : Rover) : State := { hot with
  gnss := { Gnss.init 32 with arp := arp }
  rse := { Rse.init 96 with arp := arp, bases := [{ time := 0, recs := [] }], clusters := clusters, rovers := [(127, x)] } }

def arp0 : Option Arp := some { x := 0, y := 0, z := 0, sigma := 0, surveyed := false }

/-- What epoch 0 finds at the base. -/
def use0 : BaseUse := { interp := false, age := 0, base := 0, recs := [] }

/-- A navigation unit of 20:1, and a channel that tracks its signal with the polarity known since a time. -/
def unit0 : NavUnit :=
  { sig := 20, svid := 1, k := 0, unit := 13, check := 0, corrected := 0, tFirst := 5, words := [], store := false, utc := none, isb := none }

def chan0 (t : Option Nat) : Channel := { Channel.init with state := .track, sig := 20, svid := 1, polarityAt := t }

def burst0 : Burst := { next := 0, nextAt := 0, entries := [], stopTime := 0, cause := 0, tick := 0 }

def rekey0 (acked : Bool) : Rekey := { since := 0, newKey := none, newEpoch := 0, joinSeq := none, acked := acked }

/-- A commit in progress of a staged graph, asked for by a command or begun at boot. -/
def committing (q : Option Req) (g : Graph) : State := { fleet with track := { fleet.track with
  staged := g, commit := some { req := q, clearance := 300, startUp := 0, computed := none, duration := 0 } } }

/-- 257 slivers that all lie on one another. -/
def crowded : Graph := { graph with slivers := (List.range 257).map (fun n =>
  (n, { start := 0, end_ := 1, radius := 0, width := 4000, vmax := 1000, dir := 0, classMask := 255 })) }

/-- A round that runs. -/
def rounding (commit : Bool) : State := { fleet with task := { Task.init with
  run := some { req := none, commit := commit, startUp := 0, result := round1 } } }
/-- Robot 0, victim of a deadlock, after a profile for which the slivers are too narrow was written. -/
def askedWide : State := { fleet with track := { fleet.track with
  rerouteAsked := [0]
  robots := [(0, { getTr fleet 0 with profSet := { RobotProfile.init with halfWidth := 2000 } })] } }
theorem witness_ReceiverRowsRun (H : Obligations.ReceiverRowsRun) :
    Completes (exec (.gnssMsTick [] []) hot) ∧
    Completes (exec (.notchSearch []) hot) ∧
    Completes (exec (.channelAssign []) hot) ∧
    Completes (exec (.pvtSolution 0) hot) ∧
    Completes (exec (.measEpoch []) hot) ∧
    Completes (exec (.acqSearchDone 1023 5 6000000 8000000) (tuned { Channel.init with state := .acq })) ∧
    Completes (exec (.acqTimeout 1023) (tuned { Channel.init with state := .reacq })) ∧
    Completes (exec (.biasFault true true 180 5 10000000) hot) ∧
    Completes (exec (.biasFault false false 3 5 1) hot) ∧
    Completes (exec (.biasFault false false 2 5 1000000000) hot) ∧
    Completes (exec (.biasRetry true 180 5) { hot with gnss := { Gnss.init 32 with antennas := [Antenna.init, { Antenna.init with retryAt := some 5 }] } }) ∧
    Completes (exec (.navUnitDecoded unit0 1) (tuned (chan0 (some 5)))) ∧
    Completes (exec (.navUnitDecoded unit0 1) (tuned (chan0 none))) ∧
    Completes (exec (.navUnitDecoded unit0 1) (tuned (chan0 (some 6)))) ∧
    Completes (exec (.uartCByteSent 1 1) { hot with corr := { Corr.init with streams := [(1, { Stream.init 1 with fifo := [7] })] } }) :=
  ⟨⟨_, (H 0 hot).1 _ _ _ rfl (by decide +kernel) (by decide +kernel)⟩,
   ⟨_, (H 0 hot).2.1 _ _ rfl (by decide +kernel) (by decide +kernel)⟩,
   ⟨_, (H 0 hot).2.2.1 _ _ rfl (by decide +kernel) (by decide +kernel)⟩,
   ⟨_, (H 0 hot).2.2.2.1 _ rfl (by decide +kernel) (by decide +kernel)⟩,
   ⟨_, (H 0 hot).2.2.2.2.1 _ _ rfl (by decide +kernel) (by decide +kernel)⟩,
   ⟨_, (H 8000000 (tuned { Channel.init with state := .acq })).2.2.2.2.2.1 _ _ _ _ (by decide +kernel) rfl
       (by decide +kernel) (by decide +kernel) (by decide +kernel) (by decide +kernel)⟩,
   ⟨_, (H 0 (tuned { Channel.init with state := .reacq })).2.2.2.2.2.2.1 _ _ (by decide +kernel) rfl
       (by decide +kernel) (Or.inr (by decide +kernel))⟩,
   ⟨_, ((H 10000000 hot).2.2.2.2.2.2.2.1 _ _ _ _ _ _ (by decide +kernel) rfl rfl (by decide +kernel)
       (by decide +kernel) (by decide +kernel)).1 rfl (by decide +kernel)⟩,
   ⟨_, ((H 1 hot).2.2.2.2.2.2.2.1 _ _ _ _ _ _ (by decide +kernel) rfl rfl (by decide +kernel) (by decide +kernel)
       (by decide +kernel)).2 rfl (Or.inl ⟨(by decide +kernel), (by decide +kernel)⟩)⟩,
   ⟨_, ((H 1000000000 hot).2.2.2.2.2.2.2.1 _ _ _ _ _ _ (by decide +kernel) rfl rfl (by decide +kernel)
       (by decide +kernel) (by decide +kernel)).2 rfl (Or.inr (by decide +kernel))⟩,
   ⟨_,
       (H 1 { hot with gnss := { Gnss.init 32 with antennas := [Antenna.init, { Antenna.init with retryAt := some 5 }] } }).2.2.2.2.2.2.2.2.1 _ _ _ _ _
       (by decide +kernel) rfl rfl⟩,
   ⟨_, ((H 1 (tuned (chan0 (some 5)))).2.2.2.2.2.2.2.2.2.1 _ _ _ _ (by decide +kernel) rfl (by decide +kernel)
       rfl rfl).1 5 rfl (by decide +kernel)⟩,
   ⟨_, ((H 1 (tuned (chan0 none))).2.2.2.2.2.2.2.2.2.1 _ _ _ _ (by decide +kernel) rfl (by decide +kernel)
       rfl rfl).2 (Or.inl rfl)⟩,
   ⟨_, ((H 1 (tuned (chan0 (some 6)))).2.2.2.2.2.2.2.2.2.1 _ _ _ _ (by decide +kernel) rfl (by decide +kernel)
       rfl rfl).2 (Or.inr ⟨6, rfl, (by decide +kernel)⟩)⟩,
   ⟨_,
       (H 1 { hot with corr := { Corr.init with streams := [(1, { Stream.init 1 with fifo := [7] })] } }).2.2.2.2.2.2.2.2.2.2 _ _ _ _ _
       (by decide +kernel) rfl rfl rfl (by decide +kernel)⟩⟩

theorem witness_LinkTimersRun (H : Obligations.LinkTimersRun) :
    Completes (exec (.sessionTimeout 0) (linked live)) ∧
    Completes (exec (.rekeyDue 0 86400000000000) (linked live)) ∧
    Completes (exec (.rekeyAbandon 0) (linked { live with rekey := some (rekey0 false) })) ∧
    Completes (exec (.rekeyAbandon 0) (linked { live with rekey := some (rekey0 true) })) ∧
    Completes (exec (.stopBurstFrame none) { hot with stop := { Stop.init with burst := some burst0 } }) ∧
    Completes (exec (.stopBurstFrame (some 127)) { hot with stop := { Stop.init with robots := [(127, { inForce := true, controlled := false, immediate := true, cause := 5, deadline := 0, burst := some burst0 })] } }) ∧
    Completes (exec (.epochWaitExpire 127) (roving none [] { Rover.init with open_ := some epoch0 })) ∧
    Completes (exec (.roverSolveStart 1) (roving none [none, none, none, none] { Rover.init with ready := [epoch0] })) ∧
    Completes (exec (.roverSolveStart 1) (roving arp0 [some 1, some 2, some 3, none] { Rover.init with ready := [epoch0] })) ∧
    Completes (exec (.roverSolveStart 1) (roving arp0 [some 1, some 2, some 3, some 4] { Rover.init with ready := [epoch0] })) ∧
    Completes (exec (.roverFixPublish 3 1) (roving arp0 [none, none, none, some 127] { Rover.init with solving := some (epoch0, use0) })) :=
  ⟨⟨_, (H 0 1 (linked live) _ (by decide +kernel) rfl).1 (by decide +kernel) (Or.inl (by decide +kernel))⟩,
   ⟨_, (H 0 86400000000000 (linked live) _ (by decide +kernel) rfl).2.1 _ rfl (by decide +kernel) (by decide +kernel)
       (by decide +kernel) (by decide +kernel) (by decide +kernel)⟩,
   ⟨_, (H 0 1 (linked { live with rekey := some (rekey0 false) }) _ (by decide +kernel) rfl).2.2.1 _ _
       (by decide +kernel) rfl (by decide +kernel) rfl⟩,
   ⟨_, (H 0 1 (linked { live with rekey := some (rekey0 true) }) _ (by decide +kernel) rfl).2.2.2.1 _ rfl
       (by decide +kernel)⟩,
   ⟨_, (H 0 1 { hot with stop := { Stop.init with burst := some burst0 } } _ (by decide +kernel) rfl).2.2.2.2.1 _
       (by decide +kernel) rfl⟩,
   ⟨_,
       (H 127 1 { hot with stop := { Stop.init with robots := [(127, { inForce := true, controlled := false, immediate := true, cause := 5, deadline := 0, burst := some burst0 })] } } _
       (by decide +kernel) rfl).2.2.2.2.2.1 _ _ (by decide +kernel) rfl rfl⟩,
   ⟨_, (H 127 1 (roving none [] { Rover.init with open_ := some epoch0 }) _ (by decide +kernel) rfl).2.2.2.2.2.2.1 _
       (by decide +kernel) rfl⟩,
   ⟨_, ((H 127 1 (roving none [none, none, none, none] { Rover.init with ready := [epoch0] }) _
       (by decide +kernel) rfl).2.2.2.2.2.2.2.1 _ _ _ _ _ _ _ (by decide +kernel) rfl rfl rfl rfl rfl).1 _ rfl⟩,
   ⟨_, ((H 127 1 (roving arp0 [some 1, some 2, some 3, none] { Rover.init with ready := [epoch0] }) _
       (by decide +kernel) rfl).2.2.2.2.2.2.2.1 _ _ _ _ _ _ _ (by decide +kernel) rfl rfl rfl rfl rfl).2.1 _ use0
       (by decide +kernel) (by decide +kernel) rfl⟩,
   ⟨_, ((H 127 1 (roving arp0 [some 1, some 2, some 3, some 4] { Rover.init with ready := [epoch0] }) _
       (by decide +kernel) rfl).2.2.2.2.2.2.2.1 _ _ _ _ _ _ _ (by decide +kernel) rfl rfl rfl rfl rfl).2.2
       (by decide +kernel) (by decide +kernel)⟩,
   ⟨_, (H 127 1 (roving arp0 [none, none, none, some 127] { Rover.init with solving := some (epoch0, use0) }) _
       (by decide +kernel) rfl).2.2.2.2.2.2.2.2 _ _ _ _ _ (by decide +kernel) rfl rfl rfl⟩⟩

theorem witness_FleetWorkRuns (H : Obligations.FleetWorkRuns) :
    Completes (exec (.commitComputeDone 1) (committing none graph)) ∧
    Completes (exec (.commitComputeDone 1) (committing (some nop15) { graph with nodes := [] })) ∧
    Completes (exec (.commitComputeDone 1) (committing (some nop15) crowded)) ∧
    Completes (exec (.commitComputeDone 1) (committing (some nop15) graph)) ∧
    Completes (exec (.rerouteResult 1 0 1) { fleet with track := { fleet.track with rerouteAsked := [1] } }) ∧
    Completes (exec (.rerouteResult 0 0 1) { fleet with track := { fleet.track with rerouteAsked := [0] } }) ∧
    Completes (exec (.rerouteResult 0 0 1) askedWide) ∧
    Completes (exec (.allotPeriod) (beat { Tick.init with nextAt := 1000000000 })) ∧
    Completes (exec (.allotRoundEnd 1) (rounding true)) ∧
    Completes (exec (.allotRoundEnd 1) (rounding false)) ∧
    Completes (exec (.proposalLapse) tasked) ∧
    Completes (exec (.taskServiceElapsed 127) { fleet with task := { Task.init with serviceUntil := [(127, 5)] } }) ∧
    Completes (exec (.contactQualified 256 15 [true, false] 1) fleet) ∧
    Completes (exec (.contactQualified 127 15 [true] 1) fleet) :=
  ⟨⟨_, ((H 0 1 (committing none graph) _ (by decide +kernel) rfl).1 _ (by decide +kernel) rfl rfl).1 rfl⟩,
   ⟨_, (((H 0 1 (committing (some nop15) { graph with nodes := [] }) _ (by decide +kernel) rfl).1 _
       (by decide +kernel) rfl rfl).2 _ _ _ graph rfl rfl rfl).1 _ _ _ rfl⟩,
   ⟨_, ((((H 0 1 (committing (some nop15) crowded) _ (by decide +kernel) rfl).1 _ (by decide +kernel)
       rfl rfl).2 _ _ _ _ rfl rfl rfl).2 (by decide +kernel) rfl).1 (0, List.range 257) (by decide +kernel)⟩,
   ⟨_, ((((H 0 1 (committing (some nop15) graph) _ (by decide +kernel) rfl).1 _ (by decide +kernel) rfl rfl).2 _ _ _ _
       rfl rfl rfl).2 (by decide +kernel) rfl).2 (by decide +kernel)⟩,
   ⟨_, ((H 1 1 { fleet with track := { fleet.track with rerouteAsked := [1] } } _ (by decide +kernel) rfl).2.1 _ _
       (by decide +kernel) (by decide +kernel) rfl rfl).1 (by decide +kernel)⟩,
   ⟨_, (((H 0 1 { fleet with track := { fleet.track with rerouteAsked := [0] } } _ (by decide +kernel) rfl).2.1 _ _
       (by decide +kernel) (by decide +kernel) rfl rfl).2 road (by decide +kernel)).2 (by decide +kernel)⟩,
   ⟨_, (((H 0 1 askedWide _ (by decide +kernel) rfl).2.1 _ _ (by decide +kernel) (by decide +kernel) rfl rfl).2 road
       (by decide +kernel)).1 (by decide +kernel)⟩,
   ⟨_, (H 0 1 (beat { Tick.init with nextAt := 1000000000 }) _ (by decide +kernel) rfl).2.2.1 _ _ _ rfl rfl
       (by decide +kernel) (by decide +kernel) (by decide +kernel) rfl⟩,
   ⟨_, ((H 0 1 (rounding true) _ (by decide +kernel) rfl).2.2.2.1 _ _ _ (by decide +kernel) (by decide +kernel) rfl
       rfl rfl).1 (by decide +kernel) (by decide +kernel)⟩,
   ⟨_, ((H 0 1 (rounding false) _ (by decide +kernel) rfl).2.2.2.1 _ _ _ (by decide +kernel) (by decide +kernel) rfl
       rfl rfl).2 (Or.inl (by decide +kernel))⟩,
   ⟨_, (H 0 1 tasked _ (by decide +kernel) rfl).2.2.2.2.1 _ (by decide +kernel) rfl⟩,
   ⟨_, (H 127 1 { fleet with task := { Task.init with serviceUntil := [(127, 5)] } } _
       (by decide +kernel) rfl).2.2.2.2.2.1 _ _ (by decide +kernel) rfl (by decide +kernel) rfl⟩,
   ⟨_, (H 0 1 fleet _ (by decide +kernel) rfl).2.2.2.2.2.2 _ _ _ _ _ _ rfl (by decide +kernel)
       (by decide +kernel) (Or.inl ⟨rfl, rfl⟩) rfl⟩,
   ⟨_, (H 127 1 fleet _ (by decide +kernel) rfl).2.2.2.2.2.2 _ _ _ _ _ _ rfl (by decide +kernel)
       (by decide +kernel) (Or.inr ⟨rfl, (by decide +kernel), rfl⟩) rfl⟩⟩

/-- READY with the stop block as given. -/
def stopped (x : Stop) : State := { hot with stop := x }

def proof0 (left results : List Nat) : ProofRun :=
  { req := none, left := left, results := results, latX := 0, latY := 0, failInput := 0, tick := none }

/-- READY with port 0 (RH) and port 8 (BH) up. -/
def wired : State := { hot with net := { Net.init 0 with loaded := true, ifaces := [(0, { Iface.init 0 with v4 := 5, v4Len := 24 })], ports :=
  [(0, { Port.init 0 with link := true, cfg := { PortCfg.init 0 with learn := false, mdioEn := true, mode := 1 } }),
   (1, { Port.init 1 with link := true, queue := [{ prio := 0, len := 64, reserve := false, own := none, fwd := none, tc := none, ready := 0, headAt := 0 }] })] } }

/-- An untagged frame at port 0. -/
def eth (len : Nat) (fcsOk : Bool) (kind : FrameKind) : EthFrame :=
  { port := 0, dst := 0xFFFFFFFFFFFF, src := 2, tag := none, etherType := 0x0806, len := len, fcsOk := fcsOk, ip := none, kind := kind }
/-- The guard of tick 5, in which a proof test runs its next part. -/
def guard2 (p : ProofRun) : State := { hot with
  tick := { Tick.init with running := true, number := 5, deadline := 7, nextAt := 10 }, stop := { Stop.init with proof := some p } }
theorem witness_StopRowsRun (H : Obligations.StopRowsRun) :
    Completes (exec (.estopPadChange true false 1) (stopped Stop.init)) ∧
    Completes (exec (.estopPadChange false false 1) (stopped Stop.init)) ∧
    Completes (exec (.discTimeout) (stopped { Stop.init with disagreeSince := some 5 })) ∧
    Completes (exec (.discrepancyClear) (stopped { Stop.init with bothStopSince := some 5, discrepancy := true })) ∧
    Completes (exec (.partnerStopSymbol 1) { hot with pair := { Pair.init with en := true, role := .active } }) ∧
    Completes (exec (.internalFault 7 true 1) hot) ∧
    Completes (exec (.internalFault 0 false 1) hot) ∧
    Completes (exec (.ctrlLimitExpire) (stopped { Stop.init with controlled := true })) ∧
    Completes (exec (.robotCtrlLimitExpire 127) (stopped { Stop.init with robots := [(127, { inForce := false, controlled := true, immediate := false, cause := 5, deadline := 5, burst := none })] })) ∧
    Completes (exec (.resetInputEdge 1) { hot with pair := { Pair.init with en := true, role := .standby } }) ∧
    Completes (exec (.resetInputEdge 1) (quiet 1)) ∧
    Completes (exec (.resetInputEdge 1) (quiet 2)) ∧
    Completes (exec (.resetArmTimeout) (stopped { Stop.init with armed := [(nop15, 5)] })) ∧
    Completes (exec (.proofTestPart 0 true 12 0) (stopped { Stop.init with proof := some (proof0 [0, 1] [0, 0, 0]) })) ∧
    Completes (exec (.proofTestPart 2 true 4000 0) (stopped { Stop.init with proof := some (proof0 [2] [1, 1, 0]) })) ∧
    Completes (exec (.proofTestPart 1 false 5 7) (stopped { Stop.init with proof := some (proof0 [1, 2] [1, 0, 0]) })) ∧
    Completes (exec (.proofTestPart 1 true 13 7) (guard2 (proof0 [1, 2] [1, 0, 0]))) ∧
    Completes (exec (.proofIntervalDue) hot) :=
  ⟨⟨_, (H 0 1 (stopped Stop.init) _ (by decide +kernel) rfl).1 true false _ (by decide +kernel) rfl⟩,
   ⟨_, (H 0 1 (stopped Stop.init) _ (by decide +kernel) rfl).1 false false _ (by decide +kernel) rfl⟩,
   ⟨_, (H 0 1 (stopped { Stop.init with disagreeSince := some 5 }) _ (by decide +kernel) rfl).2.1 _
       (by decide +kernel) rfl (by decide +kernel)⟩,
   ⟨_, (H 0 1 (stopped { Stop.init with bothStopSince := some 5, discrepancy := true }) _
       (by decide +kernel) rfl).2.2.1 _ (by decide +kernel) rfl (by decide +kernel)⟩,
   ⟨_, (H 0 1 { hot with pair := { Pair.init with en := true, role := .active } } _ (by decide +kernel) rfl).2.2.2.1
       (by decide +kernel) (by decide +kernel) (by decide +kernel)⟩,
   ⟨_, ((H 0 1 hot _ (by decide +kernel) rfl).2.2.2.2.1 7 (by decide +kernel) (by decide +kernel)).1⟩,
   ⟨_, ((H 0 1 hot _ (by decide +kernel) rfl).2.2.2.2.1 0 (by decide +kernel) (by decide +kernel)).2⟩,
   ⟨_, (H 0 1 (stopped { Stop.init with controlled := true }) _ (by decide +kernel) rfl).2.2.2.2.2.1 _
       (by decide +kernel) (by decide +kernel) rfl⟩,
   ⟨_,
       (H 127 1 (stopped { Stop.init with robots := [(127, { inForce := false, controlled := true, immediate := false, cause := 5, deadline := 5, burst := none })] }) _
       (by decide +kernel) rfl).2.2.2.2.2.2.1 _ (by decide +kernel) rfl (by decide +kernel)⟩,
   ⟨_, (H 0 1 { hot with pair := { Pair.init with en := true, role := .standby } } _
       (by decide +kernel) rfl).2.2.2.2.2.2.2.1 (by decide +kernel) (by decide +kernel)⟩,
   ⟨_, (H 0 1 (quiet 1) _ (by decide +kernel) rfl).2.2.2.2.2.2.2.2.1 (by decide +kernel) (by decide +kernel)
       (by decide +kernel)⟩,
   ⟨_, (H 0 1 (quiet 2) _ (by decide +kernel) rfl).2.2.2.2.2.2.2.2.2.1 (by decide +kernel) (by decide +kernel)
       (by decide +kernel)⟩,
   ⟨_, (H 0 1 (stopped { Stop.init with armed := [(nop15, 5)] }) _
       (by decide +kernel) rfl).2.2.2.2.2.2.2.2.2.2.1 _ _ _ _ (by decide +kernel) rfl rfl⟩,
   ⟨_, (((H 0 0 (stopped { Stop.init with proof := some (proof0 [0, 1] [0, 0, 0]) }) _
       (by decide +kernel) rfl).2.2.2.2.2.2.2.2.2.2.2.1 0 12 0 true _ _ _ _ (by decide +kernel) rfl
       (by decide +kernel) rfl rfl (by decide +kernel)).1 rfl (by decide +kernel) rfl).1 (by decide +kernel)⟩,
   ⟨_, (((H 0 0 (stopped { Stop.init with proof := some (proof0 [2] [1, 1, 0]) }) _
       (by decide +kernel) rfl).2.2.2.2.2.2.2.2.2.2.2.1 2 4000 0 true _ _ _ _ (by decide +kernel) rfl
       (by decide +kernel) rfl rfl (by decide +kernel)).1 rfl (by decide +kernel) rfl).2 rfl (by decide +kernel)⟩,
   ⟨_, ((H 0 0 (stopped { Stop.init with proof := some (proof0 [1, 2] [1, 0, 0]) }) _
       (by decide +kernel) rfl).2.2.2.2.2.2.2.2.2.2.2.1 1 5 7 false _ _ _ _ (by decide +kernel) rfl
       (by decide +kernel) rfl rfl (by decide +kernel)).2 (Or.inl rfl) rfl (by decide +kernel)⟩,
   ⟨_, ((H 0 0 (guard2 (proof0 [1, 2] [1, 0, 0])) _
       (by decide +kernel) rfl).2.2.2.2.2.2.2.2.2.2.2.1 1 13 7 true _ _ _ _ (by decide +kernel) rfl
       (by decide +kernel) rfl rfl (by decide +kernel)).2 (Or.inr (by decide +kernel)) rfl (by decide +kernel)⟩,
   ⟨_, (H 0 1 hot _ (by decide +kernel) rfl).2.2.2.2.2.2.2.2.2.2.2.2 (by decide +kernel) (by decide +kernel)
       (by decide +kernel) (by decide +kernel)⟩⟩

theorem witness_SwitchRowsRun (H : Obligations.SwitchRowsRun) :
    Completes (exec (.ethFrameRx (eth 64 true .other) 1) hot) ∧
    Completes (exec (.ethFrameRx (eth 64 false .other) 1) wired) ∧
    Completes (exec (.ethFrameRx (eth 1523 true .other) 1) wired) ∧
    Completes (exec (.ethFrameRx (eth 64 true (.arpRequest 5)) 1) wired) ∧
    Completes (exec (.ethFrameRx (eth 64 true .other) 1) wired) ∧
    Completes (exec (.ageScan 1) wired) ∧
    Completes (exec (.linkPoll [(0, some 2)] 1) wired) ∧
    Completes (exec (.linkPoll [(0, none)] 1) wired) ∧
    Completes (exec (.portLinkChange 8 true 2 1) wired) ∧
    Completes (exec (.portLinkChange 8 false 2 1) wired) ∧
    Completes (exec (.egressFrameSent 1 1) wired) :=
  ⟨⟨_, ((H 1 hot _ rfl (by decide +kernel)).1 _ (by decide +kernel) (by decide +kernel)).1 (by decide +kernel)⟩,
   ⟨_, (((H 1 wired _ rfl (by decide +kernel)).1 _ (by decide +kernel) (by decide +kernel)).2 _
       (by decide +kernel) rfl).1 (by decide +kernel)⟩,
   ⟨_, (((H 1 wired _ rfl (by decide +kernel)).1 _ (by decide +kernel) (by decide +kernel)).2 _
       (by decide +kernel) rfl).2.1 (by decide +kernel) (by decide +kernel)⟩,
   ⟨_, ((((H 1 wired _ rfl (by decide +kernel)).1 _ (by decide +kernel) (by decide +kernel)).2 _
       (by decide +kernel) rfl).2.2 _ _ (by decide +kernel) (by decide +kernel) (by decide +kernel) rfl rfl
       (by decide +kernel)).1 _ rfl⟩,
   ⟨_, ((((H 1 wired _ rfl (by decide +kernel)).1 _ (by decide +kernel) (by decide +kernel)).2 _
       (by decide +kernel) rfl).2.2 _ _ (by decide +kernel) (by decide +kernel) (by decide +kernel) rfl rfl
       (by decide +kernel)).2 (by decide +kernel)⟩,
   ⟨_, (H 1 wired _ rfl (by decide +kernel)).2.1⟩,
   ⟨_, (H 1 wired _ rfl (by decide +kernel)).2.2.1 0 2 (by decide +kernel) (by decide +kernel) (by decide +kernel)
       (by decide +kernel)⟩,
   ⟨_, (H 1 wired _ rfl (by decide +kernel)).2.2.2.1 0 (by decide +kernel) (by decide +kernel) (by decide +kernel)
       (by decide +kernel)⟩,
   ⟨_, ((H 1 wired _ rfl (by decide +kernel)).2.2.2.2.1 8 2 (by decide +kernel) (by decide +kernel)
       (by decide +kernel) (by decide +kernel) (by decide +kernel)).1⟩,
   ⟨_, ((H 1 wired _ rfl (by decide +kernel)).2.2.2.2.1 8 2 (by decide +kernel) (by decide +kernel)
       (by decide +kernel) (by decide +kernel) (by decide +kernel)).2⟩,
   ⟨_, (H 1 wired _ rfl (by decide +kernel)).2.2.2.2.2 1 _ _ (by decide +kernel) (by decide +kernel) rfl⟩⟩

/-- READY with the timebase as given. -/
def timed (x : Timebase) : State := { hot with time := x }

/-- The PPS source in use. -/
def pulsed (x : Timebase) (todRef : Bool) : State :=
  { hot with time := { x with pps := { PpsCfg.init with inEn := true, todRef := todRef } } }

def held4 (q : Option Nat) : Source := { Source.init with heldSince := some 0, qualAt := q }

def master0 : Master :=
  { port := 9, identity := 5, prio1 := 0, clockClass := 6, accuracy := 0, variance := 0, prio2 := 0, steps := 0, heardAt := 0 }

def ptpM (port domain kind : Nat) : PtpMsg :=
  { port := port, domain := domain, kind := kind, identity := 5, seq := 0, master := master0, theta := 0, mpd := 0 }

/-- A time-of-day sentence of the module's own format, or a ZDA sentence. -/
def tod (zda locked : Bool) : TodText := { zda := zda, seconds := 7, offset := 37, locked := locked, checksumOk := true }

def staged0 : Staged := { code := 1, host := false, timeRaw := false, payload := [] }

/-- READY with the recorder as given. -/
def recording (x : Recorder) : State := { hot with rec_ := x }

/-- The writing of a record that began at power-on. -/
def wr0 (audit overflow : Bool) : Writing := { audit := audit, overflow := overflow, entry := staged0, since := 0 }

/-- READY with the pair unit as given. -/
def paired (x : Pair) : State := { hot with sys := { hot.sys with everReady := true }, pair := x }

/-- A mirror record of a format. -/
def mirror0 (major : Nat) : MirrorData :=
  { up := 0, shared := sharedOf hot, tick := Tick.init, stop := Stop.init, gov := Gov.init, spin := Spin.init, track := Track.init, task := Task.init, uz := Uz.init,
    execs := [], jobs := [], rse := Rse.init 96, major := major, minor := 0, bytes := 0, digestsMatch := true, handOver := false }

theorem readable_own (s : State) (m : MirrorData) (h : m.major = Config.mirrorMajor (runBank s).payload) (h2 : m.minor = 0) :
    readable s m = true := by simp [readable, h, h2]

theorem readable_other (s : State) (m : MirrorData) (h : m.major = Config.mirrorMajor (runBank s).payload + 1) :
    readable s m = false := by simp [readable, h]

/-- The same where the partner may not write the core-data region. -/
def barred (x : Pair) : State := { paired x with acl := [(0x1011, [])] }

def standby0 : Pair := { Pair.init with en := true, role := .standby, laneUp := true }
theorem witness_TimeRowsRun (H : Obligations.TimeRowsRun) :
    Completes (exec (.servoSecond 5) hot) ∧
    Completes (exec (.sourceQualify 4 5 10000000000) (timed { Timebase.init with sources := [(4, held4 none)] })) ∧
    Completes (exec (.wtrExpire) (timed { Timebase.init with src := { SrcCfg.init with list := [4] }, sources := [(4, held4 (some 0))] })) ∧
    Completes (exec (.sourceLost 5 1) hot) ∧
    Completes (exec (.asymHoldExpire) (timed { Timebase.init with asymSuspect := true })) ∧
    Completes (exec (.asymEstimateSettled) (timed { Timebase.init with asymSuspect := true, asymHist := List.replicate 60 9 })) ∧
    Completes (exec (.timeNormalEntry 5) (timed { Timebase.init with selected := 1 })) ∧
    Completes (exec (.bootWaitExpire) hot) ∧
    Completes (exec (.extRefLoss 1) { hot with ref := { ext := true, fallback := false, extPresent := true } }) ∧
    Completes (exec (.refSelect true) (timed { Timebase.init with refRetry := some 1 })) ∧
    Completes (exec (.ppsInEdge 1) (pulsed { Timebase.init with todSecond := some 7, ppsOpen := true } true)) ∧
    Completes (exec (.ppsInEdge 1000000000) (pulsed { Timebase.init with todSecond := some 7, ppsOpen := true, ppsEdgeAt := some 1000 } true)) ∧
    Completes (exec (.ppsInEdge 1) (pulsed { Timebase.init with todSecond := some 7, ppsOpen := true, sources := [(4, held4 (some 0))] } true)) ∧
    Completes (exec (.ppsInEdge 1) (pulsed { Timebase.init with todSecond := some 7 } true)) ∧
    Completes (exec (.ppsInEdge 1) (pulsed { Timebase.init with ppsOpen := true } false)) ∧
    Completes (exec (.ppsInEdge 1000000000) (pulsed { Timebase.init with ppsEdgeAt := some 0 } false)) ∧
    Completes (exec (.ppsInEdge 1) (pulsed { Timebase.init with sources := [(4, held4 (some 0))] } false)) ∧
    Completes (exec (.ppsInEdge 1) (pulsed { Timebase.init with sources := [(4, held4 none)] } false)) ∧
    Completes (exec (.todSentence (tod false true) 1) (pulsed { Timebase.init with todSecond := some 6 } true)) ∧
    Completes (exec (.todSentence (tod false true) 1) (pulsed { Timebase.init with todSecond := some 5, sources := [(4, held4 (some 0))] } true)) ∧
    Completes (exec (.todSentence (tod false true) 1) (pulsed { Timebase.init with todSecond := some 6, ppsOpen := true, ppsEdgeAt := some 0 } false)) ∧
    Completes (exec (.todSentence (tod false false) 1) (pulsed Timebase.init true)) :=
  ⟨⟨_, (H 1 hot _ rfl).1 _ (by decide +kernel) (by decide +kernel)⟩,
   ⟨_, (H 10000000000 (timed { Timebase.init with sources := [(4, held4 none)] }) _ rfl).2.1 4 5 _ (by decide +kernel)
       (by decide +kernel) rfl (by decide +kernel) (by decide +kernel) (fun h => absurd h (by decide +kernel))⟩,
   ⟨_,
       (H 1 (timed { Timebase.init with src := { SrcCfg.init with list := [4] }, sources := [(4, held4 (some 0))] }) _ rfl).2.2.1 4 _
       (by decide +kernel) (by decide +kernel) (by decide +kernel) rfl (by decide +kernel)⟩,
   ⟨_, (H 1 hot _ rfl).2.2.2.1 5 (by decide +kernel) (by decide +kernel)⟩,
   ⟨_, (H 1 (timed { Timebase.init with asymSuspect := true }) _ rfl).2.2.2.2.1 (by decide +kernel)
       (by decide +kernel)⟩,
   ⟨_, (H 1 (timed { Timebase.init with asymSuspect := true, asymHist := List.replicate 60 9 }) _ rfl).2.2.2.2.2.1 _ _
       rfl (by decide +kernel) (by decide +kernel) (by decide +kernel) (by decide +kernel) rfl⟩,
   ⟨_, (H 1 (timed { Timebase.init with selected := 1 }) _ rfl).2.2.2.2.2.2.1 5 (by decide +kernel)
       (by decide +kernel) (by decide +kernel) (by decide +kernel)⟩,
   ⟨_, (H 1 hot _ rfl).2.2.2.2.2.2.2.1 (by decide +kernel) (by decide +kernel) (by decide +kernel) (by decide +kernel)
       (by decide +kernel)⟩,
   ⟨_, (H 1 { hot with ref := { ext := true, fallback := false, extPresent := true } } _ rfl).2.2.2.2.2.2.2.2.1
       (by decide +kernel) (by decide +kernel)⟩,
   ⟨_, (H 1 (timed { Timebase.init with refRetry := some 1 }) _ rfl).2.2.2.2.2.2.2.2.2.1 true _ (by decide +kernel)
       rfl (by decide +kernel)⟩,
   ⟨_, ((((H 1 (pulsed { Timebase.init with todSecond := some 7, ppsOpen := true } true) _ rfl).2.2.2.2.2.2.2.2.2.2.1 _ _
       (by decide +kernel) (by decide +kernel) rfl rfl).1 _ (by decide +kernel) rfl (by decide +kernel)).1 (Or.inr
       (by decide +kernel)))⟩,
   ⟨_, ((((H 1000000000 (pulsed { Timebase.init with todSecond := some 7, ppsOpen := true, ppsEdgeAt := some 1000 } true) _ rfl).2.2.2.2.2.2.2.2.2.2.1 _ _
       (by decide +kernel) (by decide +kernel) rfl rfl).1 _ (by decide +kernel) rfl (by decide +kernel)).1 (Or.inl
       (by decide +kernel)))⟩,
   ⟨_, ((((H 1 (pulsed { Timebase.init with todSecond := some 7, ppsOpen := true, sources := [(4, held4 (some 0))] } true) _ rfl).2.2.2.2.2.2.2.2.2.2.1 _ _
       (by decide +kernel) (by decide +kernel) rfl rfl).1 _ (by decide +kernel) rfl (by decide +kernel)).2
       (by decide +kernel) (by decide +kernel))⟩,
   ⟨_, ((H 1 (pulsed { Timebase.init with todSecond := some 7 } true) _ rfl).2.2.2.2.2.2.2.2.2.2.1 _ _
       (by decide +kernel) (by decide +kernel) rfl rfl).2.1 _ (by decide +kernel) rfl (by decide +kernel)⟩,
   ⟨_, ((H 1 (pulsed { Timebase.init with ppsOpen := true } false) _ rfl).2.2.2.2.2.2.2.2.2.2.1 _ _
       (by decide +kernel) (by decide +kernel) rfl rfl).2.2.1 (by decide +kernel) (by decide +kernel)⟩,
   ⟨_, (((H 1000000000 (pulsed { Timebase.init with ppsEdgeAt := some 0 } false) _ rfl).2.2.2.2.2.2.2.2.2.2.1 _ _
       (by decide +kernel) (by decide +kernel) rfl rfl).2.2.2 (by decide +kernel) (by decide +kernel)).1 (Or.inl
       (by decide +kernel))⟩,
   ⟨_, (((H 1 (pulsed { Timebase.init with sources := [(4, held4 (some 0))] } false) _ rfl).2.2.2.2.2.2.2.2.2.2.1 _ _
       (by decide +kernel) (by decide +kernel) rfl rfl).2.2.2 (by decide +kernel) (by decide +kernel)).1 (Or.inr
       (by decide +kernel))⟩,
   ⟨_, (((H 1 (pulsed { Timebase.init with sources := [(4, held4 none)] } false) _ rfl).2.2.2.2.2.2.2.2.2.2.1 _ _
       (by decide +kernel) (by decide +kernel) rfl rfl).2.2.2 (by decide +kernel) (by decide +kernel)).2
       (by decide +kernel) (by decide +kernel)⟩,
   ⟨_, ((H 1 (pulsed { Timebase.init with todSecond := some 6 } true) _ rfl).2.2.2.2.2.2.2.2.2.2.2.1 _ _ _ _ (by decide +kernel) (by decide +kernel) (by decide +kernel) (by decide +kernel) (Or.inr (by decide +kernel)) rfl rfl rfl).1 (by decide +kernel) (fun _ e => by cases e; rfl)⟩,
   ⟨_, ((H 1 (pulsed { Timebase.init with todSecond := some 5, sources := [(4, held4 (some 0))] } true) _ rfl).2.2.2.2.2.2.2.2.2.2.2.1 _ _ _ _
       (by decide +kernel) (by decide +kernel) (by decide +kernel) (by decide +kernel) (Or.inr (by decide +kernel))
       rfl rfl rfl).2.1 5 (by decide +kernel) rfl (by decide +kernel)⟩,
   ⟨_, ((H 1 (pulsed { Timebase.init with todSecond := some 6, ppsOpen := true, ppsEdgeAt := some 0 } false) _ rfl).2.2.2.2.2.2.2.2.2.2.2.1 _ _ _ _
       (by decide +kernel) (by decide +kernel) (by decide +kernel) (by decide +kernel) (Or.inr (by decide +kernel))
       rfl rfl rfl).2.2 _ _ (by decide +kernel) (by decide +kernel) rfl rfl⟩,
   ⟨_, (H 1 (pulsed Timebase.init true) _ rfl).2.2.2.2.2.2.2.2.2.2.2.2 _ (by decide +kernel) (by decide +kernel)
       (by decide +kernel) (by decide +kernel) (by decide +kernel) (by decide +kernel)⟩⟩

theorem witness_PtpRowsRun (H : Obligations.PtpRowsRun) :
    Completes (exec (.ptpMessageRx (ptpM 8 0 11) 1) hot) ∧
    Completes (exec (.ptpMessageRx (ptpM 8 0 0) 1) hot) ∧
    Completes (exec (.ptpMessageRx (ptpM 8 0 9) 1) hot) ∧
    Completes (exec (.ptpMessageRx (ptpM 7 20 1) 1) hot) ∧
    Completes (exec (.ptpMessageRx (ptpM 9 0 2) 1) (timed { Timebase.init with ptpPorts := [(9, { PtpPort.init 9 with delayMech := 1, oneStep := true })] })) ∧
    Completes (exec (.ptpMessageRx (ptpM 9 0 2) 1) (timed { Timebase.init with ptpPorts := [(9, { PtpPort.init 9 with tcMode := 2, oneStep := false })] })) ∧
    Completes (exec (.ptpMessageRx (ptpM 9 0 3) 1) hot) ∧
    Completes (exec (.ptpAnnounceTimeout 9 5) (timed { Timebase.init with masters := [master0] })) :=
  ⟨⟨_, ((H _ 1 hot _ _ (by decide +kernel) (by decide +kernel) rfl (by decide +kernel) rfl).1 (by decide +kernel)
      (by decide +kernel) (by decide +kernel)).1 (by decide +kernel)⟩,
   ⟨_, ((H _ 1 hot _ _ (by decide +kernel) (by decide +kernel) rfl (by decide +kernel) rfl).1 (by decide +kernel)
       (by decide +kernel) (by decide +kernel)).2.1 (by decide +kernel)⟩,
   ⟨_, ((H _ 1 hot _ _ (by decide +kernel) (by decide +kernel) rfl (by decide +kernel) rfl).1 (by decide +kernel)
       (by decide +kernel) (by decide +kernel)).2.2 (Or.inr (by decide +kernel))⟩,
   ⟨_, (H _ 1 hot _ _ (by decide +kernel) (by decide +kernel) rfl (by decide +kernel) rfl).2.1 (by decide +kernel)
       (by decide +kernel) (by decide +kernel) (by decide +kernel) (by decide +kernel)⟩,
   ⟨_, ((H _ 1 (timed { Timebase.init with ptpPorts := [(9, { PtpPort.init 9 with delayMech := 1, oneStep := true })] }) _ _
       (by decide +kernel) (by decide +kernel) rfl (by decide +kernel) rfl).2.2.1 _ (by decide +kernel) (Or.inl
       (by decide +kernel)) rfl).1 (by decide +kernel)⟩,
   ⟨_, ((H _ 1 (timed { Timebase.init with ptpPorts := [(9, { PtpPort.init 9 with tcMode := 2, oneStep := false })] }) _ _
       (by decide +kernel) (by decide +kernel) rfl (by decide +kernel) rfl).2.2.1 _ (by decide +kernel) (Or.inr
       (by decide +kernel)) rfl).2 (by decide +kernel)⟩,
   ⟨_, (H _ 1 hot _ _ (by decide +kernel) (by decide +kernel) rfl (by decide +kernel) rfl).2.2.2.1 (Or.inl
       (by decide +kernel))⟩,
   ⟨_, (H (ptpM 8 0 0) 1 (timed { Timebase.init with masters := [master0] }) _ _ (by decide +kernel)
       (by decide +kernel) rfl (by decide +kernel) rfl).2.2.2.2 9 5 _ (by decide +kernel) (by decide +kernel)
       (by decide +kernel) rfl⟩⟩

theorem witness_RecorderRowsRun (H : Obligations.RecorderRowsRun) :
    Completes (exec (.recordCommit 1) (recording { Recorder.init with writing := some (wr0 false false), summary := [staged0] })) ∧
    Completes (exec (.recordCommit 1) (recording { Recorder.init with writing := some (wr0 true false), lost := 1 })) ∧
    Completes (exec (.recordCommit 1) (recording { Recorder.init with writing := some (wr0 true false), audFifo := [staged0] })) ∧
    Completes (exec (.recordCommit 1) (recording { Recorder.init with writing := some (wr0 true false), audFifo := [staged0], lost := 1, lostAfter := 1 })) ∧
    Completes (exec (.recordCommit 1) (recording { Recorder.init with writing := some (wr0 true false), diagFifo := [staged0] })) ∧
    Completes (exec (.recordCommit 1) (recording { Recorder.init with writing := some (wr0 true false) })) ∧
    Completes (exec (.recordCommit 1) hot) ∧
    Completes (exec (.auditStageTimeout 1) (recording { Recorder.init with audWait := [(staged0, 0)] })) ∧
    Completes (exec (.auditStageTimeout 1) (recording { Recorder.init with audWait := [(staged0, 0)], lost := 1 })) ∧
    Completes (exec (.recSuppressSecond) (recording { Recorder.init with suppressed := [{ code := 1, cause := 0, count := 5 }] })) :=
  ⟨⟨_, ((H 1 (recording { Recorder.init with writing := some (wr0 false false), summary := [staged0] })).1 _ _ _
      (by decide +kernel) rfl rfl rfl).1 _ _ rfl⟩,
   ⟨_, (((H 1 (recording { Recorder.init with writing := some (wr0 true false), lost := 1 })).1 _ _ _
       (by decide +kernel) rfl rfl rfl).2 rfl).1 (by decide +kernel) rfl⟩,
   ⟨_, ((((H 1 (recording { Recorder.init with writing := some (wr0 true false), audFifo := [staged0] })).1 _ _ _
       (by decide +kernel) rfl rfl rfl).2 rfl).2 (Or.inl rfl)).1 _ _ rfl⟩,
   ⟨_, ((((H 1 (recording { Recorder.init with writing := some (wr0 true false), audFifo := [staged0], lost := 1, lostAfter := 1 })).1 _ _ _
       (by decide +kernel) rfl rfl rfl).2 rfl).2 (Or.inr (by decide +kernel))).1 _ _ rfl⟩,
   ⟨_, ((((H 1 (recording { Recorder.init with writing := some (wr0 true false), diagFifo := [staged0] })).1 _ _ _
       (by decide +kernel) rfl rfl rfl).2 rfl).2 (Or.inl rfl)).2.1 _ _ (by decide +kernel) rfl⟩,
   ⟨_, ((((H 1 (recording { Recorder.init with writing := some (wr0 true false) })).1 _ _ _ (by decide +kernel) rfl
       rfl rfl).2 rfl).2 (Or.inl rfl)).2.2 (by decide +kernel) (by decide +kernel)⟩,
   ⟨_, (H 1 hot).2.1 rfl⟩,
   ⟨_, ((H 1 (recording { Recorder.init with audWait := [(staged0, 0)] })).2.2.1 _ _ _ _ rfl rfl).1
       (by decide +kernel)⟩,
   ⟨_, ((H 1 (recording { Recorder.init with audWait := [(staged0, 0)], lost := 1 })).2.2.1 _ _ _ _ rfl rfl).2
       (by decide +kernel)⟩,
   ⟨_, (H 1 (recording { Recorder.init with suppressed := [{ code := 1, cause := 0, count := 5 }] })).2.2.2 _ _ _ _
       (by decide +kernel) rfl (by decide +kernel) (by decide +kernel) rfl rfl rfl rfl⟩⟩

theorem witness_PairRowsRun (H : Obligations.PairRowsRun) :
    Completes (exec (.actInLoss 1) (paired standby0)) ∧
    Completes (exec (.actInLoss 1) (paired { Pair.init with role := .arbitrating })) ∧
    Completes (exec (.actInActive 1) (paired { Pair.init with role := .arbitrating })) ∧
    Completes (exec (.pfaultInChange true 1) (paired standby0)) ∧
    Completes (exec (.deadTimeExpire) (paired { standby0 with deadFrom := some 0 })) ∧
    Completes (exec (.takeoverComplete 1) (paired { standby0 with deadFrom := some 0, loaded := true })) ∧
    Completes (exec (.actCollision 8002) (paired { Pair.init with en := true, role := .active, actIn := true })) ∧
    Completes (exec (.arbitrationTimeout) (paired { Pair.init with role := .arbitrating })) ∧
    Completes (exec (.switchTicksExpire) { (paired { Pair.init with role := .active }) with stop := { Stop.init with wdogArmed := true } }) ∧
    Completes (exec (.mirror 0 (mirror0 (Config.mirrorMajor Config.shippedPayload + 1)) 1) (paired standby0)) ∧
    Completes (exec (.mirror 0 (mirror0 (Config.mirrorMajor Config.shippedPayload)) 1) (paired standby0)) ∧
    Completes (exec (.input 0 (.command nop15) 1) (paired standby0)) ∧
    Completes (exec (.base 0 ⟨0, []⟩ none 1) (paired standby0)) ∧
    Completes (exec (.released 0 5 1) (paired standby0)) ∧
    Completes (exec (.laneError 1) (paired standby0)) ∧
    Completes (exec (.resyncComplete (mirror0 (Config.mirrorMajor Config.shippedPayload)) 1) (paired { standby0 with resync := true })) ∧
    Completes (exec (.mirror 0 (mirror0 0) 1) (barred standby0)) ∧
    Completes (exec (.input 0 (.command nop15) 1) (barred standby0)) ∧
    Completes (exec (.base 0 ⟨0, []⟩ none 1) (barred standby0)) ∧
    Completes (exec (.released 0 5 1) (barred standby0)) ∧
    Completes (exec (.resyncComplete (mirror0 0) 1) (barred standby0)) ∧
    Completes (exec (.health 0 511 1 true 5 1) (barred { Pair.init with role := .active, laneUp := true })) ∧
    Completes (exec (.health 0 511 1 true 5 1) (paired { Pair.init with role := .active, laneUp := true, partnerRole := 1 })) ∧
    Completes (exec (.hexluxLaneChange true true 5 1) (paired { Pair.init with en := true, role := .active })) ∧
    Completes (exec (.selftestCycleDone 1 5 0 1) { hot with health := { Health.init with selftest := some (nop15, 127) } }) ∧
    Completes (exec (.selftestCycleDone 1 5 0 1) (paired standby0)) :=
  ⟨⟨_, ((H 1 (paired standby0) _ rfl).1 _ rfl).1 (by decide +kernel) (by decide +kernel) (by decide +kernel)⟩,
   ⟨_, ((H 1 (paired { Pair.init with role := .arbitrating }) _ rfl).1 _ rfl).2 (by decide +kernel)⟩,
   ⟨_, (H 1 (paired { Pair.init with role := .arbitrating }) _ rfl).2.1 (by decide +kernel) (by decide +kernel)
       (by decide +kernel)⟩,
   ⟨_, (H 1 (paired standby0) _ rfl).2.2.1 true (by decide +kernel)⟩,
   ⟨_, (H 1 (paired { standby0 with deadFrom := some 0 }) _ rfl).2.2.2.1 _ rfl (by decide +kernel) (by decide +kernel)
       (by decide +kernel)⟩,
   ⟨_, (H 1 (paired { standby0 with deadFrom := some 0, loaded := true }) _ rfl).2.2.2.2.1 _ _ _ (by decide +kernel)
       (by decide +kernel) (by decide +kernel) (by decide +kernel) rfl rfl⟩,
   ⟨_, (H 8002 (paired { Pair.init with en := true, role := .active, actIn := true }) _ rfl).2.2.2.2.2.1 _ _
       (by decide +kernel) (by decide +kernel) (by decide +kernel) (by decide +kernel) rfl⟩,
   ⟨_, (H 1 (paired { Pair.init with role := .arbitrating }) _ rfl).2.2.2.2.2.2.1 _ _ _ (by decide +kernel)
       (by decide +kernel) (by decide +kernel) (by decide +kernel) rfl rfl⟩,
   ⟨_,
       (H 1 { (paired { Pair.init with role := .active }) with stop := { Stop.init with wdogArmed := true } } _ rfl).2.2.2.2.2.2.2.1 _
       (by decide +kernel) (by decide +kernel) (by decide +kernel) rfl⟩,
   ⟨_, ((H 1 (paired standby0) _ rfl).2.2.2.2.2.2.2.2.1 (by decide +kernel) (by decide +kernel) (by decide +kernel)
       (by decide +kernel)).1 _ _ _ rfl (readable_other _ _ rfl)⟩,
   ⟨_, ((H 1 (paired standby0) _ rfl).2.2.2.2.2.2.2.2.1 (by decide +kernel) (by decide +kernel) (by decide +kernel)
       (by decide +kernel)).2.1 _ _ _ _ rfl (readable_own _ _ rfl rfl) (by decide +kernel) rfl⟩,
   ⟨_, ((H 1 (paired standby0) _ rfl).2.2.2.2.2.2.2.2.1 (by decide +kernel) (by decide +kernel) (by decide +kernel)
       (by decide +kernel)).2.2.1 _ _⟩,
   ⟨_, ((H 1 (paired standby0) _ rfl).2.2.2.2.2.2.2.2.1 (by decide +kernel) (by decide +kernel) (by decide +kernel)
       (by decide +kernel)).2.2.2.1 _ _ _⟩,
   ⟨_, ((H 1 (paired standby0) _ rfl).2.2.2.2.2.2.2.2.1 (by decide +kernel) (by decide +kernel) (by decide +kernel)
       (by decide +kernel)).2.2.2.2.1 _ _ (by decide +kernel) (by decide +kernel) (by decide +kernel)⟩,
   ⟨_, ((H 1 (paired standby0) _ rfl).2.2.2.2.2.2.2.2.1 (by decide +kernel) (by decide +kernel) (by decide +kernel)
       (by decide +kernel)).2.2.2.2.2.1⟩,
   ⟨_, ((H 1 (paired { standby0 with resync := true }) _ rfl).2.2.2.2.2.2.2.2.1 (by decide +kernel)
       (by decide +kernel) (by decide +kernel) (by decide +kernel)).2.2.2.2.2.2 _ _ _
       (by decide +kernel) (readable_own _ _ rfl rfl) (by decide +kernel) rfl rfl⟩,
   ⟨_, ((H 1 (barred standby0) _ rfl).2.2.2.2.2.2.2.2.2.1 (by decide +kernel) (by decide +kernel)
       (by decide +kernel)).1 (by decide +kernel) 0 (mirror0 0) (.command nop15) ⟨0, []⟩ none 5 _ (.head _)⟩,
   ⟨_, ((H 1 (barred standby0) _ rfl).2.2.2.2.2.2.2.2.2.1 (by decide +kernel) (by decide +kernel)
       (by decide +kernel)).1
       (by decide +kernel) 0 (mirror0 0) (.command nop15) ⟨0, []⟩ none 5 _ (.tail _ (.head _))⟩,
   ⟨_, ((H 1 (barred standby0) _ rfl).2.2.2.2.2.2.2.2.2.1 (by decide +kernel) (by decide +kernel)
       (by decide +kernel)).1
       (by decide +kernel) 0 (mirror0 0) (.command nop15) ⟨0, []⟩ none 5 _ (.tail _ (.tail _ (.head _)))⟩,
   ⟨_, ((H 1 (barred standby0) _ rfl).2.2.2.2.2.2.2.2.2.1 (by decide +kernel) (by decide +kernel)
       (by decide +kernel)).1
       (by decide +kernel) 0 (mirror0 0) (.command nop15) ⟨0, []⟩ none 5 _ (.tail _ (.tail _ (.tail _ (.head _))))⟩,
   ⟨_, ((H 1 (barred standby0) _ rfl).2.2.2.2.2.2.2.2.2.1 (by decide +kernel) (by decide +kernel)
       (by decide +kernel)).1
       (by decide +kernel) 0 (mirror0 0) (.command nop15) ⟨0, []⟩ none 5 _ (.tail _ (.tail _ (.tail _ (.tail _ (.head _)))))⟩,
   ⟨_, ((H 1 (barred { Pair.init with role := .active, laneUp := true }) _ rfl).2.2.2.2.2.2.2.2.2.1
       (by decide +kernel) (by decide +kernel) (by decide +kernel)).2 (by decide +kernel) _ _ _ _ _⟩,
   ⟨_,
       (H 1 (paired { Pair.init with role := .active, laneUp := true, partnerRole := 1 }) _ rfl).2.2.2.2.2.2.2.2.2.2.1 _ _ _ _ _ _
       (by decide +kernel) (by decide +kernel) (by decide +kernel) (by decide +kernel) (by decide +kernel) rfl⟩,
   ⟨_, (H 1 (paired { Pair.init with en := true, role := .active }) _ rfl).2.2.2.2.2.2.2.2.2.2.2.1 _ _ _
       (by decide +kernel) (by decide +kernel) (by decide +kernel)⟩,
   ⟨_, ((H 1 { hot with health := { Health.init with selftest := some (nop15, 127) } } _ rfl).2.2.2.2.2.2.2.2.2.2.2.2 _ _ _
       (by decide +kernel)).1 _ _ rfl⟩,
   ⟨_, ((H 1 (paired standby0) _ rfl).2.2.2.2.2.2.2.2.2.2.2.2 _ _ _ (by decide +kernel)).2 (by decide +kernel)
       (by decide +kernel)⟩⟩

theorem sha384_length (m : List Byte) : (sha384 m).length ≤ 48 := by
  have h : ∀ l : List (BitVec 64), (l.flatMap (fun w => beBytes w.toNat 8)).length = 8 * l.length := by
    intro l
    induction l with
    | nil => rfl
    | cons w r ih =>
      rw [List.flatMap_cons, List.length_append, ih, beBytes, List.length_reverse, leBytes_length, List.length_cons]
      omega
  unfold sha384
  simp only [h, List.length_take]
  omega
theorem digest_own (p : List Byte) : sha384 p = hdrDigest (List.replicate 48 0 ++ sha384 p) := by
  have h : isForerunner (List.replicate 48 0 ++ sha384 p) = false := by
    simp [isForerunner, hdrAt, List.replicate]; decide
  unfold hdrDigest
  rw [h]
  show _ = (List.drop 48 (List.replicate 48 0 ++ sha384 p)).take 48
  rw [List.drop_left' (by simp), List.take_of_length_le (sha384_length p)]

/-- The module with its power and pads as given. -/
def power (x : Sys) : State := { State.reset with sys := x }

/-- A verified payload, and one whose digest is not its header's. -/
def verifying (hdr payload : List Byte) : State :=
  { hot with upd := { (updating .verifying hdr payload).upd with verifyReq := some nop15 } }

/-- An update that waits for its doff boundary. -/
def doffing (x : UpdState) : State :=
  { hot with tick := { Tick.init with running := true, nextAt := 5000000 }
             upd := { (updating x [] []).upd with recordAt := some 0, window := true, prevHeld := true, revertRestart := true } }

def failed (pool cluster unit : Nat) : UnitFail :=
  { pool := pool, unit := unit, cluster := cluster, place := .other, spareGood := true }
theorem witness_PowerRowsRun (H : Obligations.PowerRowsRun) :
    Completes (exec (.vinOn 1) State.reset) ∧
    Completes (exec (.enRise 1) (power { Sys.init with en := false, vinOn := true })) ∧
    Completes (exec (.enRise 1) (power { Sys.init with en := false })) ∧
    Completes (exec (.vinOn 1) (power { Sys.init with en := false })) ∧
    Completes (exec (.vinOn 1) (power { Sys.init with power := .poweringDown })) ∧
    Completes (exec (.enRise 1) (power { Sys.init with power := .poweringDown, en := false })) ∧
    Completes (exec (.enFall 1) hot) ∧
    Completes (exec (.vinSupFall 1) hot) ∧
    Completes (exec (.powerDownEnd) (power { Sys.init with power := .poweringDown })) ∧
    Completes (exec (.powerDownEnd) (power { Sys.init with power := .poweringDown, heldRise := true, vinOn := true })) ∧
    Completes (exec (.vinLow 5 1) hot) ∧
    Completes (exec (.vinHigh 5 1) hot) ∧
    Completes (exec (.vinFaultCease false 5 1) { hot with sys := { hot.sys with vinLow := true, vinHigh := true } }) ∧
    Completes (exec (.vinFaultCease true 5 1) { hot with sys := { hot.sys with vinHigh := true, everReady := true } }) ∧
    Completes (exec (.bootReady 1) { hot with sys := { hot.sys with boot := .init } }) ∧
    Completes (exec (.bootReady 1) { hot with sys := { hot.sys with boot := .init }, pair := { Pair.init with en := true } }) ∧
    Completes (exec (.softResetReady 1) { hot with sys := { hot.sys with reloading := true } }) ∧
    Completes (exec (.fwAliveTimeout) (beat { Tick.init with lastCompleted := some 5 })) ∧
    Completes (exec (.perstNChange ⟨false, 4, 3⟩ 1) hot) ∧
    Completes (exec (.perstNChange ⟨true, 4, 3⟩ 1) { State.reset with sys := { Sys.init with perstN := false } }) ∧
    Completes (exec (.perstNChange ⟨true, 1, 4⟩ 1) { hot with sys := { hot.sys with perstN := false } }) ∧
    Completes (exec (.pcieLinkError .correctable 1) hot) ∧
    Completes (exec (.pcieLinkError .uncorrectable 1) hot) ∧
    Completes (exec (.pcieLinkError .replayTimeout 1) hot) ∧
    Completes (exec (.pcieLinkError .malformed 1) hot) ∧
    Completes (exec (.pcieLinkError (.retrain 4 3) 1) hot) :=
  ⟨⟨_, ((H 1 State.reset _ rfl).1 (by decide +kernel) (by decide +kernel)).1 (by decide +kernel) (by decide +kernel)⟩,
   ⟨_, ((H 1 (power { Sys.init with en := false, vinOn := true }) _ rfl).1 (by decide +kernel)
       (by decide +kernel)).2.1 (by decide +kernel) (by decide +kernel)⟩,
   ⟨_, (((H 1 (power { Sys.init with en := false }) _ rfl).1 (by decide +kernel) (by decide +kernel)).2.2
       (by decide +kernel) (by decide +kernel)).1⟩,
   ⟨_, (((H 1 (power { Sys.init with en := false }) _ rfl).1 (by decide +kernel) (by decide +kernel)).2.2
       (by decide +kernel) (by decide +kernel)).2⟩,
   ⟨_, ((H 1 (power { Sys.init with power := .poweringDown }) _ rfl).2.1 (by decide +kernel)).1 (by decide +kernel)⟩,
   ⟨_, ((H 1 (power { Sys.init with power := .poweringDown, en := false }) _ rfl).2.1 (by decide +kernel)).2
       (by decide +kernel)⟩,
   ⟨_, ((H 1 hot _ rfl).2.2.1 _ (by decide +kernel) rfl).1⟩,
   ⟨_, ((H 1 hot _ rfl).2.2.1 _ (by decide +kernel) rfl).2⟩,
   ⟨_, ((H 1 (power { Sys.init with power := .poweringDown }) _ rfl).2.2.2.1 _ _ rfl (by decide +kernel) rfl).1
       (by decide +kernel)⟩,
   ⟨_, ((H 1 (power { Sys.init with power := .poweringDown, heldRise := true, vinOn := true }) _ rfl).2.2.2.1 _ _ rfl
       (by decide +kernel) rfl).2 (by decide +kernel) (by decide +kernel) (by decide +kernel) (by decide +kernel)⟩,
   ⟨_, ((H 1 hot _ rfl).2.2.2.2.1 5 (by decide +kernel)).1 (by decide +kernel)⟩,
   ⟨_, ((H 1 hot _ rfl).2.2.2.2.1 5 (by decide +kernel)).2.1 (by decide +kernel)⟩,
   ⟨_, ((H 1 { hot with sys := { hot.sys with vinLow := true, vinHigh := true } } _ rfl).2.2.2.2.1 5
       (by decide +kernel)).2.2.1 _ (by decide +kernel) (by decide +kernel) rfl (by decide +kernel)⟩,
   ⟨_, ((H 1 { hot with sys := { hot.sys with vinHigh := true, everReady := true } } _ rfl).2.2.2.2.1 5
       (by decide +kernel)).2.2.2 _ (by decide +kernel) rfl (by decide +kernel) (by decide +kernel)
       (by decide +kernel) (by decide +kernel)⟩,
   ⟨_, ((H 1 { hot with sys := { hot.sys with boot := .init } } _ rfl).2.2.2.2.2.1 _ _ (by decide +kernel)
       (by decide +kernel) (by decide +kernel) rfl rfl).1 (by decide +kernel)⟩,
   ⟨_, ((H 1 { hot with sys := { hot.sys with boot := .init }, pair := { Pair.init with en := true } } _ rfl).2.2.2.2.2.1 _ _
       (by decide +kernel) (by decide +kernel) (by decide +kernel) rfl rfl).2 (by decide +kernel)⟩,
   ⟨_, (H 1 { hot with sys := { hot.sys with reloading := true } } _ rfl).2.2.2.2.2.2.1 (by decide +kernel)
       (by decide +kernel)⟩,
   ⟨_, (H 1 (beat { Tick.init with lastCompleted := some 5 }) _ rfl).2.2.2.2.2.2.2.1 _ _ rfl rfl⟩,
   ⟨_, (H 1 hot _ rfl).2.2.2.2.2.2.2.2.1 4 3⟩,
   ⟨_, ((H 1 { State.reset with sys := { Sys.init with perstN := false } } _ rfl).2.2.2.2.2.2.2.2.2.1 4 3 _
       (by decide +kernel) rfl).1 (by decide +kernel)⟩,
   ⟨_, ((H 1 { hot with sys := { hot.sys with perstN := false } } _ rfl).2.2.2.2.2.2.2.2.2.1 1 4 _
       (by decide +kernel) rfl).2 (by decide +kernel)⟩,
   ⟨_, ((H 1 hot _ rfl).2.2.2.2.2.2.2.2.2.2 (by decide +kernel) (by decide +kernel)).1⟩,
   ⟨_, ((H 1 hot _ rfl).2.2.2.2.2.2.2.2.2.2 (by decide +kernel) (by decide +kernel)).2.1⟩,
   ⟨_, ((H 1 hot _ rfl).2.2.2.2.2.2.2.2.2.2 (by decide +kernel) (by decide +kernel)).2.2.1⟩,
   ⟨_, ((H 1 hot _ rfl).2.2.2.2.2.2.2.2.2.2 (by decide +kernel) (by decide +kernel)).2.2.2.1⟩,
   ⟨_, ((H 1 hot _ rfl).2.2.2.2.2.2.2.2.2.2 (by decide +kernel) (by decide +kernel)).2.2.2.2 4 3⟩⟩

theorem witness_UpdateRowsRun (H : Obligations.UpdateRowsRun) :
    Completes (exec (.updIdleTimeout) (updating .open_ [] [])) ∧
    Completes (exec (.updVerifyDone 1) (verifying (List.replicate 48 0 ++ sha384 [1, 2, 3, 4]) [1, 2, 3, 4])) ∧
    Completes (exec (.updVerifyDone 1) (verifying [] [1, 2, 3, 4])) ∧
    Completes (exec (.updBankLoaded 1) { hot with upd := { (updating .activating [] []).upd with window := true } }) ∧
    Completes (exec (.doff true) (doffing .activating)) ∧
    Completes (exec (.doff false) (doffing .activating)) ∧
    Completes (exec (.doff true) (doffing .reverting)) ∧
    Completes (exec (.doff false) (doffing .reverting)) ∧
    Completes (exec (.confirmWindowExpire) (updating .trial [] [])) ∧
    Completes (exec (.revertRestart 5000000) (doffing .reverting)) ∧
    Completes (exec (.revertRestart 1) (doffing .activating)) ∧
    Completes (exec (.revertRestart 1) { (doffing .reverting) with sys := { hot.sys with boot := .fault } }) ∧
    Completes (exec (.cfgSessionTimeout) owned) :=
  ⟨⟨_, (H 1 (updating .open_ [] []) _ rfl).1 (by decide +kernel) (Or.inl (by decide +kernel))⟩,
   ⟨_, ((H 1 (verifying (List.replicate 48 0 ++ sha384 [1, 2, 3, 4]) [1, 2, 3, 4]) _ rfl).2.1 _ _ _
       (by decide +kernel) (by decide +kernel) rfl rfl rfl).1 (digest_own _) (by decide +kernel)⟩,
   ⟨_, ((H 1 (verifying [] [1, 2, 3, 4]) _ rfl).2.1 _ _ _ (by decide +kernel) (by decide +kernel) rfl rfl rfl).2
       (by decide +kernel)⟩,
   ⟨_, (H 1 { hot with upd := { (updating .activating [] []).upd with window := true } } _ rfl).2.2.1 _
       (by decide +kernel) (by decide +kernel) (by decide +kernel) (by decide +kernel) rfl⟩,
   ⟨_, ((H 1 (doffing .activating) _ rfl).2.2.2.1 (by decide +kernel) (by decide +kernel) (by decide +kernel)
       (by decide +kernel)).1⟩,
   ⟨_, ((H 1 (doffing .activating) _ rfl).2.2.2.1 (by decide +kernel) (by decide +kernel) (by decide +kernel)
       (by decide +kernel)).2⟩,
   ⟨_, ((H 1 (doffing .reverting) _ rfl).2.2.2.2.1 (by decide +kernel) (by decide +kernel) (by decide +kernel)
       (by decide +kernel)).1⟩,
   ⟨_, ((H 1 (doffing .reverting) _ rfl).2.2.2.2.1 (by decide +kernel) (by decide +kernel) (by decide +kernel)
       (by decide +kernel)).2⟩,
   ⟨_, (H 1 (updating .trial [] []) _ rfl).2.2.2.2.2.1 (by decide +kernel) (by decide +kernel)⟩,
   ⟨_, (H 5000000 (doffing .reverting) _ rfl).2.2.2.2.2.2.1 (by decide +kernel) (by decide +kernel) (Or.inr
       (by decide +kernel))⟩,
   ⟨_, (H 1 (doffing .activating) _ rfl).2.2.2.2.2.2.1 (by decide +kernel) (by decide +kernel) (Or.inr
       (by decide +kernel))⟩,
   ⟨_, (H 1 { (doffing .reverting) with sys := { hot.sys with boot := .fault } } _ rfl).2.2.2.2.2.2.1
       (by decide +kernel) (by decide +kernel) (Or.inl (by decide +kernel))⟩,
   ⟨_, (H 1 owned _ rfl).2.2.2.2.2.2.2 (by decide +kernel) (by decide +kernel)⟩⟩

theorem witness_HealthRowsRun (H : Obligations.HealthRowsRun) :
    Completes (exec (.scrub 10 5 true false 1) hot) ∧
    Completes (exec (.scrub 10 5 false false 1) hot) ∧
    Completes (exec (.scrub 10 5 false true 1) hot) ∧
    Completes (exec (.eccUncorrectable 10 5 .tickState 1) hot) ∧
    Completes (exec (.unitFailure (failed 0 3 5) 1) hot) ∧
    Completes (exec (.unitFailure (failed 1 0 1023) 1) hot) ∧
    Completes (exec (.unitFailure (failed 2 8 5) 1) hot) ∧
    Completes (exec (.marginReplan 0 2 3 0 1) hot) ∧
    Completes (exec (.marginReplan 2 2 3 0 1) { hot with health := { Health.init with replanDue := [1, 2] } }) ∧
    Completes (exec (.lidTempSample 95 1) hot) ∧
    Completes (exec (.throttleStep) { hot with health := { Health.init with lidTemp := 110 } }) ∧
    Completes (exec (.junctionOvertemp 1) hot) :=
  ⟨⟨_, ((H 1 hot _ rfl (by decide +kernel)).1 10 5 (by decide +kernel)).1⟩,
   ⟨_, ((H 1 hot _ rfl (by decide +kernel)).1 10 5 (by decide +kernel)).2.1⟩,
   ⟨_, ((H 1 hot _ rfl (by decide +kernel)).1 10 5 (by decide +kernel)).2.2⟩,
   ⟨_, (H 1 hot _ rfl (by decide +kernel)).2.1 10 5 .tickState (by decide +kernel)⟩,
   ⟨_, (H 1 hot _ rfl (by decide +kernel)).2.2.1 _ (by decide +kernel) (by decide +kernel)⟩,
   ⟨_, (H 1 hot _ rfl (by decide +kernel)).2.2.2.1 _ (by decide +kernel) (by decide +kernel)⟩,
   ⟨_, (H 1 hot _ rfl (by decide +kernel)).2.2.2.2.1 _ (by decide +kernel) (by decide +kernel)⟩,
   ⟨_, (H 1 hot _ rfl (by decide +kernel)).2.2.2.2.2.1 2 3 0 _ (by decide +kernel) rfl rfl⟩,
   ⟨_, (H 1 { hot with health := { Health.init with replanDue := [1, 2] } } _ rfl
       (by decide +kernel)).2.2.2.2.2.2.1 2 2 3 0 _ (by decide +kernel) (by decide +kernel) (by decide +kernel) rfl⟩,
   ⟨_, (H 1 hot _ rfl (by decide +kernel)).2.2.2.2.2.2.2.1 95⟩,
   ⟨_, (H 1 { hot with health := { Health.init with lidTemp := 110 } } _ rfl (by decide +kernel)).2.2.2.2.2.2.2.2.1
       (by decide +kernel) (by decide +kernel)⟩,
   ⟨_, (H 1 hot _ rfl (by decide +kernel)).2.2.2.2.2.2.2.2.2⟩⟩

/-- `hot` with one NOP waiting. -/
def waiting : State := { hot with pending := [.nop (pk [])] }

theorem witness_StepRunsFront (H : Obligations.StepRunsFront) :
    step waiting = exec (.nop (pk [])) hot ∧ step State.reset = .next State.reset :=
  ⟨H.1 (.nop (pk [])) [] waiting rfl, H.2 State.reset rfl⟩

/-- The premise of StepKeepsHostInv holds of it. -/
theorem hot_hostInv : HostInv hot := by
  refine ⟨⟨rfl, fun k hk => ?_⟩, fun x hx => ?_⟩
  · show (List.replicate 32 false).getD k false = false
    rw [List.getD_eq_getElem?_getD, List.getElem?_replicate]; split <;> rfl
  · cases hx with
    | head => exact ⟨by decide, by unfold CmdOk; decide +kernel⟩
    | tail _ h => cases h

/-- An erroneous access of the BAR at `hot`. -/
theorem witness_StepKeepsHostInv (H : Obligations.StepKeepsHostInv) :
    ∃ t, step { hot with pending := [.barAccessFault false false 1] } = .next t ∧ HostInv t := by
  have hs : ∃ t, step { hot with pending := [.barAccessFault false false 1] } = .next t := ⟨_, rfl⟩
  obtain ⟨t, ht⟩ := hs
  exact ⟨t, ht, H _ t (show HostInv { hot with pending := [.barAccessFault false false 1] } from hot_hostInv) ht⟩

theorem witness_PacketRoundTrip (H : Obligations.PacketRoundTrip) :
    reqOfWords 0 7 (cmdWords 0xC05 (pk [1, 0xFFFFFFFF])) none = reqOfCmd 0xC05 (pk [1, 0xFFFFFFFF]) 7 ∧
      descOf descNop.op = some descNop :=
  ⟨(H.1 0xC05 7 (pk [1, 0xFFFFFFFF]) (by decide) (by decide)).1, (H.2 (.nop (pk [])) descNop (pk []) rfl).2⟩

theorem witness_RefusedCommandOnlyAnswers (H : Obligations.RefusedCommandOnlyAnswers) :
    Completes (exec (.gnssGetChannels (pk [9])) hot) := by
  have hb : ∃ f, descGnssGetChannels.body (arrivedReq descGnssGetChannels (pk [9]) hot)
      (arrived descGnssGetChannels (pk [9]) hot) = .error f := ⟨_, rfl⟩
  obtain ⟨f, hf⟩ := hb
  obtain ⟨t, ht, -⟩ := H (.gnssGetChannels (pk [9])) _ (pk [9]) hot f rfl (by decide +kernel) rfl hf
  exact ⟨t, ht⟩

theorem witness_AnswersKeepTheRest (H : Obligations.AnswersKeepTheRest) :
    (arrived descNop (pk []) hot).still = hot.still ∧
      getQ (arrived descNop (pk []) hot) 1 = getQ hot 1 ∧
      (finish (arrivedReq descNop (pk []) hot) .badParam 5 [] hot).still = hot.still :=
  ⟨(H.2.1 descNop (pk []) hot (by decide)).1, (H.2.1 descNop (pk []) hot (by decide)).2 1 (by decide),
   (H.2.2 _ .badParam 5 [] hot (by decide) rfl).1⟩

theorem witness_HeaderFaultsAnswer_event (H : Obligations.HeaderFaultsAnswer) :
    Completes (exec (.nop { pk [] with ev := true }) hot) := by
  obtain ⟨t, ht, -⟩ := H.1 (.nop { pk [] with ev := true }) descNop { pk [] with ev := true } hot _ _ rfl rfl
    (by decide) (by decide) (by decide) (by decide) (by decide) (by decide) rfl rfl rfl (.inl (by decide +kernel))
    (by decide +kernel) (by decide +kernel)
  exact ⟨t, ht⟩

theorem witness_HeaderFaultsAnswer_length (H : Obligations.HeaderFaultsAnswer) :
    (getQ (readWord descOf 0 0x00100000 hot) 0).evt.words =
      (getQ hot 0).evt.words ++ markWords [packetHeader (fld 0x00100000 20 31) false 3, 0, statusWord .badLength false 0xFF30] ∧
    (getQ (readWord descOf 0 2 (readWord descOf 0 0x00100000 hot)) 0).cmd.part = [2] :=
  ⟨(H.2.1 0 0x00100000 hot _ _ (by decide) rfl (by decide) (by decide) (by decide) (by decide) (by decide)
      (by decide) rfl).1,
   (H.2.1 0 0x00100000 hot _ _ (by decide) rfl (by decide) (by decide) (by decide) (by decide) (by decide)
       (by decide) rfl).2.2 2
     (by decide) (by decide)⟩

theorem witness_HeaderFaultsAnswer_opcode (H : Obligations.HeaderFaultsAnswer) :
    ∃ n, take (descOf 0xDFF) { arrivedReq descNop (pk []) hot with op := 0xDFF } hot =
      finish (enterChain { arrivedReq descNop (pk []) hot with op := 0xDFF, stamp := hot.now } hot).1 .badOpcode n []
        (enterChain { arrivedReq descNop (pk []) hot with op := 0xDFF, stamp := hot.now } hot).2.2.2 :=
  H.2.2 0xD { arrivedReq descNop (pk []) hot with op := 0xDFF } hot rfl

/-- Coefficients with an integral part between -2 and 3. -/
def coefs : CoefSet := { CoefSet.zero with kp := 1, ki := 1, iMin := -2, iMax := 3 }
/-- A law that waits to swap to `coefs`, and the output of a law under `coefs`. -/
def swapping : Law := { Law.zero with setB := coefs, setA := coefs, swap := true, uPrev := 100, ePrev := 4 }

theorem witness_PresetFormula (H : Obligations.PresetFormula) :
    presetI coefs 100 1 2 3 = nearest (-2 * 2 ^ 16) (3 * 2 ^ 16) (nearest (-2 ^ 47) (2 ^ 47 - 1) ((100 - 1 - 2 - 3) * 2 ^ 16)) ∧
      (swapIn swapping 5 1).ePrev = 4 ∧ (trackLaw { u := 100, law := swapping, p := 1, d := 2, ff := 3, held := false } 50).ePrev = 4 ∧
      (servoLaw (presetServo 2 hot) 2).ePrev = 0 :=
  ⟨H.1 coefs 100 1 2 3 (by decide), (H.2.1 swapping 5 1 rfl).2,
   (H.2.2.1 { u := 100, law := swapping, p := 1, d := 2, ff := 3, held := false } 50 (by decide)).2,
   (H.2.2.2 2 hot _ rfl).2.trans (by decide +kernel)⟩

theorem witness_InterruptMessages (H : Obligations.InterruptMessages) :
    (setInt 22 { hot with intEn := 0x400000, msix := [(22, { MsixEntry.init with masked := false })] }).out = hot.out ++ [.msix 22] ∧
      (setInt 22 hot).out = hot.out ∧ (setInt 22 hot).intStat.getD 22 false = true ∧ setInt 23 hot = hot :=
  ⟨((H 22 { hot with intEn := 0x400000, msix := [(22, { MsixEntry.init with masked := false })] } rfl).2
      (by decide)).1
     rfl (by decide) (by decide),
   ((H 22 hot rfl).2 (by decide)).2.1 (.inr (.inl (by decide))), ((H 22 hot rfl).2 (by decide)).2.2.1,
   (H 23 hot rfl).1 (by decide)⟩

/-! ### What WellFormed refuses, check by check -/

/-- A management source. -/
def netSrc0 : NetSrc := { key := 0, addr := 0, port := 0, ip6 := false }

/-- A packet of one parameter and a packet with an execute-at time are well formed. -/
theorem test_wf_accepts :
    Cmd.wf (pk [5]) = true ∧ Cmd.wf { pk [] with at_ := true, len := 4, execAt := 5000000000 } = true ∧
      Cmd.wf { pk [] with q := 16, net := some netSrc0 } = true := by decide

/-- Refused: a queue that does not exist; the network queue without a source and a queue pair with one; a LENGTH that is
not that of the words; too long a packet; a time of more than 64 bits; a time without AT. -/
theorem test_wf_refuses_packets :
    Cmd.wf { pk [] with q := 17, net := some netSrc0 } = false ∧ Cmd.wf { pk [] with q := 16 } = false ∧
      Cmd.wf { pk [] with net := some netSrc0 } = false ∧ Cmd.wf { pk [5] with len := 2 } = false ∧
      Cmd.wf (pk (List.replicate 4095 0)) = false ∧
      Cmd.wf { pk [] with at_ := true, len := 4, execAt := 2 ^ 64 } = false ∧ Cmd.wf { pk [] with execAt := 1 } = false := by
  decide +kernel

/-- Refused: the queue pairs' own commands on a queue that no register block has. -/
theorem test_wf_refuses_queues :
    Instr.wf .pvs7128 (.writePortWrite 16 0 true none 1) = false ∧ Instr.wf .pvs7128 (.writePortWrite 0 0 true (some 5) 1) = false ∧
      Instr.wf .pvs7128 (.doorbellWrite ⟨16, none⟩ 1) = false ∧ Instr.wf .pvs7128 (.readPortRead 16 false none 1) = false ∧
      Instr.wf .pvs7128 (.readPortRead 0 false (some 5) 1) = false ∧ Instr.wf .pvs7128 (.queReset 16 1) = false ∧
      Instr.wf .pvs7128 (.w1cFlagClear (.que 16) 1 0 1) = false ∧ Instr.wf .pvs7128 (.watermarkFlagClear 16 true none 1) = false ∧
      Instr.wf .pvs7128 (.occCounterRead (.que 16) 0 0 1) = false ∧ Instr.wf .pvs7128 (.strandTimeout ⟨16, none⟩) = false ∧
      Instr.wf .pvs7128 (.commandTaken ⟨16, none⟩ 1) = false ∧ Instr.wf .pvs7128 (.completionPlaced ⟨16, none⟩) = false ∧
      Instr.wf .pvs7128 (.pushRingWrite ⟨16, none⟩) = false ∧ Instr.wf .pvs7128 (.coalTimeout 16) = false ∧
      Instr.wf .pvs7128 (.chainRelease 17 1) = false ∧ Instr.wf .pvs7128 (.registerWrite 0x10000 ⟨0, none⟩ 1) = false ∧
      [Instr.doorbellWrite ⟨0, some 5⟩ 1, .registerWrite 0 ⟨0, some 5⟩ 1, .strandTimeout ⟨0, some 5⟩, .commandTaken ⟨0, some 5⟩ 1,
        .completionPlaced ⟨0, some 5⟩, .pushRingWrite ⟨0, some 5⟩].all (fun i => !Instr.wf .pvs7128 i) = true := by
  decide

/-- Refused on the smaller members: antennas, channels, robots, cores, jobs and ports that they lack. -/
theorem test_wf_refuses_units :
    Instr.wf .pvs7008 (.acqSearchDone 256 0 0 1) = false ∧ Instr.wf .pvs7008 (.acqTimeout 256) = false ∧
      Instr.wf .pvs7008 (.biasFault true true 0 0 1) = false ∧ Instr.wf .pvs7008 (.biasRetry true 0 0) = false ∧
      Instr.wf .pvs7008 (.sessionTimeout 8) = false ∧ Instr.wf .pvs7008 (.rekeyDue 8 1) = false ∧
      Instr.wf .pvs7008 (.rekeyAbandon 8) = false ∧ Instr.wf .pvs7008 (.stopBurstFrame (some 8)) = false ∧
      Instr.wf .pvs7008 (.epochWaitExpire 8) = false ∧ Instr.wf .pvs7008 (.rerouteResult 8 0 1) = false ∧
      Instr.wf .pvs7008 (.taskServiceElapsed 8) = false ∧ Instr.wf .pvs7008 (.robotCtrlLimitExpire 8) = false ∧
      Instr.wf .pvs7008 (.contactQualified 8 0 [] 1) = false ∧ Instr.wf .pvs7008 (.contactQualified 256 16 [] 1) = false ∧
      Instr.wf .pvs7008 (.jobDispatch 4 1) = false ∧ Instr.wf .pvs7008 (.jobComplete 4 1) = false ∧
      Instr.wf .pvs7008 (.jobRevoke 4) = false ∧ Instr.wf .pvs7008 (.hostJobFinal 8 1) = false ∧
      Instr.wf .pvs7008 (.portLinkChange 9 true 4 1) = false ∧ Instr.wf .pvs7008 (.egressFrameSent 2 1) = false ∧
      Instr.wf .pvs7008 (.ptpAnnounceTimeout 9 0) = false ∧ Instr.wf .pvs7008 (.sourceQualify 3 0 1) = false ∧
      Instr.wf .pvs7008 (.sourceLost 3 1) = false := by decide

/-- Refused on every member: what the family's tables do not number. -/
theorem test_wf_refuses_numbers :
    Instr.wf .pvs7128 (.mgmtDatagram 4 netSrc0 [] 1) = false ∧ Instr.wf .pvs7128 (.internalFault 8 true 1) = false ∧
      Instr.wf .pvs7128 (.proofTestPart 3 true 0 0) = false ∧ Instr.wf .pvs7128 (.sourceQualify 0 0 1) = false ∧
      Instr.wf .pvs7128 (.sourceQualify 6 0 1) = false ∧ Instr.wf .pvs7128 (.sourceLost 6 1) = false ∧
      Instr.wf .pvs7128 (.scrub 11 0 false false 1) = false ∧ Instr.wf .pvs7128 (.eccUncorrectable 11 0 .other 1) = false ∧
      Instr.wf .pvs7128 (.uartCByteSent 2 1) = false ∧ Instr.wf .pvs7128 (.portLinkChange 15 true 4 1) = false ∧
      Instr.wf .pvs7128 (.unitFailure (failed 0 4 0) 1) = false ∧ Instr.wf .pvs7128 (.unitFailure (failed 1 0 1024) 1) = false ∧
      Instr.wf .pvs7128 (.unitFailure (failed 2 9 0) 1) = false ∧ Instr.wf .pvs7128 (.unitFailure (failed 3 0 0) 1) = false ∧
      Instr.wf .pvs7128 (.roverFixPublish 4 1) = false ∧ Instr.wf .pvs7128 (.navUnitDecoded { unit0 with unit := 14 } 1) = false ∧
      Instr.wf .pvs7128 (.navUnitDecoded { unit0 with sig := 21 } 1) = false := by decide

/-- Refused: frames on a port that the member lacks, or on the internal port. -/
theorem test_wf_refuses_ports :
    Instr.wf .pvs7008 (.telem { frame 0x41 0 0 112 1 [] with port := 2 } 1) = false ∧
      Instr.wf .pvs7008 (.obs { frame 0x42 0 0 45 1 [] with port := 2 } 1) = false ∧
      Instr.wf .pvs7008 (.ack { frame 0x43 0 0 56 1 [] with port := 2 } 1) = false ∧
      Instr.wf .pvs7008 (.join { frame 0x44 0 0 64 1 [] with port := 2 } 1) = false ∧
      Instr.wf .pvs7128 (.ethFrameRx { eth 64 true .other with port := 15 } 1) = false := by decide

end Sys2Proof.Tests
end

section
/-! PROOFS. The header faults of chapter 02 (R31, R47, R53). First what an answer leaves alone, operation by operation:
the rest of the state (`State.still`) and the other queue pairs; then where the answer stands on its own queue pair; then
the three faults. -/
set_option autoImplicit false

namespace Sys2Proof.Machine

/-! ### Operations that take no effect: the rest of the state -/

@[simp] theorem modQ_still (q : Nat) (f : Queue → Queue) (s : State) : (modQ q f s).still = s.still := rfl

@[simp] theorem countQ_still (q : Nat) (f : QueCounters → QueCounters) (s : State) : (countQ q f s).still = s.still := by
  unfold countQ; split <;> rfl

@[simp] theorem setInt_still (k : Nat) (s : State) : (setInt k s).still = s.still := by
  unfold setInt; dsimp only; (repeat' split) <;> rfl

@[simp] theorem passOpTime_still (dt : Nat) (s : State) : (passOpTime dt s).still = s.still := by
  unfold passOpTime; split <;> rfl

@[simp] theorem begin_still (dt : Nat) (s : State) : (begin_ dt s).still = s.still := by
  unfold begin_ advance; rw [passOpTime_still]; rfl

@[simp] theorem beginInput_still (dt : Nat) (s : State) : (beginInput dt s).still = s.still := by
  unfold beginInput; dsimp only; split
  · rw [passOpTime_still]; exact begin_still dt s
  · exact begin_still dt s

@[simp] theorem passFifo_still (q n : Nat) (s : State) : (passFifo q n s).still = s.still := by
  unfold passFifo; simp

@[simp] theorem laneCommand_still (r : Req) (s : State) : (laneCommand r s).still = s.still := by
  unfold laneCommand laneSend; split <;> rfl

@[simp] theorem enterChain_still (r : Req) (s : State) : (enterChain r s).2.2.2.still = s.still := rfl

@[simp] theorem chainFinal_still (q pid : Nat) (good : Bool) (s : State) : (chainFinal q pid good s).still = s.still := rfl

@[simp] theorem coalesce_still (q : Nat) (s : State) : (coalesce q s).still = s.still := by
  unfold coalesce; dsimp only; split
  · rfl
  · split
    · exact setInt_still ..
    · rfl

@[simp] theorem placePacket_still (q : Nat) (ws : List Word) (s : State) : (placePacket q ws s).still = s.still := by
  simp [placePacket]

@[simp] theorem placeOrWait_still (q : Nat) (ws : List Word) (s : State) : (placeOrWait q ws s).still = s.still := by
  unfold placeOrWait; dsimp only; split <;> simp

@[simp] theorem countStatus_still (r : Req) (st : Status) (s : State) : (countStatus r st s).still = s.still := by
  unfold countStatus; split
  · exact countQ_still ..
  · exact countQ_still ..
  · rfl
  · rfl

@[simp] theorem noteResponse_still (r : Req) (st : Status) (s : State) : (noteResponse r st s).still = s.still := by
  unfold noteResponse; split <;> rfl

/-- What the final status of a command on a queue pair is made of: counting, a packet placed or kept waiting there, and
the word to its chain. What each of these keeps, the final status keeps. -/
theorem finish_keeps {P : State → Prop} {r : Req} (st : Status) (n : Nat) (ws : List Word) (s : State) (hq : r.q < 16)
    (hj : r.job = none) (h0 : P (noteResponse r st (countStatus r st s)))
    (hm : ∀ f t, P t → P (modQ r.q f t)) (hp : ∀ p t, P t → P (placeOrWait r.q p t))
    (hc : ∀ good t, P t → P (chainFinal r.q r.pid good t)) : P (finish r st n ws s) := by
  unfold finish
  rw [hj]
  apply hc
  dsimp only
  split
  · exact h0
  · split
    · split
      · exact hp _ _ (hm _ _ h0)
      · exact h0
    · unfold answer
      rw [if_pos hq]
      split
      · exact hp _ _ h0
      · exact h0

/-- R51: the final status of a command on a queue pair is an answer and nothing more. -/
theorem finish_still {r : Req} (st : Status) (n : Nat) (ws : List Word) (s : State) (hq : r.q < 16) (hj : r.job = none) :
    (finish r st n ws s).still = s.still :=
  finish_keeps (P := fun t => t.still = s.still) st n ws s hq hj (by simp) (fun _ _ h => h)
    (fun _ _ h => (placeOrWait_still ..).trans h) (fun _ _ h => h)

/-- R37, R69: a packet that arrives is timed, passes the FIFO, is counted and is forwarded. -/
theorem arrived_still (d : Desc) (c : Cmd) (s : State) : (arrived d c s).still = s.still := by
  unfold arrived packetTaken; simp

/-! ### Operations on one queue pair: the other queue pairs -/

theorem countQ_getQ_ne {q k : Nat} (f : QueCounters → QueCounters) (s : State) (h : k ≠ q) :
    getQ (countQ q f s) k = getQ s k := by
  unfold countQ
  split
  · rfl
  · exact getQ_modQ_ne _ _ _ _ h

@[simp] theorem setInt_getQ (k q : Nat) (s : State) : getQ (setInt k s) q = getQ s q := by
  unfold getQ; rw [setInt_queues]

@[simp] theorem chainFinal_getQ (q pid : Nat) (good : Bool) (s : State) (k : Nat) :
    getQ (chainFinal q pid good s) k = getQ s k := rfl

@[simp] theorem enterChain_getQ (r : Req) (s : State) (k : Nat) : getQ (enterChain r s).2.2.2 k = getQ s k := rfl

@[simp] theorem laneCommand_getQ (r : Req) (s : State) (k : Nat) : getQ (laneCommand r s) k = getQ s k := by
  unfold laneCommand laneSend; split <;> rfl

theorem passFifo_getQ_ne {q k : Nat} (n : Nat) (s : State) (h : k ≠ q) : getQ (passFifo q n s) k = getQ s k := by
  unfold passFifo; rw [countQ_getQ_ne _ _ h, getQ_modQ_ne _ _ _ _ h]

theorem arrived_getQ_ne {d : Desc} {c : Cmd} {k : Nat} (s : State) (h : k ≠ c.q) : getQ (arrived d c s) k = getQ s k := by
  unfold arrived packetTaken
  rw [laneCommand_getQ, countQ_getQ_ne _ _ h, enterChain_getQ, passFifo_getQ_ne _ _ h, beginInput_getQ]

theorem coalesce_getQ_ne {q k : Nat} (s : State) (h : k ≠ q) : getQ (coalesce q s) k = getQ s k := by
  unfold coalesce; dsimp only; split
  · exact getQ_modQ_ne _ _ _ _ h
  · split
    · rw [setInt_getQ, getQ_modQ_ne _ _ _ _ h]
    · exact getQ_modQ_ne _ _ _ _ h

theorem placePacket_getQ_ne {q k : Nat} (ws : List Word) (s : State) (h : k ≠ q) :
    getQ (placePacket q ws s) k = getQ s k := by
  unfold placePacket; rw [coalesce_getQ_ne _ h, getQ_modQ_ne _ _ _ _ h]

theorem placeOrWait_getQ_ne {q k : Nat} (ws : List Word) (s : State) (h : k ≠ q) :
    getQ (placeOrWait q ws s) k = getQ s k := by
  unfold placeOrWait; dsimp only
  split
  · exact placePacket_getQ_ne _ _ h
  · exact getQ_modQ_ne _ _ _ _ h

theorem countStatus_getQ_ne {r : Req} {k : Nat} (st : Status) (s : State) (h : k ≠ r.q) :
    getQ (countStatus r st s) k = getQ s k := by
  unfold countStatus; split
  · exact countQ_getQ_ne _ _ h
  · exact countQ_getQ_ne _ _ h
  · rfl
  · rfl

@[simp] theorem noteResponse_getQ (r : Req) (st : Status) (s : State) (k : Nat) :
    getQ (noteResponse r st s) k = getQ s k := by
  unfold noteResponse; split <;> rfl

/-- The final status of a command reaches its own queue pair only. -/
theorem finish_getQ_ne {r : Req} {k : Nat} (st : Status) (n : Nat) (ws : List Word) (s : State) (hq : r.q < 16)
    (hj : r.job = none) (h : k ≠ r.q) : getQ (finish r st n ws s) k = getQ s k :=
  finish_keeps (P := fun t => getQ t k = getQ s k) st n ws s hq hj
    ((noteResponse_getQ ..).trans (countStatus_getQ_ne _ _ h)) (fun _ _ e => (getQ_modQ_ne _ _ _ _ h).trans e)
    (fun _ _ e => (placeOrWait_getQ_ne _ _ h).trans e) (fun _ _ e => e)

/-! ### The answer on its own queue pair -/

theorem coalesce_getQ (q : Nat) (s : State) :
    (getQ (coalesce q s) q).cmd = (getQ s q).cmd ∧ (getQ (coalesce q s) q).evt.words = (getQ s q).evt.words := by
  unfold coalesce; dsimp only; split
  · simp [getQ_modQ]
  · split <;> simp [getQ_modQ]

/-- A packet that finds room is placed behind the words that are there; the command side stays (R71). -/
theorem placeOrWait_room {q : Nat} {ws : List Word} {s : State} (hw : (getQ s q).evt.waiting = [])
    (hl : evtLevel (getQ s q) + ws.length ≤ 4096) :
    (getQ (placeOrWait q ws s) q).cmd = (getQ s q).cmd ∧
      (getQ (placeOrWait q ws s) q).evt.words = (getQ s q).evt.words ++ markWords ws := by
  have e : placeOrWait q ws s = placePacket q ws s := by
    unfold placeOrWait; simp [hw, hl]
  obtain ⟨h1, h2⟩ := coalesce_getQ q (modQ q (fun x => { x with evt := { x.evt with
    words := x.evt.words ++ markWords ws, wm := markLevel x.evt.wm x.wmEvtCfg (evtLevel x) (evtLevel x + ws.length) } }) s)
  rw [getQ_modQ] at h1 h2
  rw [e]
  exact ⟨h1, h2⟩

/-- What counting does to a queue pair. -/
theorem countQ_getQ {q : Nat} (f : QueCounters → QueCounters) (s : State) (hq : q < 16) :
    getQ (countQ q f s) q = { getQ s q with cnt := f (getQ s q).cnt } := by
  unfold countQ; rw [if_neg (by omega), getQ_modQ]

/-! ### Words the interpreter reads at the start of a packet (R47) -/

theorem answer_inService {r : Req} (ws : List Word) {s : State} (hq : r.q < 16) (he : (getQ s r.q).epoch = r.epoch)
    (hf : (getQ s r.q).faulted = false) : answer r ws s = placeOrWait r.q ws s := by
  unfold answer; rw [if_pos hq, if_pos ⟨he, hf⟩]

/-- ST_BAD_LENGTH is counted (R83) and answered, whatever NR asks for (R33). -/
theorem finish_badLength {r : Req} (n : Nat) (ws : List Word) (s : State) (hj : r.job = none) (ha : r.accepted = false) :
    ∃ f, finish r .badLength n ws s = chainFinal r.q r.pid false
      (answer r (responseWords r.op r.tag .badLength r.late n ws) (countQ r.q f s)) := by
  refine ⟨fun c => { c with badLength := cnt32 c.badLength }, ?_⟩
  unfold finish
  simp [hj, ha, suppressed, endsWell, countStatus, noteResponse]

/-- The answer ST_BAD_LENGTH on a queue pair in service that has room for it. -/
theorem finish_badLength_room {r : Req} (n : Nat) {s : State} (hj : r.job = none) (ha : r.accepted = false) (hq : r.q < 16)
    (he : (getQ s r.q).epoch = r.epoch) (hf : (getQ s r.q).faulted = false) (hw : (getQ s r.q).evt.waiting = [])
    (hl : (getQ s r.q).evt.words.length + 3 ≤ 4096) :
    (getQ (finish r .badLength n [] s) r.q).cmd = (getQ s r.q).cmd ∧
      (getQ (finish r .badLength n [] s) r.q).evt.words = (getQ s r.q).evt.words ++
        markWords [packetHeader r.op false 3, r.tag, statusWord .badLength r.late n] := by
  obtain ⟨f, e⟩ := finish_badLength n [] s hj ha
  have hc := countQ_getQ f s hq
  rw [e, chainFinal_getQ, answer_inService _ hq (by rw [hc]; exact he) (by rw [hc]; exact hf)]
  obtain ⟨h1, h2⟩ := placeOrWait_room (q := r.q) (ws := responseWords r.op r.tag .badLength r.late n [])
    (s := countQ r.q f s) (by rw [hc]; exact hw) (by rw [hc]; exact hl)
  rw [hc] at h1 h2
  exact ⟨h1, h2⟩

theorem interpFail_badLength {q : Nat} (op : Nat) (tag : Word) (n : Nat) {s : State} (hq : q < 16)
    (hf : (getQ s q).faulted = false) (hw : (getQ s q).evt.waiting = []) (hl : (getQ s q).evt.words.length + 3 ≤ 4096) :
    (getQ (interpFail q op tag .badLength n [] s) q).cmd = (getQ s q).cmd ∧
      (getQ (interpFail q op tag .badLength n [] s) q).evt.words = (getQ s q).evt.words ++
        markWords [packetHeader op false 3, tag, statusWord .badLength false n] :=
  finish_badLength_room (r := (enterChain { Req.none with
    op := op, q := q, epoch := (getQ s q).epoch, tag := tag, nr := false, stamp := s.now } s).1) n rfl rfl hq rfl hf hw hl

theorem interpFail_still {q : Nat} (op : Nat) (tag : Word) (st : Status) (n : Nat) (ws : List Word) (s : State)
    (hq : q < 16) : (interpFail q op tag st n ws s).still = s.still := by
  unfold interpFail
  exact finish_still _ _ _ _ hq rfl

/-- R47: a header with LENGTH 0 is answered by itself. -/
theorem readWord_lengthZero {lookup : Nat → Option Desc} {q : Nat} {w : Word} {s : State}
    (hp : (getQ s q).cmd.purge = none) (he : (getQ s q).cmd.part = []) (h0 : fld w 0 15 = 0) :
    readWord lookup q w s = interpFail q (fld w 20 31) 0 .badLength 0xFF30 [] s := by
  unfold readWord
  simp [hp, he, h0]

/-- A header of a longer packet begins it. -/
theorem readWord_header {lookup : Nat → Option Desc} {q : Nat} {w : Word} {s : State}
    (hp : (getQ s q).cmd.purge = none) (he : (getQ s q).cmd.part = []) (h2 : 2 ≤ fld w 0 15) (hn : fld w 0 15 ≤ 4096) :
    (getQ (readWord lookup q w s) q).cmd.part = [w] := by
  have h0 : fld w 0 15 ≠ 0 := by omega
  have h1 : 1 < fld w 0 15 := h2
  unfold readWord
  simp [hp, he, h0, h1, Nat.not_lt.mpr hn, modCmd, getQ_modQ]

/-! ### Numbers of events (R53) -/

theorem descList_op_ne_event : ∀ d ∈ descList, d.op % 256 ≠ 255 := by decide

/-- R53: no command has the number 0xFF of its group. -/
theorem descOf_eventNumber {op : Nat} (h : op % 256 = 255) : descOf op = none := by
  have h1 : op ≠ 0xF01 := by omega
  have h2 : ∀ d ∈ descList, ¬ decide (d.op = op) = true := fun d hd e =>
    descList_op_ne_event d hd (of_decide_eq_true e ▸ h)
  unfold descOf descIn
  rw [if_neg h1]
  exact List.find?_eq_none.mpr h2

/-- Check 2 of R51: an opcode without a command. -/
theorem take_unknown (r : Req) (s : State) : take none r s =
    finish (enterChain { r with stamp := s.now } s).1 .badOpcode 0 [] (enterChain { r with stamp := s.now } s).2.2.2 := rfl

/-! ### A command with EV = 1 (R31) -/

/-- A whole packet that finds its queue pair idle, in service and with room for the answer is taken at once. -/
theorem hostCommand_takes {d : Desc} {c : Cmd} {s : State} (hq : c.q < 16) (hs : cmdShape c = true)
    (hv : queServed s c.q = true) (he : qEnabled (getQ s c.q) = true) (hi : cmdIdle (getQ s c.q).cmd = true)
    (hr : roomFor s c.q (max 3 d.maxResp) = true) :
    hostCommand d descOf c (beginInput c.dt s) =
      take (some d) (reqOfCmd d.op c (getQ s c.q).epoch) (passFifo c.q c.len (beginInput c.dt s)) := by
  obtain ⟨k1, -⟩ := passFifo_evt c.q c.len (beginInput c.dt s) hq
  have hroom : ∀ n, n ≤ max 3 d.maxResp → roomFor (passFifo c.q c.len (beginInput c.dt s)) c.q n = true := fun n hn =>
    roomFor_mono hn (by simp only [roomFor, evtLevel, k1, beginInput_getQ] at hr ⊢; exact hr)
  unfold hostCommand
  rw [if_neg (by omega : c.q ≠ 16)]
  simp only [beginInput_queServed, hv, beginInput_getQ, he, hi, hs, receive, if_true, Bool.not_true, Bool.and_self]
  rw [if_neg Bool.false_ne_true]
  exact if_pos (hroom _ (by split <;> omega))

/-- A taken packet of an allowed LENGTH that fails a check of R51, and not check 3, is answered, and that is all. -/
theorem take_refused {d : Desc} {r0 r : Req} {s0 s : State} {n : Nat} {o : Option Bool} {f : Fail}
    (hr : enterChain { r0 with stamp := s0.now } s0 = (r, n, o, s)) (hl : lengthOk d r = true)
    (hh : headerChecks d r (laneCommand r (countQ r.q (fun c => { c with accepted := cnt32 c.accepted }) s)) = .error f)
    (hf : f.status ≠ .denied) : take (some d) r0 s0 = finish r f.status f.detail f.words
      (laneCommand r (countQ r.q (fun c => { c with accepted := cnt32 c.accepted }) s)) := by
  unfold take
  rw [hr]
  dsimp only
  rw [if_pos hl, hh]
  dsimp only
  rw [if_neg hf]
  rfl

/-- A host command on a free queue pair that fails a check of R51 on its header, other than 3 and 4, is answered: the
answer goes to the packet taken, in the state in which the checks began. -/
theorem arrive_headerFault {d : Desc} {c : Cmd} {s : State} {f : Fail} (hq : c.q < 16) (hs : cmdShape c = true)
    (hv : queServed s c.q = true) (he : qEnabled (getQ s c.q) = true) (hi : cmdIdle (getQ s c.q).cmd = true)
    (hr : roomFor s c.q (max 3 d.maxResp) = true) (hl : lengthOk d (packetTaken d c s).1 = true)
    (hh : headerChecks d (packetTaken d c s).1 (arrived d c s) = .error f) (hf : f.status ≠ .denied) :
    arrive d c s = .next (settle (finish (packetTaken d c s).1 f.status f.detail f.words (arrived d c s))) := by
  have ht : take (some d) (reqOfCmd d.op c (getQ s c.q).epoch) (passFifo c.q c.len (beginInput c.dt s)) =
      finish (packetTaken d c s).1 f.status f.detail f.words (arrived d c s) :=
    take_refused (r := (packetTaken d c s).1) rfl hl hh hf
  unfold arrive
  rw [if_neg (by omega : ¬ 16 < c.q), hostCommand_takes hq hs hv he hi hr, ht]

/-- Check 5 of R51: EV = 1 on a command that checks 2 to 4 admit (R31). -/
theorem headerChecks_event {d : Desc} {r : Req} {a : State} (hb : a.sys.boot ≠ .fault ∨ recoveryOk r.op = true)
    (hg : groupAllows a r (d.isRead r) = true) (hl : lengthOk d r = true) (he : r.ev = true) :
    headerChecks d r a = .error { status := .badParam, detail := 0xFF01, words := [] } := by
  have h2 : (!(decide (a.sys.boot = .fault) && !recoveryOk r.op)) = true := by
    rcases hb with h | h <;> simp [h]
  unfold headerChecks
  rw [need_ok h2, need_ok hg, need_ok hl, he]
  rfl

/-- Without a SOFT_RESET waiting nothing follows an answer. -/
theorem settle_of_still {s t : State} (h : t.still = s.still) (hr : s.sys.softReq = false) : settle t = t := by
  have e : t.still.sys = s.still.sys := by rw [h]
  change t.sys = s.sys at e
  unfold settle
  rw [e, hr]
  rfl

/-- Settles O58: check 5 of R51 on an arriving command, the interpreter's answer to a header of LENGTH 0, and an opcode
that no command has. -/
theorem headerFaultsAnswer : Obligations.HeaderFaultsAnswer := by
  unfold Obligations.HeaderFaultsAnswer
  refine ⟨?event, ?lengthZero, ?opcode⟩
  case event =>
    rintro i d c s a r hd hev hq hs hv he hi hr hsr rfl rfl hb hg hl
    have hst : (finish (packetTaken d c s).1 .badParam 0xFF01 [] (arrived d c s)).still = s.still :=
      (finish_still _ _ _ _ hq rfl).trans (arrived_still d c s)
    refine ⟨_, ?_, rfl, hst, fun k hk => (finish_getQ_ne _ _ _ _ hq rfl hk).trans (arrived_getQ_ne s hk)⟩
    rw [exec_host i d c s hd, arrive_headerFault hq hs hv he hi hr hl (headerChecks_event hb hg hl hev) (by decide),
      settle_of_still hst hsr]
  case lengthZero =>
    rintro q w s t x hq rfl hp he hf hw hl h0 rfl
    obtain ⟨hcmd, hwords⟩ := interpFail_badLength (fld w 20 31) 0 0xFF30 hq hf hw hl
    rw [readWord_lengthZero hp he h0]
    exact ⟨hwords, interpFail_still _ _ _ _ _ _ hq, fun v h2 hn =>
      readWord_header (by rw [hcmd]; exact hp) (by rw [hcmd]; exact he) h2 hn⟩
  case opcode =>
    intro g r s hop
    exact ⟨0, by rw [descOf_eventNumber (by omega : r.op % 256 = 255), take_unknown]⟩

end Sys2Proof.Machine
end

section
/-! PROOFS. The interrupt vectors of chapter 02 (R64): when setting a source's bit sends a message, and which bit it
sets. -/
set_option autoImplicit false

namespace Sys2Proof.Machine

/-- The vector of source k sends a message when the bit is set: the bit changes from 0 to 1, INT_EN has it, and the
table entry is unmasked (R64). -/
def sendsMessage (k : Nat) (s : State) : Prop :=
  s.intStat.getD k false = false ∧ s.intEn.getLsbD k = true ∧ (tabGet s.msix k MsixEntry.init).masked = false

theorem setInt_reserved {k : Nat} (s : State) (h : 23 ≤ k) : setInt k s = s := by
  unfold setInt
  exact if_pos h

@[simp] theorem setInt_intEn (k : Nat) (s : State) : (setInt k s).intEn = s.intEn := by
  unfold setInt
  dsimp only
  (repeat' split) <;> rfl

theorem setInt_intStat {k : Nat} (s : State) (h : k < 23) : (setInt k s).intStat = s.intStat.set k true := by
  unfold setInt
  rw [if_neg (by omega)]
  dsimp only
  (repeat' split) <;> rfl

theorem setInt_out_sent {k : Nat} {s : State} (h : k < 23) (hs : sendsMessage k s) :
    (setInt k s).out = s.out ++ [.msix k] := by
  obtain ⟨hbit, hen, hmask⟩ := hs
  unfold setInt
  rw [if_neg (by omega)]
  simp only [hbit, hen, hmask, Bool.not_false, Bool.and_self, Bool.false_eq_true, if_true, if_false]

theorem setInt_out_silent {k : Nat} {s : State} (hs : ¬ sendsMessage k s) : (setInt k s).out = s.out := by
  unfold setInt
  dsimp only
  split
  case isTrue => rfl
  case isFalse =>
    split
    case isFalse => rfl
    case isTrue hedge =>
      split
      case isTrue => rfl
      case isFalse hmask =>
        simp only [Bool.and_eq_true, Bool.not_eq_true'] at hedge
        exact absurd ⟨hedge.1, hedge.2, Bool.eq_false_iff.mpr hmask⟩ hs

theorem setInt_bit_self {k : Nat} {s : State} (h : k < 23) (hl : s.intStat.length = 32) :
    (setInt k s).intStat.getD k false = true := by
  have hk : k < s.intStat.length := by omega
  simp [setInt_intStat s h, hk]

theorem setInt_bit_ne {j k : Nat} (s : State) (hj : j ≠ k) :
    (setInt k s).intStat.getD j false = s.intStat.getD j false := by
  by_cases h : k < 23
  · simp [setInt_intStat s h, List.getElem?_set_ne hj.symm]
  · rw [setInt_reserved s (by omega)]

/-- Settles O60: the one place where `setInt` adds a message is the branch of `sendsMessage`, and the bit it sets is that
of its own source. -/
theorem interruptMessages : Obligations.InterruptMessages := by
  unfold Obligations.InterruptMessages
  intro k s hl
  refine ⟨setInt_reserved s, fun hk => ⟨?sent, ?silent, setInt_bit_self hk hl, fun _ => setInt_bit_ne s, setInt_intEn k s⟩⟩
  case sent => exact fun hbit hen hmask => setInt_out_sent hk ⟨hbit, hen, hmask⟩
  case silent =>
    refine fun hno => setInt_out_silent fun ⟨hbit, hen, hmask⟩ => ?_
    rcases hno with h | h | h
    · exact Bool.false_ne_true (hbit.symm.trans h)
    · exact Bool.false_ne_true (h.symm.trans hen)
    · exact Bool.false_ne_true (hmask.symm.trans h)

end Sys2Proof.Machine
end

section
/-! PROOFS. The preset of the Loop Engine (R264): its formula, and the law that each of its three uses leaves: a swap
(R265), the tracking of a losing law (R270) and a servo's preset (R354). -/
set_option autoImplicit false

namespace Sys2Proof.Machine

/-- Between bounds in order, the clamp of R263 is the nearest value. -/
theorem clampInt_eq_nearest {lo hi : Int} (x : Int) (h : lo ≤ hi) : clampInt x lo hi = nearest lo hi x := by
  unfold clampInt nearest
  split
  case isTrue hlow => omega
  case isFalse hlow => split <;> omega

theorem sat48_eq_nearest (x : Int) : sat48 x = nearest (-2 ^ 47) (2 ^ 47 - 1) x :=
  clampInt_eq_nearest x (by decide)

theorem presetI_eq_nearest {c : CoefSet} (target p d ff : Int) (h : c.iMin ≤ c.iMax) : presetI c target p d ff =
    nearest (c.iMin * 2 ^ 16) (c.iMax * 2 ^ 16)
      (nearest (-2 ^ 47) (2 ^ 47 - 1) ((target - p - d - ff) * 2 ^ 16)) := by
  have hb : c.iMin * 65536 ≤ c.iMax * 65536 := by omega
  calc presetI c target p d ff
      = nearest (c.iMin * 65536) (c.iMax * 65536) (sat48 ((target - p - d - ff) * 65536)) := clampInt_eq_nearest _ hb
    _ = _ := by rw [sat48_eq_nearest]; rfl

/-- With the active bit turned over, the set in force is the one that was staged. -/
theorem activeSet_flipped (l : Law) : activeSet { l with activeB := !l.activeB, swap := false } = inactiveSet l := by
  unfold activeSet inactiveSet
  cases l.activeB <;> rfl

/-- R265: a pending swap turns the sets over and presets I to the last output under the new set; nothing else changes. -/
theorem swapIn_pending {l : Law} (e ff : Int) (h : l.swap = true) : swapIn l e ff =
    { l with
      activeB := !l.activeB, swap := false,
      i := presetI (inactiveSet l) l.uPrev (termP (inactiveSet l) e) (termD (inactiveSet l) e l.ePrev) ff } := by
  unfold swapIn
  rw [if_pos h]
  dsimp only
  rw [activeSet_flipped]

/-- R270: a losing law with an integral part takes the ceiling as its last output and is preset; nothing else changes. -/
theorem trackLaw_integral {o : LawOut} (top : Int) (h : (activeSet o.law).ki ≠ 0) : trackLaw o top =
    { o.law with uPrev := top, i := presetI (activeSet o.law) (top + o.p) o.p o.d o.ff } := by
  unfold trackLaw
  exact if_neg h

@[simp] theorem servoLaw_setServoLaw (j : Nat) (l : Law) (s : State) : servoLaw (setServoLaw j l s) j = l :=
  getLaw_setLaw (servoSlot s.member j) l s

/-- R354: a servo's preset writes I of its law and nothing else of it. -/
theorem servoLaw_presetServo (j : Nat) (s : State) : servoLaw (presetServo j s) j =
    { servoLaw s j with
      i := presetI (activeSet (servoLaw s j)) (servoLaw s j).uPrev (termP (activeSet (servoLaw s j)) 0)
        (termD (activeSet (servoLaw s j)) 0 (servoLaw s j).ePrev) 0 } :=
  servoLaw_setServoLaw j _ s

/-- Settles O59: the clamps of a preset are nearest values, and each of its three uses writes I by it and leaves E_PREV. -/
theorem presetFormula : Obligations.PresetFormula := by
  unfold Obligations.PresetFormula
  refine ⟨?formula, ?swap, ?tracking, ?servo⟩
  case formula => exact fun _ target p d ff hb => presetI_eq_nearest target p d ff hb
  case swap =>
    intro l e ff hs
    rw [swapIn_pending e ff hs]
    exact ⟨rfl, rfl⟩
  case tracking =>
    intro o top hk
    rw [trackLaw_integral top hk]
    exact ⟨rfl, rfl⟩
  case servo =>
    rintro j s _ rfl
    rw [servoLaw_presetServo]
    exact ⟨rfl, rfl⟩

end Sys2Proof.Machine
end

section
/-! PROOFS. The packet as words (R29, R32, R46 to R50): its fields read back what was written, and every opcode leads to
its own command. -/
set_option autoImplicit false

namespace Sys2Proof.Machine

/-! ### The words of a packet -/

theorem natOfBool_le_one (b : Bool) : natOfBool b ≤ 1 := by cases b <;> decide

theorem natOfBool_eq_one (b : Bool) : decide (natOfBool b = 1) = b := by cases b <;> rfl

/-- The low and high words of a number read back as the number, modulo 64 bits. -/
theorem words64_read (n : Nat) : (wordOf n).toNat + 2 ^ 32 * (wordOf (n / 2 ^ 32)).toNat = n % 2 ^ 64 := by
  simp only [wordOf, BitVec.toNat_ofNat]
  omega

/-- The number of a packet's header: its opcode, its four flags and its LENGTH (R29, R46). -/
def headerNumber (op : Nat) (c : Cmd) : Nat :=
  op * 1048576 + natOfBool c.ev * 524288 + natOfBool c.at_ * 262144 + natOfBool c.nr * 131072 + natOfBool c.ch * 65536 +
    c.len % 65536

theorem cmdWords_eq (op : Nat) (c : Cmd) :
    cmdWords op c = wordOf (headerNumber op c) :: c.tag :: ((if c.at_ then words64 c.execAt else []) ++ c.params) := rfl

section
variable {op : Nat} {c : Cmd}

theorem header_len (hl : c.len ≤ 4096) : fld (wordOf (headerNumber op c)) 0 15 = c.len := by
  rw [fld_wordOf _ _ _ (by decide) (by decide)]
  unfold headerNumber
  omega

theorem header_op (ho : op < 4096) : fld (wordOf (headerNumber op c)) 20 31 = op := by
  have := natOfBool_le_one c.ev
  have := natOfBool_le_one c.at_
  have := natOfBool_le_one c.nr
  have := natOfBool_le_one c.ch
  rw [fld_wordOf _ _ _ (by decide) (by decide)]
  unfold headerNumber
  omega

/-- Each flag of the header stands above the fields below it, which stay under its weight. -/
theorem header_flags : bitAt (wordOf (headerNumber op c)) 19 = c.ev ∧ bitAt (wordOf (headerNumber op c)) 18 = c.at_ ∧
    bitAt (wordOf (headerNumber op c)) 17 = c.nr ∧ bitAt (wordOf (headerNumber op c)) 16 = c.ch := by
  have := natOfBool_le_one c.ev
  have := natOfBool_le_one c.at_
  have := natOfBool_le_one c.nr
  have := natOfBool_le_one c.ch
  have e19 : headerNumber op c / 2 ^ 19 % 2 = natOfBool c.ev := by unfold headerNumber; omega
  have e18 : headerNumber op c / 2 ^ 18 % 2 = natOfBool c.at_ := by unfold headerNumber; omega
  have e17 : headerNumber op c / 2 ^ 17 % 2 = natOfBool c.nr := by unfold headerNumber; omega
  have e16 : headerNumber op c / 2 ^ 16 % 2 = natOfBool c.ch := by unfold headerNumber; omega
  refine ⟨?_, ?_, ?_, ?_⟩ <;> rw [bitAt_wordOf _ _ (by decide)]
  · rw [e19, natOfBool_eq_one]
  · rw [e18, natOfBool_eq_one]
  · rw [e17, natOfBool_eq_one]
  · rw [e16, natOfBool_eq_one]

theorem cmdShape_parts (h : cmdShape c = true) :
    c.len = 2 + (if c.at_ then 2 else 0) + c.params.length ∧ c.len ≤ 4096 := by
  simpa [cmdShape] using h

theorem cmdWords_length (h : cmdShape c = true) : (cmdWords op c).length = c.len := by
  rw [cmdWords_eq, (cmdShape_parts h).1]
  cases c.at_ <;> simp [words64] <;> omega

/-- R46: the interpreter reads the command back from its words. -/
theorem reqOfWords_cmdWords (ep : Nat) (ho : op < 4096) (h : cmdShape c = true) :
    reqOfWords c.q ep (cmdWords op c) c.net = reqOfCmd op c ep := by
  obtain ⟨hev, hat, hnr, hch⟩ := header_flags (op := op) (c := c)
  have hlen := header_len (op := op) (cmdShape_parts h).2
  have hop := header_op (c := c) ho
  rw [cmdWords_eq]
  unfold reqOfWords reqOfCmd
  simp only [List.getD_cons_zero, List.getD_cons_succ, hev, hat, hnr, hch, hlen, hop]
  cases c.at_
  case false => rfl
  case true =>
    simp only [if_true, words64, List.cons_append, List.nil_append, List.getD_cons_zero, List.getD_cons_succ, words64_read]
    rfl

end

/-! ### The opcode index -/

/-- R61: the opcode of a host command fits its field and leads to the command's own descriptor. -/
theorem hostDesc_indexed (i : Instr) (d : Desc) (c : Cmd) (h : hostDesc i = some (d, c)) :
    d.op < 4096 ∧ descOf d.op = some d := by
  cases i <;> simp only [hostDesc, Option.some.injEq, Prod.mk.injEq, reduceCtorEq] at h <;> obtain ⟨rfl, rfl⟩ := h <;>
    exact ⟨by decide, rfl⟩

/-- Settles O55: the fields of the header one by one, then the words after it, and the index of opcodes. -/
theorem packetRoundTrip : Obligations.PacketRoundTrip := by
  unfold Obligations.PacketRoundTrip
  refine ⟨fun op ep c ho hs => ⟨reqOfWords_cmdWords ep ho hs, cmdWords_length hs, ?header⟩, hostDesc_indexed⟩
  case header =>
    intro w r hw
    rw [cmdWords_eq] at hw
    injection hw with hw
    exact hw ▸ ⟨header_len (cmdShape_parts hs).2, header_op ho⟩

end Sys2Proof.Machine
end

section
/-! PROOFS. The host side keeps its tables in every step (R64, R69, R71): the rows of the host by what arrives under their
descriptors, every other row by its own law. -/
set_option autoImplicit false

namespace Sys2Proof.Machine

variable {m : Member} {p : List Instr}

/-- The effect of every host command keeps the host side. -/
theorem hostDesc_keeps {i : Instr} {d : Desc} {c : Cmd} (hi : hostDesc i = some (d, c)) : d.Keeps m p :=
  descOf_keepsHost d.op d (hostDesc_indexed i d c hi).2

theorem exec_host_keepsHost {i : Instr} {d : Desc} {c : Cmd} {s t : State} (hi : hostDesc i = some (d, c))
    (e : exec i s = .next t) (h : HostOk m p s.view) : HostOk m p t.view :=
  arrive_keepsHost d (hostDesc_keeps hi) c s t ((exec_host i d c s hi).symm.trans e) h

/-- Every row of the table keeps the member, the commands that wait and the registers of the host side. -/
theorem exec_keepsHost (i : Instr) {s t : State} (e : exec i s = .next t) (h : HostOk m p s.view) :
    HostOk m p t.view := by
  cases i
  case writePortWrite => exact execWritePortWrite_keepsHost _ _ _ _ _ _ _ e h
  case doorbellWrite => exact execDoorbellWrite_keepsHost _ _ _ _ e h
  case readPortRead => exact execReadPortRead_keepsHost _ _ _ _ _ _ e h
  case queReset => exact execQueReset_keepsHost _ _ _ _ e h
  case w1cFlagClear => exact execW1cFlagClear_keepsHost _ _ _ _ _ _ e h
  case watermarkFlagClear => exact execWatermarkFlagClear_keepsHost _ _ _ _ _ _ e h
  case occCounterRead => exact execOccCounterRead_keepsHost _ _ _ _ _ _ e h
  case intStatClear => exact execIntStatClear_keepsHost _ _ _ _ _ e h
  case sysResetWrite => exact execSysResetWrite_keepsHost _ _ _ _ e h
  case timeSnapRead => exact execTimeSnapRead_keepsHost _ _ _ e h
  case barAccessFault => exact execBarAccessFault_keepsHost _ _ _ _ _ e h
  case registerWrite => exact execRegisterWrite_keepsHost _ _ _ _ _ e h
  case strandTimeout => exact execStrandTimeout_keepsHost _ _ _ e h
  case commandTaken => exact execCommandTaken_keepsHost _ _ _ _ e h
  case completionPlaced => exact execCompletionPlaced_keepsHost _ _ _ e h
  case pushRingWrite => exact execPushRingWrite_keepsHost _ _ _ e h
  case coalTimeout => exact execCoalTimeout_keepsHost _ _ _ e h
  case chainRelease => exact execChainRelease_keepsHost _ _ _ _ e h
  case execAtDue => exact execExecAtDue_keepsHost _ _ e h
  case ppsAlignedApply => exact execPpsAlignedApply_keepsHost _ _ e h
  case mgmtDatagram => exact execMgmtDatagram_keepsHost _ _ _ _ _ _ e h
  case tickBoundary => exact execTickBoundary_keepsHost _ _ _ e h
  case tickComplete => exact execTickComplete_keepsHost _ _ _ e h
  case tickDeadline => exact execTickDeadline_keepsHost _ _ e h
  case goEmission => exact execGoEmission_keepsHost _ _ e h
  case watchdogExpire => exact execWatchdogExpire_keepsHost _ _ e h
  case gnssMsTick => exact execGnssMsTick_keepsHost _ _ _ _ e h
  case notchSearch => exact execNotchSearch_keepsHost _ _ _ e h
  case channelAssign => exact execChannelAssign_keepsHost _ _ _ e h
  case acqSearchDone => exact execAcqSearchDone_keepsHost _ _ _ _ _ _ e h
  case acqTimeout => exact execAcqTimeout_keepsHost _ _ _ e h
  case biasFault => exact execBiasFault_keepsHost _ _ _ _ _ _ _ e h
  case biasRetry => exact execBiasRetry_keepsHost _ _ _ _ _ e h
  case measEpoch => exact execMeasEpoch_keepsHost _ _ _ e h
  case navUnitDecoded => exact execNavUnitDecoded_keepsHost _ _ _ _ e h
  case pvtSolution => exact execPvtSolution_keepsHost _ _ _ e h
  case telem => exact execTelem_keepsHost _ _ _ _ e h
  case obs => exact execObs_keepsHost _ _ _ _ e h
  case ack => exact execAck_keepsHost _ _ _ _ e h
  case join => exact execJoin_keepsHost _ _ _ _ e h
  case sessionTimeout => exact execSessionTimeout_keepsHost _ _ _ e h
  case rekeyDue => exact execRekeyDue_keepsHost _ _ _ _ e h
  case rekeyAbandon => exact execRekeyAbandon_keepsHost _ _ _ e h
  case stopBurstFrame => exact execStopBurstFrame_keepsHost _ _ _ e h
  case epochWaitExpire => exact execEpochWaitExpire_keepsHost _ _ _ e h
  case roverSolveStart => exact execRoverSolveStart_keepsHost _ _ _ e h
  case roverFixPublish => exact execRoverFixPublish_keepsHost _ _ _ _ e h
  case commitComputeDone => exact execCommitComputeDone_keepsHost _ _ _ e h
  case rerouteResult => exact execRerouteResult_keepsHost _ _ _ _ _ e h
  case allotPeriod => exact execAllotPeriod_keepsHost _ _ e h
  case allotRoundEnd => exact execAllotRoundEnd_keepsHost _ _ _ e h
  case proposalLapse => exact execProposalLapse_keepsHost _ _ e h
  case taskServiceElapsed => exact execTaskServiceElapsed_keepsHost _ _ _ e h
  case contactQualified => exact execContactQualified_keepsHost _ _ _ _ _ _ e h
  case estopPadChange => exact execEstopPadChange_keepsHost _ _ _ _ _ e h
  case discTimeout => exact execDiscTimeout_keepsHost _ _ e h
  case partnerStopSymbol => exact execPartnerStopSymbol_keepsHost _ _ _ e h
  case internalFault => exact execInternalFault_keepsHost _ _ _ _ _ e h
  case ctrlLimitExpire => exact execCtrlLimitExpire_keepsHost _ _ e h
  case robotCtrlLimitExpire => exact execRobotCtrlLimitExpire_keepsHost _ _ _ e h
  case proofIntervalDue => exact execProofIntervalDue_keepsHost _ _ e h
  case proofTestPart => exact execProofTestPart_keepsHost _ _ _ _ _ _ e h
  case resetInputEdge => exact execResetInputEdge_keepsHost _ _ _ e h
  case resetArmTimeout => exact execResetArmTimeout_keepsHost _ _ e h
  case jobDispatch => exact execJobDispatch_keepsHost _ _ _ _ e h
  case jobComplete => exact execJobComplete_keepsHost _ _ _ _ e h
  case jobRevoke => exact execJobRevoke_keepsHost _ _ _ e h
  case hostJobFinal => exact execHostJobFinal_keepsHost _ _ _ _ e h
  case ethFrameRx => exact execEthFrameRx_keepsHost _ _ _ _ e h
  case ageScan => exact execAgeScan_keepsHost _ _ _ e h
  case linkPoll => exact execLinkPoll_keepsHost _ _ _ _ e h
  case servoSecond => exact execServoSecond_keepsHost _ _ _ e h
  case sourceQualify => exact execSourceQualify_keepsHost _ _ _ _ _ e h
  case wtrExpire => exact execWtrExpire_keepsHost _ _ e h
  case sourceLost => exact execSourceLost_keepsHost _ _ _ _ e h
  case asymHoldExpire => exact execAsymHoldExpire_keepsHost _ _ e h
  case asymEstimateSettled => exact execAsymEstimateSettled_keepsHost _ _ e h
  case timeNormalEntry => exact execTimeNormalEntry_keepsHost _ _ _ e h
  case bootWaitExpire => exact execBootWaitExpire_keepsHost _ _ e h
  case extRefLoss => exact execExtRefLoss_keepsHost _ _ _ e h
  case refSelect => exact execRefSelect_keepsHost _ _ _ e h
  case ppsInEdge => exact execPpsInEdge_keepsHost _ _ _ e h
  case todSentence => exact execTodSentence_keepsHost _ _ _ _ e h
  case ptpMessageRx => exact execPtpMessageRx_keepsHost _ _ _ _ e h
  case ptpAnnounceTimeout => exact execPtpAnnounceTimeout_keepsHost _ _ _ _ e h
  case recordCommit => exact execRecordCommit_keepsHost _ _ _ e h
  case auditStageTimeout => exact execAuditStageTimeout_keepsHost _ _ _ e h
  case recSuppressSecond => exact execRecSuppressSecond_keepsHost _ _ e h
  case actInLoss => exact execActInLoss_keepsHost _ _ _ e h
  case deadTimeExpire => exact execDeadTimeExpire_keepsHost _ _ e h
  case takeoverComplete => exact execTakeoverComplete_keepsHost _ _ _ e h
  case actCollision => exact execActCollision_keepsHost _ _ _ e h
  case arbitrationTimeout => exact execArbitrationTimeout_keepsHost _ _ e h
  case switchTicksExpire => exact execSwitchTicksExpire_keepsHost _ _ e h
  case mirror => exact execMirror_keepsHost _ _ _ _ _ e h
  case input => exact execInput_keepsHost _ _ _ _ _ e h
  case base => exact execBase_keepsHost _ _ _ _ _ _ e h
  case released => exact execReleased_keepsHost _ _ _ _ _ e h
  case health => exact execHealth_keepsHost _ _ _ _ _ _ _ _ e h
  case laneError => exact execLaneError_keepsHost _ _ _ e h
  case hexluxLaneChange => exact execHexluxLaneChange_keepsHost _ _ _ _ _ _ e h
  case resyncComplete => exact execResyncComplete_keepsHost _ _ _ _ e h
  case selftestCycleDone => exact execSelftestCycleDone_keepsHost _ _ _ _ _ _ e h
  case vinOn => exact execVinOn_keepsHost _ _ _ e h
  case enRise => exact execEnRise_keepsHost _ _ _ e h
  case enFall => exact execEnFall_keepsHost _ _ _ e h
  case vinSupFall => exact execVinSupFall_keepsHost _ _ _ e h
  case vinLow => exact execVinLow_keepsHost _ _ _ _ e h
  case vinHigh => exact execVinHigh_keepsHost _ _ _ _ e h
  case vinFaultCease => exact execVinFaultCease_keepsHost _ _ _ _ _ e h
  case bootReady => exact execBootReady_keepsHost _ _ _ e h
  case updIdleTimeout => exact execUpdIdleTimeout_keepsHost _ _ e h
  case updVerifyDone => exact execUpdVerifyDone_keepsHost _ _ _ e h
  case updBankLoaded => exact execUpdBankLoaded_keepsHost _ _ _ e h
  case doff => exact execDoff_keepsHost _ _ _ e h
  case confirmWindowExpire => exact execConfirmWindowExpire_keepsHost _ _ e h
  case revertRestart => exact execRevertRestart_keepsHost _ _ _ e h
  case cfgSessionTimeout => exact execCfgSessionTimeout_keepsHost _ _ e h
  case scrub => exact execScrub_keepsHost _ _ _ _ _ _ _ e h
  case eccUncorrectable => exact execEccUncorrectable_keepsHost _ _ _ _ _ _ e h
  case unitFailure => exact execUnitFailure_keepsHost _ _ _ _ e h
  case marginReplan => exact execMarginReplan_keepsHost _ _ _ _ _ _ _ e h
  case lidTempSample => exact execLidTempSample_keepsHost _ _ _ _ e h
  case throttleStep => exact execThrottleStep_keepsHost _ _ e h
  case junctionOvertemp => exact execJunctionOvertemp_keepsHost _ _ _ e h
  case fwAliveTimeout => exact execFwAliveTimeout_keepsHost _ _ e h
  case discrepancyClear => exact execDiscrepancyClear_keepsHost _ _ e h
  case actInActive => exact execActInActive_keepsHost _ _ _ e h
  case pfaultInChange => exact execPfaultInChange_keepsHost _ _ _ _ e h
  case perstNChange => exact execPerstNChange_keepsHost _ _ _ _ e h
  case pcieLinkError => exact execPcieLinkError_keepsHost _ _ _ _ e h
  case portLinkChange => exact execPortLinkChange_keepsHost _ _ _ _ _ _ e h
  case egressFrameSent => exact execEgressFrameSent_keepsHost _ _ _ _ e h
  case uartCByteSent => exact execUartCByteSent_keepsHost _ _ _ _ e h
  case powerDownEnd => exact execPowerDownEnd_keepsHost _ _ e h
  case softResetReady => exact execSoftResetReady_keepsHost _ _ _ e h
  all_goals exact exec_host_keepsHost rfl e h

theorem hostInv_of_hostOk {s : State} (h : HostOk m p s.view) : HostInv s := h.2.2

/-- Settles O54: an idle step changes nothing, and a row keeps more than the invariant. -/
theorem stepKeepsHostInv : Obligations.StepKeepsHostInv := by
  unfold Obligations.StepKeepsHostInv
  intro s t h e
  unfold step at e
  split at e
  next => cases e; exact h
  next c rest hp =>
    exact hostInv_of_hostOk (exec_keepsHost c e (m := s.member) (p := rest) ⟨rfl, rfl, h⟩)

end Sys2Proof.Machine
end

section
/-! PROOFS. How the answer of a host command follows from its own checks and effect (R51), for the statements about what each
command answers: the rules for checks, the fields of the packet as it arrived, and the two forms of answer. -/
set_option autoImplicit false

namespace Sys2Proof.Machine

/-! ### Checks -/

/-- A check that holds leaves the outcome to what comes after it. -/
theorem need_passes {α : Type} {b : Bool} {st : Status} {n : Nat} {f : Unit → Except Fail α} {x : Except Fail α}
    (h : b = true) (hf : f () = x) : (need b st n >>= f) = x := by subst h; exact hf

/-- The same for a check that is made of others. -/
theorem checks_pass {α : Type} {x : Except Fail Unit} {f : Unit → Except Fail α} {y : Except Fail α} (h : x = .ok ())
    (hf : f () = y) : (x >>= f) = y := by subst h; exact hf

/-- A check that was met holds. -/
theorem of_need_ok {b : Bool} {st : Status} {n : Nat} (h : need b st n = .ok ()) : b = true := by
  unfold need at h
  split at h
  · assumption
  · cases h

/-! ### Fields of a word that is 0 -/

@[simp] theorem fld_zero (lo hi : Nat) : fld 0 lo hi = 0 := by simp [fld]

@[simp] theorem bitAt_zero (i : Nat) : bitAt 0 i = false := by simp [bitAt]

@[simp] theorem onlyBits_zero (mask : Nat) : onlyBits 0 mask = true := by simp [onlyBits]

/-! ### The packet as it arrived -/

section
variable {d : Desc} {c : Cmd} {s : State}

@[simp] theorem arrivedReq_params : (arrivedReq d c s).params = c.params := rfl

@[simp] theorem arrivedReq_q : (arrivedReq d c s).q = c.q := rfl

@[simp] theorem arrivedReq_op : (arrivedReq d c s).op = d.op := rfl

@[simp] theorem arrivedReq_tag : (arrivedReq d c s).tag = c.tag := rfl

@[simp] theorem arrivedReq_net : (arrivedReq d c s).net = c.net := rfl

@[simp] theorem arrivedReq_job : (arrivedReq d c s).job = none := rfl

@[simp] theorem arrivedReq_at : (arrivedReq d c s).at_ = c.at_ := rfl

@[simp] theorem arrivedReq_late : (arrivedReq d c s).late = false := rfl

@[simp] theorem arrivedReq_accepted : (arrivedReq d c s).accepted = false := rfl

/-- Parameter word P+k of the packet is that of the command as the module holds it. -/
theorem arg_eq_par (d : Desc) (c : Cmd) (s : State) (k : Nat) : arg c k = par (arrivedReq d c s) k := by
  unfold par arg; rw [arrivedReq_params]

@[simp] theorem par_arrivedReq (k : Nat) : par (arrivedReq d c s) k = arg c k := (arg_eq_par d c s k).symm

@[simp] theorem spar_arrivedReq (k : Nat) : spar (arrivedReq d c s) k = (arg c k).toInt := by
  unfold spar; rw [par_arrivedReq]

@[simp] theorem par64_arrivedReq (k : Nat) : par64 (arrivedReq d c s) k = arg64 c k := by
  unfold par64 arg64; rw [par_arrivedReq, par_arrivedReq]

@[simp] theorem spar64_arrivedReq (k : Nat) : spar64 (arrivedReq d c s) k = sarg64 c k := by
  unfold spar64 sarg64; rw [par64_arrivedReq]

/-- LENGTH counts the header, the tag and the parameters (R46). -/
theorem lenNoAt_arrivedReq (h : unhindered d c s = true) : lenNoAt (arrivedReq d c s) = c.params.length + 2 := by
  obtain ⟨-, -, hat, hs, -⟩ := unhindered_parts h
  have hl := (cmdShape_parts hs).1
  simp only [hat, Bool.false_eq_true, if_false] at hl
  have e : lenNoAt (arrivedReq d c s) = if c.at_ then c.len - 2 else c.len := rfl
  rw [e, hat, hl]
  simp only [Bool.false_eq_true, if_false]
  omega

/-- Nothing hinders a command but on a queue pair (`unhindered`). -/
theorem unhindered_queue (h : unhindered d c s = true) : c.q < 16 := (unhindered_parts h).1

end

/-! ### The two forms of answer -/

section
variable {i : Cmd → Instr} {d d0 : Desc} {c : Cmd} {s : State} {cond : State → Prop} {ws : State → List Word}
  {eff : State → State}

/-- A command whose own checks and effect answer ST_OK answers it. -/
theorem exec_answered {t : State} {n : Nat} {v : List Word} (hi : hostDesc (i c) = some (d, c))
    (h : unhindered d c s = true) (hb : d.body (arrivedReq d c s) (arrived d c s) = .ok (t, .ok n v)) :
    exec (i c) s = answered d c s n v t := by
  rw [exec_host _ _ _ _ hi, arrive_answered h hb]

theorem exec_deferred {t : State} (hi : hostDesc (i c) = some (d, c)) (h : unhindered d c s = true)
    (hb : d.body (arrivedReq d c s) (arrived d c s) = .ok (t, .later false)) : exec (i c) s = deferred d c s t := by
  rw [exec_host _ _ _ _ hi, arrive_deferred h hb]

theorem answersWith_of_body (hi : hostDesc (i c) = some (d, c))
    (hb : unhindered d c s = true → ∀ a, cond a → d.body (arrivedReq d c s) a = .ok (eff a, .ok 0 (ws a))) :
    AnswersWith i d c s cond ws eff := fun h hc => exec_answered hi h (hb h _ hc)

theorem acceptedWith_of_body (hi : hostDesc (i c) = some (d, c))
    (hb : unhindered d c s = true → ∀ a, cond a → d.body (arrivedReq d c s) a = .ok (eff a, .later false)) :
    AcceptedWith i d c s cond eff := fun h hc => exec_deferred hi h (hb h _ hc)

/-- The lock of an unhindered command is open (R51, check 7). -/
theorem lock_arrived (h : unhindered d c s = true) : d.lock (packetTaken d c s).1 (arrived d c s) = .ok () := by
  obtain ⟨-, -, -, -, -, -, -, -, hd⟩ := unhindered_parts h
  obtain ⟨-, -, -, -, -, -, u, hu⟩ := admits_parts hd
  exact hu

/-- A packet whose LENGTH is that of its form meets its command's own checks (R30). -/
theorem formLen_body {f : Req → Option Nat} {r : Req} (a : State) (h : ∀ n, f r = some n → lenNoAt r = n) :
    (d.formLen f).body r a = d.body r a := by
  unfold Desc.formLen
  dsimp only
  split
  case h_1 n e => exact if_pos (h n e)
  case h_2 => rfl

theorem formLen_answered {f : Req → Option Nat} {body : Req → State → Res} {r : Req} {n : Nat} {a : State} {x : Res}
    (hd : d = d0.formLen f) (hb : d0.body = body) (hl : lenNoAt r = n) (hf : f r = some n) (hx : body r a = x) :
    d.body r a = x := by
  subst hd hb
  rw [formLen_body a fun k hk => hl.trans (Option.some.inj (hf.symm.trans hk)), hx]

/-- The same for a command whose forms differ in LENGTH: the form's LENGTH is that of its parameters. -/
theorem answersWith_of_form (body : Req → State → Res) (f : Req → Option Nat) (hi : hostDesc (i c) = some (d, c))
    (hd : d = d0.formLen f) (hb : d0.body = body)
    (h : unhindered d c s = true → ∀ a, cond a →
      f (arrivedReq d c s) = some (c.params.length + 2) ∧ body (arrivedReq d c s) a = .ok (eff a, .ok 0 (ws a))) :
    AnswersWith i d c s cond ws eff :=
  answersWith_of_body hi fun hu a hc => formLen_answered hd hb (lenNoAt_arrivedReq hu) (h hu a hc).1 (h hu a hc).2

/-- The same where the command's checks look at its lock again. -/
theorem answersWith_of_lockedForm (body : Req → State → Res) (f : Req → Option Nat) (hi : hostDesc (i c) = some (d, c))
    (hd : d = d0.formLen f) (hb : d0.body = body)
    (h : unhindered d c s = true → ∀ a, d.lock (packetTaken d c s).1 a = .ok () → cond a →
      f (arrivedReq d c s) = some (c.params.length + 2) ∧ body (arrivedReq d c s) a = .ok (eff a, .ok 0 (ws a))) :
    AnswersWith i d c s cond ws eff := fun hu hc =>
  have hx := h hu _ (lock_arrived hu) hc
  exec_answered hi hu (formLen_answered hd hb (lenNoAt_arrivedReq hu) hx.1 hx.2)

theorem answersWith_of_lockedBody (hi : hostDesc (i c) = some (d, c))
    (hb : unhindered d c s = true → ∀ a, d.lock (packetTaken d c s).1 a = .ok () → cond a →
      d.body (arrivedReq d c s) a = .ok (eff a, .ok 0 (ws a))) :
    AnswersWith i d c s cond ws eff := fun h hc => exec_answered hi h (hb h _ (lock_arrived h) hc)

theorem acceptedWith_of_lockedBody (hi : hostDesc (i c) = some (d, c))
    (hb : unhindered d c s = true → ∀ a, d.lock (packetTaken d c s).1 a = .ok () → cond a →
      d.body (arrivedReq d c s) a = .ok (eff a, .later false)) :
    AcceptedWith i d c s cond eff := fun h hc => exec_deferred hi h (hb h _ (lock_arrived h) hc)

end

end Sys2Proof.Machine
end

section
/-! PROOFS. The SYS group (chapters 01 to 03): its reads, the change of the tick, and the soft reset. -/
set_option autoImplicit false

namespace Sys2Proof.Machine

/-- Settles O1: no check stands before the first three; the set and its index are the checks of GET_COUNTERS. -/
theorem sysReadsAnswer : Obligations.SysReadsAnswer := by
  unfold Obligations.SysReadsAnswer
  intro c s
  refine ⟨fun h => exec_answered rfl h rfl, fun h => exec_answered rfl h rfl, fun h => exec_answered rfl h rfl, ?_⟩
  rintro h hb a rfl k rfl
  refine ⟨fun hset hk => exec_answered rfl h ?que, fun hset => exec_answered rfl h ?sec,
    fun hset => exec_answered rfl h ?pcie⟩
  case que =>
    refine need_passes hb (need_passes (by simpa [hset] using hk) ?_)
    exact if_pos hset
  case sec =>
    refine need_passes hb (need_passes (by simp [hset]) ?_)
    simp only [par_arrivedReq, hset]
    rfl
  case pcie =>
    refine need_passes hb (need_passes (by simp [hset]) ?_)
    simp only [par_arrivedReq, hset]
    rfl

/-- SET_TICK asks for a change of PERIOD. -/
def changesPeriod (a : State) (p : Nat) : Bool := decide (p ≠ 0) && decide (p ≠ periodAt a (nextBoundary a))

section
variable {r : Req} {a : State} {o : Nat}

/-- The checks of SET_TICK on each field by itself. -/
def tickFieldsOk (r : Req) : Prop :=
  (onlyBits (par r 0) 0xFFFF && onlyBits (par r 1) 0xFFFF) = true ∧
    (decide (fld (par r 0) 0 7 = 0) || [2, 4, 5, 10, 20].contains (fld (par r 0) 0 7)) = true ∧
    (decide (fld (par r 0) 8 15 = 0) || (decide (5 ≤ fld (par r 0) 8 15) && decide (fld (par r 0) 8 15 ≤ 50))) = true

theorem setTickBody_same (hf : tickFieldsOk r) (ho : fld (par r 1) 0 15 = o)
    (hc : changesPeriod a (fld (par r 0) 0 7) = false) (hlo : 100 ≤ if o = 0 then offsetAt a (nextBoundary a) else o)
    (hhi : (if o = 0 then offsetAt a (nextBoundary a) else o) ≤ periodAt a (nextBoundary a) * 250) :
    setTickBody r a = .ok ({ a with tick := { a.tick with
      changes := a.tick.changes ++ [{ second := 0, period := 0, guard := fld (par r 0) 8 15, offset := o }] } },
      .ok 0 [wordOf (nextBoundary a / nsPerSec)]) := by
  subst ho
  obtain ⟨hmasks, hperiod, hguard⟩ := hf
  unfold changesPeriod at hc
  unfold setTickBody
  dsimp only
  simp only [hc, Bool.false_eq_true, if_false]
  exact need_passes hmasks (need_passes hperiod (need_passes hguard
    (need_passes (by simp only [hlo, hhi, decide_true, Bool.and_self]) rfl)))

theorem setTickBody_change (hf : tickFieldsOk r) (ho : fld (par r 1) 0 15 = o)
    (hc : changesPeriod a (fld (par r 0) 0 7) = true)
    (hlo : 100 ≤ if o = 0 then offsetAt a (ceilDiv (nextBoundary a) nsPerSec * nsPerSec) else o)
    (hhi : (if o = 0 then offsetAt a (ceilDiv (nextBoundary a) nsPerSec * nsPerSec) else o) ≤ fld (par r 0) 0 7 * 250)
    (hidle : anySpindleActive a = false) :
    setTickBody r a = .ok ({ a with tick := { a.tick with
      changes := a.tick.changes ++ [{ second := ceilDiv (nextBoundary a) nsPerSec, period := fld (par r 0) 0 7,
                                      guard := fld (par r 0) 8 15, offset := o }] } },
      .ok 0 [wordOf (ceilDiv (nextBoundary a) nsPerSec)]) := by
  subst ho
  obtain ⟨hmasks, hperiod, hguard⟩ := hf
  have hsec : ceilDiv (nextBoundary a) nsPerSec * nsPerSec / nsPerSec = ceilDiv (nextBoundary a) nsPerSec :=
    Nat.mul_div_cancel _ (by decide)
  unfold changesPeriod at hc
  unfold setTickBody
  dsimp only
  simp only [hc, if_true, hsec]
  exact need_passes hmasks (need_passes hperiod (need_passes hguard
    (need_passes (by simp only [hlo, hhi, decide_true, Bool.and_self]) (need_passes (by rw [hidle]; rfl) rfl))))

end

/-- Settles O2: without a change of PERIOD the boundary and the period in force are the next ones, with one they are the
whole second's and the new period. -/
theorem setTickKept : Obligations.SetTickKept := by
  unfold Obligations.SetTickKept
  rintro c s a p g o b rfl rfl h hm0 hm1 hp hg ho hper hgu
  simp only [arg_eq_par descSetTick c s] at *
  have hf : tickFieldsOk (arrivedReq descSetTick c s) := by
    refine ⟨by rw [hm0, hm1]; rfl, ?_, ?_⟩
    · rw [hp]; simpa using hper
    · rw [hg]; simpa using hgu
  subst hp hg
  refine ⟨fun hsame hlo hhi => exec_answered rfl h (setTickBody_same hf ho ?same hlo hhi),
    fun hp0 hpn hlo hhi hidle => exec_answered rfl h (setTickBody_change hf ho ?change hlo hhi hidle)⟩
  case same =>
    unfold changesPeriod
    rcases hsame with e | e <;> rw [e] <;> simp
  case change =>
    unfold changesPeriod
    rw [decide_eq_true hp0, decide_eq_true hpn]
    rfl

/-- The final status of a command leaves the order to reset. -/
theorem finish_softReq {d : Desc} {c : Cmd} {s0 : State} (st : Status) (n : Nat) (ws : List Word) {s : State}
    (hq : c.q < 16) (hs : s.sys.softReq = true) : (finish (arrivedReq d c s0) st n ws s).sys.softReq = true := by
  have h : (finish (arrivedReq d c s0) st n ws s).still = s.still := finish_still _ _ _ _ hq rfl
  have e : (finish (arrivedReq d c s0) st n ws s).still.sys = s.still.sys := by rw [h]
  exact (congrArg Sys.softReq e).trans hs

/-- R82: an order to reset is carried out. -/
theorem settle_softReq {s : State} (h : s.sys.softReq = true) : settle s = softReset s := if_pos h

/-- Settles O3: the answer leaves the reset that it asked for, and `settle` carries it out. -/
theorem softResetRuns : Obligations.SoftResetRuns := by
  unfold Obligations.SoftResetRuns
  rintro c s a rfl h hkey hactive hrole
  have hr : softResetRefused (arrived descSoftReset c s) = none := by
    unfold softResetRefused
    rcases hactive with e | e <;> simp [e, hrole]
  have hb : softResetBody (arrivedReq descSoftReset c s) (arrived descSoftReset c s) =
      .ok ({ arrived descSoftReset c s with sys := { (arrived descSoftReset c s).sys with softReq := true } }, .ok 0 []) := by
    refine need_passes (by simp [hkey]) ?_
    rw [hr]
    rfl
  rw [exec_answered (i := .softReset) rfl h hb]
  exact congrArg Host.Outcome.next (settle_softReq (finish_softReq _ _ _ (unhindered_queue h) rfl))

end Sys2Proof.Machine
end

section
/-! PROOFS. The GNSS and CORR commands (chapters 04 and 05). For each form: its LENGTH, then its checks one after another
from the conditions of the form; the effect and the words are then those of the command's body. -/
set_option autoImplicit false

namespace Sys2Proof.Machine

/-- Settles O4: the checks of R113 on the packet's fields, shared by all forms, then those of the section. -/
theorem gnssConfigAnswers : Obligations.GnssConfigAnswers := by
  unfold Obligations.GnssConfigAnswers
  rintro c s h u v ant sec band ix sig rfl rfl rfl hb hsec hant hband hix hsig hs3 hs2 hs1
  refine ⟨answersWith_of_form gnssConfigBody (readForm 4 3 5) rfl rfl rfl ?read,
    answersWith_of_form gnssConfigBody (readForm 4 3 5) rfl rfl rfl ?general,
    answersWith_of_form gnssConfigBody (readForm 4 3 5) rfl rfl rfl ?chain,
    answersWith_of_form gnssConfigBody (readForm 4 3 5) rfl rfl rfl ?notch,
    answersWith_of_form gnssConfigBody (readForm 4 3 5) rfl rfl rfl ?bandwidth⟩
  case read =>
    rintro - a ⟨hl, hr, h3, hsg, ha⟩
    refine ⟨by simp [readForm, hr, hl], ?_⟩
    unfold gnssConfigBody
    simp only [par_arrivedReq, hsec, hant, hband, hix, hsig, hr]
    repeat refine need_passes (by grind) ?_
    obtain rfl | rfl | rfl | rfl : sec = 0 ∨ sec = 1 ∨ sec = 2 ∨ sec = 3 := by omega
    all_goals exact need_passes rfl (need_passes (by grind) rfl)
  case general =>
    rintro - a ⟨hl, hr, rfl, hu, hv, h1, h2⟩
    refine ⟨by simp [readForm, hr, hl], ?_⟩
    unfold gnssConfigBody
    simp only [par_arrivedReq, hsec, hant, hband, hix, hsig, hr]
    repeat refine need_passes (by grind) ?_
    rfl
  case chain =>
    rintro - a ⟨hl, hr, rfl, ha, hu, hv, h1, h2, h3, h4⟩
    refine ⟨by simp [readForm, hr, hl], ?_⟩
    unfold gnssConfigBody
    simp only [par_arrivedReq, hsec, hant, hband, hix, hsig, hr]
    repeat refine need_passes (by grind [inRange]) ?_
    rfl
  case notch =>
    rintro - a ⟨hl, hr, rfl, ha, hu, hm, hw, h1, h2⟩
    refine ⟨by simp [readForm, hr, hl], ?_⟩
    unfold gnssConfigBody
    simp only [par_arrivedReq, hsec, hant, hband, hix, hsig, hr]
    repeat refine need_passes (by grind [betweenInt]) ?_
    rfl
  case bandwidth =>
    rintro - a ⟨hl, hr, rfl, hsg, hv, h1, h2, h3, h4, h5, h6⟩
    refine ⟨by simp [readForm, hr, hl], ?_⟩
    unfold gnssConfigBody
    simp only [par_arrivedReq, hsec, hant, hband, hix, hsig, hr]
    repeat refine need_passes (by grind [inRange]) ?_
    rfl

/-- Settles O5: what is queued does not touch what the words show but through the next millisecond's view. -/
theorem gnssSettingsAnswer : Obligations.GnssSettingsAnswer := by
  unfold Obligations.GnssSettingsAnswer
  rintro c s h rfl
  refine ⟨?channels, ?release, ?pin, ?antenna, ?antennaRead, answersWith_of_body rfl ?isb, answersWith_of_body rfl ?isbRead,
    answersWith_of_form gnssSurveyBody surveyLen rfl rfl rfl ?surveyRead, ?arp, ?baseline, ?surveyIn⟩
  case channels =>
    rintro k n rfl rfl
    refine answersWith_of_body rfl ?_
    rintro - a ⟨hb, h1, h2, h3⟩
    change gnssGetChannelsBody _ _ = _
    unfold gnssGetChannelsBody
    simp only [par_arrivedReq]
    repeat refine need_passes (by grind [inRange]) ?_
    rfl
  case release =>
    rintro k act hact
    refine answersWith_of_body rfl ?_
    rintro - a ⟨hb, h12, h13, h18, h22, rfl, h1, h2, hk, hret⟩
    change gnssChannelSetBody _ _ = _
    unfold gnssChannelSetBody
    simp only [par_arrivedReq, h12, h13, h18, h22, h1, h2, fld_zero, bitAt_zero]
    rcases hact with ⟨hop, rfl⟩ | ⟨hop, rfl⟩ <;> simp only [hop]
    all_goals
      repeat refine need_passes (by grind [onlyBits_zero]) ?_
      rfl
  case pin =>
    rintro k sig svid ant b rfl rfl rfl rfl rfl
    refine answersWith_of_body rfl ?_
    rintro - a ⟨hb, hop, hb1, hin, hh, hsig, hk, hsv, hsp, hmon, hkk, hant, hen, hch, hret⟩
    change gnssChannelSetBody _ _ = _
    unfold gnssChannelSetBody
    simp only [par_arrivedReq, spar_arrivedReq, hop]
    repeat refine need_passes (by grind [inRange]) ?_
    rfl
  case antenna =>
    rintro ant act rfl rfl
    refine answersWith_of_form gnssSetAntennaBody (readForm 2 3 4) rfl rfl rfl ?_
    rintro - a ⟨hl, hb, hr, ha⟩
    refine ⟨by simp [readForm, hr, hl], ?_⟩
    unfold gnssSetAntennaBody
    simp only [par_arrivedReq, spar_arrivedReq, hr]
    repeat refine need_passes (by grind) ?_
    rfl
  case antennaRead =>
    rintro ant rfl
    refine answersWith_of_form gnssSetAntennaBody (readForm 2 3 4) rfl rfl rfl ?_
    rintro - a ⟨hl, hb, hp, hr, ha⟩
    refine ⟨by simp [readForm, hr, hl], ?_⟩
    unfold gnssSetAntennaBody
    simp only [par_arrivedReq, spar_arrivedReq, hr, hp]
    repeat refine need_passes (by grind) ?_
    rfl
  case isb =>
    rintro - a ⟨hb, h1, h5, h3, h2⟩
    have h0 : fld (arg c 0) 0 2 ≠ 0 := by omega
    change gnssSetIsbBody _ _ = _
    unfold gnssSetIsbBody
    simp only [par_arrivedReq, spar_arrivedReq, h0, if_false]
    repeat refine need_passes (by grind) ?_
    rfl
  case isbRead =>
    rintro - a ⟨h0, h1⟩
    change gnssSetIsbBody _ _ = _
    unfold gnssSetIsbBody
    simp only [par_arrivedReq, spar_arrivedReq, h0, h1]
    rfl
  case surveyRead =>
    rintro - a ⟨hl, hm, hb⟩
    refine ⟨by simp [surveyLen, hm, hl], ?_⟩
    unfold gnssSurveyBody
    simp only [par_arrivedReq, hm]
    exact need_passes hb rfl
  case arp =>
    rintro act hact
    refine answersWith_of_form gnssSurveyBody surveyLen rfl rfl rfl ?_
    rintro - a hidle
    unfold gnssSurveyBody
    rcases hact with ⟨hm, hb, hl, rfl⟩ | ⟨hm, hb, hl, rfl⟩ <;> refine ⟨by simp [surveyLen, hm, hl], ?_⟩ <;>
      simp only [par_arrivedReq, spar64_arrivedReq, hm]
    all_goals exact need_passes hb (need_passes (by grind) rfl)
  case baseline =>
    rintro act rfl
    refine answersWith_of_form gnssSurveyBody surveyLen rfl rfl rfl ?_
    rintro - a ⟨hl, hm, hb, ha, h1, h2⟩
    refine ⟨by simp [surveyLen, hm, hl], ?_⟩
    unfold gnssSurveyBody
    simp only [par_arrivedReq, hm]
    repeat refine need_passes (by grind [inRange]) ?_
    rfl
  case surveyIn =>
    rintro act rfl
    refine answersWith_of_form gnssSurveyBody surveyLen rfl rfl rfl ?_
    rintro - a ⟨hl, hm, hb, h1, h2, h3, h4, h5, hidle⟩
    refine ⟨by simp [surveyLen, hm, hl], ?_⟩
    unfold gnssSurveyBody
    simp only [par_arrivedReq, hm]
    repeat refine need_passes (by grind [inRange]) ?_
    rfl

/-- Settles O6: the epoch asked for is the newest or the one of the time given; subscriptions need a queue pair. -/
theorem gnssSubscriptionsAnswer : Obligations.GnssSubscriptionsAnswer := by
  unfold Obligations.GnssSubscriptionsAnswer
  rintro c s h u v rfl rfl rfl
  refine ⟨?epoch, answersWith_of_body rfl ?obsOn, answersWith_of_body rfl ?obsOff, answersWith_of_body rfl ?navOn,
    answersWith_of_body rfl ?navOff, answersWith_of_body rfl ?navRead,
    answersWith_of_form integrityCfgBody (readForm 0 3 5) rfl rfl rfl ?integRead, ?integ⟩
  case epoch =>
    rintro e l k rfl rfl
    refine answersWith_of_body rfl ?_
    rintro - a ⟨hb, hm, ha, he⟩
    have hne : a.gnss.epochs.isEmpty = false := by
      rcases he with ⟨-, he⟩ | ⟨-, he⟩ <;> cases hl : a.gnss.epochs <;> simp [hl] at he ⊢
    have hfound : (if arg64 c 1 = 0 then a.gnss.epochs.head?
        else a.gnss.epochs.find? (fun x => decide (x.time = arg64 c 1))) = some e := by
      rcases he with ⟨h0, he⟩ | ⟨h0, he⟩
      · rw [if_pos h0, he]
      · rw [if_neg h0, he]
    change gnssGetObsBody _ _ = _
    unfold gnssGetObsBody
    simp only [par_arrivedReq, par64_arrivedReq, hm, hfound]
    repeat refine need_passes (by grind) ?_
    rfl
  case obsOn =>
    rintro hu a ⟨hb, hm, ha, he⟩
    have hq := unhindered_queue hu
    change gnssGetObsBody _ _ = _
    unfold gnssGetObsBody
    simp only [par_arrivedReq, arrivedReq_q, arrivedReq_tag, hm]
    repeat refine need_passes (by grind) ?_
    rfl
  case obsOff =>
    rintro - a ⟨hb, hm, ha, he⟩
    change gnssGetObsBody _ _ = _
    unfold gnssGetObsBody
    simp only [par_arrivedReq, arrivedReq_q, hm]
    repeat refine need_passes (by grind) ?_
    rfl
  case navOn =>
    rintro hu a ⟨hb, hb1, hm⟩
    have hq := unhindered_queue hu
    change gnssNavSubscribeBody _ _ = _
    unfold gnssNavSubscribeBody
    simp only [par_arrivedReq, arrivedReq_q, arrivedReq_tag, hm]
    repeat refine need_passes (by grind) ?_
    rfl
  case navOff =>
    rintro - a ⟨hb, hm, h2, h1⟩
    change gnssNavSubscribeBody _ _ = _
    unfold gnssNavSubscribeBody
    simp only [par_arrivedReq, arrivedReq_q, hm, h1, h2, hb]
    rfl
  case navRead =>
    rintro - a ⟨h0, h1⟩
    change gnssNavSubscribeBody _ _ = _
    unfold gnssNavSubscribeBody
    simp only [par_arrivedReq, arrivedReq_q, h0, h1]
    rfl
  case integRead =>
    rintro - a ⟨hl, h0⟩
    refine ⟨by simp [readForm, h0, hl, bitAt], ?_⟩
    unfold integrityCfgBody
    simp only [par_arrivedReq, h0]
    rfl
  case integ =>
    rintro w rfl
    refine answersWith_of_form integrityCfgBody (readForm 0 3 5) rfl rfl rfl ?_
    rintro - a ⟨hl, hb, hr, h1, hdd, h2, h3, h4, h5, h6, h7, h8, h9, h10, h11, h12, h13, h14⟩
    refine ⟨by simp [readForm, hr, hl], ?_⟩
    dsimp only at *
    unfold integrityCfgBody
    simp only [par_arrivedReq, hr, Bool.false_eq_true, if_false, bind_assoc]
    repeat refine need_passes (by grind [inRange]) ?_
    rfl

/-- Settles O7: the section names the form, and with it the LENGTH. -/
theorem corrCommandsAnswer : Obligations.CorrCommandsAnswer := by
  unfold Obligations.CorrCommandsAnswer
  rintro c s h u v k rfl rfl rfl hk
  refine ⟨?set, answersWith_of_form corrStreamCfgBody corrLen rfl rfl rfl ?read, ?setDescr,
    answersWith_of_form corrStreamCfgBody corrLen rfl rfl rfl ?readDescr, answersWith_of_body rfl ?stats⟩
  case set =>
    rintro w rfl
    refine answersWith_of_form corrStreamCfgBody corrLen rfl rfl rfl ?_
    rintro - a ⟨hl, hb, hsec, h1, h2, h3, h4, h5, h6, h7, h8, h9, h10, h11, h12⟩
    refine ⟨by simp [corrLen, hsec, hl], ?_⟩
    dsimp only at *
    unfold corrStreamCfgBody
    simp only [par_arrivedReq, hsec, hk]
    repeat refine need_passes (by grind) ?_
    rfl
  case read =>
    rintro - a ⟨hl, hb, hsec, h1⟩
    refine ⟨by simp [corrLen, hsec, hl], ?_⟩
    unfold corrStreamCfgBody
    simp only [par_arrivedReq, hsec, hk]
    repeat refine need_passes (by grind) ?_
    rfl
  case setDescr =>
    rintro text d rfl rfl
    refine answersWith_of_form corrStreamCfgBody corrLen rfl rfl rfl ?_
    rintro - a ⟨hl, hb, hsec, rfl, h1, h2, h3⟩
    refine ⟨by simp [corrLen, hsec, hl], ?_⟩
    dsimp only at *
    unfold corrStreamCfgBody
    simp only [par_arrivedReq, hsec, hk]
    repeat refine need_passes (by grind) ?_
    rfl
  case readDescr =>
    rintro - a ⟨hl, hb, hsec, rfl, h1⟩
    refine ⟨by simp [corrLen, hsec, hl], ?_⟩
    unfold corrStreamCfgBody
    simp only [par_arrivedReq, hsec, hk]
    repeat refine need_passes (by grind) ?_
    rfl
  case stats =>
    rintro - a ⟨hb, h1⟩
    change corrGetStatsBody _ _ = _
    unfold corrGetStatsBody
    simp only [par_arrivedReq, hk]
    exact need_passes hb (need_passes (by grind) rfl)

end Sys2Proof.Machine
end

section
/-! PROOFS. The ROVER commands (chapter 06). -/
set_option autoImplicit false

namespace Sys2Proof.Machine

/-- Settles O8: the LENGTH of the form that binds is its own; a new binding must keep the station of the one that is there
and find room for its solve cost. -/
theorem roverBindAnswers : Obligations.RoverBindAnswers := by
  unfold Obligations.RoverBindAnswers
  rintro c s h u k rfl rfl hk hb
  refine ⟨answersWith_of_form roverBindBody _ rfl rfl rfl ?read, ?bind, answersWith_of_form roverBindBody _ rfl rfl rfl ?unbind⟩
  case read =>
    rintro - a ⟨hl, h1, hop, hr⟩
    refine ⟨by simp [hop, hl], ?_⟩
    unfold roverBindBody
    simp only [par_arrivedReq, hk, hop, h1]
    repeat refine need_passes (by grind [onlyBits_zero]) ?_
    rfl
  case bind =>
    rintro b rfl
    refine answersWith_of_form roverBindBody _ rfl rfl rfl ?_
    rintro - a ⟨hl, hop, hr, hb1, h1, h2, h3, h4, hst, hroom⟩
    refine ⟨by simp [hop, hl], ?_⟩
    dsimp only at *
    unfold roverBindBody
    simp only [par_arrivedReq, hk, hop, hroom]
    repeat refine need_passes (by grind [inRange]) ?_
    rfl
  case unbind =>
    rintro - a ⟨hl, h1, hop, hr, hidle⟩
    refine ⟨by simp [hop, hl], ?_⟩
    unfold roverBindBody
    simp only [par_arrivedReq, hk, hop, h1]
    repeat refine need_passes (by grind [onlyBits_zero]) ?_
    rfl

/-- Settles O9: each command's own form; a robot number 255 stands for all robots where a command takes it. -/
theorem roverCommandsAnswer : Obligations.RoverCommandsAnswer := by
  unfold Obligations.RoverCommandsAnswer
  rintro c s h u v w k rfl rfl rfl rfl hk
  refine ⟨answersWith_of_form roverCfgBody (readForm 8 3 7) rfl rfl rfl ?cfgRead, ?cfg, ?fix, ?sub,
    answersWith_of_body rfl ?reset, ?stats⟩
  case cfgRead =>
    rintro - a ⟨hl, hb, hr, h1, h2⟩
    refine ⟨by simp [readForm, hr, hl], ?_⟩
    unfold roverCfgBody
    simp only [par_arrivedReq, hk, hr]
    repeat refine need_passes (by grind) ?_
    rfl
  case cfg =>
    rintro x rfl
    refine answersWith_of_form roverCfgBody (readForm 8 3 7) rfl rfl rfl ?_
    rintro - a ⟨hl, hb, hr, hb1, h0, h1, h2, h3, h4, h5, h6, h7, h8, h9, h10, h11, h12, h13, h14, h15, h16, h17, h18, h19⟩
    refine ⟨by simp [readForm, hr, hl], ?_⟩
    dsimp only at *
    unfold roverCfgBody
    simp only [par_arrivedReq, hk, hr]
    repeat refine need_passes (by grind [inRange]) ?_
    rfl
  case fix =>
    intro f
    refine answersWith_of_body rfl ?_
    rintro - a ⟨hb, h1, hr, hbound, hf⟩
    change roverGetFixBody _ _ = _
    unfold roverGetFixBody
    simp only [par_arrivedReq, hk, hf]
    repeat refine need_passes (by grind) ?_
    rfl
  case sub =>
    rintro m rfl
    refine answersWith_of_body rfl ?_
    rintro hu a ⟨hb, h3, hm⟩
    have hq := unhindered_queue hu
    change roverSubscribeBody _ _ = _
    unfold roverSubscribeBody
    simp only [par_arrivedReq, par64_arrivedReq, arrivedReq_q, arrivedReq_tag]
    repeat refine need_passes (by grind) ?_
    rfl
  case reset =>
    rintro - a ⟨hb, h1, h2, h3⟩
    change roverResetAmbBody _ _ = _
    unfold roverResetAmbBody
    simp only [par_arrivedReq, hk]
    repeat refine need_passes (by grind) ?_
    rfl
  case stats =>
    rintro st
    refine answersWith_of_body rfl ?_
    rintro - a ⟨hb, h1, h2, rfl⟩
    change roverGetStatsBody _ _ = _
    unfold roverGetStatsBody
    simp only [par_arrivedReq, hk, h2, if_false]
    repeat refine need_passes (by grind) ?_
    rfl

end Sys2Proof.Machine
end

section
/-! PROOFS. The TRACK commands (chapter 08): the store of origin, graph and polygons, the reservations and the routes. -/
set_option autoImplicit false

namespace Sys2Proof.Machine

section
variable {r : Req} {a : State}

/-- The LENGTH of a load is that of its records (R30). -/
theorem loadDesc_form (op : Nat) (body : Req → State → Res) : loadDesc op body =
    Desc.formLen { Desc.std op ((List.range 512).map (fun n => 3 + 4 * n)) 5 (fun _ => false) body with lock := commitLock }
      (fun r => some (3 + 4 * loadCount r)) := rfl

/-- A load of records that all fit changes the staged graph by them (R191). -/
theorem loadBody_ok {count mask : Nat} {bitsOk ok : Word × Word × Word × Word → Bool} {put : Req → Graph → Nat → Graph}
    (hb : onlyBits (par r 0) mask = true) (hn : bitAt (par r 0) 15 = true ∨ loadCount r ≠ 0) (h256 : loadCount r ≤ 256)
    (hc : loadFirst r + loadCount r ≤ count) (ho : a.track.origin.isSome = true) (hl : commitLock r a = .ok ())
    (hr : ∀ j, j < loadCount r → bitsOk (record4 r j) = true ∧ ok (record4 r j) = true) :
    loadBody count mask bitsOk ok put r a =
      .ok ({ a with track := { a.track with
          staged := (List.range (loadCount r)).foldl (put r) (clearStaged r a.track.staged) } },
        .ok 0 (stagedWords { a with track := { a.track with
          staged := (List.range (loadCount r)).foldl (put r) (clearStaged r a.track.staged) } })) := by
  have hbits : (List.range (loadCount r)).all (fun i => bitsOk (record4 r i)) = true := by
    simpa using fun j hj => (hr j hj).1
  have hfind : (List.range (loadCount r)).find? (fun i => !ok (record4 r i)) = none := by
    simpa using fun j hj => (hr j hj).2
  unfold loadBody
  simp only [hfind]
  refine need_passes (by grind) (need_passes hbits (need_passes (by grind) (need_passes ho ?_)))
  rw [hl]
  rfl

/-- No coordinate of a polygon in range is found out of range (R198). -/
theorem find_flat_none {vs : List (Int × Int)} {lo hi : Int} (h : ∀ v ∈ vs, lo ≤ v.1 ∧ v.1 ≤ hi ∧ lo ≤ v.2 ∧ v.2 ≤ hi) :
    ((vs.flatMap (fun v => [v.1, v.2])).zip (List.range (vs.flatMap (fun v => [v.1, v.2])).length)).find?
      (fun p => !betweenInt p.1 lo hi) = none := by
  rw [List.find?_eq_none]
  rintro ⟨x, n⟩ hm
  obtain ⟨hx, -⟩ := List.of_mem_zip hm
  obtain ⟨v, hv, hxv⟩ := List.mem_flatMap.mp hx
  obtain ⟨h1, h2, h3, h4⟩ := h v hv
  simp only [List.mem_cons, List.not_mem_nil, or_false] at hxv
  rcases hxv with rfl | rfl <;> simp [betweenInt, *]

end

/-- Settles O10: the lock of a running commit is open for a command that nothing hinders. -/
theorem trackStoreAnswers : Obligations.TrackStoreAnswers := by
  unfold Obligations.TrackStoreAnswers
  rintro c s h i nv rfl hi hnv
  refine ⟨answersWith_of_form trackOriginBody _ rfl rfl rfl ?originRead, ?origin, ?nodes, ?slivers, ?commit,
    answersWith_of_form deckleLoadBody deckleForm rfl rfl rfl ?deckleRead, ?deckleLoad,
    answersWith_of_form deckleLoadBody deckleForm rfl rfl rfl ?deckleDelete⟩
  case originRead =>
    rintro - a ⟨hl, hb, hop⟩
    refine ⟨by simp [hop, hl], ?_⟩
    unfold trackOriginBody
    simp only [par_arrivedReq, hop]
    repeat refine need_passes (by grind) ?_
    rfl
  case origin =>
    rintro o ho
    refine answersWith_of_form trackOriginBody _ rfl rfl rfl ?_
    rintro - a ⟨hb, hne, hidle⟩
    unfold trackOriginBody
    rcases ho with ⟨hop, hl, rfl, h1, h2, h3, h4⟩ | ⟨hop, hl, rfl⟩
    all_goals
      refine ⟨by simp [hop, hl], ?_⟩
      simp only [par_arrivedReq, spar_arrivedReq, spar64_arrivedReq, hop]
      repeat refine need_passes (by grind [betweenInt]) ?_
      refine (if_neg (by simpa using hne)).trans (need_passes (by grind) rfl)
  case nodes =>
    rintro r rfl
    refine answersWith_of_lockedForm trackLoadNodesBody _ rfl (loadDesc_form 0x401 trackLoadNodesBody) rfl ?_
    rintro - a hlock ⟨hl, hb, hn, h256, hc, ho, hr⟩
    subst hnv
    exact ⟨by rw [hl, Nat.add_right_comm]; rfl, loadBody_ok hb hn h256 hc ho hlock hr⟩
  case slivers =>
    rintro r rfl
    refine answersWith_of_lockedForm trackLoadSliversBody _ rfl (loadDesc_form 0x402 trackLoadSliversBody) rfl ?_
    rintro - a hlock ⟨hl, hb, hn, h256, hc, ho, hr⟩
    subst hnv
    exact ⟨by rw [hl, Nat.add_right_comm]; rfl, loadBody_ok hb hn h256 hc ho hlock hr⟩
  case commit =>
    rintro m rfl hu ⟨hb, h1, ho⟩
    have hfree : (arrived descTrackCommit c s).track.commit.isNone = true := of_need_ok (lock_arrived hu)
    refine exec_deferred rfl hu ?_
    change trackCommitBody _ _ = _
    unfold trackCommitBody
    simp only [par_arrivedReq]
    exact need_passes hb (need_passes (decide_eq_true h1) (need_passes ho (need_passes hfree rfl)))
  case deckleRead =>
    rintro - a ⟨hl, hop, rfl, h12, h13, hb, ho⟩
    refine ⟨by simp [deckleForm, hop, hl], ?_⟩
    unfold deckleLoadBody
    simp only [par_arrivedReq, hop, hi, hnv, h12, h13]
    repeat refine need_passes (by grind) ?_
    rfl
  case deckleLoad =>
    rintro vs p rfl rfl
    refine answersWith_of_form deckleLoadBody deckleForm rfl rfl rfl ?_
    rintro - a ⟨hl, hb, hop, h3, h256, hpoly, hv, ho⟩
    refine ⟨by simp [deckleForm, hop, hl, hnv]; omega, ?_⟩
    unfold deckleLoadBody
    simp only [par_arrivedReq, spar_arrivedReq, hop, hi, hnv, if_true, hpoly, find_flat_none hv]
    refine need_passes (by grind) (need_passes (by grind [inRange]) (need_passes ho (need_passes rfl rfl)))
  case deckleDelete =>
    rintro - a ⟨hl, hb, hop, rfl, h12, h13, ho⟩
    refine ⟨by simp [deckleForm, hop, hl], ?_⟩
    unfold deckleLoadBody
    simp only [par_arrivedReq, hop, hi, hnv, h12, h13]
    repeat refine need_passes (by grind) ?_
    rfl

/-- Settles O11: RESV_RELEASE leaves the windows of a moving robot that it has entered; a route passes its own check. -/
theorem reservationCommandsAnswer : Obligations.ReservationCommandsAnswer := by
  unfold Obligations.ReservationCommandsAnswer
  rintro c s h u v w k rfl rfl rfl rfl hk
  refine ⟨?resv, answersWith_of_form routeSetBody _ rfl rfl rfl ?routeRead, ?routeSet, ?routeClear, ?profile⟩
  case resv =>
    rintro n hn
    refine ⟨answersWith_of_body rfl ?robot, answersWith_of_body rfl ?sliver, answersWith_of_body rfl ?total, ?release⟩
    case robot =>
      rintro - a ⟨hb, hm, h1, ho⟩
      change resvGetBody _ _ = _
      unfold resvGetBody
      simp only [par_arrivedReq, hm, hn]
      repeat refine need_passes (by grind) ?_
      rfl
    case sliver =>
      rintro - a ⟨hb, hm, h1, ho⟩
      change resvGetBody _ _ = _
      unfold resvGetBody
      simp only [par_arrivedReq, hm, hn]
      repeat refine need_passes (by grind) ?_
      rfl
    case total =>
      rintro - a ⟨hb, hm, h1, ho⟩
      change resvGetBody _ _ = _
      unfold resvGetBody
      simp only [par_arrivedReq, hm, hn]
      repeat refine need_passes (by grind) ?_
      rfl
    case release =>
      rintro scope hs
      refine answersWith_of_body rfl ?_
      rintro - a ⟨hb, h3, h1, hk', hn', ho, hw, hrest⟩
      change resvReleaseBody _ _ = _
      unfold resvReleaseBody
      simp only [par_arrivedReq, hk, hs, hn]
      refine need_passes (by grind) (need_passes (by grind) (need_passes ho (need_passes (by grind) (need_passes ?_ rfl))))
      rcases hrest with ⟨h4, h5 | h5⟩ | rfl | ⟨rfl, hx⟩
      · simp [h4, h5]
      · simp [h4, h5]
      · simp
      · simpa [List.mem_filter] using .inr fun w hw hs => hx w (List.mem_filter.mpr ⟨hw, hs⟩)
  case routeRead =>
    rintro - a ⟨hl, hb, hop, h0, hp, hk', ho, ht⟩
    refine ⟨by simp [hop, hl], ?_⟩
    unfold routeSetBody
    simp only [par_arrivedReq, hop, hk, h0, hp]
    repeat refine need_passes (by grind) ?_
    rfl
  case routeSet =>
    rintro n es x t hn rfl rfl ht
    obtain rfl : t = _ := funext ht
    refine answersWith_of_form routeSetBody _ rfl rfl rfl ?_
    rintro - a ⟨hl, hb, hop, h1, h2, hodd, hk', hes, hend, ho, htab, hck⟩
    refine ⟨by simp [hop, hl, hn]; omega, ?_⟩
    unfold routeSetBody
    simp only [par_arrivedReq, hop, hk, hn, if_true, hck]
    repeat refine need_passes (by grind [inRange]) ?_
    rfl
  case routeClear =>
    rintro t ht
    obtain rfl : t = _ := funext ht
    refine answersWith_of_form routeSetBody _ rfl rfl rfl ?_
    rintro - a ⟨hl, hb, hop, h0, hp, hk', ho, htab, hidle⟩
    clear ht
    refine ⟨by simp [hop, hl], ?_⟩
    unfold routeSetBody
    simp only [par_arrivedReq, hop, hk, h0, hp]
    repeat refine need_passes (by grind) ?_
    rfl
  case profile =>
    rintro p rfl
    refine answersWith_of_form routeSetBody _ rfl rfl rfl ?_
    rintro - a ⟨hl, hb, hop, h0, hp, hv, hk', h1, h2, h3, h4, h5, h6, ho, htab, hcome⟩
    refine ⟨by simp [hop, hl], ?_⟩
    dsimp only at *
    unfold routeSetBody
    simp only [par_arrivedReq, hop, hk, h0, hp]
    repeat refine need_passes (by grind [inRange]) ?_
    rfl

end Sys2Proof.Machine
end

section
/-! PROOFS. The TASK and ALLOT commands (chapter 09). -/
set_option autoImplicit false

namespace Sys2Proof.Machine

/-- Settles O12: a slot to be posted is free and one to be updated is not; a proposal is committed once. -/
theorem taskCommandsAnswer : Obligations.TaskCommandsAnswer := by
  unfold Obligations.TaskCommandsAnswer
  rintro c s h k rfl hk
  refine ⟨?write, answersWith_of_form taskPostBody _ rfl rfl rfl ?read, ?cancel, ?run, ?get, ?commit⟩
  case write =>
    rintro x rfl
    refine ⟨answersWith_of_form taskPostBody _ rfl rfl rfl ?post, fun y => answersWith_of_form taskPostBody _ rfl rfl rfl ?update⟩
    case post =>
      rintro - a ⟨hl, hb, hop, hb2, ht, hk', hpin, hnode, ho, hfree, hn⟩
      refine ⟨by simp [hop, hl], ?_⟩
      unfold taskPostBody
      simp only [par_arrivedReq, hop, hk]
      repeat refine need_passes (by grind) ?_
      rfl
    case update =>
      rintro - a ⟨hl, hb, hop, hb2, ht, hk', hpin, hnode, ho, rfl, hfree, hn, hheld⟩
      refine ⟨by simp [hop, hl], ?_⟩
      unfold taskPostBody
      simp only [par_arrivedReq, hop, hk]
      repeat refine need_passes (by grind) ?_
      rfl
  case read =>
    rintro - a ⟨hl, hb, hop, h0, hk', ho⟩
    refine ⟨by simp [hop, hl], ?_⟩
    unfold taskPostBody
    simp only [par_arrivedReq, hop, hk]
    repeat refine need_passes (by grind) ?_
    rfl
  case cancel =>
    rintro st
    refine answersWith_of_body rfl ?_
    rintro - a ⟨hb, hk', ho, rfl, hfree, hop⟩
    change taskCancelBody _ _ = _
    unfold taskCancelBody
    simp only [par_arrivedReq, hk]
    repeat refine need_passes (by grind) ?_
    rfl
  case run =>
    refine acceptedWith_of_lockedBody rfl ?_
    rintro - a hlock ⟨hb, ho⟩
    have hfree : (a.task.run.isNone && a.task.runReq.isNone) = true := of_need_ok hlock
    change allotRunBody _ _ = _
    unfold allotRunBody
    simp only [par_arrivedReq]
    exact need_passes hb (need_passes ho (need_passes hfree rfl))
  case get =>
    rintro x n es hn rfl
    refine answersWith_of_body rfl ?_
    rintro - a ⟨hb, h1, h128, ho, hlast⟩
    change allotGetBody _ _ = _
    unfold allotGetBody
    simp only [par_arrivedReq, hn, hlast]
    repeat refine need_passes (by grind [inRange]) ?_
    rfl
  case commit =>
    rintro m x q hmask rfl
    refine acceptedWith_of_body rfl ?_
    rintro - a ⟨hm, ho, hlast, hid, hnew, hcom, hprop, hlatch⟩
    change allotCommitBody _ _ = _
    unfold allotCommitBody
    simp only [par_arrivedReq, ← hmask, hlast]
    repeat refine need_passes (by grind) ?_
    rfl

/-- Settles O13: the form is that of all robots or of one; robot 0 exists on every member. -/
theorem allotCfgAnswers : Obligations.AllotCfgAnswers := by
  unfold Obligations.AllotCfgAnswers
  rintro c s h u v w k rfl rfl rfl rfl hk hb
  have hpos : ∀ m, 0 < nRobots m := fun m => by cases m <;> decide
  refine ⟨answersWith_of_form allotCfgBody (readForm 0 3 6) rfl rfl rfl ?readRobot,
    answersWith_of_form allotCfgBody (readForm 0 3 6) rfl rfl rfl ?readGlobal, ?robot, ?global⟩
  case readRobot =>
    rintro - a ⟨hl, hr, h1, hk', ho⟩
    refine ⟨by simp [readForm, hr, hl], ?_⟩
    unfold allotCfgBody
    simp only [par_arrivedReq, hk, hr, h1]
    repeat refine need_passes (by grind) ?_
    rfl
  case readGlobal =>
    rintro - a ⟨hl, hr, h1, rfl, ho⟩
    have := hpos a.member
    refine ⟨by simp [readForm, hr, hl], ?_⟩
    unfold allotCfgBody
    simp only [par_arrivedReq, hk, hr, h1]
    repeat refine need_passes (by grind) ?_
    rfl
  case robot =>
    rintro x rfl
    refine answersWith_of_form allotCfgBody (readForm 0 3 6) rfl rfl rfl ?_
    rintro - a ⟨hl, hr, h1, hu, hv, hw, hk', hmin, hmax, ho⟩
    refine ⟨by simp [readForm, hr, hl], ?_⟩
    dsimp only at *
    unfold allotCfgBody
    simp only [par_arrivedReq, hk, hr, h1]
    repeat refine need_passes (by grind [inRange]) ?_
    rfl
  case global =>
    rintro g rfl
    refine answersWith_of_form allotCfgBody (readForm 0 3 6) rfl rfl rfl ?_
    rintro - a ⟨hl, hr, h1, rfl, hu, hw, hper, heps, hval, hbids, httl, ho⟩
    have := hpos a.member
    refine ⟨by simp [readForm, hr, hl], ?_⟩
    dsimp only at *
    unfold allotCfgBody
    simp only [par_arrivedReq, hk, hr, h1]
    repeat refine need_passes (by grind [inRange]) ?_
    rfl

end Sys2Proof.Machine
end

section
/-! PROOFS. The SPIN, POST and YARD commands (chapter 10), the governors' (chapter 11) and the stop chain's (chapter 12). -/
set_option autoImplicit false

namespace Sys2Proof.Machine

/-- A robot that is not stopped passes the stop checks of a motion start (R45, R259). -/
theorem startStopped_ok {a : State} {k : Nat} (hm : motionStopped a = false) (hr : robotStopped a k = false) :
    startStopped a k = .ok () := by
  unfold startStopped
  rw [hm, hr]
  rfl

/-- Settles O14: the refusals of R259 are one check of a motion start, its stops another. -/
theorem spinCommandsAnswer : Obligations.SpinCommandsAnswer := by
  unfold Obligations.SpinCommandsAnswer
  rintro c s h k rfl hk
  refine ⟨answersWith_of_form spinProfileSetBody (readForm 8 3 8) rfl rfl rfl ?profileRead, ?profile,
    answersWith_of_body rfl ?start, ?hold, answersWith_of_body rfl ?get, answersWith_of_body rfl ?auto,
    answersWith_of_body rfl ?manual, answersWith_of_body rfl ?idle, ?home⟩
  case profileRead =>
    rintro - a ⟨hl, hb, hr, hff, hk', ho⟩
    refine ⟨by simp [readForm, hr, hl], ?_⟩
    unfold spinProfileSetBody
    simp only [par_arrivedReq, hk, hr]
    repeat refine need_passes (by grind) ?_
    rfl
  case profile =>
    rintro p t rfl ht
    obtain rfl : t = _ := funext ht
    refine answersWith_of_form spinProfileSetBody (readForm 8 3 8) rfl rfl rfl ?_
    rintro - a ⟨hl, hb, hr, hb5, hk', h1, h2, h3, h4, h5, h6, h7, h8, h9, h10, h11, h12, h13, h14, h15, h16, h17, h18, h19,
      h20, ho⟩
    clear ht
    dsimp only at *
    refine ⟨by simp [readForm, hr, hl], ?_⟩
    unfold spinProfileSetBody
    simp only [par_arrivedReq, hk, hr]
    repeat refine need_passes (by grind [inRange]) ?_
    rfl
  case start =>
    rintro - a ⟨hb, hk', ho, hm, hs, href⟩
    change spinStartAtBody _ _ = _
    unfold spinStartAtBody
    simp only [par_arrivedReq, hk, startStopped_ok hm hs, href]
    repeat refine need_passes (by grind) ?_
    rfl
  case hold =>
    rintro hit hhit
    obtain rfl : hit = _ := funext hhit
    refine answersWith_of_body rfl ?_
    rintro - a ⟨hb, hop, hk', ho⟩
    clear hhit
    change spinHoldBody _ _ = _
    unfold spinHoldBody
    simp only [par_arrivedReq, hk]
    repeat refine need_passes (by grind) ?_
    rfl
  case get =>
    rintro - a ⟨hb, hk', ho⟩
    change spinGetBody _ _ = _
    unfold spinGetBody
    simp only [par_arrivedReq, hk]
    repeat refine need_passes (by grind) ?_
    rfl
  case auto =>
    rintro - a ⟨hb, hop, hk', ho, hm, hs, href⟩
    change spinModeBody _ _ = _
    unfold spinModeBody
    simp only [par_arrivedReq, hk, hop, startStopped_ok hm hs, href]
    repeat refine need_passes (by grind) ?_
    rfl
  case manual =>
    rintro - a ⟨hb, hop, hk', ho, hne⟩
    change spinModeBody _ _ = _
    unfold spinModeBody
    simp only [par_arrivedReq, hk, hop, hne, if_false]
    repeat refine need_passes (by grind) ?_
    rfl
  case idle =>
    rintro - a ⟨hb, hop, hk', ho, hst, hrest⟩
    change spinModeBody _ _ = _
    unfold spinModeBody
    simp only [par_arrivedReq, hk, hop, hst, reduceCtorEq, if_false]
    repeat refine need_passes (by grind) ?_
    rfl
  case home =>
    rintro n pos p rt e hm hn hpos rfl
    refine acceptedWith_of_lockedBody rfl ?_
    rintro - a hlock ⟨hb, hb2, h1, h2, h3, h4, hk', h5, ho, hmot, hs, href, hp, hrt, he, hsl, hrev, hend, hprog⟩
    have hfree : (!postInUse a (fld (arg c 0) 8 12)) = true := of_need_ok hlock
    rw [hn] at hfree
    dsimp only at *
    change postHomeBody _ _ = _
    unfold postHomeBody
    simp only [par_arrivedReq, hk, hn, startStopped_ok hmot hs, href, hp, hrt, he, ← hpos]
    repeat refine need_passes (by grind [inRange]) ?_
    rfl

/-- Settles O15: a post that a homing uses is neither defined again nor deleted; an output's level follows its source. -/
theorem yardCommandsAnswer : Obligations.YardCommandsAnswer := by
  unfold Obligations.YardCommandsAnswer
  rintro c s h u n rfl rfl
  refine ⟨fun hn hb => ⟨answersWith_of_form postDefineBody _ rfl rfl rfl ?read, ?define,
    answersWith_of_form postDefineBody _ rfl rfl rfl ?delete⟩, fun hn hb =>
    ⟨answersWith_of_form yardOutSetBody (readForm 8 3 4) rfl rfl rfl ?yardRead, ?yard⟩⟩
  case read =>
    rintro - a ⟨hl, hop, ho⟩
    refine ⟨by simp [hop, hl], ?_⟩
    unfold postDefineBody
    simp only [par_arrivedReq, hop, hn]
    repeat refine need_passes (by grind) ?_
    rfl
  case define =>
    rintro p v rfl
    refine answersWith_of_form postDefineBody _ rfl rfl rfl ?_
    rintro - a ⟨hl, hop, hb1, hb5, h1, hv, hdir, h2, h3, h4, h5, h6, h7, h8, h9, h10, h11, h12, h13, h14, h15, ho, hfree⟩
    dsimp only at *
    refine ⟨by simp [hop, hl], ?_⟩
    unfold postDefineBody
    simp only [par_arrivedReq, hop, hn, hv]
    repeat refine need_passes (by grind [inRange]) ?_
    rfl
  case delete =>
    rintro - a ⟨hl, hop, ho, hfree⟩
    refine ⟨by simp [hop, hl], ?_⟩
    unfold postDefineBody
    simp only [par_arrivedReq, hop, hn]
    repeat refine need_passes (by grind) ?_
    rfl
  case yardRead =>
    rintro - a ⟨hl, hr⟩
    refine ⟨by simp [readForm, hr, hl], ?_⟩
    unfold yardOutSetBody
    simp only [par_arrivedReq, hr, hn]
    repeat refine need_passes (by grind) ?_
    rfl
  case yard =>
    rintro y t rfl ht
    obtain rfl : t = _ := funext ht
    refine answersWith_of_form yardOutSetBody (readForm 8 3 4) rfl rfl rfl ?_
    rintro - a ⟨hl, hr, hb1, h1, h2, h3, h4⟩
    clear ht
    dsimp only at *
    refine ⟨by simp [readForm, hr, hl], ?_⟩
    unfold yardOutSetBody
    simp only [par_arrivedReq, hr, hn]
    repeat refine need_passes (by grind) ?_
    rfl

/-- A coefficient set in range passes its checks (R262). -/
theorem coefRange_ok {x : CoefSet} {k : Nat} (h1 : 0 ≤ x.uMin ∧ x.uMin ≤ 65535) (h2 : 0 ≤ x.uMax ∧ x.uMax ≤ 65535)
    (h3 : 0 ≤ x.iMin ∧ x.iMin ≤ 65535) (h4 : 0 ≤ x.iMax ∧ x.iMax ≤ 65535) (h5 : x.rMax ≤ 65535) :
    coefRange x k = .ok () := by
  have hb : ∀ y : Int, 0 ≤ y ∧ y ≤ 65535 → betweenInt y 0 65535 = true := fun y hy => by simpa [betweenInt] using hy
  exact need_passes (hb _ h1) (need_passes (hb _ h2) (need_passes (hb _ h3) (need_passes (hb _ h4)
    (need_ok (decide_eq_true h5)))))

/-- Settles O16: a robot number 255 is a write for every slot and no read; a pending swap keeps both sets. -/
theorem govCommandsAnswer : Obligations.GovCommandsAnswer := by
  unfold Obligations.GovCommandsAnswer
  rintro c s h u v k rfl rfl rfl hk
  refine ⟨?coef, ?swap, answersWith_of_form govLimitsBody (readForm 8 3 5) rfl rfl rfl ?limitsRead, ?limits,
    answersWith_of_form govFeCfgBody (readForm 8 3 6) rfl rfl rfl ?feRead, ?fe, answersWith_of_body rfl ?capRead,
    answersWith_of_body rfl ?cap, ?get⟩
  case coef =>
    rintro loop j head hloop rfl hhead
    obtain rfl : head = _ := funext hhead
    clear hhead
    refine ⟨answersWith_of_form govCoefLoadBody (readForm 11 3 12) rfl rfl rfl ?coefRead, ?coefLoad⟩
    case coefRead =>
      rintro - a ⟨hl, hr, hb, hff, hk', h4⟩
      refine ⟨by simp [readForm, hr, hl], ?_⟩
      unfold govCoefLoadBody
      simp only [par_arrivedReq, hr, hk, hloop, if_neg hff]
      repeat refine need_passes (by grind) ?_
      rfl
    case coefLoad =>
      rintro x rfl
      refine answersWith_of_form govCoefLoadBody (readForm 11 3 12) rfl rfl rfl ?_
      rintro - a ⟨hl, hr, hb, hb4, hk', h4, h5, h6, h7, h8, h9, h10, h11, h12, h13, h14, h15, hswap⟩
      have hbits : coefBits (arrivedReq descGovCoefLoad c s) 1 = true := hb4
      refine ⟨by simp [readForm, hr, hl], ?_⟩
      unfold govCoefLoadBody
      simp only [par_arrivedReq, hr, hk, hloop, coefRange_ok ⟨h7, h8⟩ ⟨h9, h10⟩ ⟨h11, h12⟩ ⟨h13, h14⟩ h15]
      repeat refine need_passes (by grind) ?_
      rfl
  case swap =>
    rintro slots hs
    obtain rfl : slots = _ := funext hs
    clear hs
    refine answersWith_of_body rfl ?_
    rintro - a ⟨hb, hk', hswap⟩
    change govCoefSwapBody _ _ = _
    unfold govCoefSwapBody
    simp only [par_arrivedReq, hk]
    refine need_passes hb (need_passes (by grind) (need_passes ?_ rfl))
    rw [Bool.not_eq_true', List.any_eq_false]
    exact fun n hn => by simp [hswap n hn]
  case limitsRead =>
    rintro - a ⟨hl, hb, hr, hff, hk'⟩
    refine ⟨by simp [readForm, hr, hl], ?_⟩
    unfold govLimitsBody
    simp only [par_arrivedReq, hr, hk]
    repeat refine need_passes (by grind) ?_
    rfl
  case limits =>
    rintro t ht
    obtain rfl : t = _ := funext ht
    clear ht
    refine answersWith_of_form govLimitsBody (readForm 8 3 5) rfl rfl rfl ?_
    rintro - a ⟨hl, hb, hr, hk', h1, h2, h3, h4, h5, h6⟩
    refine ⟨by simp [readForm, hr, hl], ?_⟩
    unfold govLimitsBody
    simp only [par_arrivedReq, hr, hk]
    repeat refine need_passes (by grind [inRange]) ?_
    rfl
  case feRead =>
    rintro - a ⟨hl, hb, hr, hff, hk'⟩
    refine ⟨by simp [readForm, hr, hl], ?_⟩
    unfold govFeCfgBody
    simp only [par_arrivedReq, hr, hk]
    repeat refine need_passes (by grind) ?_
    rfl
  case fe =>
    rintro w t rfl ht
    obtain rfl : t = _ := funext ht
    clear ht
    refine answersWith_of_form govFeCfgBody (readForm 8 3 6) rfl rfl rfl ?_
    rintro - a ⟨hl, hb, hr, hk', h1, h2, h3, h4, h5, h6⟩
    refine ⟨by simp [readForm, hr, hl], ?_⟩
    unfold govFeCfgBody
    simp only [par_arrivedReq, hr, hk]
    repeat refine need_passes (by grind) ?_
    rfl
  case capRead =>
    rintro - a ⟨hb, h0, hr, hff, hk'⟩
    change govCapSetBody _ _ = _
    unfold govCapSetBody
    simp only [par_arrivedReq, hr, hk]
    repeat refine need_passes (by grind) ?_
    rfl
  case cap =>
    rintro - a ⟨hb, hr, hk'⟩
    change govCapSetBody _ _ = _
    unfold govCapSetBody
    simp only [par_arrivedReq, hr, hk]
    repeat refine need_passes (by grind) ?_
    rfl
  case get =>
    rintro n hn hb
    have hslots : ∀ m, nRobots m < 256 := fun m => by cases m <;> decide
    refine ⟨answersWith_of_body rfl ?robot, answersWith_of_body rfl ?slot⟩
    case robot =>
      rintro - a ⟨hmode, hff, hk'⟩
      have := hslots a.member
      change govGetBody _ _ = _
      unfold govGetBody
      simp only [par_arrivedReq, hn, hmode]
      repeat refine need_passes (by grind) ?_
      rfl
    case slot =>
      rintro - a ⟨hmode, hk'⟩
      change govGetBody _ _ = _
      unfold govGetBody
      simp only [par_arrivedReq, hn, hmode]
      repeat refine need_passes (by grind) ?_
      rfl

/-- Settles O17: the answer of STOP_FLEET has as its DETAIL whether the stop was in force already. -/
theorem stopRequestsAnswer : Obligations.StopRequestsAnswer := by
  unfold Obligations.StopRequestsAnswer
  rintro c s h rfl
  refine ⟨?fleet, ?robot⟩
  case fleet =>
    rintro a t rfl rfl hu hb
    refine exec_answered rfl hu ?_
    change stopFleetBody _ _ = _
    unfold stopFleetBody
    simp only [par_arrivedReq]
    exact need_passes hb rfl
  case robot =>
    rintro k t hk ht
    obtain rfl : t = _ := funext ht
    clear ht
    refine answersWith_of_body rfl ?_
    rintro - a ⟨hb, hff, hk'⟩
    change stopRobotBody _ _ = _
    unfold stopRobotBody
    simp only [par_arrivedReq, hk]
    repeat refine need_passes (by grind) ?_
    rfl

/-- Settles O18: the mode of resets decides between the next snapshot and the armed ones; a test finds none running. -/
theorem stopControlAnswers : Obligations.StopControlAnswers := by
  unfold Obligations.StopControlAnswers
  rintro c s h u v w rfl rfl rfl rfl
  refine ⟨?reset, acceptedWith_of_body rfl ?arm, answersWith_of_form stopCfgBody _ rfl rfl rfl ?cfgRead, ?cfg,
    answersWith_of_body rfl ?get, acceptedWith_of_lockedBody rfl ?test⟩
  case reset =>
    rintro k q hk rfl
    refine acceptedWith_of_body rfl ?_
    rintro - a ⟨hb, hk', hle, hmode, href⟩
    have h1 : ¬(k = 255 ∧ a.stop.cfg.resetMode = 1) := fun ⟨h, e⟩ => by simp [hmode h] at e
    have h2 : ¬(k = 255 ∧ a.stop.cfg.resetMode = 2) := fun ⟨h, e⟩ => by simp [hmode h] at e
    change stopResetBody _ _ = _
    unfold stopResetBody
    simp only [par_arrivedReq, hk, href, if_neg h1, if_neg h2]
    repeat refine need_passes (by grind) ?_
    rfl
  case arm =>
    rintro - a ⟨hb, hk, hmode, href⟩
    change stopResetBody _ _ = _
    unfold stopResetBody
    simp only [par_arrivedReq, hk, href, hmode]
    repeat refine need_passes (by grind) ?_
    rfl
  case cfgRead =>
    rintro - a ⟨hl, hb, hr⟩
    refine ⟨by simp [hr, hl], ?_⟩
    unfold stopCfgBody
    simp only [par_arrivedReq, hr]
    exact need_passes hb rfl
  case cfg =>
    rintro x rfl
    refine answersWith_of_form stopCfgBody _ rfl rfl rfl ?_
    rintro - a ⟨hl, hb, hr, hb1, hb2, hb3, h1, h2, h3, h4, h5, h6, h7, h8, h9, h10, h11, hs⟩
    dsimp only at *
    refine ⟨by simp [hr, hl], ?_⟩
    unfold stopCfgBody
    simp only [par_arrivedReq, hr]
    repeat refine need_passes (by grind [inRange, arrivedReq_q]) ?_
    rfl
  case get => exact fun _ a _ => rfl
  case test =>
    rintro - a hlock ⟨hb, hc⟩
    have hfree : a.stop.proof.isNone = true := of_need_ok hlock
    change stopTestBody _ _ = _
    unfold stopTestBody
    simp only [par_arrivedReq]
    exact need_passes hb (need_passes (by rw [hc]; rfl) (need_passes hfree rfl))

end Sys2Proof.Machine
end

section
/-! PROOFS. The switch's commands (chapter 14). -/
set_option autoImplicit false

namespace Sys2Proof.Machine

/-- The packet length of a NET_PORT_CFG read of a port's settings (R340). -/
theorem descNetPortCfg_form : descNetPortCfg = (Desc.std 0x900 [3, 6, 10] 17
    (fun r => bitAt (par r 0) 6 || decide (fld (par r 0) 4 5 = 2)) netPortCfgBody).formLen
    (fun r => if fld (par r 0) 4 5 = 3 then none
      else some (if bitAt (par r 0) 6 ∨ fld (par r 0) 4 5 = 2 then 3 else if fld (par r 0) 4 5 = 0 then 6 else 10)) :=
  rfl

/-- Settles O19: each section of NET_PORT_CFG is one form of the packet. -/
theorem netPortCommandAnswers : Obligations.NetPortCommandAnswers := by
  unfold Obligations.NetPortCommandAnswers
  rintro c s h u v w p rfl rfl rfl rfl hp
  refine ⟨answersWith_of_form netPortCfgBody _ rfl descNetPortCfg_form rfl ?read, ?write, ?ifaceRead, ?iface,
    answersWith_of_form netPortCfgBody _ rfl descNetPortCfg_form rfl ?stats⟩
  case read =>
    rintro - a ⟨hl, hb, hsec, hr, hpe, hpn⟩
    refine ⟨by simp [hr, hl, hsec], ?_⟩
    unfold netPortCfgBody
    simp only [par_arrivedReq, hp, hsec, hr]
    refine need_passes (by simpa using hb) ?_
    unfold portSection
    refine need_passes (by simp [hpe, hpn]) ?_
    rfl
  case write =>
    rintro x rfl
    refine answersWith_of_form netPortCfgBody _ rfl descNetPortCfg_form rfl ?_
    rintro - a ⟨hl, hb, hsec, hr, hpe, hpn, hu, hv, hw, hacc, hmode, hvl, huz, hf1, hf2, hl1, hl2, huse⟩
    dsimp only at *
    refine ⟨by simp [hr, hl, hsec], ?_⟩
    unfold netPortCfgBody
    simp only [par_arrivedReq, hp, hsec, hr]
    refine need_passes (by grind) ?_
    unfold portSection portCfgOf
    simp only [par_arrivedReq]
    refine need_passes (by grind [inRange]) ?_
    refine need_passes (by grind [inRange]) ?_
    refine need_passes (by grind [inRange]) ?_
    refine need_passes (by grind [inRange]) ?_
    refine need_passes ?free ?_
    case free =>
      by_cases h8 : p < 8
      case neg => simp [h8]
      cases hin : portInUse a p with
      | false => simp
      | true =>
        obtain ⟨h1, h2, h3, h4, h5⟩ := huse h8 hin
        cases hen : (getPort a p).cfg.en <;> cases hbl : (getPort a p).cfg.blocking <;> simp_all
    rfl
  case ifaceRead =>
    rintro k hk
    refine answersWith_of_form netPortCfgBody _ rfl descNetPortCfg_form rfl ?_
    rintro - a ⟨hl, hb, hsec, hr, hpn⟩
    refine ⟨by simp [hr, hl, hsec], ?_⟩
    unfold netPortCfgBody
    simp only [par_arrivedReq, hp, hsec, hr, hk]
    refine need_passes (by simpa using hb) ?_
    unfold ifaceSection
    refine need_passes (by simp [hpn]) ?_
    rfl
  case iface =>
    rintro k x t hk hx ht
    obtain rfl : t = _ := funext ht
    obtain rfl : x = _ := funext hx
    clear ht hx
    refine answersWith_of_form netPortCfgBody _ rfl descNetPortCfg_form rfl ?_
    rintro - a ⟨hl, hb, hsec, hr, hpn, hu, hv, h4, h6, hv1, hv2⟩
    refine ⟨by simp [hr, hl, hsec], ?_⟩
    unfold netPortCfgBody
    simp only [par_arrivedReq, hp, hsec, hr, hk]
    refine need_passes (by grind) ?_
    unfold ifaceSection
    simp only [par_arrivedReq, par64_arrivedReq]
    repeat refine need_passes (by grind [inRange]) ?_
    rfl
  case stats =>
    rintro - a ⟨hl, hb, hsec, hpe, hpn⟩
    refine ⟨by simp [hl, hsec], ?_⟩
    unfold netPortCfgBody
    simp only [par_arrivedReq, hp, hsec]
    refine need_passes (by simpa using hb) ?_
    unfold statSection
    refine need_passes (by simp [hpe, hpn]) ?_
    rfl

/-- The packet length of NET_VLAN by its OP (R340). -/
theorem descNetVlan_form : descNetVlan = (Desc.std 0x901 [3, 4] 5 (fun r => decide (fld (par r 0) 12 13 = 0))
    netVlanBody).formLen
    (fun r => if fld (par r 0) 12 13 = 3 then none else some (if fld (par r 0) 12 13 = 1 then 4 else 3)) := rfl

/-- Settles O20: the read, write and delete forms of each command. -/
theorem netVlanCommandsAnswer : Obligations.NetVlanCommandsAnswer := by
  unfold Obligations.NetVlanCommandsAnswer
  rintro c s h u v rfl rfl rfl
  refine ⟨?vlan, answersWith_of_form netAgeCfgBody (readForm 0 3 5) rfl rfl rfl ?ageRead,
    answersWith_of_form netAgeCfgBody (readForm 0 3 5) rfl rfl rfl ?age, ?qos⟩
  case vlan =>
    rintro vid hvid hb h1 h2
    refine ⟨answersWith_of_form netVlanBody _ rfl descNetVlan_form rfl ?read, ?set, ?delete⟩
    case read =>
      rintro - a ⟨hl, hop⟩
      refine ⟨by simp [hl, hop], ?_⟩
      unfold netVlanBody
      simp only [par_arrivedReq, hvid, hop]
      repeat refine need_passes (by grind [inRange]) ?_
      rfl
    case set =>
      rintro x t rfl ht
      obtain rfl : t = _ := funext ht
      clear ht
      refine answersWith_of_form netVlanBody _ rfl descNetVlan_form rfl ?_
      rintro - a ⟨hl, hop, hm, hu, hbr⟩
      dsimp only at *
      refine ⟨by simp [hl, hop], ?_⟩
      unfold netVlanBody
      simp only [par_arrivedReq, hvid, hop]
      repeat refine need_passes (by grind [inRange]) ?_
      rfl
    case delete =>
      rintro t ht
      obtain rfl : t = _ := funext ht
      clear ht
      refine answersWith_of_form netVlanBody _ rfl descNetVlan_form rfl ?_
      rintro - a ⟨hl, hop, hbr, hports, hifaces⟩
      refine ⟨by simp [hl, hop], ?_⟩
      unfold netVlanBody
      simp only [par_arrivedReq, hvid, hop]
      refine need_passes (by grind) ?_
      refine need_passes (by grind [inRange]) ?_
      refine need_passes (by grind) ?_
      refine need_passes (by grind) ?_
      refine need_passes (by simpa using ⟨hports, hifaces⟩) ?_
      rfl
  case ageRead =>
    rintro - a ⟨hl, hb, hr⟩
    refine ⟨by simp [readForm, hr, hl], ?_⟩
    unfold netAgeCfgBody
    simp only [par_arrivedReq, hr]
    repeat refine need_passes (by grind) ?_
    rfl
  case age =>
    rintro - a ⟨hl, hb, hr, hv, hage, hoff⟩
    refine ⟨by simp [readForm, hr, hl], ?_⟩
    unfold netAgeCfgBody
    simp only [par_arrivedReq, hr]
    repeat refine need_passes (by grind [inRange]) ?_
    rfl
  case qos =>
    rintro p hp
    refine ⟨answersWith_of_form netQosCfgBody (readForm 4 3 10) rfl rfl rfl ?read, ?write⟩
    case read =>
      rintro - a ⟨hl, hb, h3, hr, hpe, hpn⟩
      refine ⟨by simp [readForm, hr, hl], ?_⟩
      unfold netQosCfgBody
      simp only [par_arrivedReq, hp, hr]
      repeat refine need_passes (by grind) ?_
      rfl
    case write =>
      rintro x hx
      refine answersWith_of_form netQosCfgBody (readForm 4 3 10) rfl rfl rfl ?_
      rintro - a ⟨hl, hb, h3, hr, hu, hpe, hpn⟩
      refine ⟨by simp [readForm, hr, hl], ?_⟩
      unfold netQosCfgBody
      simp only [par_arrivedReq, par64_arrivedReq, hp, hr, ← hx]
      repeat refine need_passes (by grind) ?_
      rfl

/-- Settles O21: one form of the address table per clause. -/
theorem netFdbCommandsAnswer : Obligations.NetFdbCommandsAnswer := by
  unfold Obligations.NetFdbCommandsAnswer
  rintro c s h u v vid mac rfl rfl rfl hmac
  refine ⟨?add, ?lookUp, ?list, ?robots⟩
  case add =>
    rintro ports x hvid hports hx
    have hmp : macPar (arrivedReq descNetFdbAdd c s) 1 = mac := by simp [macPar, par_arrivedReq, hmac]
    refine ⟨fun y => answersWith_of_body rfl ?replace, fun w => answersWith_of_body rfl ?free,
      fun y => answersWith_of_body rfl ?delete, ?flush⟩
    case replace =>
      rintro - a ⟨hb, hop, hg, hv1, hv2, hm, hf, hst⟩
      change netFdbAddBody _ _ = _
      unfold netFdbAddBody
      simp only [par_arrivedReq, hmp, hvid, hports, hop, hf, hx]
      repeat refine need_passes (by grind [inRange]) ?_
      rfl
    case free =>
      rintro - a ⟨hb, hop, hg, hv1, hv2, hm, hf, hw, hst⟩
      change netFdbAddBody _ _ = _
      unfold netFdbAddBody
      simp only [par_arrivedReq, hmp, hvid, hports, hop, hf, hw, hx]
      repeat refine need_passes (by grind [inRange]) ?_
      rfl
    case delete =>
      rintro - a ⟨hb, hop, hv1, hv2, hm, hf, hst⟩
      change netFdbAddBody _ _ = _
      unfold netFdbAddBody
      simp only [par_arrivedReq, hmp, hvid, hports, hop, hf]
      repeat refine need_passes (by grind [inRange]) ?_
      rfl
    case flush =>
      rintro hit hhit
      obtain rfl : hit = _ := funext hhit
      clear hhit
      refine answersWith_of_body rfl ?_
      rintro - a ⟨hb, hop, h0, hv2, hm⟩
      change netFdbAddBody _ _ = _
      unfold netFdbAddBody
      simp only [par_arrivedReq, hmp, hvid, hports, hop]
      repeat refine need_passes (by grind [inRange]) ?_
      rfl
  case lookUp =>
    rintro hvid
    refine answersWith_of_body rfl ?_
    rintro - a ⟨hb, hmode, hv, hv1, hv2⟩
    have hmp : macPar (arrivedReq descNetFdbGet c s) 1 = mac := by simp [macPar, par_arrivedReq, hmac]
    change netFdbGetBody _ _ = _
    unfold netFdbGetBody
    simp only [par_arrivedReq, hmp, hmode, hvid]
    repeat refine need_passes (by grind [inRange]) ?_
    cases findFdb a mac vid <;> rfl
  case list =>
    rintro k n l hk hn hl
    refine answersWith_of_body rfl ?_
    rintro - a ⟨hh, hv, hb, hn1, hn2⟩
    change netFdbGetBody _ _ = _
    unfold netFdbGetBody
    have hmode : fld (1 : Word) 0 1 = 1 := by decide
    have hbits : onlyBits 1#32 3 = true ∧ onlyBits 0#32 0 = true := by decide
    simp only [par_arrivedReq, hh, hk, hn, hl, hv, hmode]
    refine need_passes (by simp [hbits, hb]) ?_
    refine need_passes (by simp [inRange, hn1, hn2]) ?_
    generalize (a.net.fdb.foldr insertPlace []).filter (fun e => decide (k ≤ fdbPlace e)) = entries
    cases entries.drop n <;> rfl
  case robots =>
    rintro k n hk hn
    refine answersWith_of_body rfl ?_
    rintro - a ⟨hh, hv, hb, hk', hc⟩
    change netFdbGetBody _ _ = _
    unfold netFdbGetBody
    have hmode : fld (2 : Word) 0 1 = 2 := by decide
    have hbits : onlyBits 2#32 3 = true ∧ onlyBits 0#32 0 = true := by decide
    simp only [par_arrivedReq, hh, hk, hn, hv, hmode]
    refine need_passes (by simp [hbits, hb]) ?_
    refine need_passes (by simp [hk', hc]) ?_
    rfl

/-- Settles O22: a route in place of its like, a new one, a deletion. -/
theorem netRouteCommandsAnswer : Obligations.NetRouteCommandsAnswer := by
  unfold Obligations.NetRouteCommandsAnswer
  rintro c s h v6 len rfl h6 hlen
  refine ⟨?add, ?delete⟩
  case add =>
    rintro pfx x one more hpfx rfl hone hmore
    obtain rfl : one = _ := funext hone
    obtain rfl : more = _ := funext hmore
    clear hone hmore
    have hp : prefixPar (arrivedReq descNetRouteAdd c s) v6 3 = pfx := by
      simp [prefixPar, par_arrivedReq, par64_arrivedReq, hpfx]
    refine ⟨answersWith_of_form netRouteAddBody _ rfl rfl rfl ?same, answersWith_of_form netRouteAddBody _ rfl rfl rfl ?new⟩
    case same =>
      rintro - a ⟨hl, hb, hb2, hlb, hcl, ⟨y, hy, hyr⟩, hany⟩
      refine ⟨by cases v6 <;> simp_all, ?_⟩
      unfold netRouteAddBody macPar
      simp only [par_arrivedReq, h6, hlen, hp, hy, hany]
      repeat refine need_passes (by grind) ?_
      rfl
    case new =>
      rintro - a ⟨hl, hb, hb2, hlb, hcl, ⟨y, hy, hyr⟩, hany, hcnt, hheld⟩
      refine ⟨by cases v6 <;> simp_all, ?_⟩
      unfold netRouteAddBody macPar
      simp only [par_arrivedReq, h6, hlen, hp, hy, hany]
      repeat refine need_passes (by grind) ?_
      rfl
  case delete =>
    rintro pfx t hpfx ht
    obtain rfl : t = _ := funext ht
    clear ht
    have hp : prefixPar (arrivedReq descNetRouteDel c s) v6 1 = pfx := by
      simp [prefixPar, par_arrivedReq, par64_arrivedReq, hpfx]
    refine answersWith_of_form netRouteDelBody _ rfl rfl rfl ?_
    rintro - a ⟨hl, hb, hlb, hcl, hany⟩
    refine ⟨by cases v6 <;> simp_all, ?_⟩
    unfold netRouteDelBody
    simp only [par_arrivedReq, h6, hlen, hp, hany]
    repeat refine need_passes (by grind) ?_
    rfl

end Sys2Proof.Machine
end

section
/-! PROOFS. The commands of device time, the servo and PTP (chapter 15). -/
set_option autoImplicit false

namespace Sys2Proof.Machine

/-- The packet length of SERVO_CFG by its section and READ (R370). -/
theorem descServoCfg_form : descServoCfg = (Desc.std 0xA05 [3, 7, 12] 13 (fun r => bitAt (par r 0) 2)
    servoCfgBody).formLen
    (fun r => if fld (par r 0) 0 1 = 3 then none
      else if bitAt (par r 0) 2 ∨ fld (par r 0) 0 1 = 2 then some 3
      else if fld (par r 0) 0 1 = 0 then some 7 else some 12) := rfl

/-- The packet length of PTP_CFG by its section and READ (R370). -/
theorem descPtpCfg_form : descPtpCfg = (Desc.std 0xA04 [3, 5] 10
    (fun r => bitAt (par r 0) 2 || decide (fld (par r 0) 0 1 = 2)) ptpCfgBody).formLen
    (fun r => if fld (par r 0) 0 1 = 3 then none
      else if bitAt (par r 0) 2 ∨ fld (par r 0) 0 1 = 2 then some 3 else some 5) := rfl

/-- Settles O23: the read and the write form of each section. -/
theorem timeServoCommandsAnswer : Obligations.TimeServoCommandsAnswer := by
  unfold Obligations.TimeServoCommandsAnswer
  rintro c s h u v w x rfl rfl rfl rfl rfl
  refine ⟨answersWith_of_body rfl (fun _ _ _ => rfl), answersWith_of_form timeSourceCfgBody _ rfl rfl rfl ?srcRead, ?src, ?servo⟩
  case srcRead =>
    rintro - a ⟨hl, hb, hr⟩
    refine ⟨by simp [hr, hl], ?_⟩
    unfold timeSourceCfgBody
    simp only [par_arrivedReq, hr]
    repeat refine need_passes (by grind) ?_
    rfl
  case src =>
    rintro l t hl4 ht
    obtain rfl : t = _ := funext ht
    clear ht
    refine answersWith_of_form timeSourceCfgBody _ rfl rfl rfl ?_
    rintro - a ⟨hl, hb, hr, hu, h5, hd, hex, hq, hw⟩
    refine ⟨by simp [hr, hl], ?_⟩
    unfold timeSourceCfgBody
    have hmap : [0, 1, 2, 3].map (fun j => fld (arg c 1) (4 * j) (4 * j + 2)) = l := hl4.symm
    simp only [par_arrivedReq, hr, hmap]
    refine need_passes (by grind) ?_
    refine need_passes (by simp [h5, hd]) ?_
    refine need_passes (by simpa using hex) ?_
    refine need_passes (by grind) ?_
    rfl
  case servo =>
    rintro j hd hj hhd hb
    have hhead : ∀ a, servoHead (arrivedReq descServoCfg c s) a = hd a := by
      intro a
      rw [hhd]
      simp [servoHead, par_arrivedReq, hj]
    refine ⟨answersWith_of_form servoCfgBody _ rfl descServoCfg_form rfl ?read0, ?write0,
      answersWith_of_form servoCfgBody _ rfl descServoCfg_form rfl ?read1, ?write1,
      answersWith_of_form servoCfgBody _ rfl descServoCfg_form rfl ?read2, ?swap⟩
    case read0 =>
      rintro - a ⟨hl, hsec, hr⟩
      refine ⟨by simp [hr, hl, hsec], ?_⟩
      unfold servoCfgBody
      simp only [par_arrivedReq, hr, hsec, hj, hhead]
      refine need_passes (by simp [hb]) ?_
      repeat refine need_passes (by grind) ?_
      rfl
    case write0 =>
      rintro y hy
      refine answersWith_of_form servoCfgBody _ rfl descServoCfg_form rfl ?_
      rintro - a ⟨hl, hsec, hr, hv, h1, h2, h3, h4, h5, h6, h7, h8, h9⟩
      refine ⟨by simp [hr, hl, hsec], ?_⟩
      unfold servoCfgBody
      simp only [par_arrivedReq, hr, hsec, hj, hhead, hhd, ← hy]
      subst hy
      dsimp only at *
      refine need_passes (by simp [hb, hv]) ?_
      repeat refine need_passes (by grind [inRange]) ?_
      rfl
    case read1 =>
      rintro - a ⟨hl, hsec, hr⟩
      refine ⟨by simp [hr, hl, hsec], ?_⟩
      unfold servoCfgBody
      simp only [par_arrivedReq, hr, hsec, hj, hhead]
      refine need_passes (by simp [hb]) ?_
      repeat refine need_passes (by grind) ?_
      rfl
    case write1 =>
      rintro y t hy ht
      obtain rfl : t = _ := funext ht
      clear ht
      refine answersWith_of_form servoCfgBody _ rfl descServoCfg_form rfl ?_
      rintro - a ⟨hl, hsec, hr, hx, hmax, hsw⟩
      refine ⟨by simp [hr, hl, hsec], ?_⟩
      unfold servoCfgBody coefBits
      simp only [par_arrivedReq, hr, hsec, hj, hhead, ← hy]
      refine need_passes (by simp [hb, hx]) ?_
      repeat refine need_passes (by grind) ?_
      rfl
    case read2 =>
      rintro - a ⟨hl, hsec, hr⟩
      refine ⟨by simp [hr, hl, hsec], ?_⟩
      unfold servoCfgBody
      simp only [par_arrivedReq, hr, hsec, hj, hhead]
      refine need_passes (by simp [hb]) ?_
      repeat refine need_passes (by grind) ?_
      rfl
    case swap =>
      rintro t ht
      obtain rfl : t = _ := funext ht
      clear ht
      refine answersWith_of_form servoCfgBody _ rfl descServoCfg_form rfl ?_
      rintro - a ⟨hl, hsec, hr, hsw⟩
      refine ⟨by simp [hr, hl, hsec], ?_⟩
      unfold servoCfgBody
      simp only [par_arrivedReq, hr, hsec, hj, hhead]
      refine need_passes (by simp [hb]) ?_
      repeat refine need_passes (by grind) ?_
      rfl

section
variable {i : Cmd → Instr} {d d0 : Desc} {c : Cmd} {s : State} {cond : State → Prop} {eff : State → State}

/-- A form whose body accepts the command for later is accepted so (R43, R51). -/
theorem acceptedWith_of_form (body : Req → State → Res) (f : Req → Option Nat) (hi : hostDesc (i c) = some (d, c))
    (hd : d = d0.formLen f) (hbody : d0.body = body)
    (h : unhindered d c s = true → ∀ a, cond a →
      f (arrivedReq d c s) = some (c.params.length + 2) ∧ body (arrivedReq d c s) a = .ok (eff a, .later false)) :
    AcceptedWith i d c s cond eff :=
  acceptedWith_of_body hi fun hu a hc => formLen_answered hd hbody (lenNoAt_arrivedReq hu) (h hu a hc).1 (h hu a hc).2

/-- An unhindered command bears no time of its own (R34). -/
theorem unhindered_at (h : unhindered d c s = true) : c.at_ = false := (unhindered_parts h).2.2.1

end

/-- What TIME_SET asks of the state (R370). -/
theorem timeSetRefused_ok {op : Nat} {a : State} (h0 : op = 0 → anySpindleActive a = false)
    (h1 : op ≠ 1 → a.time.raw = true ∨ a.time.selected = 0) (h2 : op = 1 → a.time.utcDecoded = false) :
    timeSetRefused op a = .ok () := by
  unfold timeSetRefused
  repeat refine need_passes (by grind) ?_
  simp only [need]
  grind

/-- What TIME_MODE asks of the state (R344). -/
theorem timeModeRefused_ok {want : Bool} {a : State}
    (h : want = true → a.time.raw = false → anySpindleActive a = false ∧ latched a = true) :
    timeModeRefused want a = .ok () := by
  unfold timeModeRefused
  refine need_passes (by grind) ?_
  simp only [need]
  grind

/-- Settles O24: each operation passes the checks of its own field and of the state. -/
theorem ppsAlignedCommandsAnswer : Obligations.PpsAlignedCommandsAnswer := by
  unfold Obligations.PpsAlignedCommandsAnswer
  rintro c s h u v w rfl rfl rfl rfl
  refine ⟨acceptedWith_of_body rfl ?time, acceptedWith_of_body rfl ?utc, acceptedWith_of_body rfl ?theta,
    answersWith_of_form ppsCfgBody _ rfl rfl rfl ?ppsRead, acceptedWith_of_form ppsCfgBody _ rfl rfl rfl ?pps,
    answersWith_of_body rfl ?sameMode, acceptedWith_of_body rfl ?normal, acceptedWith_of_body rfl ?raw⟩
  case time =>
    rintro - a ⟨hb, hop, hw, hv, hsp, hraw⟩
    change timeSetBody _ _ = _
    unfold timeSetBody
    simp only [par_arrivedReq, par64_arrivedReq, spar64_arrivedReq, hop, hw]
    iterate 4 refine need_passes (by grind) ?_
    have hst : timeSetRefused 0 a = .ok () := timeSetRefused_ok (by grind) (by grind) (by grind)
    exact checks_pass hst rfl
  case utc =>
    rintro - a ⟨hb, hop, hv, hw, h3, hdec⟩
    change timeSetBody _ _ = _
    unfold timeSetBody
    simp only [par_arrivedReq, par64_arrivedReq, spar64_arrivedReq, hop, hv]
    iterate 4 refine need_passes (by grind) ?_
    have hst : timeSetRefused 1 a = .ok () := timeSetRefused_ok (by grind) (by grind) (by grind)
    exact checks_pass hst rfl
  case theta =>
    rintro - a ⟨hb, hop, hw, hraw, hsp⟩
    change timeSetBody _ _ = _
    unfold timeSetBody
    simp only [par_arrivedReq, par64_arrivedReq, spar64_arrivedReq, hop, hw]
    iterate 4 refine need_passes (by grind) ?_
    have hst : timeSetRefused 2 a = .ok () := timeSetRefused_ok (by grind) (by grind) (by grind)
    exact checks_pass hst rfl
  case ppsRead =>
    rintro - a ⟨hl, hb, hr⟩
    refine ⟨by simp [hr, hl], ?_⟩
    unfold ppsCfgBody
    simp only [par_arrivedReq, hr]
    repeat refine need_passes (by grind) ?_
    rfl
  case pps =>
    rintro - a ⟨hl, hb, hr, hu, h3, h6, h10, h16, h17, hv1, hv2, hw1, hw2⟩
    refine ⟨by simp [hr, hl], ?_⟩
    unfold ppsCfgBody ppsCfgOf
    simp only [par_arrivedReq, spar_arrivedReq, hr]
    repeat refine need_passes (by grind [inRange, betweenInt]) ?_
    rfl
  case sameMode =>
    rintro hu a ⟨hb, hw⟩
    change timeModeBody _ _ = _
    unfold timeModeBody
    have hat := unhindered_at hu
    simp only [par_arrivedReq, arrivedReq_at, hat]
    refine need_passes hb (checks_pass (timeModeRefused_ok (by grind)) ?_)
    rw [if_pos (by simp [hw])]
    rfl
  case normal =>
    rintro hu a ⟨hb, hw, hraw⟩
    change timeModeBody _ _ = _
    unfold timeModeBody
    simp only [par_arrivedReq]
    refine need_passes hb (checks_pass (timeModeRefused_ok (by grind)) ?_)
    rw [if_neg (by simp [hw, hraw])]
    rfl
  case raw =>
    rintro hu a ⟨hb, hw, hraw, hsp, hlat⟩
    change timeModeBody _ _ = _
    unfold timeModeBody
    simp only [par_arrivedReq]
    refine need_passes hb (checks_pass (timeModeRefused_ok (by grind)) ?_)
    rw [if_neg (by simp [hw, hraw])]
    rfl

/-- Settles O25: the read and the write form of each section. -/
theorem ptpCommandAnswers : Obligations.PtpCommandAnswers := by
  unfold Obligations.PtpCommandAnswers
  rintro c s h u v n rfl rfl rfl hn
  refine ⟨answersWith_of_form ptpCfgBody _ rfl descPtpCfg_form rfl ?read0, ?write0,
    answersWith_of_form ptpCfgBody _ rfl descPtpCfg_form rfl ?read1, ?write1,
    answersWith_of_form ptpCfgBody _ rfl descPtpCfg_form rfl ?counters⟩
  case read0 =>
    rintro - a ⟨hl, hb, hsec, hr⟩
    refine ⟨by simp [hr, hl, hsec], ?_⟩
    unfold ptpCfgBody
    simp only [par_arrivedReq, hr, hsec, hn]
    repeat refine need_passes (by grind) ?_
    rfl
  case write0 =>
    rintro x hx
    refine answersWith_of_form ptpCfgBody _ rfl descPtpCfg_form rfl ?_
    rintro - a ⟨hl, hb, hsec, hr, hv, hne, h1, h2, h3, h4, h5, h6, h7, h8, h9, h10, h11⟩
    refine ⟨by simp [hr, hl, hsec], ?_⟩
    unfold ptpCfgBody
    simp only [par_arrivedReq, hr, hsec, hn, ← hx]
    subst hx
    dsimp only at *
    repeat refine need_passes (by grind [inRange, betweenInt]) ?_
    rfl
  case read1 =>
    rintro - a ⟨hl, hb, hsec, hr, hp, h9⟩
    refine ⟨by simp [hr, hl, hsec], ?_⟩
    unfold ptpCfgBody
    simp only [par_arrivedReq, hr, hsec, hn]
    repeat refine need_passes (by grind) ?_
    rfl
  case write1 =>
    rintro x hx
    refine answersWith_of_form ptpCfgBody _ rfl descPtpCfg_form rfl ?_
    rintro - a ⟨hl, hb, hsec, hr, hu, h3, h6, hp, h9, h4⟩
    refine ⟨by simp [hr, hl, hsec], ?_⟩
    unfold ptpCfgBody
    simp only [par_arrivedReq, spar_arrivedReq, hr, hsec, hn, ← hx]
    repeat refine need_passes (by grind) ?_
    rfl
  case counters =>
    rintro - a ⟨hl, hb, hsec, hp, h9⟩
    refine ⟨by simp [hl, hsec], ?_⟩
    unfold ptpCfgBody
    simp only [par_arrivedReq, hsec, hn]
    repeat refine need_passes (by grind) ?_
    rfl

end Sys2Proof.Machine
end

section
/-! PROOFS. The recorder's commands (chapter 16) and the pair's (chapter 17). -/
set_option autoImplicit false

namespace Sys2Proof.Machine

/-- Settles O26: the forms of REC_CFG, REC_MARK and REC_SNAPSHOT by their OP. -/
theorem recSettingsAnswer : Obligations.RecSettingsAnswer := by
  unfold Obligations.RecSettingsAnswer
  rintro c s h u rfl rfl
  refine ⟨?limits, answersWith_of_form recCfgBody _ rfl rfl rfl ?figures, ?mark, ?snapshot⟩
  case limits =>
    rintro code ws hcode hws
    refine ⟨answersWith_of_form recCfgBody _ rfl rfl rfl ?read, ?set⟩
    case read =>
      rintro - a ⟨hl, hb, hop⟩
      refine ⟨by simp [hl, hop], ?_⟩
      unfold recCfgBody
      simp only [par_arrivedReq, hcode, hop, hws]
      refine need_passes (by grind) ?_
      rfl
    case set =>
      rintro t ht
      obtain rfl : t = _ := funext ht
      clear ht
      refine answersWith_of_form recCfgBody _ rfl rfl rfl ?_
      rintro - a ⟨hl, hb, hop, hu, hcls, hlim⟩
      refine ⟨by simp [hl, hop], ?_⟩
      unfold recCfgBody
      simp only [par_arrivedReq, hcode, hop, hws]
      refine need_passes (by grind) ?_
      refine need_passes (by grind) ?_
      refine need_passes (by grind) ?_
      rfl
  case figures =>
    rintro - a ⟨hl, hb, hop⟩
    refine ⟨by simp [hl, hop], ?_⟩
    unfold recCfgBody
    simp only [par_arrivedReq, hop]
    refine need_passes (by grind) ?_
    rfl
  case mark =>
    rintro k m t hk hb ht
    obtain rfl : t = _ := funext ht
    clear ht
    refine ⟨?keep, ?first, ?next, ?at_⟩
    case keep =>
      rintro hm
      refine answersWith_of_form recMarkBody _ rfl rfl rfl ?_
      rintro - a ⟨hl, hop⟩
      refine ⟨by simp [hl, hop], ?_⟩
      unfold recMarkBody
      simp only [par_arrivedReq, hk, hop, hm]
      refine need_passes hb ?_
      rfl
    case first =>
      rintro hm
      refine answersWith_of_form recMarkBody _ rfl rfl rfl ?_
      rintro - a ⟨hl, hop⟩
      refine ⟨by simp [hl, hop], ?_⟩
      unfold recMarkBody
      simp only [par_arrivedReq, hk, hop, hm, List.isEmpty_iff]
      refine need_passes hb ?_
      rfl
    case next =>
      rintro hm
      refine answersWith_of_form recMarkBody _ rfl rfl rfl ?_
      rintro - a ⟨hl, hop⟩
      refine ⟨by simp [hl, hop], ?_⟩
      unfold recMarkBody
      simp only [par_arrivedReq, hk, hop, hm]
      refine need_passes hb ?_
      rfl
    case at_ =>
      rintro hm
      refine answersWith_of_form recMarkBody _ rfl rfl rfl ?_
      rintro - a ⟨hl, hop, x, hx, hxq⟩
      refine ⟨by simp [hl, hop], ?_⟩
      unfold recMarkBody
      simp only [par_arrivedReq, hk, hop, hm]
      refine need_passes hb ?_
      refine need_passes (by simpa using ⟨x, hx, hxq⟩) ?_
      rfl
  case snapshot =>
    rintro k n t hk hb ht hn
    obtain rfl : t = _ := funext ht
    clear ht
    refine answersWith_of_body rfl ?_
    rintro - a -
    change recSnapshotBody _ _ = _
    unfold recSnapshotBody
    rcases hn with ⟨hop, hn⟩ | ⟨hop, hn⟩ | ⟨hop, hn⟩
    · simp only [par_arrivedReq, hk, hop, hn]
      refine need_passes (by grind) ?_
      rfl
    · simp only [par_arrivedReq, hk, hop, hn a _ rfl, List.isEmpty_iff]
      refine need_passes (by grind) ?_
      rfl
    · simp only [par_arrivedReq, hk, hop, hn]
      refine need_passes (by grind) ?_
      rfl

/-- Settles O27: records are read by a mark or by a snapshot, written, and erased with their ring. -/
theorem recRecordsAnswer : Obligations.RecRecordsAnswer := by
  unfold Obligations.RecRecordsAnswer
  rintro c s h u rfl rfl
  refine ⟨?read, ?write, ?erase⟩
  case read =>
    rintro k n av got reply hk hn hb hn1 hnet hgot hreply
    have hroom : ∀ a, readRoom (arrivedReq descRecRead c s) a = 4090 := by simp [readRoom, hnet]
    refine ⟨?mark, ?snapshot⟩
    case mark =>
      rintro next hav hnext
      refine answersWith_of_body rfl ?_
      rintro - a ⟨hsrc, hheld⟩
      change recReadBody _ _ = _
      unfold recReadBody
      simp only [par_arrivedReq, hroom, hk, hn, hsrc, hheld, if_true, ← hav, ← hgot]
      iterate 2 refine need_passes (by grind) ?_
      simp only [hreply, hnext]
      cases (got a).getLast? <;> rfl
    case snapshot =>
      rintro next b hb' hav hnext
      refine answersWith_of_body rfl ?_
      rintro - a ⟨hsrc, hk3, hopen, hend⟩
      change recReadBody _ _ = _
      unfold recReadBody
      simp only [par_arrivedReq, hroom, hk, hn, hsrc, ← hb', ← hav, hend, ← hgot]
      iterate 3 refine need_passes (by grind) ?_
      simp only [hreply, hnext]
      cases (got a).getLast? <;> rfl
  case write =>
    rintro code n cls e t rfl hcls hn he ht a rfl hu hl hb hb2 hs hlim
    refine exec_answered rfl hu ?_
    refine formLen_answered (body := recWriteBody) rfl rfl (lenNoAt_arrivedReq hu) (by simp [hn, hl]; omega) ?_
    unfold recWriteBody
    simp only [par_arrivedReq, hcls, hn]
    refine need_passes (by grind) ?_
    cases cls with
    | false =>
      refine need_passes (by grind) ?_
      rw [ht, he]
      rfl
    | true =>
      refine need_passes (by simpa using hs) ?_
      refine need_passes (by grind) ?_
      rw [ht, he]
      rfl
  case erase =>
    rintro cls b t hcls hb ht
    obtain rfl : b = _ := funext hb
    obtain rfl : t = _ := funext fun a => ht a _ rfl
    clear hb ht
    refine answersWith_of_body rfl ?_
    rintro - a ⟨hbits, hs⟩
    change recEraseBody _ _ = _
    unfold recEraseBody
    simp only [par_arrivedReq, hcls]
    refine need_passes hbits ?_
    cases cls with
    | false => rfl
    | true =>
      refine need_passes (by simpa using hs) ?_
      rfl

/-- Settles O28: the read and the write form of each command, and the way into and out of a pair. -/
theorem pairCommandsAnswer : Obligations.PairCommandsAnswer := by
  unfold Obligations.PairCommandsAnswer
  rintro c s h u rfl rfl
  refine ⟨answersWith_of_form pairCfgBody _ rfl rfl rfl ?cfgRead, ?cfg, answersWith_of_body rfl (fun _ _ _ => rfl),
    acceptedWith_of_body rfl ?switch, answersWith_of_form pairSelftestCfgBody _ rfl rfl rfl ?testRead,
    answersWith_of_form pairSelftestCfgBody _ rfl rfl rfl ?test⟩
  case cfgRead =>
    rintro - a ⟨hl, hb, hr⟩
    refine ⟨by simp [readForm, hr, hl], ?_⟩
    unfold pairCfgBody
    simp only [par_arrivedReq, hr]
    iterate 4 refine need_passes (by grind) ?_
    rfl
  case cfg =>
    rintro b t hb ht
    obtain rfl : b = _ := funext hb
    clear hb
    refine answersWith_of_form pairCfgBody _ rfl rfl rfl ?_
    rintro - a ⟨hl, hbits, hr, hu, h3, hw, hmac, h1, h4, hoff, hon, hs⟩
    refine ⟨by simp [readForm, hr, hl], ?_⟩
    unfold pairCfgBody
    simp only [par_arrivedReq, par64_arrivedReq, hr, ht]
    clear ht
    iterate 4 refine need_passes (by grind [inRange]) ?_
    refine need_passes ?stopped (need_passes ?alone (need_passes hs ?_))
    case stopped => cases he : bitAt (arg c 1) 0 <;> cases hen : a.pair.en <;> grind
    case alone => cases he : bitAt (arg c 1) 0 <;> cases hen : a.pair.en <;> grind
    cases bitAt (arg c 1) 0 <;> cases a.pair.en <;> rfl
  case switch =>
    rintro - a ⟨hb, hrole, hlane, hready⟩
    change pairSwitchBody _ _ = _
    unfold pairSwitchBody
    simp only [par_arrivedReq, hrole]
    iterate 5 refine need_passes (by grind) ?_
    rfl
  case testRead =>
    rintro - a ⟨hl, hb, hr⟩
    refine ⟨by simp [readForm, hr, hl], ?_⟩
    unfold pairSelftestCfgBody
    simp only [par_arrivedReq, hr]
    iterate 2 refine need_passes (by grind) ?_
    rfl
  case test =>
    rintro - a ⟨hl, hb, hr, hu, h1, h2⟩
    refine ⟨by simp [readForm, hr, hl], ?_⟩
    unfold pairSelftestCfgBody
    simp only [par_arrivedReq, hr]
    iterate 2 refine need_passes (by grind [inRange]) ?_
    rfl

end Sys2Proof.Machine
end

section
/-! PROOFS. The update commands (chapter 18). -/
set_option autoImplicit false

namespace Sys2Proof.Machine

/-- The packet names the update session (R416). -/
theorem sessionNo_ok {r : Req} {a : State} (hb : onlyBits (par r 0) 0xFFFF = true)
    (hn : (par r 0).toNat = a.upd.session) : sessionNo r a = .ok () := by
  unfold sessionNo
  exact need_passes hb (by simp [need, hn])

/-- Settles O29: each command in the state of the update that its table asks for. -/
theorem updCommandsAnswer : Obligations.UpdCommandsAnswer := by
  unfold Obligations.UpdCommandsAnswer
  rintro c s h rfl
  refine ⟨?openNew, ?owned, answersWith_of_body rfl ?get⟩
  case openNew =>
    rintro n b hn hb
    obtain rfl : n = _ := funext hn
    obtain rfl : b = _ := funext hb
    clear hn hb
    refine answersWith_of_body rfl ?_
    rintro - a ⟨-, hidle⟩
    change updOpenBody _ _ = _
    unfold updOpenBody
    refine need_passes (by simpa using hidle) ?_
    rfl
  case owned =>
    rintro own hown
    have hno : ∀ (d : Desc) (a : State), own a → sessionNo (arrivedReq d c s) a = .ok () := fun d a ho =>
      sessionNo_ok (by simpa using ((hown a).1 ho).1) (by simpa using ((hown a).1 ho).2)
    refine ⟨?header, ?data, acceptedWith_of_body rfl ?verify, ?confirm, answersWith_of_body rfl ?abort,
      answersWith_of_body rfl ?takeBack⟩
    case header =>
      rintro hdr t rfl ht
      obtain rfl : t = _ := funext ht
      clear ht
      refine answersWith_of_body rfl ?_
      rintro - a ⟨ho, hst, hck, hover⟩
      change updHeaderBody _ _ = _
      unfold updHeaderBody
      refine checks_pass (hno _ a ho) (need_passes (by simp [hst]) ?_)
      simp only [arrivedReq_params, hck, hover, if_true]
      rfl
    case data =>
      rintro data off n t rfl rfl rfl ht
      obtain rfl : t = _ := funext ht
      clear ht
      refine answersWith_of_body rfl ?_
      rintro - a ⟨ho, hst, hnext, hlen⟩
      change updDataBody _ _ = _
      unfold updDataBody
      refine checks_pass (hno _ a ho) ?_
      simp only [arrivedReq_params, par_arrivedReq, hst]
      refine need_passes (by simp [hlen]) (need_passes (by simp) ?_)
      exact if_neg (not_not_intro hnext)
    case verify =>
      rintro - a ⟨ho, hst, hnext⟩
      change updVerifyBody _ _ = _
      unfold updVerifyBody
      refine checks_pass (hno _ a ho) (need_passes (by simp [hst, hnext]) ?_)
      rfl
    case confirm =>
      rintro floor t hfloor ht
      refine answersWith_of_body rfl ?_
      rintro - a ⟨ho, hst⟩
      change updConfirmBody _ _ = _
      unfold updConfirmBody
      refine checks_pass (hno _ a ho) (need_passes (by simp [hst]) ?_)
      simp only [← hfloor, ← ht]
      rfl
    case abort =>
      rintro - a ⟨ho, hst⟩
      change updAbortBody _ _ = _
      unfold updAbortBody
      refine checks_pass (hno _ a ho) ?_
      rcases hst with hst | ⟨hst, hrec⟩
      · simp only [List.mem_cons, List.not_mem_nil, or_false] at hst
        rcases hst with hst | hst | hst | hst <;> rw [hst] <;> rfl
      · rw [hst]
        exact need_passes (by simp [hrec]) rfl
    case takeBack =>
      rintro - a ⟨ho, hst⟩
      change updAbortBody _ _ = _
      unfold updAbortBody
      refine checks_pass (hno _ a ho) ?_
      rw [hst]
      rfl
  case get =>
    rintro - a -
    change updGetBody _ _ = _
    by_cases h1 : a.upd.state = .idle <;> by_cases h2 : a.upd.owner = c.q <;> simp [updGetBody, h1, h2]

/-- Settles O30: a forerunner image restarts the module, another one waits for its bank. -/
theorem updActivateAnswers : Obligations.UpdActivateAnswers := by
  unfold Obligations.UpdActivateAnswers
  rintro c s h sec rfl hsec hdr t u hhdr ht hu
  refine acceptedWith_of_body rfl ?_
  rintro - a ⟨hb, hn, h60, h86400, hst, hboot, hfore⟩
  have hta : t a = raise 0x0D03 (natOfBool (isForerunner (hdr a))) [wordOf (hdrVersion (hdr a)), wordOf sec] .all
      (touchUpd { a with upd := { a.upd with
        confirmS := sec, activateReq := some (arrivedReq descUpdActivate c s), attempts := 0, recordAt := none } }) := ht a
  change updActivateBody _ _ = _
  unfold updActivateBody
  refine checks_pass (sessionNo_ok (by simpa using hb) (by simpa using hn)) ?_
  simp only [par_arrivedReq, hsec, ← hhdr, hboot]
  refine need_passes (by simp [inRange, h60, h86400]) (need_passes (by simp [hst]) ?_)
  cases hf : isForerunner (hdr a) with
  | false =>
    refine need_passes rfl ?_
    rw [hf] at hta
    have hready : (false || decide (Boot.ready = Boot.fault)) = false := rfl
    simp only [hready, ← hta]
    rfl
  | true =>
    refine need_passes (by simp [hfore hf]) ?_
    rw [hf] at hta
    simp only [Bool.true_or, ← hta, ← hu]
    rfl

end Sys2Proof.Machine
end

section
/-! PROOFS. Attestation, the access tables, the keys and the configuration session (chapters 18 and 19). -/
set_option autoImplicit false

namespace Sys2Proof.Machine

/-- A field of a word lies below its width's power of 2. -/
theorem fld_lt (w : Word) (lo hi : Nat) : fld w lo hi < 2 ^ (hi + 1 - lo) := Nat.mod_lt _ (Nat.two_pow_pos _)

/-- Settles O31: the forms of each command by its OP. -/
theorem secTableCommandsAnswer : Obligations.SecTableCommandsAnswer := by
  unfold Obligations.SecTableCommandsAnswer
  rintro c s h rfl
  refine ⟨?report, answersWith_of_form attestBody _ rfl rfl rfl ?key, ?chain, ?tables⟩
  case report =>
    rintro m ws hm hws
    obtain rfl : ws = _ := funext hws
    clear hws
    refine answersWith_of_form attestBody _ rfl rfl rfl ?_
    rintro - a ⟨hl, hb, hop⟩
    refine ⟨by simp [hl, hop], ?_⟩
    unfold attestBody keyPar
    simp only [par_arrivedReq, par64_arrivedReq, hop, ← hm]
    refine need_passes (by simp [hb]) ?_
    rfl
  case key =>
    rintro - a ⟨hl, hb, hop⟩
    refine ⟨by simp [hl, hop], ?_⟩
    unfold attestBody
    simp only [par_arrivedReq, hop]
    refine need_passes (by simp [hb]) ?_
    rfl
  case chain =>
    rintro off n hoff rfl
    refine answersWith_of_form attestBody _ rfl rfl rfl ?_
    rintro - a ⟨hl, hb, hop, h4, hlt⟩
    refine ⟨by simp [hl, hop], ?_⟩
    unfold attestBody
    simp only [par_arrivedReq, hop, hoff]
    refine need_passes (by simp [hb]) ?_
    refine need_passes (by simp [h4]) (need_passes (by simp [hlt]) ?_)
    rfl
  case tables =>
    rintro t i ht hi htgt
    refine ⟨?get, ?set⟩
    case get =>
      rintro n hn
      refine answersWith_of_body rfl ?_
      rintro - a ⟨hb, h1, h16, hle⟩
      change aclGetBody _ _ = _
      unfold aclGetBody
      simp only [par_arrivedReq, ht, hi, hn]
      refine need_passes hb (need_passes (by simp [htgt, inRange, h1, h16, hle]) ?_)
      rfl
    case set =>
      rintro op l ws hop hws hb
      obtain rfl : ws = _ := funext hws
      clear hws
      refine ⟨?write, ?invalidate, ?restore⟩
      case write =>
        rintro x hx hl'
        obtain rfl : l = _ := funext hl'
        clear hl'
        refine answersWith_of_form aclSetBody _ rfl rfl rfl ?_
        rintro - a ⟨hl, rfl, hle, h31, hs, hlock⟩
        refine ⟨by simp [hl, hop], ?_⟩
        unfold aclSetBody
        simp only [par_arrivedReq, ht, hi, hop, ← hx]
        refine need_passes (by simp [hb]) ?_
        refine need_passes (by subst hx; simpa [h31] using hle) ?_
        refine need_passes htgt (need_passes hs (need_passes (by simp [hlock]) ?_))
        rfl
      case invalidate =>
        rintro hl'
        obtain rfl : l = _ := funext hl'
        clear hl'
        refine answersWith_of_form aclSetBody _ rfl rfl rfl ?_
        rintro - a ⟨hl, rfl, hs, hlock⟩
        refine ⟨by simp [hl, hop], ?_⟩
        unfold aclSetBody
        simp only [par_arrivedReq, ht, hi, hop]
        refine need_passes (by simp [hb]) (need_passes (by simp) ?_)
        refine need_passes htgt (need_passes hs (need_passes (by simp [hlock]) ?_))
        rfl
      case restore =>
        rintro hl'
        obtain rfl : l = _ := funext hl'
        clear hl'
        refine answersWith_of_form aclSetBody _ rfl rfl rfl ?_
        rintro - a ⟨hl, rfl, hs, hlock⟩
        refine ⟨by simp [hl, hop], ?_⟩
        unfold aclSetBody
        simp only [par_arrivedReq, ht, hi, hop]
        refine need_passes (by simp [hb]) (need_passes (by simp) ?_)
        refine need_passes htgt (need_passes hs (need_passes (by simpa using hlock) ?_))
        rfl

/-- Settles O32: each OP passes the checks of its own, and of the session where it asks for one. -/
theorem secKeyCommandsAnswer : Obligations.SecKeyCommandsAnswer := by
  unfold Obligations.SecKeyCommandsAnswer
  rintro c s h u rfl rfl
  refine ⟨?robot, answersWith_of_form cfgSessionBody _ rfl rfl rfl ?get,
    answersWith_of_lockedForm cfgSessionBody _ rfl rfl rfl ?nonce, ?prove,
    answersWith_of_lockedForm cfgSessionBody _ rfl rfl rfl ?close, ?key, ?mgmt⟩
  case robot =>
    rintro r hr hb
    refine ⟨answersWith_of_form secRobotKeyBody _ rfl rfl rfl ?read, ?give, ?take, ?rekey,
      answersWith_of_form secRobotKeyBody _ rfl rfl rfl ?fleet⟩
    case read =>
      rintro - a ⟨hl, hop, hk⟩
      refine ⟨by simp [hl, hop], ?_⟩
      unfold secRobotKeyBody
      simp only [par_arrivedReq, hr, hop]
      iterate 3 refine need_passes (by grind) ?_
      rfl
    case give =>
      rintro key t rfl ht
      obtain rfl : t = _ := funext ht
      clear ht
      refine answersWith_of_form secRobotKeyBody _ rfl rfl rfl ?_
      rintro hu a ⟨hl, hop, hne, hk, hs, hj, hac⟩
      have hq := unhindered_queue hu
      refine ⟨by simp [hl, hop], ?_⟩
      unfold secRobotKeyBody keyPar
      simp only [par_arrivedReq, par64_arrivedReq, arrivedReq_q, hr, hop]
      iterate 3 refine need_passes (by grind) ?_
      refine need_passes hs (need_passes (by simp [hq]) (need_passes (by simp [hj, hac]) ?_))
      rfl
    case take =>
      rintro t ht
      obtain rfl : t = _ := funext ht
      clear ht
      refine answersWith_of_form secRobotKeyBody _ rfl rfl rfl ?_
      rintro - a ⟨hl, hop, hne, hk, hs, hsp⟩
      refine ⟨by simp [hl, hop], ?_⟩
      unfold secRobotKeyBody
      simp only [par_arrivedReq, arrivedReq_q, hr, hop]
      iterate 3 refine need_passes (by grind) ?_
      refine need_passes hs (need_passes (by grind) ?_)
      rfl
    case rekey =>
      rintro f hf
      obtain rfl : f = _ := funext fun p => hf p.1 p.2
      clear hf
      refine answersWith_of_form secRobotKeyBody _ rfl rfl rfl ?_
      rintro - a ⟨hl, hop, hk⟩
      refine ⟨by simp [hl, hop], ?_⟩
      unfold secRobotKeyBody
      simp only [par_arrivedReq, hr, hop]
      iterate 3 refine need_passes (by grind) ?_
      refine need_passes (by grind) ?_
      rfl
    case fleet =>
      rintro - a ⟨hl, hop, hff, h1, h2, h3, h4⟩
      refine ⟨by simp [hl, hop], ?_⟩
      unfold secRobotKeyBody
      simp only [par_arrivedReq, hr, hop]
      have h5 : fld (arg c 1) 8 15 < 256 := fld_lt (arg c 1) 8 15
      iterate 3 refine need_passes (by grind [inRange]) ?_
      rfl
  case get =>
    rintro - a ⟨hl, hz⟩
    refine ⟨by simp only [par_arrivedReq, hz, fld_zero, hl]; rfl, ?_⟩
    unfold cfgSessionBody
    have hz2 : fld 0 0 2 = 0 := fld_zero 0 2
    simp only [par_arrivedReq, arrivedReq_q, hz, hz2]
    refine need_passes (onlyBits_zero _) ?_
    rfl
  case nonce =>
    rintro - a hlock ⟨hl, hb, hop, hkey, hfree⟩
    refine ⟨by simp [hl, hop], ?_⟩
    replace hlock : cfgSessionLock (arrivedReq descSecCfgSession c s) a = .ok () := hlock
    unfold cfgSessionBody
    simp only [par_arrivedReq, arrivedReq_q, hop]
    refine need_passes (by simpa using hb) (checks_pass hlock ?_)
    refine need_passes hkey (need_passes (by simpa using hfree) ?_)
    rfl
  case prove =>
    rintro t ht
    obtain rfl : t = _ := funext ht
    clear ht
    refine answersWith_of_form cfgSessionBody _ rfl rfl rfl ?_
    rintro - a ⟨hl, hb, hop, hnum, hnonce, hown, hfree, hproof⟩
    have hph : a.session.phase = 1 := by
      simp only [nonceValid, Bool.and_eq_true, decide_eq_true_eq] at hnonce
      exact hnonce.1
    have hlock : cfgSessionLock (arrivedReq descSecCfgSession c s) a = .ok () := by
      unfold cfgSessionLock
      simp [need, hph]
    refine ⟨by simp [hl, hop], ?_⟩
    unfold cfgSessionBody
    simp only [par_arrivedReq, par64_arrivedReq, arrivedReq_q, hop, hnum]
    refine need_passes (by simpa using hb) (checks_pass hlock ?_)
    refine need_passes (by simpa using hfree) (need_passes (by simp) (need_passes (by simp [hnonce, hown]) ?_))
    exact if_pos hproof
  case close =>
    rintro - a hlock ⟨hl, hb, hop, hnum, hs⟩
    refine ⟨by simp [hl, hop], ?_⟩
    replace hlock : cfgSessionLock (arrivedReq descSecCfgSession c s) a = .ok () := hlock
    unfold cfgSessionBody
    simp only [par_arrivedReq, arrivedReq_q, hop, hnum]
    refine need_passes (by simpa using hb) (checks_pass hlock ?_)
    refine need_passes (by simp) (need_passes hs ?_)
    rfl
  case key =>
    rintro key t rfl ht
    obtain rfl : t = _ := funext ht
    clear ht
    refine answersWith_of_lockedForm cfgSessionBody _ rfl rfl rfl ?_
    rintro hu a hlock ⟨hl, hb, hop, hk⟩
    have hq := unhindered_queue hu
    refine ⟨by simp [hl, hop], ?_⟩
    replace hlock : cfgSessionLock (arrivedReq descSecCfgSession c s) a = .ok () := hlock
    unfold cfgSessionBody keyPar
    simp only [par_arrivedReq, par64_arrivedReq, arrivedReq_q, hop]
    refine need_passes (by simpa using hb) (checks_pass hlock ?_)
    refine need_passes (decide_eq_true (by omega)) (need_passes (by simpa using hk) ?_)
    rfl
  case mgmt =>
    rintro k x t hk hb ht hx
    obtain rfl : t = _ := funext ht
    clear ht
    refine answersWith_of_lockedForm cfgSessionBody _ rfl rfl rfl ?_
    rintro hu a hlock hs
    have hq := unhindered_queue hu
    replace hlock : cfgSessionLock (arrivedReq descSecCfgSession c s) a = .ok () := hlock
    unfold cfgSessionBody keyPar
    rcases hx with ⟨rfl, hl, hop⟩ | ⟨rfl, hl, hop⟩
    · refine ⟨by simp [hl, hop], ?_⟩
      simp only [par_arrivedReq, par64_arrivedReq, arrivedReq_q, hop, hk]
      refine need_passes (by simpa using hb) (checks_pass hlock ?_)
      refine need_passes (decide_eq_true (by omega)) (need_passes hs ?_)
      rfl
    · refine ⟨by simp [hl, hop], ?_⟩
      simp only [par_arrivedReq, arrivedReq_q, hop, hk]
      refine need_passes (by simpa using hb) (checks_pass hlock ?_)
      refine need_passes hs ?_
      rfl

end Sys2Proof.Machine
end

section
/-! PROOFS. The scheduler's commands (chapter 13) and the health commands (chapter 19). -/
set_option autoImplicit false

namespace Sys2Proof.Machine

/-- Settles O33: the sections of SCHED_GET and the OPs of SCHED_JOB_DEFINE. -/
theorem schedCommandsAnswer : Obligations.SchedCommandsAnswer := by
  unfold Obligations.SchedCommandsAnswer
  rintro c s h u rfl rfl
  refine ⟨?get, ?define⟩
  case get =>
    rintro hb
    refine ⟨answersWith_of_body rfl ?tick, answersWith_of_body rfl ?creel, fun k hk => answersWith_of_body rfl ?core⟩
    case tick =>
      rintro - a hsec
      change schedGetBody _ _ = _
      unfold schedGetBody
      simp only [par_arrivedReq, hsec]
      refine need_passes hb (need_passes (by simp) ?_)
      rfl
    case creel =>
      rintro - a hsec
      change schedGetBody _ _ = _
      unfold schedGetBody
      simp only [par_arrivedReq, hsec]
      refine need_passes hb (need_passes (by simp) ?_)
      rfl
    case core =>
      rintro - a ⟨hsec, hcore⟩
      change schedGetBody _ _ = _
      unfold schedGetBody
      simp only [par_arrivedReq, hsec, hk]
      refine need_passes hb (need_passes (by simp [hcore]) ?_)
      rfl
  case define =>
    rintro j hj hb
    refine ⟨answersWith_of_form schedJobDefineBody _ rfl rfl rfl ?read, ?new,
      answersWith_of_form schedJobDefineBody _ rfl rfl rfl ?delete, ?arm, ?disarm⟩
    case read =>
      rintro - a ⟨hl, hop, hn⟩
      refine ⟨by simp [jobFormLen, hl, hop], ?_⟩
      unfold schedJobDefineBody
      simp only [par_arrivedReq, hop, hj]
      refine need_passes hb (need_passes rfl (need_passes rfl (need_passes rfl ?_)))
      refine need_passes (by simp [hn]) (need_passes rfl (need_passes rfl (need_passes rfl ?_)))
      cases (getHostJob a j).defn <;> rfl
    case new =>
      rintro d x r rfl hd hx
      obtain rfl : x = _ := funext hx
      obtain rfl : d = _ := funext hd
      clear hx hd
      refine answersWith_of_form schedJobDefineBody _ rfl rfl rfl ?_
      rintro - a ⟨hop, hl, hn2, hn64, htr, hu, hp2, hat, hok, hn, hper, hsucc, harm⟩
      refine ⟨?_, ?_⟩
      · have hlen : fld (arg c 4) 0 15 ≠ 0 ∧ fld (arg c 4) 0 15 ≤ 4096 := by omega
        simp [jobFormLen, storedHeader, hl, hop, hlen]
        omega
      · unfold schedJobDefineBody storedWords
        simp only [par_arrivedReq, arrivedReq_params, arrivedReq_q, hop, hj]
        refine need_passes (by simp [hb]) (need_passes (by simp [htr, hu, hp2]) (need_passes (by simp [hat]) ?_))
        refine need_passes (by simp [hok]) (need_passes (by simp [hn]) (need_passes ?_ ?_))
        · by_cases h2 : fld (arg c 1) 0 1 = 2
          · simpa [h2] using hper h2
          · simp [h2]
        · refine need_passes (by simp [hsucc]) (need_passes (by simp [harm]) ?_)
          rfl
    case delete =>
      rintro - a ⟨hl, hop, hn, harm⟩
      refine ⟨by simp [jobFormLen, hl, hop], ?_⟩
      unfold schedJobDefineBody
      simp only [par_arrivedReq, hop, hj]
      refine need_passes hb (need_passes rfl (need_passes rfl (need_passes rfl ?_)))
      refine need_passes (by simp [hn]) (need_passes rfl (need_passes rfl (need_passes (by simp [harm]) ?_)))
      rfl
    case arm =>
      rintro d x hx
      obtain rfl : x = _ := funext hx
      clear hx
      refine answersWith_of_form schedJobDefineBody _ rfl rfl rfl ?_
      rintro - a ⟨hl, hop, hn, hd⟩
      refine ⟨by simp [jobFormLen, hl, hop], ?_⟩
      unfold schedJobDefineBody
      simp only [par_arrivedReq, hop, hj, hd]
      refine need_passes hb (need_passes rfl (need_passes rfl (need_passes rfl ?_)))
      refine need_passes (by simp [hn]) (need_passes rfl (need_passes rfl (need_passes rfl ?_)))
      rfl
    case disarm =>
      rintro x hx
      obtain rfl : x = _ := funext hx
      clear hx
      refine answersWith_of_form schedJobDefineBody _ rfl rfl rfl ?_
      rintro - a ⟨hl, hop, hn⟩
      refine ⟨by simp [jobFormLen, hl, hop], ?_⟩
      unfold schedJobDefineBody
      simp only [par_arrivedReq, hop, hj]
      refine need_passes hb (need_passes rfl (need_passes rfl (need_passes rfl ?_)))
      refine need_passes (by simp [hn]) (need_passes rfl (need_passes rfl (need_passes rfl ?_)))
      rfl

/-- Settles O34: the sections of HEALTH_GET, a self-test that begins, the margins. -/
theorem healthCommandsAnswer : Obligations.HealthCommandsAnswer := by
  unfold Obligations.HealthCommandsAnswer
  rintro c s h rfl
  refine ⟨answersWith_of_body rfl ?summary, answersWith_of_body rfl ?memory, acceptedWith_of_lockedBody rfl ?selftest,
    answersWith_of_body rfl (fun _ _ _ => rfl)⟩
  case summary =>
    rintro - a hz
    change healthGetBody _ _ = _
    unfold healthGetBody
    have hf : ∀ lo hi, fld 0 lo hi = 0 := fld_zero
    simp only [par_arrivedReq, hz, hf]
    refine need_passes (onlyBits_zero _) (need_passes rfl ?_)
    rfl
  case memory =>
    rintro - a ⟨hb, hsec, hk⟩
    change healthGetBody _ _ = _
    unfold healthGetBody
    simp only [par_arrivedReq, hsec]
    refine need_passes (by simpa using hb) (need_passes (by simp [hk]) ?_)
    rfl
  case selftest =>
    rintro - a hlock hb
    change selftestRunBody _ _ = _
    unfold selftestRunBody
    simp only [par_arrivedReq]
    refine need_passes hb (need_passes (of_need_ok hlock) ?_)
    rfl

end Sys2Proof.Machine
end

section
/-! PROOFS. The block as a whole: the step, what reset leaves, and the frame of answers and refusals. -/
set_option autoImplicit false

namespace Sys2Proof.Machine

/-- Settles O52: the queue of commands is empty or has a front. -/
theorem stepRunsFront : Obligations.StepRunsFront := by
  unfold Obligations.StepRunsFront
  refine ⟨fun c rest s h => ?_, fun s h => ?_⟩
  · unfold step
    rw [h]
  · unfold step
    rw [h]

/-- Settles O53: the queue pairs and the MSI-X entries have their initial values, for no entry of either table is set. -/
theorem resetValues : Obligations.ResetValues := by
  unfold Obligations.ResetValues
  have hint : ∀ k, State.reset.intStat.getD k false = false := by
    intro k
    change (List.replicate 32 false).getD k false = false
    rw [List.getD_eq_getElem?_getD, List.getElem?_replicate]
    split <;> rfl
  refine ⟨rfl, rfl, hint, fun _ => rfl, ?queue, rfl, rfl, rfl, rfl, rfl, rfl, rfl, rfl, rfl, rfl, rfl, rfl, rfl, rfl, rfl,
    rfl, rfl, rfl, rfl, rfl, rfl, ⟨rfl, fun k _ => hint k⟩, fun _ h => nomatch h⟩
  case queue =>
    rintro q x rfl
    exact ⟨rfl, rfl, rfl, rfl, rfl, rfl, rfl, rfl, rfl, rfl, rfl, rfl, rfl, rfl⟩

/-- Settles O56: a check that fails leads to the answer only, and the answer touches nothing that is still. -/
theorem refusedCommandOnlyAnswers : Obligations.RefusedCommandOnlyAnswers := by
  unfold Obligations.RefusedCommandOnlyAnswers
  rintro i d c s f hi hu hsr hb
  have hq : c.q < 16 := unhindered_queue hu
  have hst : (finish (arrivedReq d c s) f.status f.detail f.words (arrived d c s)).still = s.still :=
    (finish_still _ _ _ _ hq rfl).trans (arrived_still d c s)
  refine ⟨_, ?_, rfl, hst, fun k hk => (finish_getQ_ne _ _ _ _ hq rfl hk).trans (arrived_getQ_ne s hk)⟩
  rw [exec_host i d c s hi, arrive_refused hu hb]
  unfold failReq
  rw [settle_of_still hst hsr]

@[simp] theorem passOpTime_queues (dt : Nat) (s : State) : (passOpTime dt s).queues = s.queues := by
  unfold passOpTime
  split <;> rfl

@[simp] theorem beginAt_still (t : Nat) (s : State) : (beginAt t s).still = s.still := by
  unfold beginAt
  dsimp only
  split
  · rfl
  · exact passOpTime_still _ _

@[simp] theorem beginAt_queues (t : Nat) (s : State) : (beginAt t s).queues = s.queues := by
  unfold beginAt
  dsimp only
  split
  · rfl
  · exact passOpTime_queues _ _

@[simp] theorem beginUp_still (t : Nat) (s : State) : (beginUp t s).still = s.still := by
  unfold beginUp
  split <;> exact begin_still _ _

@[simp] theorem beginUp_queues (t : Nat) (s : State) : (beginUp t s).queues = s.queues := by
  unfold beginUp
  split <;> exact begin_queues _ _

/-- R43: the acceptance of a command is an answer and nothing more. -/
theorem accepted_still {r : Req} (s : State) (hq : r.q < 16) : (accepted r s).still = s.still := by
  unfold accepted answer
  rw [if_pos hq]
  split
  · rfl
  · split
    · exact placeOrWait_still _ _ _
    · rfl

/-- The acceptance of a command reaches its own queue pair only. -/
theorem accepted_getQ_ne {r : Req} {k : Nat} (s : State) (hq : r.q < 16) (h : k ≠ r.q) :
    getQ (accepted r s) k = getQ s k := by
  unfold accepted answer
  rw [if_pos hq]
  split
  · rfl
  · split
    · exact placeOrWait_getQ_ne _ _ h
    · rfl

/-- Settles O57: time, an arrival, an answer and an acceptance, each by what it is made of. -/
theorem answersKeepTheRest : Obligations.AnswersKeepTheRest := by
  unfold Obligations.AnswersKeepTheRest
  refine ⟨fun t s => ⟨⟨begin_still t s, beginInput_still t s, beginAt_still t s, beginUp_still t s⟩,
    begin_queues t s, beginInput_queues t s, beginAt_queues t s, beginUp_queues t s⟩,
    fun d c s _ => ⟨arrived_still d c s, fun k hk => arrived_getQ_ne s hk⟩, fun r st n ws s hq hj => ?_⟩
  exact ⟨finish_still st n ws s hq hj, accepted_still s hq,
    fun k hk => ⟨finish_getQ_ne st n ws s hq hj hk, accepted_getQ_ne s hq hk⟩⟩

end Sys2Proof.Machine
end

section
/-! PROOFS. The accesses to a queue pair page (chapter 03): first the rules of the queue pair's state, then one row after
another. -/
set_option autoImplicit false

namespace Sys2Proof.Machine

/-! ### Rules of the queue pairs -/

theorem modQ_eq (q : Nat) (f : Queue → Queue) (s : State) : modQ q f s = setQ q (f (getQ s q)) s := rfl

theorem modQ_setQ (q : Nat) (f : Queue → Queue) (x : Queue) (s : State) : modQ q f (setQ q x s) = setQ q (f x) s := by
  rw [modQ_eq, getQ_setQ, setQ_setQ]

theorem countQ_setQ {q : Nat} (hq : q < 16) (f : QueCounters → QueCounters) (x : Queue) (s : State) :
    countQ q f (setQ q x s) = setQ q { x with cnt := f x.cnt } s := by
  unfold countQ
  rw [if_neg (by omega), modQ_setQ]

theorem countQ_eq {q : Nat} (hq : q < 16) (f : QueCounters → QueCounters) (s : State) :
    countQ q f s = setQ q { getQ s q with cnt := f (getQ s q).cnt } s := by
  unfold countQ
  rw [if_neg (by omega), modQ_eq]

theorem modCmd_eq (q : Nat) (f : CmdSide → CmdSide) (s : State) :
    modCmd q f s = setQ q { getQ s q with cmd := f (getQ s q).cmd } s := rfl

theorem modCmd_setQ (q : Nat) (f : CmdSide → CmdSide) (x : Queue) (s : State) :
    modCmd q f (setQ q x s) = setQ q { x with cmd := f x.cmd } s := modQ_setQ ..

/-- A flag of QUE_STAT that raises no interrupt (R64). -/
theorem setQueFlag_wrFmt (q : Nat) (s : State) : setQueFlag q .wrFmt s =
    modQ q (fun x => { x with wrFmt := true, occ := occInc x.occ 1 }) s := rfl

theorem setQueFlag_rdFmt (q : Nat) (s : State) : setQueFlag q .rdFmt s =
    modQ q (fun x => { x with rdFmt := true, occ := occInc x.occ 2 }) s := rfl

theorem setQueFlag_credViol (q : Nat) (s : State) : setQueFlag q .credViol s =
    setInt 18 (modQ q (fun x => { x with credViol := true, occ := occInc x.occ 0 }) s) := rfl

/-! ### Accesses of the host -/

theorem hostAccess_allowed {t o n : Nat} {f : State → State} {s : State} (h : aclAllows s 1 t o n = true) :
    hostAccess t o n f s = f s := if_pos h

theorem hostAccess_write_denied {t o : Nat} {f : State → State} {s : State} (h : aclAllows s 1 t o 2 = false) :
    hostAccess t o 2 f s = deny 1 t o 2 s := by
  unfold hostAccess
  rw [h]
  rfl

theorem hostAccess_read_denied {t o : Nat} {f : State → State} {s : State} (h : aclAllows s 1 t o 1 = false) :
    hostAccess t o 1 f s = emit (.readData 0) (deny 1 t o 1 s) := by
  unfold hostAccess
  rw [h]
  rfl

theorem pointerExists_of_le {k : Option Nat} (h : ∀ n, k = some n → n ≤ 4) : pointerExists k = true := by
  cases k with
  | none => rfl
  | some n => exact decide_eq_true (h n rfl)

/-- A read of READ_PORT that may find a pointer's copies unequal (R70, R74). -/
def readOrFault (q : Nat) (wide : Bool) (k : Option Nat) (a : State) : State :=
  match k with
  | some k => if (getQ a q).faulted then readPort q wide a else emit (.readData 0) (pointerFault q k a)
  | none => readPort q wide a

section
variable {q dt : Nat} {s : State} {k : Option Nat}

theorem exec_writePortWrite (hq : q < 16) (hk : pointerExists k = true) (hs : queServed (begin_ dt s) q = true)
    (w : Word) (ok : Bool) : exec (.writePortWrite q w ok k dt) s = .next (hostAccess 1 (256 * q) 2
      (orPointerFault q k (fun a => if ok then writeWord q w a else badWrite q a)) (begin_ dt s)) := by
  change execWritePortWrite q w ok k dt s = _
  unfold execWritePortWrite
  dsimp only
  rw [if_neg (by omega), hk, hs]
  rfl

theorem exec_doorbellWrite (hq : q < 16) (hk : pointerExists k = true) (hs : queServed (beginInput dt s) q = true) :
    exec (.doorbellWrite ⟨q, k⟩ dt) s = .next (hostAccess 1 (256 * q) 2
      (orPointerFault q k (fun a => settle (ringBell descOf q a))) (beginInput dt s)) := by
  change execDoorbellWrite ⟨q, k⟩ dt s = _
  unfold execDoorbellWrite
  dsimp only
  rw [if_neg (by omega), hk, hs]
  rfl

/-- What serves a queue pair of the host serves the bus (R439). -/
theorem busServed_of_queServed {a : State} (hq : q < 16) (h : queServed a q = true) : busServed a = true := by
  have hne : q ≠ 16 := by omega
  simp only [queServed, Bool.and_eq_true, Bool.or_eq_true, decide_eq_true_eq, hne, false_or] at h
  simp [busServed, h.1]

theorem exec_readPortRead (hq : q < 16) (hk : pointerExists k = true) (hs : queServed (begin_ dt s) q = true)
    (wide : Bool) : exec (.readPortRead q wide k dt) s =
      .next (hostAccess 1 (256 * q) 1 (readOrFault q wide k) (begin_ dt s)) := by
  change execReadPortRead q wide k dt s = _
  unfold execReadPortRead
  dsimp only
  rw [if_neg (by omega), hk, busServed_of_queServed hq hs, hs]
  rfl

theorem exec_queReset (hq : q < 16) (hs : queServed (begin_ dt s) q = true) :
    exec (.queReset q dt) s = .next (hostAccess 1 (256 * q) 2 (resetQueue q) (begin_ dt s)) := by
  change execQueReset q dt s = _
  unfold execQueReset
  dsimp only
  rw [if_neg (by omega), hs]
  rfl

theorem orPointerFault_sound (f : State → State) (a : State) : orPointerFault q none f a = f a := rfl

theorem orPointerFault_unequal {n : Nat} (f : State → State) {a : State} (h : (getQ a q).faulted = false) :
    orPointerFault q (some n) f a = pointerFault q n a := by
  unfold orPointerFault
  dsimp only
  rw [h]
  rfl

end

/-! ### The words of a command side -/

section
variable {q : Nat} {a : State} (hq : q < 16)
include hq

/-- A word written to a pair that is not enabled is counted only (R65). -/
theorem writeWord_disabled (w : Word) (he : qEnabled (getQ a q) = false) : writeWord q w a =
    setQ q { getQ a q with
      cnt := { (getQ a q).cnt with disabledWrites := cnt32 (getQ a q).cnt.disabledWrites },
      cmd := { (getQ a q).cmd with strandAt := some a.up } } a := by
  unfold writeWord
  dsimp only
  rw [he, if_pos (by rfl)]
  exact countQ_setQ hq _ _ a

/-- A word beyond the credit, after one that was dropped already (R69). -/
theorem writeWord_dropped (w : Word) (he : qEnabled (getQ a q) = true)
    (hc : (getQ a q).cmd.wordsTaken = (getQ a q).cmd.credLimit) (hd : (getQ a q).cmd.dropping = true) : writeWord q w a =
    setInt 18 (setQ q { getQ a q with
      cnt := { (getQ a q).cnt with credViol := cnt32 (getQ a q).cnt.credViol },
      cmd := { (getQ a q).cmd with strandAt := some a.up }, credViol := true, occ := occInc (getQ a q).occ 0 } a) := by
  unfold writeWord
  dsimp only
  rw [he, if_neg (by decide), if_pos hc, modCmd_eq, countQ_setQ hq, setQueFlag_credViol, modQ_setQ]
  dsimp only
  rw [if_pos hd]

/-- A word within the credit joins the open entry, which closes with its fourth word (R66, R69, R77). -/
theorem writeWord_taken (w : Word) (he : qEnabled (getQ a q) = true)
    (hc : (getQ a q).cmd.wordsTaken ≠ (getQ a q).cmd.credLimit) : writeWord q w a =
    (let x := getQ a q
     let full := x.cmd.open_ ++ [w]
     setQ q { x with
      cnt := { x.cnt with wordsTaken := cnt32 x.cnt.wordsTaken },
      cmd := { x.cmd with
        wordsTaken := x.cmd.wordsTaken + 1, strandAt := some a.up,
        wm := markLevel x.cmd.wm x.wmCmdCfg (cmdLevel x) (cmdLevel x + 1),
        inv := if full.length = 4 then x.cmd.inv ++ [.entry 4 full] else x.cmd.inv,
        open_ := if full.length = 4 then [] else full } } a) := by
  unfold writeWord
  dsimp only
  rw [he, if_neg (by decide), if_neg hc, modCmd_eq, modQ_setQ, countQ_setQ hq]
  dsimp only
  split <;> rfl

omit hq in
/-- A malformed write only flags, and restarts the strand timer (R65, R68). -/
theorem badWrite_enabled (he : qEnabled (getQ a q) = true) : badWrite q a =
    setQ q { getQ a q with
      cmd := { (getQ a q).cmd with strandAt := some a.up }, wrFmt := true, occ := occInc (getQ a q).occ 1 } a := by
  unfold badWrite strandStart
  rw [he, if_pos rfl, modCmd_eq, setQueFlag_wrFmt, modQ_setQ]

theorem badWrite_disabled (he : qEnabled (getQ a q) = false) : badWrite q a =
    setQ q { getQ a q with
      cnt := { (getQ a q).cnt with disabledWrites := cnt32 (getQ a q).cnt.disabledWrites },
      cmd := { (getQ a q).cmd with strandAt := some a.up }, wrFmt := true, occ := occInc (getQ a q).occ 1 } a := by
  unfold badWrite strandStart
  rw [he, if_neg (by decide), modCmd_eq, countQ_setQ hq, setQueFlag_wrFmt, modQ_setQ]

theorem ringBell_disabled (lookup : Nat → Option Desc) (he : qEnabled (getQ a q) = false) : ringBell lookup q a =
    setQ q { getQ a q with cnt := { (getQ a q).cnt with disabledWrites := cnt32 (getQ a q).cnt.disabledWrites } } a := by
  unfold ringBell
  rw [he, if_pos (by rfl), countQ_eq hq]

end

/-- The words of the open entry, closed as an entry of its own (R66, R67). -/
def closedEntry (c : CmdSide) : List FifoItem := if c.open_ = [] then [] else [.entry c.open_.length c.open_]

theorem closeEntry_inv (c : CmdSide) : (closeEntry c).inv = c.inv ++ closedEntry c := by
  unfold closeEntry closedEntry
  cases h : c.open_ <;> simp

theorem closeEntry_eq (c : CmdSide) : closeEntry c = { c with inv := c.inv ++ closedEntry c, open_ := [] } := by
  unfold closeEntry closedEntry
  cases h : c.open_ with
  | nil => simp [← h]
  | cons w ws => simp

/-- A doorbell shows all that was written to the interpreter (R67). -/
theorem ringBell_enabled (lookup : Nat → Option Desc) {q : Nat} {a : State} (he : qEnabled (getQ a q) = true) :
    ringBell lookup q a = runInterp lookup q (setQ q { getQ a q with cmd := { (getQ a q).cmd with
      vis := (getQ a q).cmd.vis ++ (getQ a q).cmd.inv ++ closedEntry (getQ a q).cmd ++ [.bell],
      inv := [], open_ := [], dropping := false } } a) := by
  unfold ringBell
  rw [he, if_neg (by decide)]
  dsimp only
  rw [modCmd_eq, closeEntry_eq]
  simp only [List.append_assoc]

/-- The next word of the event side is taken (R70). -/
theorem readPort_word {q : Nat} {a : State} {w : EvWord} {r : List EvWord} (hw : (getQ a q).evt.words = w :: r)
    (hp : (getQ a q).push = false) : readPort q true a = emit (.readData (readPortValue w r.length))
      (setQ q { getQ a q with evt := { (getQ a q).evt with words := r } } a) := by
  unfold readPort
  dsimp only
  rw [if_neg (by decide), if_neg (by simp [hp]), hw]
  rfl

/-- There is no word for the host to take (R70, R72). -/
theorem readPort_empty {q : Nat} {a : State} (h : (getQ a q).evt.words = [] ∨ (getQ a q).push = true) :
    readPort q true a = emit (.readData 0) a := by
  unfold readPort
  dsimp only
  rw [if_neg (by decide)]
  split
  · rfl
  next hp =>
    rw [h.resolve_right hp]

/-! ### The rows -/

/-- Settles O35: each access, allowed and denied, with its pointers equal and unequal. -/
theorem portAccessesRun : Obligations.PortAccessesRun := by
  unfold Obligations.PortAccessesRun
  rintro q dt s a b x z hq rfl ha rfl rfl hb rfl
  refine ⟨fun hacl w n y he hn hy hc => ⟨?join, ?close⟩, ?drop, ?disabled, ?bellDisabled, ?bad, ?bell, ?read, ?empty,
    ?narrow, ?reset, ?pointer, ?denied⟩
  case join =>
    intro h3
    rw [exec_writePortWrite hq rfl ha, hostAccess_allowed hacl, orPointerFault_sound, if_pos rfl, writeWord_taken hq w he hc]
    subst hn hy
    have hopen : ((getQ (begin_ dt s) q).cmd.open_ ++ [w]).length ≠ 4 := by simpa using h3
    dsimp only
    rw [if_neg hopen, if_neg hopen]
    rfl
  case close =>
    intro h3
    rw [exec_writePortWrite hq rfl ha, hostAccess_allowed hacl, orPointerFault_sound, if_pos rfl, writeWord_taken hq w he hc]
    subst hn hy
    have hfull : ((getQ (begin_ dt s) q).cmd.open_ ++ [w]).length = 4 := by simpa using h3
    dsimp only
    rw [if_pos hfull, if_pos hfull]
    rfl
  case drop =>
    rintro hacl w y he hc hd rfl
    rw [exec_writePortWrite hq rfl ha, hostAccess_allowed hacl, orPointerFault_sound, if_pos rfl,
      writeWord_dropped hq w he hc hd]
    rfl
  case disabled =>
    rintro hacl w ok y he rfl
    rw [exec_writePortWrite hq rfl ha, hostAccess_allowed hacl, orPointerFault_sound]
    cases ok with
    | true => rw [if_pos rfl, writeWord_disabled hq w he]; rfl
    | false => rw [if_neg (by decide), badWrite_disabled hq he]; rfl
  case bellDisabled =>
    intro hacl he
    rw [exec_doorbellWrite hq rfl hb, hostAccess_allowed hacl, orPointerFault_sound, ringBell_disabled hq descOf he]
    rfl
  case bad =>
    intro hacl w he
    rw [exec_writePortWrite hq rfl ha, hostAccess_allowed hacl, orPointerFault_sound, if_neg (by decide),
      badWrite_enabled he]
  case bell =>
    rintro hacl y he rfl
    rw [exec_doorbellWrite hq rfl hb, hostAccess_allowed hacl, orPointerFault_sound, ringBell_enabled descOf he]
    rfl
  case read =>
    intro hacl w r hw hp
    rw [exec_readPortRead hq rfl ha, hostAccess_allowed hacl]
    exact congrArg _ (readPort_word hw hp)
  case empty =>
    intro hacl h
    rw [exec_readPortRead hq rfl ha, hostAccess_allowed hacl]
    exact congrArg _ (readPort_empty h)
  case narrow =>
    intro hacl
    rw [exec_readPortRead hq rfl ha, hostAccess_allowed hacl]
    rfl
  case reset =>
    intro hacl
    rw [exec_queReset hq ha, hostAccess_allowed hacl]
    rfl
  case pointer =>
    intro k w ok wide hk
    have hp : pointerExists (some k) = true := decide_eq_true hk
    refine ⟨fun hacl hf => ?_, fun hacl hf => ?_, fun hacl hf => ?_⟩
    · rw [exec_writePortWrite hq hp ha, hostAccess_allowed hacl, orPointerFault_unequal _ hf]
    · rw [exec_doorbellWrite hq hp hb, hostAccess_allowed hacl, orPointerFault_unequal _ hf]
    · rw [exec_readPortRead hq hp ha, hostAccess_allowed hacl]
      unfold readOrFault
      dsimp only
      rw [hf]
      rfl
  case denied =>
    intro k w ok wide hk
    have hp := pointerExists_of_le hk
    refine ⟨fun hacl => ⟨?_, ?_⟩, fun hacl => ?_, fun hacl => ?_⟩
    · rw [exec_writePortWrite hq hp ha]
      exact congrArg _ (hostAccess_write_denied hacl)
    · rw [exec_queReset hq ha]
      exact congrArg _ (hostAccess_write_denied hacl)
    · rw [exec_doorbellWrite hq hp hb]
      exact congrArg _ (hostAccess_write_denied hacl)
    · rw [exec_readPortRead hq hp ha]
      exact congrArg _ (hostAccess_read_denied hacl)

end Sys2Proof.Machine
end

section
/-! PROOFS. The accesses to BAR0 (chapters 03, 12 and 15). -/
set_option autoImplicit false

namespace Sys2Proof.Machine

/-! ### The rows on a bus that is served -/

section
variable {dt : Nat} {s : State} (hb : busServed (begin_ dt s) = true)
include hb

theorem flagRegServed_of {reg : FlagReg} (h : ∀ q, reg = .que q → q < 16 ∧ queServed (begin_ dt s) q = true) :
    flagRegExists reg = true ∧ flagRegServed (begin_ dt s) reg = true := by
  cases reg with
  | que q => exact ⟨decide_eq_true (h q rfl).1, (h q rfl).2⟩
  | sysErr => exact ⟨rfl, hb⟩
  | int => exact ⟨rfl, hb⟩
  | stop => exact ⟨rfl, hb⟩
  | time => exact ⟨rfl, hb⟩

theorem exec_w1cFlagClear {reg : FlagReg} (h : ∀ q, reg = .que q → q < 16 ∧ queServed (begin_ dt s) q = true)
    (m n : Nat) : exec (.w1cFlagClear reg m n dt) s =
      .next (hostAccess (flagTarget reg).1 (flagTarget reg).2 2 (clearFlags reg m n) (begin_ dt s)) := by
  obtain ⟨he, hs⟩ := flagRegServed_of hb h
  change execW1cFlagClear reg m n dt s = _
  unfold execW1cFlagClear
  dsimp only
  rw [he, hs]
  rfl

theorem exec_occCounterRead {reg : FlagReg} (h : ∀ q, reg = .que q → q < 16 ∧ queServed (begin_ dt s) q = true)
    (w n : Nat) : exec (.occCounterRead reg w n dt) s = .next
      (hostAccess (flagTarget reg).1 ((flagTarget reg).2 + 4 + 4 * w) 1 (readOcc reg w n) (begin_ dt s)) := by
  obtain ⟨he, hs⟩ := flagRegServed_of hb h
  change execOccCounterRead reg w n dt s = _
  unfold execOccCounterRead
  dsimp only
  rw [he, hs, hb]
  rfl

theorem exec_intStatClear (m n : Nat) : exec (.intStatClear m n dt) s =
    .next (hostAccess 2 0 2 (clearInt m n) (begin_ dt s)) := by
  change execIntStatClear m n dt s = _
  unfold execIntStatClear
  dsimp only
  rw [if_pos hb]

theorem exec_sysResetWrite (v : Nat) : exec (.sysResetWrite v dt) s =
    .next (hostAccess 0 0x1C 2 (sysReset v) (begin_ dt s)) := by
  change execSysResetWrite v dt s = _
  unfold execSysResetWrite
  dsimp only
  rw [if_pos hb]

theorem exec_timeSnapRead : exec (.timeSnapRead dt) s = .next (hostAccess 4 0 1 snapTime (begin_ dt s)) := by
  change execTimeSnapRead dt s = _
  unfold execTimeSnapRead
  dsimp only
  rw [if_pos hb]

theorem exec_barAccessFault (fmt isRead : Bool) : exec (.barAccessFault fmt isRead dt) s =
    .next (barFault fmt isRead (begin_ dt s)) := by
  change execBarAccessFault fmt isRead dt s = _
  unfold execBarAccessFault
  dsimp only
  rw [if_pos hb]

theorem exec_registerWrite {off v : Nat} {k : Option Nat} (ho : off < 0x10000) (hk : pointerExists k = true) :
    exec (.registerWrite off ⟨v, k⟩ dt) s = .next (writeBar0 off (wordOf v) k (begin_ dt s)) := by
  change execRegisterWrite off ⟨v, k⟩ dt s = _
  unfold execRegisterWrite
  dsimp only
  rw [if_neg (by omega), hk, if_pos hb]
  rfl

omit hb in
theorem exec_watermarkFlagClear {q : Nat} (hq : q < 16) (hs : queServed (begin_ dt s) q = true) (e : Bool)
    (x : Option Nat) : exec (.watermarkFlagClear q e x dt) s =
      .next (hostAccess 1 (256 * q + 4) 2 (clearMark q e x) (begin_ dt s)) := by
  change execWatermarkFlagClear q e x dt s = _
  unfold execWatermarkFlagClear
  dsimp only
  rw [if_neg (by omega), if_pos hs]
  rfl

end

/-! ### What the registers do -/

/-- Flags of a queue pair that no flag sets in the same cycle (R76). -/
theorem clearFlags_que (q m : Nat) (s : State) : clearFlags (.que q) m 0 s =
    (bitsOf 6 m).foldl (fun b i => modQ q (fun x => putQueFlag (queFlagOf i) false x) b) s := by
  have hset : bitsOf 6 0 = [] := by decide
  have hall : (bitsOf 6 m).filter (fun i => !Nat.testBit 0 i) = bitsOf 6 m :=
    List.filter_eq_self.2 (fun i _ => by rw [Nat.zero_testBit, Bool.not_false])
  change ((bitsOf 6 m).filter (fun i => !Nat.testBit 0 i)).foldl
    (fun b i => modQ q (fun x => putQueFlag (queFlagOf i) false x) b)
    ((bitsOf 6 0).foldl (fun b i => setFlag (.que q) i b) s) = _
  rw [hset, hall, List.foldl_nil]

theorem bitsOf_two_pow {n k : Nat} (h : k < n) : bitsOf n (2 ^ k) = [k] := by
  unfold bitsOf
  simp only [Nat.testBit_two_pow]
  induction n with
  | zero => omega
  | succ n ih =>
    rw [List.range_succ, List.filter_append]
    by_cases hk : k = n
    · subst hk
      have hnone : (List.range k).filter (fun i => decide (k = i)) = [] := by
        simp only [List.filter_eq_nil_iff, List.mem_range, decide_eq_true_eq]
        omega
      simp [hnone]
    · rw [ih (by omega)]
      simp [hk]

/-- A source without a queue pair behind it is cleared and nothing follows (R73, R76). -/
theorem clearInt_single {k : Nat} (h16 : 16 ≤ k) (h23 : k < 23) (s : State) :
    clearInt (2 ^ k) 0 s = { s with intStat := s.intStat.set k false } := by
  have hkeep : s.intStat.getD k false = false → s.intStat.set k false = s.intStat := by
    intro h
    refine List.ext_getElem? fun i => ?_
    rw [List.getElem?_set]
    by_cases hi : k = i
    · subst hi
      rw [List.getD_eq_getElem?_getD] at h
      cases hl : s.intStat[k]? with
      | none => simpa using hl
      | some v =>
        obtain rfl : v = false := by simpa [hl] using h
        simp [(List.getElem?_eq_some_iff.1 hl).1]
    · simp [hi]
  have hnot : ¬ k < 16 := by omega
  have hnone : bitsOf 23 0 = [] := by simp [bitsOf]
  unfold clearInt
  simp only [bitsOf_two_pow h23, hnone, List.foldl_nil, List.filter_cons, List.filter_nil, Nat.zero_testBit]
  cases hs : s.intStat.getD k false with
  | false => simp [hkeep hs]
  | true => simp [hnot]

theorem readOcc_sysErr {n0 n1 n2 n3 : Nat} {s : State} (h : s.sys.errOcc = [n0, n1, n2, n3]) : readOcc .sysErr 0 0 s =
    emit (.readData (n0 + 256 * n1 + 65536 * n2 + 16777216 * n3)) { s with sys := { s.sys with errOcc := [0, 0, 0, 0] } } := by
  have hnone : bitsOf 4 0 = [] := by simp [bitsOf]
  have hrange : [n0, n1, n2, n3].zip (List.range [n0, n1, n2, n3].length) = [(n0, 0), (n1, 1), (n2, 2), (n3, 3)] := rfl
  unfold readOcc occOf
  simp only [h, hnone, hrange]
  simp [occWord, putOcc]

/-- A write of SYS_RESET without its key does nothing (R81). -/
theorem sysReset_noKey {v : Nat} (h : v % 65536 ≠ 0x5AFE) (s : State) : sysReset v s = s := if_pos h

/-- The SOFT_RESET that a write of SYS_RESET stands for (R81). -/
def sysResetReq (s : State) : Req := { Req.none with op := 0x004, q := 0, len := 3, params := [0x5AFE], stamp := s.now }

theorem sysReset_refused {v : Nat} {f : Fail} {s : State} (h : v % 65536 = 0x5AFE)
    (hc : headerChecks descSoftReset (sysResetReq s) s = .error f) (hd : f.status ≠ .denied) :
    sysReset v s = { s with sys := { s.sys with resetResult := 2 } } := by
  change (if v % 65536 ≠ 0x5AFE then s else match headerChecks descSoftReset (sysResetReq s) s with
    | .error f => _
    | .ok _ => _) = _
  rw [if_neg (not_not_intro h), hc]
  dsimp only
  rw [if_neg hd]

theorem sysReset_runs {v : Nat} {b : State} {p : Reply} {s : State} (h : v % 65536 = 0x5AFE)
    (hc : headerChecks descSoftReset (sysResetReq s) s = .ok ())
    (hg : gatedBody descSoftReset (sysResetReq s) s = .ok (b, p)) :
    sysReset v s = settle { b with sys := { b.sys with resetResult := 1 } } := by
  change (if v % 65536 ≠ 0x5AFE then s else match headerChecks descSoftReset (sysResetReq s) s with
    | .error f => _
    | .ok _ => match gatedBody descSoftReset (sysResetReq s) s with
      | .error _ => _
      | .ok (s', _) => _) = _
  rw [if_neg (not_not_intro h), hc]
  dsimp only
  rw [hg]

theorem writeBar0_mapped {off : Nat} (w : Word) (k : Option Nat) (s : State) (h4 : off % 4 = 0) (h8 : off < 0x8000) :
    writeBar0 off w k s = hostAccess (barTarget off).1 (barTarget off).2 2 (writeBlock off w k) s := by
  unfold writeBar0
  rw [if_neg (not_not_intro h4), if_neg (by omega)]

theorem barTarget_que {q : Nat} (h : q < 16) : barTarget (0x1000 + 0x100 * q) = (1, 256 * q) := by
  unfold barTarget
  rw [if_pos (by omega)]
  congr 1 <;> omega

theorem writeBlock_ctrl {q : Nat} (h : q < 16) (w : Word) {s : State} (hs : queServed s q = true) :
    writeBlock (0x1000 + 0x100 * q) w none s = writeCtrl q w s := by
  have h1 : (0x1000 + 0x100 * q) / 0x1000 = 1 := by omega
  have h2 : (0x1000 + 0x100 * q) % 0x1000 / 0x100 = q := by omega
  have h3 : (0x1000 + 0x100 * q) % 0x100 = 0 := by omega
  unfold writeBlock
  simp only [h1, h2, h3, hs]
  rfl

/-! ### The rows -/

/-- Settles O36: each access of BAR0, allowed and denied. -/
theorem registerAccessesRun : Obligations.RegisterAccessesRun := by
  unfold Obligations.RegisterAccessesRun
  rintro dt s a rfl hb
  have hnq : ∀ {reg : FlagReg}, (∀ q, reg ≠ .que q) → ∀ q, reg = .que q → q < 16 ∧ queServed (begin_ dt s) q = true :=
    fun h q e => absurd e (h q)
  refine ⟨fun h m n => ?sysErr, fun h m n => ?stop, fun h m n => ?time, fun q m hq hs h => ?que, fun h m n => ⟨?intFlag, ?int⟩,
    fun h k h16 h23 => ?one,
    fun q hq hs h x hx => ?mark, fun n0 n1 n2 n3 h ho => ?occ, fun reg w n hr => ⟨fun h => ?occRead,
    fun h => ?occDenied⟩, fun reg m n hr h => ?denied, fun v h => ?resetDenied, fun v h hv => ?noKey,
    fun v f r h hv hr hc hd => ?refused, fun v r b p h hv hr hc hg => ?reset, fun h => ?snap, fun fmt isRead => ?fault,
    fun off v k ho hk => ?write, fun off v ho h4 h => ?writeDenied, fun v => ⟨fun h => ?scratch, fun h => ?intEn⟩,
    fun q v x hq hs h hx hw => ?ctrl⟩
  case sysErr =>
    rw [exec_w1cFlagClear hb (hnq (by simp))]
    exact congrArg _ (hostAccess_allowed h)
  case stop =>
    rw [exec_w1cFlagClear hb (hnq (by simp))]
    exact congrArg _ (hostAccess_allowed h)
  case time =>
    rw [exec_w1cFlagClear hb (hnq (by simp))]
    exact congrArg _ (hostAccess_allowed h)
  case que =>
    rw [exec_w1cFlagClear hb (by rintro q' ⟨⟩; exact ⟨hq, hs⟩), ← clearFlags_que]
    exact congrArg _ (hostAccess_allowed h)
  case intFlag =>
    rw [exec_w1cFlagClear hb (hnq (by simp))]
    exact congrArg _ (hostAccess_allowed h)
  case int =>
    rw [exec_intStatClear hb, hostAccess_allowed h]
  case one =>
    rw [exec_intStatClear hb, hostAccess_allowed h, clearInt_single h16 h23]
  case mark =>
    subst hx
    refine ⟨?_, ?_, fun n => ⟨?_, ?_⟩⟩
    all_goals
      rw [exec_watermarkFlagClear hq hs, hostAccess_allowed h]
      rfl
  case occ =>
    rw [exec_occCounterRead hb (hnq (by simp)), ← readOcc_sysErr ho]
    exact congrArg _ (hostAccess_allowed h)
  case occRead =>
    rw [exec_occCounterRead hb hr, hostAccess_allowed h]
  case occDenied =>
    rw [exec_occCounterRead hb hr, hostAccess_read_denied h]
  case denied =>
    rw [exec_w1cFlagClear hb hr, hostAccess_write_denied h]
  case resetDenied =>
    rw [exec_sysResetWrite hb, hostAccess_write_denied h]
  case noKey =>
    rw [exec_sysResetWrite hb, hostAccess_allowed h, sysReset_noKey hv]
  case refused =>
    subst hr
    rw [exec_sysResetWrite hb, hostAccess_allowed h, sysReset_refused hv hc hd]
  case reset =>
    subst hr
    rw [exec_sysResetWrite hb, hostAccess_allowed h, sysReset_runs hv hc hg]
  case snap =>
    rw [exec_timeSnapRead hb, hostAccess_allowed h]
    rfl
  case fault =>
    rw [exec_barAccessFault hb]
    rfl
  case write =>
    rw [exec_registerWrite hb ho (pointerExists_of_le hk)]
  case writeDenied =>
    rw [exec_registerWrite hb (by omega) rfl, writeBar0_mapped _ _ _ h4 ho, hostAccess_write_denied h]
  case scratch =>
    rw [exec_registerWrite hb (by decide) rfl, writeBar0_mapped _ _ _ (by decide) (by decide)]
    exact congrArg _ (hostAccess_allowed h)
  case intEn =>
    rw [exec_registerWrite hb (by decide) rfl, writeBar0_mapped _ _ _ (by decide) (by decide)]
    exact congrArg _ (hostAccess_allowed h)
  case ctrl =>
    subst hx
    rw [exec_registerWrite hb (by omega) rfl, writeBar0_mapped _ _ _ (by omega) (by omega), barTarget_que hq,
      hostAccess_allowed h, writeBlock_ctrl hq _ hs]
    unfold writeCtrl
    rw [hw]
    rfl

end Sys2Proof.Machine
end

section
/-! PROOFS. The host port's own rows (chapters 02 and 03). -/
set_option autoImplicit false

namespace Sys2Proof.Machine

/-! ### The strand timer and the interpreter -/

/-- What the strand timer shows to the interpreter (R68). -/
def strandShown (c : CmdSide) : CmdSide :=
  { c with vis := c.vis ++ c.inv ++ closedEntry c, inv := [], open_ := [], strandAt := none }

/-- The strand timer of a queue pair expires: what was written becomes visible, and a packet that stays incomplete is
discarded (R50, R68). -/
theorem strand_eq (q : Nat) (a : State) :
    strand q a = (let b := runInterp descOf q (setQ q { getQ a q with cmd := strandShown (getQ a q).cmd } a)
      settle (if (getQ b q).cmd.held.isSome then b else strandPart q b)) := by
  unfold strand
  dsimp only
  rw [modCmd_eq, closeEntry_eq]
  simp only [strandShown, List.append_assoc]

/-- No incomplete packet stands behind what the interpreter worked through. -/
theorem strandPart_none {q : Nat} {b : State} (h : (getQ b q).cmd.part = []) : strandPart q b = b := by
  unfold strandPart
  rw [h]
  rfl

theorem strandPart_some {q : Nat} {b : State} (h : (getQ b q).cmd.part ≠ []) : strandPart q b =
    discardPart q (setQueFlag q .strandDisc (countQ q (fun n => { n with strandDisc := cnt32 n.strandDisc }) b)) := by
  unfold strandPart
  rw [if_neg (by simpa using h)]

theorem exec_strandTimeout {q t : Nat} {s : State} (hq : q < 16) (ht : (getQ s q).cmd.strandAt = some t)
    (hs : queServed s q = true) :
    exec (.strandTimeout ⟨q, none⟩) s = .next (strand q (beginUp (t + (getQ s q).strand * 10000) s)) := by
  change execStrandTimeout ⟨q, none⟩ s = _
  unfold execStrandTimeout
  dsimp only
  rw [if_neg (by omega), if_neg (by decide), ht]
  dsimp only
  rw [hs]
  rfl

theorem longestResponse_eq {r : Req} {d : Desc} (h : descOf r.op = some d) :
    longestResponse r = if lengthOk d r then d.maxResp else 3 := by
  unfold longestResponse
  rw [h]

theorem exec_commandTaken {q dt : Nat} {s : State} {r : Req} (hq : q < 16)
    (hr : (getQ (beginInput dt s) q).cmd.held = some r) (hs : queServed (beginInput dt s) q = true)
    (hroom : roomFor (beginInput dt s) q (longestResponse r) = true) :
    exec (.commandTaken ⟨q, none⟩ dt) s = .next (takeHeld q r (beginInput dt s)) := by
  change execCommandTaken ⟨q, none⟩ dt s = _
  unfold execCommandTaken
  dsimp only
  rw [if_neg (by omega), if_neg (by decide), hr]
  dsimp only
  rw [hs, hroom]
  rfl

/-- The held command is taken and nothing incomplete is left behind it to discard. -/
theorem takeHeld_eq {q : Nat} {r : Req} {a b : State}
    (hb : b = runInterp descOf q
      (take (descOf r.op) r (setQ q { getQ a q with cmd := { (getQ a q).cmd with held := none } } a)))
    (h : (getQ b q).cmd.held ≠ none ∨ (getQ b q).cmd.strandAt ≠ none ∨ (getQ b q).cmd.part = []) :
    takeHeld q r a = settle b := by
  subst hb
  unfold takeHeld
  dsimp only
  rw [modCmd_eq]
  split
  next hc =>
    rw [Bool.and_eq_true, Option.isNone_iff_eq_none, Option.isNone_iff_eq_none] at hc
    rw [strandPart_none ((h.resolve_left (not_not_intro hc.1)).resolve_left (not_not_intro hc.2))]
  · rfl

/-! ### Packets to the host -/

theorem emits_eq (l : List Output) (s : State) : l.foldl (fun a o => emit o a) s = { s with out := s.out ++ l } := by
  induction l generalizing s with
  | nil => simp
  | cons o l ih =>
    rw [List.foldl_cons, ih]
    simp [emit]

/-- A packet goes into the ring (R72). -/
theorem writePacket_eq (q : Nat) (ws : List Word) (a : State) : writePacket q ws a =
    (let x := getQ a q
     let tail := (x.ringTail + ws.length) % ringWords x
     let t := setQ q { x with ringTail := tail, evt := { x.evt with words := x.evt.words.drop ws.length } }
       { a with out := a.out ++ ringWrites x ws }
     if x.wbAddr = 0 then t else emit (.tailWrite x.wbAddr tail) t) := by
  unfold writePacket
  dsimp only
  rw [emits_eq]
  rfl

theorem exec_pushRingWrite {q : Nat} {s : State} (hq : q < 16) (hs : queServed (begin_ 0 s) q = true)
    (he : qEnabled (getQ (begin_ 0 s) q) = true) (hp : (getQ (begin_ 0 s) q).push = true)
    (hw : firstPacket (getQ (begin_ 0 s) q).evt.words ≠ [])
    (hroom : ringUsed (getQ (begin_ 0 s) q) + (firstPacket (getQ (begin_ 0 s) q).evt.words).length <
      ringWords (getQ (begin_ 0 s) q))
    (h4 : aclAllows (begin_ 0 s) 4 0x1005 0 2 = true) (h7 : aclAllows (begin_ 0 s) 7 0x1005 0 1 = true) :
    exec (.pushRingWrite ⟨q, none⟩) s =
      .next (writePacket q (firstPacket (getQ (begin_ 0 s) q).evt.words) (begin_ 0 s)) := by
  have hne : (firstPacket (getQ (begin_ 0 s) q).evt.words).isEmpty = false := by simpa using hw
  change execPushRingWrite ⟨q, none⟩ s = _
  unfold execPushRingWrite
  dsimp only
  rw [if_neg (by omega), if_neg (by decide), if_pos (by simp only [hs, he, hp, hne, hroom, Bool.not_false, decide_true,
    Bool.and_self]), orPointerFault_sound]
  unfold regionAccess
  rw [if_pos h4, if_pos h7]

theorem exec_completionPlaced {q : Nat} {s : State} {ws : List Word} {r : List (List Word)} (hq : q < 16)
    (hw : (getQ (begin_ 0 s) q).evt.waiting = ws :: r) (hp : powered (begin_ 0 s) = true)
    (hroom : (getQ (begin_ 0 s) q).evt.words.length + ws.length ≤ 4096) :
    exec (.completionPlaced ⟨q, none⟩) s = .next (placePacket q ws
      (setQ q { getQ (begin_ 0 s) q with evt := { (getQ (begin_ 0 s) q).evt with waiting := r } } (begin_ 0 s))) := by
  change execCompletionPlaced ⟨q, none⟩ s = _
  unfold execCompletionPlaced
  dsimp only
  rw [if_neg (by omega), if_neg (by decide), hw]
  dsimp only
  rw [if_pos (by simp only [evtLevel, hp, hroom, decide_true, Bool.and_self]), orPointerFault_sound, modQ_eq]

theorem exec_coalTimeout {q t : Nat} {s : State} (hq : q < 16) (ht : (getQ s q).evt.coalAt = some t)
    (hp : powered s = true) (hi : s.intStat.getD q false = false) :
    exec (.coalTimeout q) s = .next (coalFire q (beginUp (t + (getQ s q).coalCfgTime * 1000) s)) := by
  change execCoalTimeout q s = _
  unfold execCoalTimeout
  rw [if_neg (by omega), ht, hp, hi]
  rfl

/-! ### Commands that waited -/

theorem exec_chainRelease {p dt : Nat} {s : State} {r : Req} {good : Bool} {rest : List Waiter} {d : Desc} (hp : p ≤ 16)
    (hpow : powered (begin_ dt s) = true)
    (hn : nextWaiter (getChain (begin_ dt s) p).waiters = some (r, good, rest)) (hd : descOf r.op = some d) :
    exec (.chainRelease p dt) s = .next (settle (runNow d r good { begin_ dt s with
      chains := tabSet (begin_ dt s).chains p { getChain (begin_ dt s) p with waiters := rest } })) := by
  change execChainRelease p dt s = _
  unfold execChainRelease
  dsimp only
  rw [if_neg (by omega), hpow, if_neg (by decide), hn]
  dsimp only
  rw [hd]

theorem exec_execAtDue {s : State} {r : Req} {rest : List Req} {d : Desc} (hf : firstDue s.execs = some (r, rest))
    (hp : powered s = true) (hrole : s.pair.role ≠ .arbitrating) (hr : reaches r.execAt s = true)
    (hd : descOf r.op = some d) :
    exec .execAtDue s = .next (settle (runDue d r (beginAt r.execAt { s with execs := rest }))) := by
  change execExecAtDue s = _
  unfold execExecAtDue
  rw [hf]
  dsimp only
  rw [if_neg (by simp [hp, hrole, hr]), hd]

theorem exec_ppsAlignedApply {s : State} {p : PpsPending} (hn : nextPps s.time.waiting = some p) (hp : powered s = true)
    (hr : reaches (p.second * nsPerSec) s = true) :
    exec .ppsAlignedApply s = .next (ppsApply p (beginAt (p.second * nsPerSec) s)) := by
  change execPpsAlignedApply s = _
  unfold execPpsAlignedApply
  rw [hn]
  dsimp only
  rw [if_pos (by simp [hp, hr])]

theorem exec_mgmtDatagram {k dt : Nat} {s : State} (hk : k < 4) (hs : mgmtServed (beginInput dt s) k = true)
    (src : NetSrc) (b : List Byte) :
    exec (.mgmtDatagram k src b dt) s = .next (settle (takeDatagram src b (beginInput dt s))) := by
  change execMgmtDatagram k src b dt s = _
  unfold execMgmtDatagram
  dsimp only
  rw [if_neg (by omega), if_pos hs]

/-! ### The rows -/

/-- Settles O37: each row at its instant, under the condition that its table gives. -/
theorem hostTimersRun : Obligations.HostTimersRun := by
  unfold Obligations.HostTimersRun
  rintro q dt s hq
  refine ⟨?strand, ?held, ?placed, ?ring, ?coal, ?chain, ?due, ?pps, ?mgmt⟩
  case strand =>
    rintro t a b y ht hs rfl hy hb
    have hshown : y = strandShown (getQ (beginUp (t + (getQ s q).strand * 10000) s) q).cmd := hy
    subst hshown
    rw [exec_strandTimeout hq ht hs, strand_eq]
    dsimp only
    rw [← hb]
    refine ⟨fun h => ?_, fun hheld hpart => ?_⟩
    · split
      · rfl
      next hn =>
        rw [strandPart_none (h.resolve_left (by simpa using hn))]
    · rw [hheld, strandPart_some hpart]
      rfl
  case held =>
    rintro a b r d rfl hr hd hs hroom hb h
    rw [← longestResponse_eq hd] at hroom
    rw [← hd] at hb
    rw [exec_commandTaken hq hr hs hroom, takeHeld_eq hb h]
  case placed =>
    rintro a x ws r rfl rfl hw hp hroom
    exact exec_completionPlaced hq hw hp hroom
  case ring =>
    rintro a b x ws rfl rfl hs he hp rfl hw hroom h4 h7 rfl
    rw [exec_pushRingWrite hq hs he hp hw hroom h4 h7, writePacket_eq]
  case coal =>
    rintro t a x ht hp hi rfl rfl
    exact exec_coalTimeout hq ht hp hi
  case chain =>
    rintro p a r good rest d hp rfl hpow hn hd
    exact exec_chainRelease hp hpow hn hd
  case due =>
    rintro r rest d hf hp hrole hr hd
    exact exec_execAtDue hf hp hrole hr hd
  case pps =>
    rintro p hn hp hr
    exact exec_ppsAlignedApply hn hp hr
  case mgmt =>
    rintro a k src b hk rfl hs
    exact exec_mgmtDatagram hk hs src b

end Sys2Proof.Machine
end

section
/-! PROOFS. The tick and the scheduler (chapters 01 and 13), after the frame of an event: what it leaves alone. -/
set_option autoImplicit false

namespace Sys2Proof.Machine

/-! ### The frame of an event -/

/-- The state without what an event may touch: the queue pairs, the interrupts, the recorder and the host jobs. -/
def State.quiet (s : State) : State :=
  { s with
    out := [], queues := [], netCnt := QueCounters.zero, intStat := [], intOcc := [], msixPend := [],
    rec_ := State.reset.rec_, sched := { s.sched with jobs := [] } }

@[simp] theorem modQ_quiet (q : Nat) (f : Queue → Queue) (s : State) : (modQ q f s).quiet = s.quiet := rfl

@[simp] theorem countQ_quiet (q : Nat) (f : QueCounters → QueCounters) (s : State) : (countQ q f s).quiet = s.quiet := by
  unfold countQ
  split <;> rfl

@[simp] theorem setInt_quiet (k : Nat) (s : State) : (setInt k s).quiet = s.quiet := by
  unfold setInt
  dsimp only
  (repeat' split) <;> rfl

@[simp] theorem setQueFlag_quiet (q : Nat) (f : QueFlag) (s : State) : (setQueFlag q f s).quiet = s.quiet := by
  unfold setQueFlag
  cases f <;> simp

@[simp] theorem coalesce_quiet (q : Nat) (s : State) : (coalesce q s).quiet = s.quiet := by
  unfold coalesce
  dsimp only
  split
  · rfl
  · split
    · exact setInt_quiet ..
    · rfl

@[simp] theorem placePacket_quiet (q : Nat) (ws : List Word) (s : State) : (placePacket q ws s).quiet = s.quiet := by
  simp [placePacket]

@[simp] theorem placeWaiting_quiet (q : Nat) (l : List (List Word)) (s : State) : (placeWaiting q l s).quiet = s.quiet := by
  induction l generalizing s with
  | nil => rfl
  | cons ws r ih =>
    unfold placeWaiting
    split
    · rw [ih, placePacket_quiet]
    · rfl

@[simp] theorem postEvent_quiet (code detail t : Nat) (payload : List Word) (q : Nat) (tag : Word) (s : State) :
    (postEvent code detail t payload q tag s).quiet = s.quiet := by
  unfold postEvent
  dsimp only
  (repeat' split) <;> simp

/-- A fold of steps that each keep a view of the state keeps it. -/
theorem foldl_keeps_view {α β : Type} (v : State → β) (f : State → α → State) (h : ∀ s x, v (f s x) = v s) (l : List α)
    (s : State) : v (l.foldl f s) = v s := by
  induction l generalizing s with
  | nil => rfl
  | cons x l ih => rw [List.foldl_cons, ih, h]

@[simp] theorem deliver_quiet (code detail t : Nat) (payload : List Word) (d : Dest) (s : State) :
    (deliver code detail t payload d s).quiet = s.quiet := by
  cases d with
  | none => rfl
  | one q tag => exact postEvent_quiet ..
  | all => exact foldl_keeps_view _ _ (fun _ _ => postEvent_quiet ..) _ _
  | allBut k =>
    refine foldl_keeps_view _ _ (fun a q => ?_) _ _
    split
    · rfl
    · exact postEvent_quiet ..

@[simp] theorem stage_quiet (code detail t : Nat) (ws : List Word) (s : State) : (stage code detail t ws s).quiet = s.quiet := by
  unfold stage countOccurrence startWrite
  dsimp only
  (repeat' split) <;> rfl

/-- R53, R371, R314: an event is recorded, triggers host jobs, and is delivered. -/
@[simp] theorem raise_quiet (code detail : Nat) (payload : List Word) (d : Dest) (s : State) :
    (raise code detail payload d s).quiet = s.quiet := by
  unfold raise raiseAt
  rw [deliver_quiet, stage_quiet]
  rfl

theorem raise_now (code detail : Nat) (payload : List Word) (d : Dest) (s : State) :
    (raise code detail payload d s).now = s.now := by
  have h := congrArg State.now (raise_quiet code detail payload d s)
  exact h

/-! ### The rows -/

theorem tickOpen_of {a : State} (hc : a.tick.completed = false) (ho : a.tick.overrun = false) : tickOpen a = true := by
  simp [tickOpen, hc, ho]

/-- An overrun is found at the time at hand (R307). -/
theorem markOverrun_now (s : State) : (markOverrun s).now = s.now := by
  unfold markOverrun
  exact raise_now ..

/-- The phases of a tick begin with the end of the one before it, at the time at hand (R10, R12). -/
theorem tickPhases_eq (n : Nat) (a : State) : tickPhases n a =
    (let b := if tickOpen a then markOverrun a else a
     let c := snapshot a.now (recordSwitch (openTick a.now n b))
     let d := if 1 ≤ n then governPhase a.now c else c
     if 2 ≤ n then reservePhase a.now d else d) := by
  have hnow : (if tickOpen a then markOverrun a else a).now = a.now := by
    split
    · exact markOverrun_now a
    · rfl
  unfold tickPhases
  dsimp only
  rw [hnow]

theorem exec_tickComplete {dt : Nat} {s : State} (ht : ticking (begin_ dt s) = true) (ho : tickOpen (begin_ dt s) = true)
    (h4 : 4 ≤ (begin_ dt s).tick.phases) : exec (.tickComplete dt) s =
      .next (if (begin_ dt s).tick.deadline < (begin_ dt s).now then markOverrun (begin_ dt s)
        else completeTick (assemble (stepPhase (begin_ dt s)).2 (stepPhase (begin_ dt s)).1)) := by
  change execTickComplete dt s = _
  unfold execTickComplete
  dsimp only
  rw [if_pos (by simp only [ht, ho, h4, decide_true, Bool.and_self])]

theorem exec_jobDispatch {k dt : Nat} {s : State} {j : ReadyJob} (hk : k < nCores s.member)
    (hp : powered (begin_ dt s) = true) (hq : (getCore (begin_ dt s) k).quarantined = false)
    (hj : (getCore (begin_ dt s) k).job = none)
    (hb : (begin_ dt s).sys.boot = .init ∨ (begin_ dt s).sys.boot = .ready) (ht : takeJob k (begin_ dt s) = some j) :
    exec (.jobDispatch k dt) s = .next (settle (let b := prefetchJob k (startJob k j (begin_ dt s))
      if j.slot < hostBase (begin_ dt s).member then b else runHostJob (j.slot - hostBase (begin_ dt s).member) b)) := by
  have hboot : (decide ((begin_ dt s).sys.boot = .init) || decide ((begin_ dt s).sys.boot = .ready)) = true := by
    rw [Bool.or_eq_true, decide_eq_true_eq, decide_eq_true_eq]
    exact hb
  change execJobDispatch k dt s = _
  unfold execJobDispatch
  dsimp only
  rw [if_neg (by omega), hp, hq, hj, hboot, if_neg (by decide), ht]

theorem exec_jobComplete {k n t dt : Nat} {s : State} (hk : k < nCores s.member)
    (hj : (getCore (begin_ dt s) k).job = some (n, t)) {b : State}
    (hb : b = setCore k { getCore (begin_ dt s) k with
      job := none, busy := (getCore (begin_ dt s) k).busy + ((begin_ dt s).up - t) } (begin_ dt s)) :
    (hostBase (begin_ dt s).member ≤ n → exec (.jobComplete k dt) s = .next b) ∧
    (n < hostBase (begin_ dt s).member → (getSlot b n).prio < 6 → exec (.jobComplete k dt) s = .next (notePeaks
      ((getSlot b n).succs.foldl (fun y i => setSlot i (decSlot y.up (getSlot y i)) y)
        (setSlot n { getSlot b n with running := false } b)))) := by
  subst hb
  change (_ → execJobComplete k dt s = _) ∧ (_ → _ → execJobComplete k dt s = _)
  unfold execJobComplete
  dsimp only
  rw [if_neg (by omega), hj]
  dsimp only
  refine ⟨fun h => by rw [if_pos h], fun h hp => ?_⟩
  rw [if_neg (by omega), if_neg (by omega), if_neg (by omega)]

theorem exec_hostJobFinal {k dt : Nat} {s : State} {w : Word} {ws : List Word} {d : HostJobDef}
    (hk : k < nHostJobs s.member) (hr : (getHostJob (begin_ dt s) k).result = some (w, ws))
    (hd : (getHostJob (begin_ dt s) k).defn = some d) (hm : d.succMask = 0) {b : State}
    (hb : b = raise 0x0F00 k (w :: ws) (if d.queue < 16 then .one d.queue (d.packet.getD 1 0) else .none) (begin_ dt s)) :
    exec (.hostJobFinal k dt) s = .next (setHostJob k { getHostJob b k with
      running := false, result := none, lastStatus := w, armed := d.rearm && (getHostJob b k).armed,
      counter := if d.rearm then d.deps else (getHostJob b k).counter } b) := by
  have hsend : (if d.queue < 16 then raise 0x0F00 k (w :: ws) (.one d.queue (d.packet.getD 1 0)) (begin_ dt s)
      else raise 0x0F00 k (w :: ws) .none (begin_ dt s)) = b := by
    rw [hb]
    split <;> rfl
  change execHostJobFinal k dt s = _
  unfold execHostJobFinal
  dsimp only
  rw [if_neg (by omega), hr, hd]
  dsimp only
  rw [hsend, hm]
  refine congrArg _ (foldl_keeps_view id _ (fun a i => ?_) _ _)
  rw [Nat.zero_testBit]
  rfl

/-- Settles O38: each row at its time; the phases of a tick by their number. -/
theorem tickAndJobsRun : Obligations.TickAndJobsRun := by
  unfold Obligations.TickAndJobsRun
  rintro dt s
  refine ⟨?boundary, ?complete, ?deadline, ?emission, ?watchdog, ?dispatch, ?done, ?revoke, ?final⟩
  case boundary =>
    intro n t a b c d ht ha hnow hb hc hd
    change execTickBoundary n s = _
    unfold execTickBoundary
    rw [if_pos ht, tickPhases_eq]
    dsimp only
    rw [hd, hc, hb, hnow, ha]
  case complete =>
    rintro a rfl ht hc ho h4
    rw [exec_tickComplete ht (tickOpen_of hc ho) h4]
    exact ⟨fun h => by rw [if_neg (by omega)], fun h => by rw [if_pos h]⟩
  case deadline =>
    rintro ht hc ho hr
    change execTickDeadline s = _
    unfold execTickDeadline
    rw [if_pos (by simp [ht, tickOpen_of hc ho, hr])]
  case emission =>
    rintro t a rfl ht hs he hr rfl
    change execGoEmission s = _
    unfold execGoEmission
    dsimp only
    rw [if_pos (by simp [ht, hs, he, hr])]
    rfl
  case watchdog =>
    rintro t ht hp
    change execWatchdogExpire s = _
    unfold execWatchdogExpire
    rw [ht]
    dsimp only
    rw [if_pos hp]
  case dispatch =>
    rintro k a b j hk rfl hp hq hj hb ht rfl
    exact exec_jobDispatch hk hp hq hj hb ht
  case done =>
    rintro k n t a b hk rfl hj hb
    obtain ⟨hhost, hjob⟩ := exec_jobComplete hk hj hb
    exact ⟨hhost, fun x c hn hx hp hc => by subst hx hc; exact hjob hn hp⟩
  case revoke =>
    rintro k n t hk hj
    change execJobRevoke k s = _
    unfold execJobRevoke
    rw [if_neg (by omega), hj]
  case final =>
    rintro k a b w ws d hk rfl hr hd hm hb
    exact exec_hostJobFinal hk hr hd hm hb

end Sys2Proof.Machine
end

section
/-! PROOFS. The receiver's rows (chapters 04 and 05). -/
set_option autoImplicit false

namespace Sys2Proof.Machine

/-! ### Antennas -/

theorem beginUp_gnss (t : Nat) (s : State) : (beginUp t s).gnss = s.gnss := by
  have h := congrArg State.gnss (beginUp_still t s)
  exact h

theorem beginUp_getAnt (t : Nat) (s : State) (ant : Bool) : getAnt (beginUp t s) ant = getAnt s ant := by
  unfold getAnt
  rw [beginUp_gnss]

theorem setAnt_setAnt (ant : Bool) (x y : Antenna) (s : State) : setAnt ant y (setAnt ant x s) = setAnt ant y s := by
  unfold setAnt
  simp only [List.set_set]

/-- An antenna whose bias is to be tried again is one of the member's (R85). -/
theorem getAnt_setAnt {ant : Bool} {s : State} {t : Nat} (h : (getAnt s ant).retryAt = some t) (x : Antenna) {a : State}
    (ha : a.gnss = s.gnss) : getAnt (setAnt ant x a) ant = x := by
  have hlen : natOfBool ant < s.gnss.antennas.length := by
    refine Decidable.byContradiction (fun hge => ?_)
    have hinit : getAnt s ant = Antenna.init := by
      unfold getAnt
      rw [List.getD_eq_getElem?_getD, List.getElem?_eq_none (by omega)]
      rfl
    rw [hinit] at h
    cases h
  unfold getAnt setAnt
  rw [ha, List.getD_eq_getElem?_getD, List.getElem?_set_self hlen]
  rfl

/-- A short is shown once the bias was on for 10 ms (R85). -/
theorem biasShown_short {ant : Bool} {i v : Nat} {a : State} (h : (getAnt a ant).onSince + 10000000 ≤ a.up) :
    biasShown ant true i v a = biasMove ant .short (setAnt ant { getAnt a ant with
      current := i, voltage := 0, retries := (getAnt a ant).retries + 1,
      retryAt := some (a.up + (if (getAnt a ant).retries = 0 then 1000000000 else 10000000000)) } a) := by
  unfold biasShown
  dsimp only
  rw [if_pos rfl, if_neg (by omega), if_pos rfl]
  rfl

/-- A current of 3 mA and more is judged at once, a smaller one after 1 s (R85). -/
theorem biasShown_class {ant : Bool} {i v : Nat} {a : State}
    (h : 3 ≤ i ∧ (getAnt a ant).onSince ≤ a.up ∨ (getAnt a ant).onSince + 1000000000 ≤ a.up) :
    biasShown ant false i v a =
      biasMove ant (biasClass i) (setAnt ant { getAnt a ant with current := i, voltage := v, retries := 0 } a) := by
  unfold biasShown
  dsimp only
  have hsec : nsPerSec = 1000000000 := rfl
  have hsince : ¬ a.up < (getAnt a ant).onSince + if i < 3 then nsPerSec else 0 := by
    split <;> omega
  rw [if_neg (c := false = true) (by decide), if_neg hsince, if_neg (by decide)]

theorem exec_biasFault {ant short_ : Bool} {i v dt : Nat} {s : State} (ha : natOfBool ant < nAntennas s.member)
    (hp : powered (begin_ dt s) = true) (he : (getAnt (begin_ dt s) ant).biasEn = true)
    (hr : (getAnt (begin_ dt s) ant).retryAt = none) :
    exec (.biasFault ant short_ i v dt) s = .next (biasShown ant short_ i v (begin_ dt s)) := by
  change execBiasFault ant short_ i v dt s = _
  unfold execBiasFault
  dsimp only
  rw [if_neg (by omega), hp, he, hr]
  rfl

theorem exec_biasRetry {ant : Bool} {i v t : Nat} {s : State} (ha : natOfBool ant < nAntennas s.member)
    (hr : (getAnt s ant).retryAt = some t) : exec (.biasRetry ant i v) s = .next (if 3 ≤ i ∧ i < 180
        then biasMove ant (biasClass i) (setAnt ant { getAnt s ant with
          current := i, voltage := v, onSince := (beginUp t s).up, retryAt := none, retries := 0 } (beginUp t s))
        else setAnt ant { getAnt s ant with
          current := i, voltage := v, onSince := (beginUp t s).up, retryAt := none } (beginUp t s)) := by
  change execBiasRetry ant i v s = _
  unfold execBiasRetry
  dsimp only
  rw [if_neg (by omega), hr]
  dsimp only
  have hget := fun x => getAnt_setAnt hr x (beginUp_gnss t s)
  split
  next hi =>
    rw [biasShown_class (.inl ⟨hi.1, ?_⟩), hget, setAnt_setAnt]
    rw [hget]
    exact Nat.le_refl _
  · rfl

/-! ### The rows -/

/-- A unit of a channel's signal is counted and stored, then delivered where its polarity was known (R116, R117). -/
theorem exec_navUnitDecoded {u : NavUnit} {k : Channel} {dt : Nat} {s : State} (hu : (unitSignals u.unit).contains u.sig = true)
    (hg : gnssRuns (begin_ dt s) = true) (hk : navChannel u (begin_ dt s) = some k) :
    exec (.navUnitDecoded u dt) s = .next (takeNav u k (begin_ dt s)) := by
  change execNavUnitDecoded u dt s = _
  unfold execNavUnitDecoded
  dsimp only
  rw [hu, hg, if_pos rfl, hk]
  rfl

/-- Settles O39: each row at its instant, under the condition that its table gives. -/
theorem receiverRowsRun : Obligations.ReceiverRowsRun := by
  unfold Obligations.ReceiverRowsRun
  rintro dt s
  refine ⟨?ms, ?notch, ?assign, ?pvt, ?epoch, ?search, ?timeout, ?bias, ?retry, ?nav, ?uart⟩
  case ms =>
    rintro t cs gs rfl hg hr
    exact congrArg _ (if_pos (Bool.and_eq_true_iff.2 ⟨hg, hr⟩))
  case notch =>
    rintro t ls rfl hg hr
    exact congrArg _ (if_pos (Bool.and_eq_true_iff.2 ⟨hg, hr⟩))
  case assign =>
    rintro t sky rfl hg hr
    exact congrArg _ (if_pos (Bool.and_eq_true_iff.2 ⟨hg, hr⟩))
  case pvt =>
    rintro t rfl hg hr
    exact congrArg _ (if_pos (Bool.and_eq_true_iff.2 ⟨hg, hr⟩))
  case epoch =>
    rintro t m rfl hg hr
    exact congrArg _ (if_pos (Bool.and_eq_true_iff.2 ⟨hg, hr⟩))
  case search =>
    rintro k code doppler a hk rfl hg hs hw hd
    change execAcqSearchDone k code doppler dt s = _
    unfold execAcqSearchDone searchFinds
    dsimp only
    rw [if_neg (by omega), if_pos (by simp [hg, hs, hw, hd])]
  case timeout =>
    rintro k x hk rfl hg hx
    change execAcqTimeout k s = _
    unfold execAcqTimeout
    dsimp only
    rw [if_neg (by omega), if_pos (by simpa [hg] using hx)]
    rfl
  case bias =>
    rintro ant short_ i v a x ha rfl rfl hp he hr
    rw [exec_biasFault ha hp he hr]
    refine ⟨?_, ?_⟩
    · rintro rfl h
      rw [biasShown_short h]
    · rintro rfl h
      rw [biasShown_class h]
  case retry =>
    rintro ant i v t a ha hr rfl
    exact exec_biasRetry ha hr
  case nav =>
    intro u k a b hu ha hg hk hb
    subst ha
    rw [exec_navUnitDecoded hu hg hk]
    unfold takeNav
    refine ⟨fun p hp hle => ?_, fun h => ?_⟩
    · rw [hp]
      dsimp only
      rw [if_pos hle]
      subst hb
      rfl
    · rcases h with h | ⟨p, hp, hlt⟩
      · rw [h]
        subst hb
        rfl
      · rw [hp]
        dsimp only
        rw [if_neg (by omega)]
        subst hb
        rfl
  case uart =>
    rintro k a x b r hk rfl rfl hf hl
    change execUartCByteSent k dt s = _
    unfold execUartCByteSent
    dsimp only
    rw [if_neg (by omega), hf, hl]
    rfl

end Sys2Proof.Machine
end

section
/-! PROOFS. The robots' uplink frames (chapter 07). -/
set_option autoImplicit false

namespace Sys2Proof.Machine

/-! ### A frame that its port carries -/

theorem exec_uplink {f : Uplink} {dt : Nat} {s b : State} (hport : portExists s.member f.port = true)
    (hp : powered (beginInput dt s) = true)
    (hb : (beginInput dt s).sys.boot = .init ∨ (beginInput dt s).sys.boot = .ready)
    (hc : uzCarriage f (beginInput dt s) = (b, true)) :
    ∀ i ∈ [Instr.telem f dt, .obs f dt, .ack f dt, .join f dt], exec i s = .next (uplinkFrame f b) := by
  have hboot : (decide ((beginInput dt s).sys.boot = .init) || decide ((beginInput dt s).sys.boot = .ready)) = true := by
    rw [Bool.or_eq_true, decide_eq_true_eq, decide_eq_true_eq]
    exact hb
  have hat : uplinkAt f dt s = uplinkFrame f b := by
    unfold uplinkAt
    dsimp only
    rw [if_pos (Bool.and_eq_true_iff.2 ⟨hp, hboot⟩), hc, if_pos rfl]
  intro i hi
  simp only [List.mem_cons, List.not_mem_nil, or_false] at hi
  rcases hi with rfl | rfl | rfl | rfl
  all_goals
    rw [← hat]
    exact if_pos hport

/-- The kinds other than JOIN are three of the four. -/
theorem mem_uplink_of_mem {f : Uplink} {dt : Nat} {i : Instr} (h : i ∈ [Instr.telem f dt, .obs f dt, .ack f dt]) :
    i ∈ [Instr.telem f dt, .obs f dt, .ack f dt, .join f dt] := by
  simp only [List.mem_cons, List.not_mem_nil, or_false] at h ⊢
  rcases h with h | h | h
  · exact .inl h
  · exact .inr (.inl h)
  · exact .inr (.inr (.inl h))

section
variable {f : Uplink} {b : State}

/-- No robot of the member has the frame's number (R176). -/
theorem uplinkFrame_unknown (h : nRobots b.member ≤ byteAt f.bytes 2) :
    uplinkFrame f b = { b with uz := { b.uz with ffDiscards := cnt32 b.uz.ffDiscards } } := if_pos h

theorem uplinkFrame_join (h : byteAt f.bytes 2 < nRobots b.member) (hk : byteAt f.bytes 1 = 0x44) :
    uplinkFrame f b = joinArrives (byteAt f.bytes 2) f b := by
  unfold uplinkFrame
  dsimp only
  rw [if_neg (by omega), if_pos hk]

theorem uplinkFrame_refused (h : byteAt f.bytes 2 < nRobots b.member) (hk : byteAt f.bytes 1 ≠ 0x44)
    (hc : firstChecks (getLink b (byteAt f.bytes 2)) f.bytes = false) : uplinkFrame f b =
      setLink (byteAt f.bytes 2) { getLink b (byteAt f.bytes 2) with
        authFail := cnt32 (getLink b (byteAt f.bytes 2)).authFail } b := by
  unfold uplinkFrame
  dsimp only
  rw [if_neg (by omega), if_neg hk, hc]
  rfl

theorem uplinkFrame_taken (h : byteAt f.bytes 2 < nRobots b.member) (hk : byteAt f.bytes 1 ≠ 0x44)
    (hc : firstChecks (getLink b (byteAt f.bytes 2)) f.bytes = true) :
    uplinkFrame f b = takeFrame (byteAt f.bytes 2) f b := by
  unfold uplinkFrame
  dsimp only
  rw [if_neg (by omega), if_neg hk, hc]
  rfl

end

/-! ### The replay window (R177, R178) -/

section
variable {r : Nat} {f : Uplink} {b : State}

theorem takeFrame_duplicate (h : bytesAt f.bytes 8 8 = (getLink b r).window.highest) :
    takeFrame r f b = setLink r { getLink b r with dups := cnt32 (getLink b r).dups } b := if_pos h

theorem takeFrame_replay (h : bytesAt f.bytes 8 8 ≠ (getLink b r).window.highest)
    (hw : windowOk (getLink b r).window (bytesAt f.bytes 8 8) = false) :
    takeFrame r f b = setLink r { getLink b r with replay := cnt32 (getLink b r).replay } b := by
  unfold takeFrame
  dsimp only
  rw [if_neg h, hw]
  rfl

/-- The window takes the number, and the table the address that a newer number came from. -/
def windowed (r : Nat) (f : Uplink) (b : State) : State :=
  let d := setLink r { getLink b r with window := windowTake (getLink b r).window (bytesAt f.bytes 8 8) } b
  if (getLink b r).window.highest < bytesAt f.bytes 8 8 then
    writeEntry r (bytesAt f.bytes 8 8) { f.src with port := f.port } d
  else d

theorem takeFrame_windowed (h : bytesAt f.bytes 8 8 ≠ (getLink b r).window.highest)
    (hw : windowOk (getLink b r).window (bytesAt f.bytes 8 8) = true) : takeFrame r f b =
      (let c := windowed r f b
       if kindChecks f.bytes then
         let d := noteValid r f c.up c.now c
         if byteAt f.bytes 1 = 0x41 then takeTelem r f.bytes d
         else if byteAt f.bytes 1 = 0x42 then takeObs r f.bytes d
         else takeAck r f.bytes d
       else setLink r { getLink c r with badKind := cnt32 (getLink c r).badKind } c) := by
  unfold takeFrame
  dsimp only
  rw [if_neg h, hw, if_neg (by decide)]
  cases kindChecks f.bytes with
  | false => rfl
  | true =>
    rw [if_neg (by decide), if_pos rfl]
    change (match byteAt f.bytes 1 with
      | 0x41 => takeTelem r f.bytes (noteValid r f (windowed r f b).up (windowed r f b).now (windowed r f b))
      | 0x42 => takeObs r f.bytes (noteValid r f (windowed r f b).up (windowed r f b).now (windowed r f b))
      | _ => takeAck r f.bytes (noteValid r f (windowed r f b).up (windowed r f b).now (windowed r f b))) = _
    split
    next hk => rw [if_pos hk]
    next hk => rw [if_neg (by omega), if_pos hk]
    next h1 h2 => rw [if_neg h1, if_neg h2]

end

/-! ### JOIN (R178, R181) -/

section
variable {r : Nat} {f : Uplink} {b : State}

/-- A JOIN waits for the snapshot. -/
def joinWaits (f : Uplink) (b : State) : State :=
  { b with uz := { b.uz with joins := b.uz.joins ++ [{ frame := f, up := b.up, now := b.now }] } }

theorem joinArrives_waits (h : byteAt f.bytes 3 % 2 = 0 ∨ firstChecks (getLink b r) f.bytes = false ∨
      isRekeyJoin (getLink b r) (bytesAt f.bytes 8 8) = false ∧
        (awaitsJoin (getLink b r) = false ∨ tooSoon (getLink b r) b.up = true)) :
    joinArrives r f b = joinWaits f b := by
  unfold joinArrives
  dsimp only
  rw [if_neg, if_neg]
  · rfl
  · rcases h with h | h | ⟨-, h | h⟩ <;> simp [h]
  · rcases h with h | h | ⟨h, -⟩ <;> simp [h]

theorem joinArrives_again (h : byteAt f.bytes 3 % 2 = 1) (hc : firstChecks (getLink b r) f.bytes = true)
    (hr : isRekeyJoin (getLink b r) (bytesAt f.bytes 8 8) = true) :
    joinArrives r f b = setLink r { getLink b r with dups := cnt32 (getLink b r).dups } b := by
  unfold joinArrives
  dsimp only
  rw [if_pos (by simp [h, hc, hr])]

theorem joinArrives_rekey {k : Rekey} (h : byteAt f.bytes 3 % 2 = 1) (hc : firstChecks (getLink b r) f.bytes = true)
    (hs : tooSoon (getLink b r) b.up = false) (hk : (getLink b r).rekey = some k) (hn : k.newKey = none)
    (hj : k.joinSeq = none) : joinArrives r f b =
      (let e := setLink r { getLink b r with
          rekey := some { k with joinSeq := some (bytesAt f.bytes 8 8) },
          window := { highest := bytesAt f.bytes 8 8, seen := [bytesAt f.bytes 8 8] } } (joinWaits f b)
       if joinResult f.bytes = 0 then writeEntry r (bytesAt f.bytes 8 8) { f.src with port := f.port } e else e) := by
  have hr : isRekeyJoin (getLink b r) (bytesAt f.bytes 8 8) = false := by simp [isRekeyJoin, hk, hj]
  have ha : awaitsJoin (getLink b r) = true := by simp [awaitsJoin, hk, hn, hj]
  unfold joinArrives
  dsimp only
  rw [if_neg (by simp [hr]), if_pos (by simp [h, hc, ha, hs]), hk]
  rfl

theorem captureJoin_refused {u w : Nat} (h : firstChecks (getLink b (byteAt f.bytes 2)) f.bytes = false) :
    captureJoin b { frame := f, up := u, now := w } = setLink (byteAt f.bytes 2) { getLink b (byteAt f.bytes 2) with
      authFail := cnt32 (getLink b (byteAt f.bytes 2)).authFail } b := by
  unfold captureJoin
  dsimp only
  rw [h]
  rfl

theorem captureJoin_taken {u w : Nat} (h : firstChecks (getLink b (byteAt f.bytes 2)) f.bytes = true) :
    captureJoin b { frame := f, up := u, now := w } = takeJoin (byteAt f.bytes 2) f u w b := by
  unfold captureJoin
  dsimp only
  rw [h]
  rfl

theorem tooSoon_of {l : Link} {u t : Nat} (h : l.joinAt = some t) (hu : u < t + 100000000) : tooSoon l u = true := by
  simp [tooSoon, h, hu]

theorem not_tooSoon_of {l : Link} {u : Nat} (h : ∀ t, l.joinAt = some t → t + 100000000 ≤ u) : tooSoon l u = false := by
  unfold tooSoon
  cases hj : l.joinAt with
  | none => rfl
  | some t => exact decide_eq_false (by have := h t hj; omega)

/-- A JOIN that starts a session within 100 ms of the last one is discarded. -/
theorem takeJoin_soon {u w : Nat} (ht : tooSoon (getLink b r) u = true) (hs : (getLink b r).sess = .keyed) :
    takeJoin r f u w b = b := by
  unfold takeJoin
  dsimp only
  rw [if_pos ht, hs]
  rfl

theorem takeJoin_answered {u w : Nat} (ht : tooSoon (getLink b r) u = false)
    (h : byteAt f.bytes 3 % 2 = 0 ∨ isRekeyJoin (getLink b r) (bytesAt f.bytes 8 8) = true) :
    takeJoin r f u w b = answerJoin r f u w (noteValid r f u w b) := by
  unfold takeJoin
  dsimp only
  rw [if_neg (by simp [ht]), if_pos h]

theorem takeJoin_duplicate {u w : Nat} (ht : tooSoon (getLink b r) u = false) (hk : byteAt f.bytes 3 % 2 = 1)
    (hr : isRekeyJoin (getLink b r) (bytesAt f.bytes 8 8) = false)
    (h : bytesAt f.bytes 8 8 = (getLink b r).window.highest) :
    takeJoin r f u w b = setLink r { getLink b r with dups := cnt32 (getLink b r).dups } b := by
  unfold takeJoin
  dsimp only
  rw [if_neg (by simp [ht]), if_neg (by simp [hk, hr]), if_pos h]
  rfl

end

/-! ### The row -/

/-- Settles O40: a frame's number, its checks, its place in the window and its kind decide what becomes of it. -/
theorem uplinkFramesRun : Obligations.UplinkFramesRun := by
  unfold Obligations.UplinkFramesRun
  intro f dt r s a b l c hport ha hp hb hcar hr hl hc
  subst ha
  have hrow := exec_uplink hport hp hb hcar
  have hwin : c = windowed r f b := by
    rw [hc, hl]
    rfl
  subst hl hr
  clear hc
  refine ⟨fun hun i hi => ?unknown, fun hr hk hf i hi => ?refused, fun hr hf hk => ⟨fun hs i hi => ?duplicate,
    fun hs hw i hi => ?replay, fun hs hw hkc i hi => ?badKind, fun hs hw hkc => ⟨fun h1 => ?telem, fun h1 => ?obs,
      fun h1 => ?ack⟩⟩, fun hr hk i hi d hd => ⟨fun h => ?waits, fun h3 hf hj => ?again,
      fun k e h3 hf hs hrk hn hjs he => ?rekey⟩, fun d u w j x hx hj => ⟨fun hf => ?authFail, fun hf =>
      ⟨fun t ht hu hs => ?soon, fun ht h3 => ?answer, fun ht h3 => ?rekeyAnswer, fun hn h3 hrj hs => ?joinAgain⟩⟩⟩
  case unknown => rw [hrow i hi, uplinkFrame_unknown hun]
  case refused => rw [hrow i (mem_uplink_of_mem hi), uplinkFrame_refused hr hk hf]
  case duplicate => rw [hrow i (mem_uplink_of_mem hi), uplinkFrame_taken hr hk hf, takeFrame_duplicate hs]
  case replay => rw [hrow i (mem_uplink_of_mem hi), uplinkFrame_taken hr hk hf, takeFrame_replay hs hw]
  case badKind =>
    rw [hrow i (mem_uplink_of_mem hi), uplinkFrame_taken hr hk hf, takeFrame_windowed hs hw, ← hwin]
    dsimp only
    rw [hkc]
    rfl
  case telem =>
    rw [hrow _ (by simp), uplinkFrame_taken hr hk hf, takeFrame_windowed hs hw, ← hwin]
    dsimp only
    rw [if_pos hkc, if_pos h1]
  case obs =>
    rw [hrow _ (by simp), uplinkFrame_taken hr hk hf, takeFrame_windowed hs hw, ← hwin]
    dsimp only
    rw [if_pos hkc, if_neg (by omega), if_pos h1]
  case ack =>
    rw [hrow _ (by simp), uplinkFrame_taken hr hk hf, takeFrame_windowed hs hw, ← hwin]
    dsimp only
    rw [if_pos hkc, if_neg (by omega), if_neg (by omega)]
  case waits =>
    rw [hrow i hi, uplinkFrame_join hr hk, joinArrives_waits h, hd]
    rfl
  case again => rw [hrow i hi, uplinkFrame_join hr hk, joinArrives_again h3 hf hj]
  case rekey =>
    rw [hrow i hi, uplinkFrame_join hr hk, joinArrives_rekey h3 hf hs hrk hn hjs, he, hd]
    rfl
  case authFail =>
    subst hx hj
    exact captureJoin_refused hf
  case soon =>
    subst hx hj
    rw [captureJoin_taken hf, takeJoin_soon (tooSoon_of ht hu) hs]
  case answer =>
    subst hx hj
    rw [captureJoin_taken hf, takeJoin_answered (not_tooSoon_of ht) (.inl h3)]
  case rekeyAnswer =>
    subst hx hj
    rw [captureJoin_taken hf, takeJoin_answered (not_tooSoon_of ht) (.inr h3)]
  case joinAgain =>
    subst hx hj
    rw [captureJoin_taken hf, takeJoin_duplicate (not_tooSoon_of (by simp [hn])) h3 hrj hs]

end Sys2Proof.Machine
end

section
/-! PROOFS. The link timers and the rover rows (chapters 06, 07 and 12). -/
set_option autoImplicit false

namespace Sys2Proof.Machine

theorem exec_sessionTimeout {r : Nat} {s : State} (hr : r < nRobots s.member) (hp : powered s = true)
    (hs : (getLink s r).sess = .active ∨ (getLink s r).sess = .joining) :
    exec (.sessionTimeout r) s =
      .next (endSession r 1 (beginUp ((getLink s r).lastValid + s.uz.sessTimeout * 100000000) s)) := by
  change execSessionTimeout r s = _
  unfold execSessionTimeout
  dsimp only
  rw [if_neg (by omega), if_pos (by simpa [hp] using hs)]

theorem exec_rekeyDue {r dt : Nat} {s : State} (hr : r < nRobots s.member) (hp : powered (begin_ dt s) = true)
    (hd : rekeyIsDue (begin_ dt s) (getLink (begin_ dt s) r) = true) :
    exec (.rekeyDue r dt) s =
      .next (setLink r { getLink (begin_ dt s) r with rekeyDue := true } (begin_ dt s)) := by
  change execRekeyDue r dt s = _
  unfold execRekeyDue
  dsimp only
  rw [if_neg (by omega), if_pos (Bool.and_eq_true_iff.2 ⟨hp, hd⟩)]
  rfl

theorem exec_rekeyAbandon {r : Nat} {s : State} {k : Rekey} (hr : r < nRobots s.member)
    (hk : (getLink s r).rekey = some k) : exec (.rekeyAbandon r) s =
      .next (if powered s && !k.acked then
        setLink r { getLink (beginUp (k.since + nsPerSec) s) r with
          rekey := none, rekeyFrom := (beginUp (k.since + nsPerSec) s).up } (beginUp (k.since + nsPerSec) s)
        else begin_ 0 s) := by
  change execRekeyAbandon r s = _
  unfold execRekeyAbandon
  rw [if_neg (by omega), hk]
  rfl

theorem exec_epochWaitExpire {r : Nat} {s : State} {e : Epoch} (hr : r < nRobots s.member) (hp : powered s = true)
    (he : (getRover s r).open_ = some e) : exec (.epochWaitExpire r) s =
      .next (closeEpoch r true (beginUp (e.firstAt + (getRover s r).cfg.epochWait * 1000000) s)) := by
  change execEpochWaitExpire r s = _
  unfold execEpochWaitExpire
  rw [if_neg (by omega), he]
  dsimp only
  rw [if_pos hp]

/-- The earliest ready epoch is blocked, takes a free cluster, or waits for one (R140). -/
theorem exec_roverSolveStart {dt ready k : Nat} {s b : State} {e : Epoch} {rest : List Epoch}
    (hg : gnssRuns (begin_ dt s) = true) (hb : b = dropOld (applySolve (begin_ dt s)))
    (he : earliest (readyRovers b) = some (ready, k)) (hx : (getRover b k).ready = e :: rest) :
    exec (.roverSolveStart dt) s = .next (
      match blocked b { getRover b k with ready := rest } e with
      | some why => publishNone k ready why e (noteEpoch k 0 e (setRover k { getRover b k with ready := rest } b))
      | none =>
        match (List.range 4).find? (fun c => (b.rse.clusters.getD c none).isNone) with
        | some c =>
          let t := setRover k { getRover b k with
            ready := rest, solving := (baseUse b e.time).map (fun u => (e, u)) } b
          { t with rse := { t.rse with clusters := t.rse.clusters.set c (some k) } }
        | none => b) := by
  subst hb
  change execRoverSolveStart dt s = _
  unfold execRoverSolveStart
  dsimp only
  rw [hg, if_neg (by decide), he]
  dsimp only
  rw [hx] <;> rfl

theorem exec_roverFixPublish {c k dt : Nat} {s b : State} {e : Epoch} {u : BaseUse} (hc : c < 4)
    (hk : (begin_ dt s).rse.clusters.getD c none = some k)
    (hb : b = { begin_ dt s with rse := { (begin_ dt s).rse with clusters := (begin_ dt s).rse.clusters.set c none } })
    (hs : (getRover b k).solving = some (e, u)) : exec (.roverFixPublish c dt) s = .next (solveFix k e u b) := by
  subst hb
  change execRoverFixPublish c dt s = _
  unfold execRoverFixPublish
  dsimp only
  rw [if_neg (by omega), hk]
  dsimp only
  rw [hs]

/-- Settles O41: each row at its instant, under the condition that its table gives. -/
theorem linkTimersRun : Obligations.LinkTimersRun := by
  unfold Obligations.LinkTimersRun
  intro r dt s a hr ha
  subst ha
  refine ⟨fun hp hs => exec_sessionTimeout hr hp hs, ?due, ?abandon, ?acked, ?fleet, ?robot,
    fun e hp he => exec_epochWaitExpire hr hp he, ?solve, fun c k b e u hc hk hb hs => exec_roverFixPublish hc hk hb hs⟩
  case due =>
    rintro l rfl hp hs hk hd ht
    refine exec_rekeyDue hr hp ?_
    simp [rekeyIsDue, hs, hk, hd, ht]
  case abandon =>
    rintro k b hp hk hack rfl
    rw [exec_rekeyAbandon hr hk, if_pos (by simp [hp, hack])]
  case acked =>
    intro k hk hack
    rw [exec_rekeyAbandon hr hk, if_neg (by simp [hack])]
  case fleet =>
    intro k hp hb
    change execStopBurstFrame none s = _
    unfold execStopBurstFrame
    dsimp only
    rw [hb]
    dsimp only
    rw [if_pos hp]
  case robot =>
    intro x k hp hx hb
    change execStopBurstFrame (some r) s = _
    unfold execStopBurstFrame
    dsimp only
    rw [if_neg (by omega), hx]
    dsimp only
    rw [hb]
    dsimp only
    rw [if_pos hp]
  case solve =>
    intro b ready k x y e rest hg hb he hx hrest hy
    subst hx hy
    have hrow := exec_roverSolveStart hg hb he hrest
    refine ⟨fun why hw => ?_, fun c u hw hu hc => ?_, fun hw hc => ?_⟩
    · rw [hrow, hw]
    · rw [hrow, hw]
      dsimp only
      rw [hc, hu]
      rfl
    · rw [hrow, hw]
      dsimp only
      rw [hc]

end Sys2Proof.Machine
end

section
/-! PROOFS. The fleet's work (chapters 08, 09 and 10). -/
set_option autoImplicit false

namespace Sys2Proof.Machine

/-! ### The computation of a commit (R193 to R197) -/

/-- The staged graph with the lengths of its slivers. -/
def withLens (g : Graph) : Graph :=
  { g with lens := g.slivers.map (fun p =>
      (p.1, sliverLen (nodePt g p.2.start) (nodePt g p.2.end_) p.2.radius)) }

section
variable {dt : Nat} {s : State} {c : Commit} (hp : powered (begin_ dt s) = true)
  (hc : (begin_ dt s).track.commit = some c) (hn : c.computed = none)
include hp hc hn

theorem exec_commitComputeDone_restore (hr : c.req = none) : exec (.commitComputeDone dt) s =
    .next { begin_ dt s with track := { (begin_ dt s).track with
      commit := none,
      active := { (begin_ dt s).track.active with conflicts := conflictTable (begin_ dt s).track.active } } } := by
  change execCommitComputeDone dt s = _
  unfold execCommitComputeDone
  dsimp only
  rw [hc]
  dsimp only
  rw [hp, hn, if_neg (by decide), hr, if_pos (by rfl)]

variable {q : Req} {g : Graph} (hr : c.req = some q)
  (hg : g = { (begin_ dt s).track.staged with clearance := c.clearance, lens := [], conflicts := [] })
include hr hg

theorem exec_commitComputeDone_sliver {d n k : Nat} (hf : sliverFault g = some (d, n, k)) :
    exec (.commitComputeDone dt) s = .next (complete q .state d
      (commitWords (begin_ dt s) g n k (((begin_ dt s).up - c.startUp) / 1000000))
      { begin_ dt s with track := { (begin_ dt s).track with commit := none } }) := by
  subst hg
  change execCommitComputeDone dt s = _
  unfold execCommitComputeDone failCommit
  dsimp only
  rw [hc]
  dsimp only
  rw [hp, hn, if_neg (by decide), hr, if_neg (by simp), hf]

theorem exec_commitComputeDone_overflow {h : Graph} {p : Nat × List Nat} (hf : sliverFault g = none) (hh : h = withLens g)
    (ho : (conflictTable h).find? (fun p => decide (256 < p.2.length)) = some p) :
    exec (.commitComputeDone dt) s = .next (complete q .overflow 1
      (commitWords (begin_ dt s) { h with conflicts := conflictTable h } p.1 0xFFFF
        (((begin_ dt s).up - c.startUp) / 1000000))
      { begin_ dt s with track := { (begin_ dt s).track with commit := none } }) := by
  subst hg hh
  change execCommitComputeDone dt s = _
  unfold execCommitComputeDone failCommit
  dsimp only
  rw [hc]
  dsimp only
  rw [hp, hn, if_neg (by decide), hr, if_neg (by simp), hf]
  unfold withLens at *
  dsimp only at *
  rw [ho]

theorem exec_commitComputeDone_computed {h : Graph} (hf : sliverFault g = none) (hh : h = withLens g)
    (ho : (conflictTable h).find? (fun p => decide (256 < p.2.length)) = none) :
    exec (.commitComputeDone dt) s = .next { begin_ dt s with track := { (begin_ dt s).track with
      commit := some { c with
        computed := some { h with conflicts := conflictTable h },
        duration := ((begin_ dt s).up - c.startUp) / 1000000 } } } := by
  subst hg hh
  change execCommitComputeDone dt s = _
  unfold execCommitComputeDone
  dsimp only
  rw [hc]
  dsimp only
  rw [hp, hn, if_neg (by decide), hr, if_neg (by simp), hf]
  unfold withLens at *
  dsimp only at *
  rw [ho]

end

/-! ### Re-routes, rounds and contacts -/

theorem exec_rerouteResult {r id dt : Nat} {s b : State} (hr : r < nRobots s.member) (hp : powered (begin_ dt s) = true)
    (ha : (begin_ dt s).track.rerouteAsked.contains r = true) (hid : (getTr (begin_ dt s) r).routeId = id)
    (hb : b = { begin_ dt s with track := { (begin_ dt s).track with
      rerouteAsked := (begin_ dt s).track.rerouteAsked.filter (fun k => decide (k ≠ r)) } }) :
    exec (.rerouteResult r id dt) s = .next (match findReroute b r with
      | some x =>
        if routeAdmitted b r x then
          addTrackAct (.reroute r x) (setTr r { getTr b r with routeId := ((getTr b r).routeId + 1) % 2 ^ 32 } b)
        else routeEvent r 3 b
      | none => routeEvent r 3 b) := by
  subst hb
  change execRerouteResult r id dt s = _
  unfold execRerouteResult
  dsimp only
  rw [if_neg (by omega), if_pos (by simp only [hp, ha, hid, decide_true, Bool.and_self])]
  rfl

theorem exec_allotRoundEnd {dt : Nat} {s : State} {x : RoundRun} (hp : powered (begin_ dt s) = true)
    (hr : (begin_ dt s).pair.role ≠ .standby) (hx : (begin_ dt s).task.run = some x) :
    exec (.allotRoundEnd dt) s = .next (
      let a := begin_ dt s
      let y := { x.result with
        duration := (a.up - x.startUp) / 1000000, roundsSkipped := a.task.roundsSkipped, endUp := a.up }
      let b := { a with task := { a.task with run := none, roundsSkipped := 0 } }
      if x.commit && !latched a then { b with task := { b.task with
        last := some y, proposalAt := none,
        commits := a.task.commits ++ [{ req := x.req, byCommand := false, robots := y.assigns.map (fun z => z.robot) }] } }
      else propose x.req y b) := by
  change execAllotRoundEnd dt s = _
  unfold execAllotRoundEnd
  dsimp only
  rw [hx]
  dsimp only
  rw [if_neg (by simp only [hp, hr]; decide)]
  rfl

theorem exec_allotPeriod {s : State} {p t : Nat} (hpd : p = s.task.cfg.period * 10000000)
    (ht : t = (s.task.periodAt / p + 1) * p) (h0 : p ≠ 0) (hk : ticking s = true) (hr : reaches t s = true) :
    exec .allotPeriod s = .next (allotDue p (beginAt t s)) := by
  subst hpd ht
  change execAllotPeriod s = _
  unfold execAllotPeriod
  dsimp only
  rw [if_neg (by simp [h0, hk, hr])]

/-- Settles O42: each row by the case that its table gives. -/
theorem fleetWorkRuns : Obligations.FleetWorkRuns := by
  unfold Obligations.FleetWorkRuns
  intro r dt s a hr ha
  subst ha
  refine ⟨?commit, ?reroute, ?period, ?roundEnd, ?lapse, ?service, ?contact⟩
  case commit =>
    intro c hp hc hn
    refine ⟨exec_commitComputeDone_restore hp hc hn, fun q ms g h hq hms hg => ?_⟩
    subst hms
    refine ⟨fun d n k hf => exec_commitComputeDone_sliver hp hc hn hq hg hf, fun hf hh =>
      ⟨fun p ho => exec_commitComputeDone_overflow hp hc hn hq hg hf hh ho,
        fun ho => exec_commitComputeDone_computed hp hc hn hq hg hf hh ho⟩⟩
  case reroute =>
    intro id b hp hask hid hb
    have hrow := exec_rerouteResult hr hp hask hid hb
    refine ⟨fun hf => ?_, fun x hf => ⟨fun hadm => ?_, fun hadm => ?_⟩⟩
    · rw [hrow, hf]
    · rw [hrow, hf]
      dsimp only
      rw [hadm]
      rfl
    · rw [hrow, hf]
      dsimp only
      rw [if_pos hadm]
  case period =>
    intro p t b hpd ht h0 hk hreach hb
    rw [exec_allotPeriod hpd ht h0 hk hreach, hb]
    rfl
  case roundEnd =>
    intro x y b hp hrole hx hy hb
    subst hy hb
    rw [exec_allotRoundEnd hp hrole hx]
    dsimp only
    refine ⟨fun hc hl => ?_, fun h => ?_⟩
    · rw [hc, hl]
      rfl
    · rw [if_neg (by rcases h with h | h <;> simp [h])]
  case lapse =>
    intro t hp ht
    change execProposalLapse s = _
    unfold execProposalLapse
    rw [ht]
    dsimp only
    rw [if_pos hp]
  case service =>
    intro t b hp ht hreach hb
    change execTaskServiceElapsed r s = _
    unfold execTaskServiceElapsed
    rw [if_neg (by omega), ht]
    dsimp only
    rw [if_pos (Bool.and_eq_true_iff.2 ⟨hp, hreach⟩), hb]
    rfl
  case contact =>
    intro owner contact key samples ats b hb hp hc hown hats
    subst hb hats
    have hkey : key = if owner = 256 then contact else 256 + 16 * owner + contact := by
      rcases hown with ⟨ho, hk⟩ | ⟨ho, hne, hk⟩
      · rw [if_pos ho, hk]
      · rw [if_neg hne, hk, ho]
    change execContactQualified owner contact samples dt s = _
    unfold execContactQualified
    dsimp only
    rw [if_neg (by omega), hp, if_neg (by decide), ← hkey]

end Sys2Proof.Machine
end

section
/-! PROOFS. The stop chain's rows (chapter 12). -/
set_option autoImplicit false

namespace Sys2Proof.Machine

/-- The time at which a part of a proof test ends: the deadline of the tick, where ticks run (R294). -/
def proofMoment (s : State) : State :=
  if ticking s && reaches s.tick.deadline s then beginAt s.tick.deadline s else begin_ 0 s

/-- The test after one of its parts: the part passed, or failed at an input. -/
def partDone (p : ProofRun) (k lat tick fail : Nat) (pass : Bool) (more : List Nat) : ProofRun :=
  { p with
    left := more, tick := some tick, results := p.results.set k (if pass then 1 else 2),
    latX := if k = 0 then lat else p.latX, latY := if k = 1 then lat else p.latY,
    failInput := if pass then p.failInput else fail }

section
variable {k lat fail : Nat} {sets : Bool} {s b : State} {p : ProofRun} {more : List Nat} (hk : k ≤ 2)
  (hb : b = proofMoment s) (hp : powered b = true) (hr : b.stop.proof = some p) (hl : p.left = k :: more)
  (ht : proofTick b p = true)
include hk hb hp hr hl ht

/-- A part of the proof test is recorded, and the last one ends the test (R294, R295). -/
theorem exec_proofTestPart (pass : Bool) (hpass : (sets && decide (lat ≤ proofLimit k)) = pass) :
    exec (.proofTestPart k sets lat fail) s = .next (
      let p' := partDone p k lat b.tick.number fail pass more
      let c := { b with stop := { b.stop with proof := some p' } }
      let d := if pass then c else requestStop 4 6 true (setStopFlag 4 { c with stop := { c.stop with
        proofFailed := true, faults := addOnce c.stop.faults 6 } })
      if more.isEmpty then
        endProof p' (p'.results.all (fun x => decide (x ≤ 1)))
          (if decide (p'.results = [1, 1, 1]) then
            ceaseFault 6 { d with stop := { d.stop with
              proofFailed := false, lastPass := d.now / nsPerSec % 2 ^ 32, lastPassUp := some d.up } }
          else d)
      else d) := by
  subst hb hpass
  change execProofTestPart k sets lat fail s = _
  unfold execProofTestPart
  dsimp only
  rw [if_neg (by omega)]
  change Host.Outcome.next (match (proofMoment s).stop.proof with | some p => _ | none => _) = _
  rw [hr]
  dsimp only
  rw [if_pos (by
    change (powered (proofMoment s) && proofTick (proofMoment s) p && decide (p.left.head? = some k)) = true
    rw [hp, ht, hl]
    simp)]
  simp only [hl, List.tail_cons]
  rfl

end

/-- Settles O43: each row at its instant, under the condition that its table gives. -/
theorem stopRowsRun : Obligations.StopRowsRun := by
  unfold Obligations.StopRowsRun
  intro r dt s a hr ha
  subst ha
  refine ⟨?pad, ?disagree, ?agree, ?partner, ?fault, ?limit, ?robotLimit, ?standby, ?reset, ?armed, ?lapse, ?part, ?due⟩
  case pad =>
    intro isA level b hp hb
    change execEstopPadChange isA level dt s = _
    unfold execEstopPadChange
    dsimp only
    rw [hp, Bool.true_and, hb]
  case disagree =>
    intro t hp ht hd
    change execDiscTimeout s = _
    unfold execDiscTimeout
    rw [ht]
    dsimp only
    rw [if_pos (by simp [hp, hd])]
  case agree =>
    intro t hp ht hd
    change execDiscrepancyClear s = _
    unfold execDiscrepancyClear
    rw [ht]
    dsimp only
    rw [if_pos (Bool.and_eq_true_iff.2 ⟨hp, hd⟩)]
  case partner =>
    intro hp he hc
    change execPartnerStopSymbol dt s = _
    unfold execPartnerStopSymbol
    dsimp only
    rw [if_pos (by simp only [hp, he, hc, Bool.and_self])]
  case fault =>
    intro k hk hp
    refine ⟨?_, ?_⟩
    · change execInternalFault k true dt s = _
      unfold execInternalFault raiseFault
      dsimp only
      rw [if_neg (by omega), if_pos hp, if_pos rfl]
    · change execInternalFault k false dt s = _
      unfold execInternalFault ceaseFault
      dsimp only
      rw [if_neg (by omega), if_pos hp, if_neg (by decide)]
  case limit =>
    intro b hp hc hb
    change execCtrlLimitExpire s = _
    unfold execCtrlLimitExpire
    rw [if_pos (Bool.and_eq_true_iff.2 ⟨hp, hc⟩), hb]
    rfl
  case robotLimit =>
    intro x hp hx hc
    change execRobotCtrlLimitExpire r s = _
    unfold execRobotCtrlLimitExpire
    rw [if_neg (by omega), hx]
    dsimp only
    rw [if_pos (Bool.and_eq_true_iff.2 ⟨hp, hc⟩)]
  case standby =>
    intro hp hrole
    change execResetInputEdge dt s = _
    unfold execResetInputEdge
    dsimp only
    rw [if_pos (by simp [hrole])]
  case reset =>
    intro hp hrole hm
    change execResetInputEdge dt s = _
    unfold execResetInputEdge
    dsimp only
    rw [if_neg (by simp [hp, hrole]), if_pos hm]
  case armed =>
    intro hp hrole hm
    change execResetInputEdge dt s = _
    unfold execResetInputEdge
    dsimp only
    rw [if_neg (by simp [hp, hrole]), if_neg (by omega), if_pos hm]
  case lapse =>
    intro q t rest b hp ha hb
    change execResetArmTimeout s = _
    unfold execResetArmTimeout
    rw [ha]
    dsimp only
    rw [if_pos hp, hb]
  case part =>
    intro k lat fail sets b p p' more hk hb hp hproof hl ht
    refine ⟨fun hs hle hp' => ⟨fun hmore => ?_, fun hmore hall => ?_⟩, fun hf hp' hmore => ?_⟩
    · rw [exec_proofTestPart hk hb hp hproof hl ht true (by simp [hs, hle]), hp']
      dsimp only
      rw [if_pos rfl, if_neg (by simpa using hmore)]
      rfl
    · have hres : (partDone p k lat b.tick.number fail true more).results = [1, 1, 1] := by
        rw [hp'] at hall
        exact hall
      rw [exec_proofTestPart hk hb hp hproof hl ht true (by simp [hs, hle]), hp']
      dsimp only
      rw [hres, if_pos rfl, if_pos (by simp [hmore]), if_pos (by decide)]
      rfl
    · have hpass : (sets && decide (lat ≤ proofLimit k)) = false := by
        rcases hf with hf | hf
        · simp [hf]
        · simp [Nat.not_le.2 hf]
      rw [exec_proofTestPart hk hb hp hproof hl ht false hpass, hp']
      dsimp only
      rw [if_neg (by simpa using hmore)]
      rfl
  case due =>
    intro hp ha hn hc
    change execProofIntervalDue s = _
    unfold execProofIntervalDue
    rw [if_pos (by simp [hp, ha, hn, hc])]

end Sys2Proof.Machine
end

section
/-! PROOFS. The switch rows. -/
set_option autoImplicit false
namespace Sys2Proof.Machine

/-- A port row's number check passes on a port of the module that is not the module's own. -/
theorem port_check_passes {m : Member} {p : Nat} (hp : portExists m p = true) (h15 : p ≠ 15) :
    ¬ ((!portExists m p || decide (p = 15)) = true) := by
  simp [hp, h15]

theorem exec_ethFrameRx {f : EthFrame} {dt : Nat} {s : State} (hp : portExists s.member f.port = true)
    (h15 : f.port ≠ 15) (hpow : powered (begin_ dt s) = true) :
    exec (.ethFrameRx f dt) s = .next (rxFrame f (begin_ dt s)) := by
  change execEthFrameRx f dt s = _
  unfold execEthFrameRx
  rw [if_neg (port_check_passes hp h15)]
  dsimp only
  rw [if_pos hpow]

theorem rxFrame_badFcs {f : EthFrame} {s : State} (hup : portUp s f.port = true) (hf : f.fcsOk = false) :
    rxFrame f s = modStat f.port (fun c => { c with fcsErr := cnt32 c.fcsErr }) (countRx f.port f.len s) := by
  unfold rxFrame
  rw [if_neg (by simp [hup])]
  dsimp only
  rw [if_pos (by simp [hf])]

theorem rxFrame_tooLong {f : EthFrame} {s : State} (hup : portUp s f.port = true) (hf : f.fcsOk = true)
    (hlen : (getPort (countRx f.port f.len s) f.port).cfg.maxFrame < f.len) :
    rxFrame f s = dropFiltered f.port (countRx f.port f.len s) := by
  unfold rxFrame
  rw [if_neg (by simp [hup])]
  dsimp only
  rw [if_neg (by simp [hf]), if_pos hlen]

/-- A good frame of a VLAN, neither reserved nor a robot's, goes to the module or is passed on (R322 to R325). -/
theorem rxFrame_good {f : EthFrame} {s : State} {v : Nat} (hup : portUp s f.port = true) (hf : f.fcsOk = true)
    (hlen : f.len ≤ (getPort (countRx f.port f.len s) f.port).cfg.maxFrame) (hr : reservedMac f.dst = false)
    (hv : ingressVid f.port (f.tag.map (fun t => t.1)) (countRx f.port f.len s) = some v)
    (hu : isUzoza f v (learn f.port f.src v (countRx f.port f.len s)) = false) :
    rxFrame f s = (deliverOwn f v (learn f.port f.src v (countRx f.port f.len s))).getD
      (passOn f v (learn f.port f.src v (countRx f.port f.len s))) := by
  unfold rxFrame
  rw [if_neg (by simp [hup])]
  dsimp only
  rw [if_neg (by simp [hf]), if_neg (by omega), if_neg (by simp [hr]), hv]
  dsimp only
  rw [if_neg (by simp [hu])]
  cases deliverOwn f v (learn f.port f.src v (countRx f.port f.len s)) <;> rfl

theorem exec_linkPoll_single {p dt : Nat} {l : Option Nat} {s : State} (hpow : powered (begin_ dt s) = true)
    (hl : (begin_ dt s).net.loaded = true) (hp : portExists (begin_ dt s).member p = true)
    (hpoll : pollsPhy (begin_ dt s) p = true) (hen : (getPort (begin_ dt s) p).cfg.en = true) :
    exec (.linkPoll [(p, l)] dt) s =
      .next (linkChange p l.isSome (l.getD (getPort (begin_ dt s) p).speed % 8) (begin_ dt s)) := by
  change execLinkPoll [(p, l)] dt s = _
  unfold execLinkPoll
  dsimp only
  rw [if_pos (by simp [hpow, hl]), List.foldl_cons, List.foldl_nil, if_pos (by simp [hp, hpoll, hen])]

theorem exec_portLinkChange {p speed dt : Nat} {up : Bool} {s : State} (hp : portExists s.member p = true)
    (h15 : p ≠ 15) (hpow : powered (begin_ dt s) = true) (hl : (begin_ dt s).net.loaded = true)
    (hen : (getPort (begin_ dt s) p).cfg.en = true) (hpoll : pollsPhy (begin_ dt s) p = false) :
    exec (.portLinkChange p up speed dt) s =
      .next (linkChange p up (if up then speed % 8 else (getPort (begin_ dt s) p).speed) (begin_ dt s)) := by
  change execPortLinkChange p up speed dt s = _
  unfold execPortLinkChange
  rw [if_neg (port_check_passes hp h15)]
  dsimp only
  rw [if_pos (by simp [hpow, hl, hen, hpoll])]

/-- Settles O44: each row's branch is the one its conditions name, in the order of the ingress (R321 to R325). -/
theorem switchRowsRun : Obligations.SwitchRowsRun := by
  unfold Obligations.SwitchRowsRun
  intro dt s a ha hpow
  subst ha
  refine ⟨?frame, ?scan, ?pollUp, ?pollDown, ?link, ?sent⟩
  case frame =>
    intro f hp h15
    rw [exec_ethFrameRx hp h15 hpow]
    refine ⟨fun hup => ?_, fun b hup hb => ?_⟩
    · unfold rxFrame
      rw [if_pos (by simp [hup])]
    · subst hb
      refine ⟨fun hf => ?_, fun hf hlen => ?_, fun v c hf hlen hr hv hc hu => ?_⟩
      · rw [rxFrame_badFcs hup hf]
      · rw [rxFrame_tooLong hup hf hlen]
      · subst hc
        rw [rxFrame_good hup hf hlen hr hv hu]
        exact ⟨fun d hd => by rw [hd, Option.getD_some], fun hd => by rw [hd, Option.getD_none]⟩
  case scan =>
    change execAgeScan dt s = _
    unfold execAgeScan
    dsimp only
    rw [if_pos hpow]
  case pollUp =>
    intro p speed hl hp hpoll hen
    exact exec_linkPoll_single hpow hl hp hpoll hen
  case pollDown =>
    intro p hl hp hpoll hen
    exact exec_linkPoll_single hpow hl hp hpoll hen
  case link =>
    intro p speed hp h15 hl hen hpoll
    exact ⟨exec_portLinkChange hp h15 hpow hl hen hpoll, exec_portLinkChange hp h15 hpow hl hen hpoll⟩
  case sent =>
    intro p f rest hp h15 hq
    change execEgressFrameSent p dt s = _
    unfold execEgressFrameSent
    rw [if_neg (port_check_passes hp h15)]
    dsimp only
    rw [hq]
    dsimp only
    rw [if_pos hpow]

end Sys2Proof.Machine
end

section
/-! PROOFS. The rows of the time base. -/
set_option autoImplicit false
namespace Sys2Proof.Machine

/-- Whether an edge of PPS_IN comes a second after the one before it, within 1 us (R361). -/
def edgeFollows (s : State) : Bool :=
  match s.time.ppsEdgeAt with
  | some t => decide (((s.now : Int) - (t : Int) - 1000000000).natAbs ≤ 1000)
  | none => false

/-- The state in which an edge of PPS_IN is judged: it is the last edge, and its sentence is open where it follows. -/
def edgeTaken (s : State) : State :=
  { s with time := { s.time with ppsEdgeAt := some s.now, ppsOpen := !s.time.pps.todRef } }

/-- An edge whose sentence comes before it (TOD_REF 1). -/
theorem exec_ppsInEdge_todRef {dt sec : Nat} {s : State} (hp : powered (begin_ dt s) = true)
    (hen : (begin_ dt s).time.pps.inEn = true) (href : (begin_ dt s).time.pps.todRef = true)
    (hsec : (begin_ dt s).time.todSecond = some sec) :
    exec (.ppsInEdge dt) s = .next
      (if !(begin_ dt s).time.ppsOpen then todAbsent (edgeTaken (begin_ dt s))
       else if edgeFollows (begin_ dt s) || !qualified (edgeTaken (begin_ dt s)) 4 then
         ppsPair (begin_ dt s).now sec (edgeFollows (begin_ dt s)) (edgeTaken (begin_ dt s))
       else edgeTaken (begin_ dt s)) := by
  change execPpsInEdge dt s = _
  unfold execPpsInEdge
  dsimp only
  generalize begin_ dt s = a at *
  rw [if_pos (by simp [hp, hen]), if_pos href]
  change Host.Outcome.next (match a.time.todSecond with
    | some x => if !a.time.ppsOpen then todAbsent (edgeTaken a)
      else if edgeFollows a || !qualified (edgeTaken a) 4 then ppsPair a.now x (edgeFollows a) (edgeTaken a)
      else edgeTaken a
    | none => _) = _
  split
  next x hx =>
    obtain rfl : x = sec := Option.some.inj (hx.symm.trans hsec)
    rfl
  next hx => exact absurd (hx.symm.trans hsec) (by simp)

/-- An edge whose sentence follows it (TOD_REF 0). -/
theorem exec_ppsInEdge_noRef {dt : Nat} {s : State} (hp : powered (begin_ dt s) = true)
    (hen : (begin_ dt s).time.pps.inEn = true) (href : (begin_ dt s).time.pps.todRef = false) :
    exec (.ppsInEdge dt) s = .next
      (if (begin_ dt s).time.ppsOpen then todAbsent (edgeTaken (begin_ dt s))
       else if edgeFollows (begin_ dt s) || qualified (edgeTaken (begin_ dt s)) 4 then edgeTaken (begin_ dt s)
       else setSource 4 { getSource (edgeTaken (begin_ dt s)) 4 with heldSince := none }
         (edgeTaken (begin_ dt s))) := by
  change execPpsInEdge dt s = _
  unfold execPpsInEdge
  dsimp only
  generalize begin_ dt s = a at *
  rw [if_pos (by simp [hp, hen]), if_neg (by simp [href])]
  rfl

/-- The state in which a sentence's second is judged: its offset is taken, unless the navigation data give one. -/
def sentenceOffset (text : TodText) (s : State) : State :=
  if text.zda || s.time.utcDecoded then s
  else { s with time := { s.time with utcOffset := text.offset, utcValid := true } }

/-- The state after a sentence's second is noted. -/
def sentenceNoted (sec : Nat) (s : State) : State :=
  { s with time := { s.time with todSecond := some sec, ppsOpen := s.time.pps.todRef } }

/-- Whether a sentence names the second after that of the sentence before it. -/
def secondFollows (sec : Nat) (s : State) : Bool :=
  match s.time.todSecond with
  | some o => decide (sec = o + 1)
  | none => true

/-- A sentence that names a second: with TOD_REF 1 it keeps or breaks the source's condition, with TOD_REF 0 it belongs
to the edge before it. -/
theorem exec_todSentence {text : TodText} {dt sec : Nat} {s : State} (hp : powered (begin_ dt s) = true)
    (hen : (begin_ dt s).time.pps.inEn = true) (hsum : text.checksumOk = true)
    (hfmt : text.zda = ((begin_ dt s).time.pps.todFmt == 0)) (hlock : text.zda = true ∨ text.locked = true)
    (hsec : todTai text (sentenceOffset text (begin_ dt s)) = some sec) :
    exec (.todSentence text dt) s = .next
      (let b := sentenceOffset text (begin_ dt s)
       let c := sentenceNoted sec b
       if c.time.pps.todRef then (if secondFollows sec b then c else todAbsent c)
       else match c.time.ppsEdgeAt with
         | some e => if b.time.ppsOpen then ppsPair e sec (secondFollows sec b) c else c
         | none => c) := by
  change execTodSentence text dt s = _
  unfold execTodSentence
  dsimp only
  generalize begin_ dt s = a at *
  rw [if_pos (by simp [hp, hen, hsum, hfmt]), if_neg (by rcases hlock with h | h <;> simp [h])]
  change Host.Outcome.next (match todTai text (sentenceOffset text a) with | none => _ | some sec => _) = _
  rw [hsec]
  rfl

/-- The ends of the waiting times that still run, of the sources in the list (R345). -/
def wtrEnds (s : State) : List Nat :=
  (s.time.src.list.filter (fun c => decide (c ≠ 0))).filterMap (fun c =>
    match (getSource s c).qualAt with
    | some t => if s.up < t + s.time.src.wtr * nsPerSec then some (t + s.time.src.wtr * nsPerSec) else none
    | none => none)

theorem wtrEnds_single {c t : Nat} {s : State} (hl : s.time.src.list = [c]) (hc : c ≠ 0)
    (hq : (getSource s c).qualAt = some t) (ht : s.up < t + s.time.src.wtr * nsPerSec) :
    wtrEnds s = [t + s.time.src.wtr * nsPerSec] := by
  have hf : s.time.src.list.filter (fun c => decide (c ≠ 0)) = [c] := by simp [hl, hc]
  unfold wtrEnds
  rw [hf]
  simp only [hq, ht, if_true, List.filterMap_cons, List.filterMap_nil]

theorem exec_wtrExpire_single {e : Nat} {s : State} (hp : powered s = true) (he : wtrEnds s = [e]) :
    exec .wtrExpire s = .next (reselect (beginUp e s)) := by
  change execWtrExpire s = _
  unfold execWtrExpire
  dsimp only
  rw [if_pos hp]
  change Host.Outcome.next (match wtrEnds s with | [] => _ | t :: ts => reselect (beginUp (ts.foldl min t) s)) = _
  rw [he]
  rfl

/-- Settles O45: each row takes the branch its conditions name; the edge and the sentence by what was open before. -/
theorem timeRowsRun : Obligations.TimeRowsRun := by
  unfold Obligations.TimeRowsRun
  intro dt s a ha
  subst ha
  refine ⟨?second, ?qualify, ?wtr, ?lost, ?hold, ?settled, ?entry, ?wait, ?refLoss, ?refSelect, ?edge, ?sentence,
    ?unlocked⟩
  case second =>
    intro p hp hr
    change execServoSecond p s = _
    unfold execServoSecond
    dsimp only
    rw [if_pos (Bool.and_eq_true_iff.2 ⟨hp, hr⟩)]
  case qualify =>
    intro code theta t hx hp hh hn ht hlevel
    have hok : (!(decide (code = 1) && decide (3 ≤ actingLevel (begin_ dt s).corr))) = true := by
      by_cases hc : code = 1
      · rw [decide_eq_false (Nat.not_le.2 (hlevel hc)), Bool.and_false, Bool.not_false]
      · rw [decide_eq_false hc, Bool.false_and, Bool.not_false]
    change execSourceQualify code theta dt s = _
    unfold execSourceQualify
    rw [if_neg (by simp [hx])]
    dsimp only
    rw [hh]
    dsimp only
    rw [if_pos (by simp only [hp, hn, ht, hok, Option.isNone_none, decide_true, Bool.and_self])]
    rfl
  case wtr =>
    intro c t hp hl hc hq ht
    exact exec_wtrExpire_single hp (wtrEnds_single hl hc hq ht)
  case lost =>
    intro code hx hp
    change execSourceLost code dt s = _
    unfold execSourceLost
    rw [if_neg (by simp [hx])]
    dsimp only
    rw [if_pos hp]
  case hold =>
    intro hp hs
    change execAsymHoldExpire s = _
    unfold execAsymHoldExpire
    rw [if_pos (Bool.and_eq_true_iff.2 ⟨hp, hs⟩)]
  case settled =>
    intro b p hb hp hs hh hr hport
    subst hb hport
    change execAsymEstimateSettled s = _
    unfold execAsymEstimateSettled
    dsimp only
    rw [if_pos (by simp [hp, hs, hh, hr])]
  case entry =>
    intro theta hp hb hr hs
    change execTimeNormalEntry theta s = _
    unfold execTimeNormalEntry
    rw [if_pos (by simp [hp, hb, hr, hs])]
    rfl
  case wait =>
    intro hp hb hr hs hw
    change execBootWaitExpire s = _
    unfold execBootWaitExpire
    rw [if_pos (by simp [hp, hb, hr, hs, hw])]
  case refLoss =>
    intro hp he
    change execExtRefLoss dt s = _
    unfold execExtRefLoss
    dsimp only
    rw [if_pos (Bool.and_eq_true_iff.2 ⟨hp, he⟩)]
  case refSelect =>
    intro usable t hp ht hr
    change execRefSelect usable s = _
    unfold execRefSelect
    rw [ht]
    dsimp only
    rw [if_pos (Bool.and_eq_true_iff.2 ⟨hp, hr⟩)]
  case edge =>
    intro b good hp hen hb hg
    change b = edgeTaken (begin_ dt s) at hb
    change good = edgeFollows (begin_ dt s) at hg
    subst hb hg
    refine ⟨fun sec href hsec hopen => ⟨fun hok => ?_, fun hbad hq => ?_⟩, fun sec href hsec hopen => ?_,
      fun href hopen => ?_, fun href hopen => ⟨fun hok => ?_, fun hbad hq => ?_⟩⟩
    · rw [exec_ppsInEdge_todRef hp hen href hsec, if_neg (by simp [hopen]), if_pos (by simpa using hok)]
    · rw [exec_ppsInEdge_todRef hp hen href hsec, if_neg (by simp [hopen]), if_neg (by simp [hbad, hq])]
    · rw [exec_ppsInEdge_todRef hp hen href hsec, if_pos (by simp [hopen])]
    · rw [exec_ppsInEdge_noRef hp hen href, if_pos hopen]
    · rw [exec_ppsInEdge_noRef hp hen href, if_neg (by simp [hopen]), if_pos (by simpa using hok)]
    · rw [exec_ppsInEdge_noRef hp hen href, if_neg (by simp [hopen]), if_neg (by simp [hbad, hq])]
  case sentence =>
    intro text b c sec hp hen hsum hfmt hlock hb hsec hc
    change b = sentenceOffset text (begin_ dt s) at hb
    change c = sentenceNoted sec b at hc
    subst hb hc
    rw [exec_todSentence hp hen hsum hfmt hlock hsec]
    dsimp only
    refine ⟨fun href hnext => ?_, fun o href ho hne => ?_, fun e o href hopen he ho => ?_⟩
    · have hf : secondFollows sec (sentenceOffset text (begin_ dt s)) = true := by
        unfold secondFollows
        split
        · exact decide_eq_true (hnext _ ‹_›)
        · rfl
      rw [if_pos href, if_pos hf]
    · have hf : secondFollows sec (sentenceOffset text (begin_ dt s)) = false := by
        unfold secondFollows
        rw [ho]
        exact decide_eq_false hne
      rw [if_pos href, if_neg (by simp [hf])]
    · have hf : secondFollows sec (sentenceOffset text (begin_ dt s)) = decide (sec = o + 1) := by
        unfold secondFollows
        rw [ho]
      have he' : (sentenceNoted sec (sentenceOffset text (begin_ dt s))).time.ppsEdgeAt = some e := he
      rw [if_neg (by simp [href]), he']
      dsimp only
      rw [if_pos hopen, hf]
  case unlocked =>
    intro text hp hen hsum hz hfmt hlock
    change execTodSentence text dt s = _
    unfold execTodSentence
    dsimp only
    rw [if_pos (by simp [hp, hen, hsum, hz, hfmt]), if_pos (by simp [hz, hlock])]

end Sys2Proof.Machine
end

section
/-! PROOFS. The rows of the precision time protocol. -/
set_option autoImplicit false
namespace Sys2Proof.Machine

/-- What a PTP message does to a module that is powered, by its kind (R362 to R366). -/
def ptpMessageTaken (m : PtpMsg) (s : State) : State :=
  let p := getPtpPort s m.port
  let srcHere := decide (8 ≤ m.port) && p.src && decide (m.domain = s.time.ptp.srcDomain)
  let fleetHere := p.fleet && decide (m.domain = s.time.ptp.fleetDomain) && fleetPtpRuns s
  if m.kind = 11 then
    if srcHere then ptpAnnounce m (setPtpPort m.port { p with announces := cnt32 p.announces } s) else s
  else if m.kind = 0 then
    if srcHere then ptpOffset m (setPtpPort m.port { p with syncRcvd := cnt32 p.syncRcvd } s) else s
  else if m.kind = 8 ∨ m.kind = 9 then
    if srcHere then ptpOffset m s else s
  else if m.kind = 1 then
    if fleetHere && decide (p.delayMech = 0) then ptpAnswer m s else s
  else if m.kind = 2 then
    if peerPort p then ptpAnswer m s else s
  else if m.kind = 3 ∨ m.kind = 10 then setPtpPort m.port { p with linkDelay := (m.mpd : Int), mpd := m.mpd } s
  else s

theorem exec_ptpMessageRx {m : PtpMsg} {dt : Nat} {s : State} (hx : portExists s.member m.port = true)
    (h15 : m.port ≠ 15) (hp : powered (begin_ dt s) = true) :
    exec (.ptpMessageRx m dt) s = .next (ptpMessageTaken m (begin_ dt s)) := by
  change execPtpMessageRx m dt s = _
  unfold execPtpMessageRx
  rw [if_neg (port_check_passes hx h15)]
  dsimp only
  generalize begin_ dt s = a at *
  rw [if_neg (by simp [hp])]
  rfl

/-- A peer delay request is answered with its response, and by a two-step port with a follow-up (R364). -/
theorem ptpAnswer_peer {m : PtpMsg} {s : State} (hk : m.kind = 2) :
    ptpAnswer m s =
      (let b := emit (.ptp m.port 3 m.seq (s.now : Int) 0x7F)
         (setPtpPort m.port { getPtpPort s m.port with reqs := cnt32 (getPtpPort s m.port).reqs } s)
       if (getPtpPort s m.port).oneStep then b else emit (.ptp m.port 10 m.seq (s.now : Int) 0x7F) b) := by
  unfold ptpAnswer
  dsimp only
  rw [if_neg (by omega)]
  rfl

/-- Settles O46: a message is handled by its kind, where its port plays the part that kind asks for. -/
theorem ptpRowsRun : Obligations.PtpRowsRun := by
  unfold Obligations.PtpRowsRun
  intro m dt s a p hx h15 ha hpow hport
  subst ha
  rw [exec_ptpMessageRx hx h15 hpow]
  generalize begin_ dt s = a at *
  subst hport
  refine ⟨fun h8 hsrc hdom => ?source, fun hk hf hdom hrun hmech => ?delay, fun b hk hpeer hb => ?peer,
    fun hk => ?response, fun k id x h8 hk hp hfind => ?timeout⟩
  case source =>
    have hhere : (decide (8 ≤ m.port) && (getPtpPort a m.port).src &&
        decide (m.domain = a.time.ptp.srcDomain)) = true := by simp [h8, hsrc, hdom]
    refine ⟨fun hk => congrArg _ ?_, fun hk => congrArg _ ?_, fun hk => congrArg _ ?_⟩
    · unfold ptpMessageTaken
      dsimp only
      rw [if_pos hk, if_pos hhere]
    · unfold ptpMessageTaken
      dsimp only
      rw [if_neg (by omega), if_pos hk, if_pos hhere]
    · unfold ptpMessageTaken
      dsimp only
      rw [if_neg (by omega), if_neg (by omega), if_pos hk, if_pos hhere]
  case delay =>
    refine congrArg _ ?_
    unfold ptpMessageTaken
    dsimp only
    rw [if_neg (by omega), if_neg (by omega), if_neg (by omega), if_pos hk, if_pos (by simp [hf, hdom, hrun, hmech])]
    unfold ptpAnswer
    dsimp only
    rw [if_pos hk]
    rfl
  case peer =>
    have htaken : ptpMessageTaken m a = ptpAnswer m a := by
      unfold ptpMessageTaken
      dsimp only
      rw [if_neg (by omega), if_neg (by omega), if_neg (by omega), if_neg (by omega), if_pos hk,
        if_pos (by simpa [peerPort] using hpeer)]
    rw [htaken, ptpAnswer_peer hk]
    dsimp only
    rw [← hb]
    exact ⟨fun h1 => by rw [if_pos h1], fun h1 => by rw [if_neg (by simp [h1])]⟩
  case response =>
    refine congrArg _ ?_
    unfold ptpMessageTaken
    dsimp only
    rw [if_neg (by omega), if_neg (by omega), if_neg (by omega), if_neg (by omega), if_neg (by omega), if_pos hk]
  case timeout =>
    change execPtpAnnounceTimeout k id s = _
    unfold execPtpAnnounceTimeout
    rw [if_neg (by omega), hfind]
    dsimp only
    rw [if_pos hp]

end Sys2Proof.Machine
end

section
/-! PROOFS. The rows of the event recorder. -/
set_option autoImplicit false
namespace Sys2Proof.Machine

theorem beginUp_rec_writing (t : Nat) (s : State) : (beginUp t s).rec_.writing = s.rec_.writing := by
  have h := congrArg (fun a : State => a.rec_.writing) (beginUp_still t s)
  exact h

/-! ### What the recorder goes on to, by what waits -/

theorem takeNext_summary {s : State} {e : Staged} {rest : List Staged} (h : s.rec_.summary = e :: rest) :
    takeNext s = startWrite false false e { s with rec_ := { s.rec_ with summary := rest } } := by
  unfold takeNext
  dsimp only
  split
  next e' rest' h' =>
    obtain ⟨rfl, rfl⟩ := List.cons.inj (h'.symm.trans h)
    rfl
  next h' => exact absurd (h'.symm.trans h) (by simp)

theorem takeNext_overflow {s : State} (h : s.rec_.summary = []) (hl : s.rec_.lost ≠ 0) (ha : s.rec_.lostAfter = 0) :
    takeNext s = startWrite true true
      { code := 0x0B01, host := false, timeRaw := s.time.raw, payload := List.replicate 24 0 } s := by
  unfold takeNext
  dsimp only
  split
  next h' => exact absurd (h'.symm.trans h) (by simp)
  next => rw [if_pos ⟨hl, ha⟩]

/-- With no summary and no lost record to stand for, the recorder looks at its FIFOs. -/
theorem takeNext_fifos {s : State} (h : s.rec_.summary = []) (hl : s.rec_.lost = 0 ∨ s.rec_.lostAfter ≠ 0) :
    takeNext s = (match s.rec_.audFifo, s.rec_.diagFifo with
      | e :: rest, _ =>
        refillAudit (startWrite true false e
          { s with rec_ := { s.rec_ with audFifo := rest, lostAfter := s.rec_.lostAfter - 1 } })
      | [], e :: rest => startWrite false false e { s with rec_ := { s.rec_ with diagFifo := rest } }
      | [], [] => s) := by
  unfold takeNext
  dsimp only
  split
  next h' => exact absurd (h'.symm.trans h) (by simp)
  next => rw [if_neg (by omega)] <;> rfl

theorem takeNext_audit {s : State} {e : Staged} {rest : List Staged} (h : s.rec_.summary = [])
    (hl : s.rec_.lost = 0 ∨ s.rec_.lostAfter ≠ 0) (ha : s.rec_.audFifo = e :: rest) :
    takeNext s = refillAudit (startWrite true false e
      { s with rec_ := { s.rec_ with audFifo := rest, lostAfter := s.rec_.lostAfter - 1 } }) := by
  rw [takeNext_fifos h hl]
  split
  next e' rest' _ h' =>
    obtain ⟨rfl, rfl⟩ := List.cons.inj (h'.symm.trans ha)
    rfl
  next h' _ => exact absurd (h'.symm.trans ha) (by simp)
  next h' _ => exact absurd (h'.symm.trans ha) (by simp)

theorem takeNext_diag {s : State} {e : Staged} {rest : List Staged} (h : s.rec_.summary = [])
    (hl : s.rec_.lost = 0 ∨ s.rec_.lostAfter ≠ 0) (ha : s.rec_.audFifo = []) (hd : s.rec_.diagFifo = e :: rest) :
    takeNext s = startWrite false false e { s with rec_ := { s.rec_ with diagFifo := rest } } := by
  rw [takeNext_fifos h hl]
  split
  next h' => exact absurd (h'.symm.trans ha) (by simp)
  next e' rest' _ h' =>
    obtain ⟨rfl, rfl⟩ := List.cons.inj (h'.symm.trans hd)
    rfl
  next h' => exact absurd (h'.symm.trans hd) (by simp)

theorem takeNext_idle {s : State} (h : s.rec_.summary = []) (hl : s.rec_.lost = 0 ∨ s.rec_.lostAfter ≠ 0)
    (ha : s.rec_.audFifo = []) (hd : s.rec_.diagFifo = []) : takeNext s = s := by
  rw [takeNext_fifos h hl]
  split
  next h' => exact absurd (h'.symm.trans ha) (by simp)
  next h' => exact absurd (h'.symm.trans hd) (by simp)
  next => rfl

/-- The record in progress, once its writing has ended (R378). -/
def recordWritten (w : Writing) (s : State) : State :=
  let c := { s with rec_ := { s.rec_ with writing := none } }
  if w.overflow then writeOverflow c else commit w.audit w.entry c

theorem exec_recordCommit {w : Writing} {dt : Nat} {s : State} (hp : powered s = true)
    (hw : s.rec_.writing = some w) :
    exec (.recordCommit dt) s = .next (takeNext (recordWritten w (beginUp (w.since + writeNs w) s))) := by
  have hw' : (beginUp (w.since + writeNs w) s).rec_.writing = some w := (beginUp_rec_writing _ s).trans hw
  change execRecordCommit dt s = _
  unfold execRecordCommit
  rw [hw]
  dsimp only
  rw [if_pos hp]
  unfold finishWrite
  generalize beginUp (w.since + writeNs w) s = a at *
  split
  next h => exact absurd (h.symm.trans hw') (by simp)
  next w' h =>
    obtain rfl : w' = w := Option.some.inj (h.symm.trans hw')
    rfl

/-- With no record in progress the summary is written at once (R382). -/
theorem summarise_idle {s : State} {l es : List Suppressed} {e : Staged} (hw : s.rec_.writing = none)
    (hl : l = s.rec_.suppressed.foldr suppInsert []) (hes : es = l.take 124)
    (he : e = ({ code := 0x0B00, host := false, timeRaw := s.time.raw,
                 payload := recordPayload s.now es.length
                   (es.flatMap (fun e => [wordOfFields [(e.code, 0), (e.cause, 16)], wordOf e.count])) } : Staged)) :
    summarise s = deliver 0x0B00 es.length s.now
      (es.flatMap (fun e => [wordOfFields [(e.code, 0), (e.cause, 16)], wordOf e.count])) .all
      (triggerJobs 0x0B00 (startWrite false false e
        { s with rec_ := { s.rec_ with suppressed := l.drop 124, summedAt := s.now / nsPerSec } })) := by
  subst he hes hl
  unfold summarise
  dsimp only
  rw [if_pos (by rw [hw]; rfl)]

/-- Settles O47: what follows a record is read off what waits, in the order of R380. -/
theorem recorderRowsRun : Obligations.RecorderRowsRun := by
  unfold Obligations.RecorderRowsRun
  intro dt s
  refine ⟨?commit, ?idle, ?lost, ?summary⟩
  case commit =>
    intro w a b hp hw ha hb
    change b = recordWritten w a at hb
    have hexec : exec (.recordCommit dt) s = .next (takeNext b) := by rw [exec_recordCommit hp hw, ← ha, ← hb]
    rw [hexec]
    refine ⟨fun e rest h => by rw [takeNext_summary h], fun h => ⟨fun hl hz => by rw [takeNext_overflow h hl hz],
      fun hl => ⟨fun e rest he => by rw [takeNext_audit h hl he],
        fun e rest he hd => by rw [takeNext_diag h hl he hd], fun he hd => by rw [takeNext_idle h hl he hd]⟩⟩⟩
  case idle =>
    intro hw
    change execRecordCommit dt s = _
    unfold execRecordCommit
    rw [hw]
  case lost =>
    intro e t rest a hw ha
    have hexec : exec (.auditStageTimeout dt) s = .next { a with rec_ := loseAudit e rest a.rec_ } := by
      change execAuditStageTimeout dt s = _
      unfold execAuditStageTimeout
      rw [hw, ha]
    rw [hexec]
    unfold loseAudit
    dsimp only
    exact ⟨fun hz => by simp [hz], fun hz => by simp [hz]⟩
  case summary =>
    intro b l es e hr hb hp hne hw hl hes he
    change execRecSuppressSecond s = _
    unfold execRecSuppressSecond
    dsimp only
    rw [if_pos (by simp [hp, hr, hne]), ← hb, summarise_idle hw hl hes he]

end Sys2Proof.Machine
end

section
/-! PROOFS. The rows of the redundant pair. -/
set_option autoImplicit false
namespace Sys2Proof.Machine

/-- The report of a pair's change reads only the state the change leads to. -/
theorem reportPair_congr {f g : State → State} {s : State} (h : f s = g s) : reportPair f s = reportPair g s := by
  unfold reportPair
  dsimp only
  rw [h]

theorem listens_of {s : State} (hp : powered s = true) (hl : s.pair.laneUp = true) (hr : s.pair.role = .standby)
    (ha : aclAllows s 8 0x1011 0 2 = true) : listens s = true := by
  unfold listens laneIsIn pairWrites
  simp [hp, hl, hr, ha]

theorem not_listens_of_denied {s : State} (ha : aclAllows s 8 0x1011 0 2 = false) : listens s = false := by
  unfold listens pairWrites
  simp [ha]

/-- A record that the access tables deny the pair's master is reported so (R429). -/
theorem unheard_denied {s : State} (hp : powered s = true) (hl : s.pair.laneUp = true) (hr : s.pair.role = .standby)
    (ha : aclAllows s 8 0x1011 0 2 = false) : unheard s = deny 8 0x1011 0 2 s := by
  unfold unheard laneIsIn pairWrites
  rw [if_pos (by simp [hp, hl, hr, ha])]

/-- A record in sequence only moves the sequence on (R393). -/
theorem laneIn_inSequence {seq : Nat} {s : State} (h : seq = s.pair.laneSeq) :
    laneIn seq s = modPair (fun p => { p with laneSeq := (seq + 1) % 2 ^ 32 }) s := by
  unfold laneIn
  dsimp only
  rw [if_pos (decide_eq_true h)]

/-! ### The rows of ACT_IN -/

theorem exec_actInLoss_standby {dt : Nat} {s b : State} (hr : (begin_ dt s).pair.role = .standby)
    (hp : powered (begin_ dt s) = true) (ha : (begin_ dt s).pair.auto = true)
    (hb : b = modPair (fun p => { p with actIn := false, actInAt := (begin_ dt s).up, interlockFault := false })
      (begin_ dt s)) :
    exec (.actInLoss dt) s = .next (reportPair (fun _ => modPair (fun p =>
      { p with deadFrom := some (begin_ dt s).up, takeoverCause := takeoverCause b }) b) (begin_ dt s)) := by
  change execActInLoss dt s = _
  unfold execActInLoss
  generalize begin_ dt s = a at *
  refine congrArg _ (reportPair_congr ?_)
  dsimp only
  rw [← hb]
  have hbr : b.pair.role = .standby := hb ▸ hr
  have hbp : powered b = true := hb ▸ hp
  have hba : b.pair.auto = true := hb ▸ ha
  rw [hbr]
  dsimp only
  rw [if_pos (Bool.and_eq_true_iff.2 ⟨hbp, hba⟩)]
  subst hb
  rfl

theorem exec_actInLoss_arbitrating {dt : Nat} {s b : State} (hr : (begin_ dt s).pair.role = .arbitrating)
    (hb : b = modPair (fun p => { p with actIn := false, actInAt := (begin_ dt s).up, interlockFault := false })
      (begin_ dt s)) :
    exec (.actInLoss dt) s = .next (reportPair (fun _ => modPair (fun p =>
      { p with arbUntil := (begin_ dt s).up + p.arbWait }) b) (begin_ dt s)) := by
  change execActInLoss dt s = _
  unfold execActInLoss
  generalize begin_ dt s = a at *
  refine congrArg _ (reportPair_congr ?_)
  dsimp only
  rw [← hb]
  have hbr : b.pair.role = .arbitrating := hb ▸ hr
  rw [hbr]
  subst hb
  rfl

theorem exec_actInActive_arbitrating {dt : Nat} {s : State} (hr : (begin_ dt s).pair.role = .arbitrating)
    (hp : powered (begin_ dt s) = true) (he : (begin_ dt s).sys.everReady = true) :
    exec (.actInActive dt) s = .next (reportPair (fun x => becomeStandby (modPair (fun p =>
      { p with actIn := true, actInAt := x.up, deadFrom := none, loaded := false }) x)) (begin_ dt s)) := by
  change execActInActive dt s = _
  unfold execActInActive
  generalize begin_ dt s = a at *
  refine congrArg _ (reportPair_congr ?_)
  dsimp only
  split
  next => exact if_pos (Bool.and_eq_true_iff.2 ⟨hp, he⟩)
  next h => exact absurd (hr.symm.trans h) (by decide)
  next h _ => exact absurd hr h

/-! ### Taking over -/

/-- The state of a standby that takes over, before the boundaries it missed are passed (R398 to R401): `s` is the state
in which it takes over, `b` the one with the stop of the takeover. -/
def takeoverResumed (s b : State) : State :=
  { b with
    execs := b.execs ++ (match s.pair.mirror with | some m => m.execs | none => []),
    time := { b.time with waiting := b.time.waiting.filter (fun p => !(p.req.at_ && decide (p.req.q = 17))) },
    uz := { b.uz with seq := b.uz.seq + 2 ^ 20 },
    rse := { b.rse with
      rovers := b.rse.rovers.map (fun p => (p.1, { p.2 with
        handover := p.2.binding.isSome, rebase := p.2.binding.isSome && p.2.filter.isSome, handoverEpochs := 0,
        ready := (match p.2.solving with | some (e, _) => e :: p.2.ready | none => p.2.ready), solving := none,
        baseSlips := [], gap := false })),
      clusters := [none, none, none, none], bases := b.rse.own, arp := b.gnss.arp, arpRef := b.gnss.arp },
    spin := { b.spin with driven := false } }

theorem exec_takeoverComplete {dt k : Nat} {s c : State} (hp : powered (begin_ dt s) = true)
    (hl : (begin_ dt s).pair.loaded = true) (hr : (begin_ dt s).pair.role = .standby)
    (hi : (begin_ dt s).pair.actIn = false)
    (hk : (k, c) = passBoundaries (takeoverResumed (begin_ dt s) (takeoverStop (begin_ dt s)))) :
    exec (.takeoverComplete dt) s = .next (announcePair (abandonRound (takeoverFrames k (becomeActive
      (begin_ dt s).pair.takeoverCause
      (4000 + ((begin_ dt s).up - (begin_ dt s).pair.deadFrom.getD (begin_ dt s).up))
      (begin_ dt s).pair.lastMirror k c)))) := by
  change execTakeoverComplete dt s = _
  unfold execTakeoverComplete
  dsimp only
  generalize begin_ dt s = a at *
  rw [if_neg (by simp [hp, hl, hr, hi])]
  change Host.Outcome.next (announcePair (abandonRound (takeoverFrames
    (passBoundaries (takeoverResumed a (takeoverStop a))).1 (becomeActive a.pair.takeoverCause
      (4000 + (a.up - a.pair.deadFrom.getD a.up)) a.pair.lastMirror
      (passBoundaries (takeoverResumed a (takeoverStop a))).1
      (passBoundaries (takeoverResumed a (takeoverStop a))).2)))) = _
  rw [← hk]

/-! ### The lane's records -/

/-- The state in which a MIRROR record is read (R394): its tick and size are noted. -/
def mirrorNoted (seq : Nat) (m : MirrorData) (s : State) : State :=
  modPair (fun p => { p with lastMirror := m.tick.number, mirrorBytes := m.bytes }) (laneIn seq s)

theorem exec_mirror_unreadable {seq dt : Nat} {m : MirrorData} {s : State} (hl : listens (begin_ dt s) = true)
    (hm : readable (mirrorNoted seq m (begin_ dt s)) m = false) :
    exec (.mirror seq m dt) s = .next (reportPair (fun _ => modPair (fun p =>
      { p with mirrorIncompat := true, synced := false }) (mirrorNoted seq m (begin_ dt s))) (begin_ dt s)) := by
  change execMirror seq m dt s = _
  unfold execMirror
  dsimp only
  generalize begin_ dt s = a at *
  rw [if_neg (by simp [hl])]
  refine congrArg _ (reportPair_congr ?_)
  change (if (!readable (mirrorNoted seq m a) m) = true then _ else _) = _
  exact if_pos (by simp [hm])

/-- The first MIRROR record that a standby can read (R396). -/
theorem exec_mirror_first {seq dt : Nat} {m : MirrorData} {s c : State} (hl : listens (begin_ dt s) = true)
    (hm : readable (mirrorNoted seq m (begin_ dt s)) m = true)
    (hn : (mirrorNoted seq m (begin_ dt s)).pair.mirror = none)
    (hc : c = modPair (fun p => { p with synced := !p.resync && m.digestsMatch }) (takeMirror m (modPair (fun p =>
      { p with mirrorIncompat := false, mirror := some m }) (mirrorNoted seq m (begin_ dt s))))) :
    exec (.mirror seq m dt) s = .next (reportPair (fun _ => sendHealth (
      if latchedIn m.stop then modPair (fun p => { p with resetOwed := false }) c
      else if c.pair.resetOwed then followReset c else c)) (begin_ dt s)) := by
  change execMirror seq m dt s = _
  unfold execMirror
  dsimp only
  generalize begin_ dt s = a at *
  rw [if_neg (by simp [hl])]
  refine congrArg _ (reportPair_congr ?_)
  change (if (!readable (mirrorNoted seq m a) m) = true then _ else _) = _
  rw [if_neg (by simp [hm])]
  subst hc
  change sendHealth (if latchedIn m.stop = true then _
    else if ((match (mirrorNoted seq m a).pair.mirror with | some o => latchedIn o.stop | none => false) || _) = true
      then _ else _) = _
  rw [hn]
  dsimp only
  rw [Bool.false_or]
  rfl

/-- Emptying queues that are empty changes nothing. -/
theorem uz_emptied {u : Uz} (hh : u.held = []) (hs : u.staged = []) : { u with held := [], staged := [] } = u := by
  cases u
  simp only at hh hs
  subst hh hs
  rfl

theorem exec_released_empty {seq n dt : Nat} {s : State} (hl : listens (begin_ dt s) = true)
    (hh : (begin_ dt s).uz.held = []) (hs : (begin_ dt s).uz.staged = [])
    (hq : seq = (begin_ dt s).pair.laneSeq) :
    exec (.released seq n dt) s = .next (reportPair (fun y =>
      let b := modPair (fun p => { p with laneSeq := (seq + 1) % 2 ^ 32, released := some n }) y
      { b with tick := { b.tick with
        emitted := b.tick.emitted || decide ((n + 1) % 2 ^ 32 = b.tick.number) } }) (begin_ dt s)) := by
  change execReleased seq n dt s = _
  unfold execReleased
  dsimp only
  generalize begin_ dt s = a at *
  rw [if_neg (by simp [hl])]
  refine congrArg _ (reportPair_congr ?_)
  rw [laneIn_inSequence hq]
  simp only [modPair, hh, hs, List.append_nil, List.filter_nil, List.isEmpty_nil, if_true]
  rw [uz_emptied hh hs]
  rfl

theorem exec_resyncComplete_latched {dt : Nat} {m : MirrorData} {s b c : State}
    (hl : listens (begin_ dt s) = true) (hr : (begin_ dt s).pair.resync = true)
    (hm : readable (begin_ dt s) m = true) (hlat : latchedIn m.stop = true)
    (hb : b = takeMirror m (modPair (fun p =>
      { p with mirrorIncompat := false, mirror := some m, resync := false }) (begin_ dt s)))
    (hc : c = { b with rse := { (mirrorOn (begin_ dt s).up m).rse with
      lanes := b.rse.lanes, mhz := b.rse.mhz, subs := b.rse.subs } }) :
    exec (.resyncComplete m dt) s =
      .next (reportPair (fun _ => modPair (fun p => { p with synced := m.digestsMatch }) c) (begin_ dt s)) := by
  change execResyncComplete m dt s = _
  unfold execResyncComplete
  dsimp only
  generalize begin_ dt s = a at *
  rw [if_neg (by simp [hl, hr])]
  refine congrArg _ (reportPair_congr ?_)
  rw [if_neg (by simp [hm]), if_pos hlat, ← hb, ← hc]

/-- Every record of a standby's lane is denied where the access tables deny the pair's master its core data (R429). -/
theorem exec_laneRecord_denied {seq dt n : Nat} {m : MirrorData} {x : LaneInput} {e : BaseEpoch} {arp : Option Arp}
    {s : State} (hp : powered (begin_ dt s) = true) (hl : (begin_ dt s).pair.laneUp = true)
    (hr : (begin_ dt s).pair.role = .standby) (ha : aclAllows (begin_ dt s) 8 0x1011 0 2 = false) {i : Instr}
    (hi : i ∈ [Instr.mirror seq m dt, .input seq x dt, .base seq e arp dt, .released seq n dt, .resyncComplete m dt]) :
    exec i s = .next (deny 8 0x1011 0 2 (begin_ dt s)) := by
  have hun := unheard_denied hp hl hr ha
  have hno := not_listens_of_denied ha
  simp only [List.mem_cons, List.not_mem_nil, or_false] at hi
  rcases hi with rfl | rfl | rfl | rfl | rfl
  case inl =>
    change execMirror seq m dt s = _
    unfold execMirror
    dsimp only
    rw [if_pos (by simp [hno]), hun]
  case inr.inl =>
    change execInput seq x dt s = _
    unfold execInput
    dsimp only
    rw [if_neg (by simp [hno]), hun]
  case inr.inr.inl =>
    change execBase seq e arp dt s = _
    unfold execBase
    dsimp only
    rw [if_pos (by simp [hno]), hun]
  case inr.inr.inr.inl =>
    change execReleased seq n dt s = _
    unfold execReleased
    dsimp only
    rw [if_pos (by simp [hno]), hun]
  case inr.inr.inr.inr =>
    change execResyncComplete m dt s = _
    unfold execResyncComplete
    dsimp only
    rw [if_pos (by simp [hno]), hun]

theorem exec_hexluxLaneChange {up prefer : Bool} {mac dt : Nat} {s : State} (hp : powered (begin_ dt s) = true)
    (he : (begin_ dt s).pair.en = true) (hr : (begin_ dt s).pair.role ≠ .standby) :
    exec (.hexluxLaneChange up prefer mac dt) s = .next (reportPair (modPair (fun p => { p with
      laneUp := up, partnerCfg := if up then some (prefer, mac) else none, laneSeq := 0, laneOut := 0, synced := false,
      resync := false, partnerReady := false, partnerRole := 0, health := 0 })) (begin_ dt s)) := by
  change execHexluxLaneChange up prefer mac dt s = _
  unfold execHexluxLaneChange
  dsimp only
  generalize begin_ dt s = a at *
  rw [if_neg (by simp [hp, he])]
  refine congrArg _ (reportPair_congr ?_)
  refine (if_neg hr).trans ?_
  unfold modPair
  dsimp only
  rw [decide_eq_false hr]

end Sys2Proof.Machine
end

section
/-! PROOFS. The rows of the redundant pair, put together. -/
set_option autoImplicit false
namespace Sys2Proof.Machine

theorem exec_actCollision {dt i : Nat} {s b : State} (hp : powered (begin_ dt s) = true)
    (hr : (begin_ dt s).pair.role = .active) (ha : (begin_ dt s).pair.actIn = true)
    (ht : (begin_ dt s).pair.actInAt + 8000 < (begin_ dt s).up)
    (hb : (i, b) = drawFresh (dropSwitch (raiseFault 7 (begin_ dt s)))) :
    exec (.actCollision dt) s = .next (setRole .arbitrating (dropFrames (modPair (fun p => { p with
      arbWait := 1000000 + 20000 * (Config.freshDelay i).toNat,
      arbUntil := b.up + (1000000 + 20000 * (Config.freshDelay i).toNat) }) b))) := by
  change execActCollision dt s = _
  unfold execActCollision
  dsimp only
  rw [if_pos (by simp [hp, hr, ha, ht]), ← hb]

theorem exec_arbitrationTimeout {k : Nat} {s c : State} (hp : powered s = true) (hr : s.pair.role = .arbitrating)
    (he : s.sys.everReady = true) (ha : s.pair.actIn = false)
    (hk : (k, c) = passBoundaries (beginUp s.pair.arbUntil s)) :
    exec .arbitrationTimeout s = .next (abandonRound (becomeActive 3 0 s.pair.lastMirror k c)) := by
  change execArbitrationTimeout s = _
  unfold execArbitrationTimeout
  rw [if_pos (by simp [hp, hr, he, ha])]
  dsimp only
  rw [← hk]

theorem exec_switchTicksExpire {t : Nat} {s : State} (hp : powered s = true) (hw : s.stop.wdogArmed = true)
    (hr : s.pair.role = .active)
    (ht : t = max (s.tick.lastCompleted.getD 0) s.stop.wdogFrom + s.pair.switchTicks * periodNs s) :
    exec .switchTicksExpire s = .next (leaveActive (beginUp t s)) := by
  have hat : switchAt s = some t := by
    unfold switchAt
    rw [if_pos (by simp [hw, hr]), ht]
  change execSwitchTicksExpire s = _
  unfold execSwitchTicksExpire
  rw [hat]
  dsimp only
  rw [if_pos hp]

/-- A health word with the partner's role unchanged (R402). -/
theorem exec_health {seq w role fw dt : Nat} {ready : Bool} {s b : State}
    (ha : aclAllows (begin_ dt s) 8 0x1011 0 2 = true) (hp : powered (begin_ dt s) = true)
    (hl : (begin_ dt s).pair.laneUp = true) (hr : (begin_ dt s).pair.role = .active)
    (hrole : role % 4 = (begin_ dt s).pair.partnerRole)
    (hb : b = reportPair (modPair (fun p => { p with
        laneSeq := (seq + 1) % 2 ^ 32, health := w % 256, synced := Nat.testBit w 8, partnerRole := role % 4,
        partnerReady := ready, partnerFw := fw })) (begin_ dt s)) :
    exec (.health seq w role ready fw dt) s = .next (if role % 4 = 1 then ceaseFault 7 b else b) := by
  change execHealth seq w role ready fw dt s = _
  unfold execHealth
  dsimp only
  rw [if_neg (by simp [hp, hl, hr]), if_neg (by simp [pairWrites, ha]), if_pos hrole, hb]

theorem exec_health_denied {seq w role fw dt : Nat} {ready : Bool} {s : State}
    (ha : aclAllows (begin_ dt s) 8 0x1011 0 2 = false) (hp : powered (begin_ dt s) = true)
    (hl : (begin_ dt s).pair.laneUp = true) (hr : (begin_ dt s).pair.role = .active) :
    exec (.health seq w role ready fw dt) s = .next (deny 8 0x1011 0 2 (begin_ dt s)) := by
  change execHealth seq w role ready fw dt s = _
  unfold execHealth
  dsimp only
  rw [if_neg (by simp [hp, hl, hr]), if_pos (by simp [pairWrites, ha])]

theorem exec_pfaultInChange {f : Bool} {dt : Nat} {s : State} (hd : (begin_ dt s).pair.deadFrom = none) :
    exec (.pfaultInChange f dt) s = .next (reportPair (modPair (fun p =>
      { p with pfaultIn := f, interlockFault := f && p.actIn && decide (p.role = .standby) })) (begin_ dt s)) := by
  change execPfaultInChange f dt s = _
  unfold execPfaultInChange
  generalize begin_ dt s = a at *
  refine congrArg _ (reportPair_congr ?_)
  refine if_neg ?_
  change ¬ (a.pair.deadFrom.isSome = true)
  simp [hd]

theorem exec_deadTimeExpire {t : Nat} {s : State} (ht : s.pair.deadFrom = some t) (hp : powered s = true)
    (hr : s.pair.role = .standby) (ha : s.pair.actIn = false) :
    exec .deadTimeExpire s = .next (modPair (fun p => { p with loaded := true }) (beginUp (t + 8000) s)) := by
  change execDeadTimeExpire s = _
  unfold execDeadTimeExpire
  rw [ht]
  dsimp only
  rw [if_pos (by simp [hp, hr, ha])]

theorem exec_input {seq dt : Nat} {x : LaneInput} {s : State} (hl : listens (begin_ dt s) = true) :
    exec (.input seq x dt) s = .next (reportPair (fun y => followInput x (laneIn seq y)) (begin_ dt s)) := by
  change execInput seq x dt s = _
  unfold execInput
  dsimp only
  rw [if_pos hl]

theorem exec_base {seq dt : Nat} {e : BaseEpoch} {arp : Option Arp} {s : State} (hl : listens (begin_ dt s) = true) :
    exec (.base seq e arp dt) s =
      .next (reportPair (fun y => takeBase e.time e.recs (setArp arp (laneIn seq y))) (begin_ dt s)) := by
  change execBase seq e arp dt s = _
  unfold execBase
  dsimp only
  rw [if_neg (by simp [hl])]

theorem exec_laneError {dt : Nat} {s : State} (hl : laneIsIn (begin_ dt s) = true) :
    exec (.laneError dt) s = .next (reportPair startResync (begin_ dt s)) := by
  change execLaneError dt s = _
  unfold execLaneError
  dsimp only
  rw [if_pos hl]

/-- Settles O48: each row by its own branch; the lane's records by whether the standby hears them. -/
theorem pairRowsRun : Obligations.PairRowsRun := by
  unfold Obligations.PairRowsRun
  intro dt s a ha
  subst ha
  refine ⟨fun b hb => ⟨fun hr hp hauto => exec_actInLoss_standby hr hp hauto hb,
      fun hr => exec_actInLoss_arbitrating hr hb⟩,
    fun hr hp he => exec_actInActive_arbitrating hr hp he, fun f hd => exec_pfaultInChange hd,
    fun t ht hp hr hi => exec_deadTimeExpire ht hp hr hi, fun b c k hp hl hr hi hb hk => ?takeover,
    fun b i hp hr hi ht hb => exec_actCollision hp hr hi ht hb,
    fun b c k hp hr he hi hb hk => exec_arbitrationTimeout hp hr he hi (hb ▸ hk),
    fun t hp hw hr ht => exec_switchTicksExpire hp hw hr ht, fun hp hl hr hacl => ?heard,
    fun hp hl hacl => ⟨fun hr seq m x e arp n i hi => exec_laneRecord_denied hp hl hr hacl hi,
      fun hr seq w role ready fw => exec_health_denied hacl hp hl hr⟩,
    fun seq w role ready fw b hacl hp hl hr hrole hb => exec_health hacl hp hl hr hrole hb,
    fun up prefer mac hp he hr => exec_hexluxLaneChange hp he hr, fun fail unit d hp => ?selftest⟩
  case takeover =>
    subst hb
    exact exec_takeoverComplete hp hl hr hi hk
  case heard =>
    have hlis := listens_of hp hl hr hacl
    refine ⟨fun seq m b hb hm => ?_, fun seq m b c hb hm hn hc => ?_, fun seq x => exec_input hlis,
      fun seq e arp => exec_base hlis, fun seq n hh hs hq => exec_released_empty hlis hh hs hq,
      exec_laneError (by simp [laneIsIn, hp, hl, hr]),
      fun m b c hre hm hlat hb hc => exec_resyncComplete_latched hlis hre hm hlat hb hc⟩
    · subst hb
      exact exec_mirror_unreadable hlis hm
    · subst hb
      exact exec_mirror_first hlis hm hn hc
  case selftest =>
    change (∀ r m, _ → execSelftestCycleDone fail unit d dt s = _) ∧
      (_ → _ → execSelftestCycleDone fail unit d dt s = _)
    unfold execSelftestCycleDone
    dsimp only
    rw [if_neg (by simp [hp])]
    refine ⟨fun r m h => by rw [h], fun h hr => ?_⟩
    rw [h]
    dsimp only
    rw [if_pos hr]

end Sys2Proof.Machine
end

section
/-! PROOFS. The rows of the supply, the boot and the PCI Express link. -/
set_option autoImplicit false
namespace Sys2Proof.Machine

/-! ### A rise of EN or of VIN -/

theorem riseActs_boots {s : State} (hp : s.sys.power = .off) (hb : mayBoot s = true) : riseActs s = bootUp s := by
  unfold riseActs
  rw [hp]
  dsimp only
  rw [if_pos hb]

theorem riseActs_waits {s : State} (hp : s.sys.power = .off) (hb : mayBoot s = false) : riseActs s = s := by
  unfold riseActs
  rw [hp]
  dsimp only
  rw [if_neg (by simp [hb])]

theorem riseActs_held {s : State} (hp : s.sys.power = .poweringDown) :
    riseActs s = { s with sys := { s.sys with heldRise := true } } := by
  unfold riseActs
  rw [hp]

theorem exec_vinOn {dt : Nat} {s a : State} (ha : a = begin_ dt s) (hv : a.sys.vinOn = false) :
    exec (.vinOn dt) s =
      .next (riseActs { a with sys := { a.sys with vinOn := true } }) := by
  change execVinOn dt s = _
  unfold execVinOn
  dsimp only
  rw [← ha, if_neg (by simp only [hv, Bool.false_eq_true, not_false_eq_true])]

theorem exec_enRise {dt : Nat} {s a : State} (ha : a = begin_ dt s) (he : a.sys.en = false) :
    exec (.enRise dt) s = .next (riseActs { a with sys := { a.sys with en := true } }) := by
  change execEnRise dt s = _
  unfold execEnRise
  dsimp only
  rw [← ha, if_neg (by simp only [he, Bool.false_eq_true, not_false_eq_true])]

/-! ### The supply -/

/-- The state in which an end of a supply crossing is noted (R446). -/
def crossingCeased (high : Bool) (mv : Nat) (s : State) : State :=
  ceaseFive (raise 0x0F14 (natOfBool high) [wordOf mv] .all { s with
    sys := { s.sys with vinHigh := s.sys.vinHigh && !high, vinLow := s.sys.vinLow && high },
    health := { s.health with vin := mv } })

theorem crossingCeased_low (mv : Nat) (s : State) : crossingCeased false mv s =
    ceaseFive (raise 0x0F14 0 [wordOf mv] .all
      { s with sys := { s.sys with vinLow := false }, health := { s.health with vin := mv } }) := by
  unfold crossingCeased
  rw [Bool.not_false, Bool.and_true, Bool.and_false]
  rfl

theorem crossingCeased_high (mv : Nat) (s : State) : crossingCeased true mv s =
    ceaseFive (raise 0x0F14 1 [wordOf mv] .all
      { s with sys := { s.sys with vinHigh := false }, health := { s.health with vin := mv } }) := by
  unfold crossingCeased
  rw [Bool.not_true, Bool.and_true, Bool.and_false]
  rfl

theorem exec_vinFaultCease {high : Bool} {mv dt : Nat} {s a : State} (ha : a = begin_ dt s) (hp : powered a = true)
    (hv : (if high then a.sys.vinHigh else a.sys.vinLow) = true) :
    exec (.vinFaultCease high mv dt) s = .next (
      let b := crossingCeased high mv a
      if b.sys.vinLow || b.sys.vinHigh || b.stop.faults.contains 2 || !b.sys.everReady then b
      else reportPair (fun x => { x with sys := { x.sys with pfaultOut := false } }) b) := by
  change execVinFaultCease high mv dt s = _
  unfold execVinFaultCease
  dsimp only
  rw [← ha, if_pos (Bool.and_eq_true_iff.2 ⟨hp, hv⟩)]
  unfold crossingCeased
  dsimp only

/-! ### The boot and the link -/

theorem exec_bootReady {dt ms : Nat} {s a b : State} (ha : a = begin_ dt s) (hp : powered a = true)
    (hi : a.sys.boot = .init) (hr : a.sys.reloading = false)
    (hms : ms = (a.up - a.sys.bootFrom) / 1000000)
    (hb : b = raise 0x0D08 a.sys.bootResult
      [wordOf (natOfBool a.upd.runB), wordOf (trialCount a), wordOf ms] .none
      (ceaseFault 0 { a with
        sys := { a.sys with
          boot := .ready, everReady := true, stage := 5, bootMs := ms,
          pfaultOut := a.sys.vinLow || a.sys.vinHigh },
        net := { a.net with loaded := true }, task := { a.task with periodAt := a.now },
        spin := { a.spin with driven := !a.pair.en } })) :
    exec (.bootReady dt) s = .next (if b.pair.en then arbitrate (bootWait b) b else b) := by
  subst hms hb
  change execBootReady dt s = _
  unfold execBootReady
  dsimp only
  rw [← ha, if_pos (by simp [hp, hi, hr])]
  rfl

theorem exec_pcieLinkError {kind : PcieErr} {dt : Nat} {s a : State} (ha : a = begin_ dt s) (hp : powered a = true)
    (hn : a.sys.perstN = true) :
    exec (.pcieLinkError kind dt) s = .next (
      match kind with
      | .correctable => setSysErr 2 { a with pcie := { a.pcie with ce := cnt32 a.pcie.ce } }
      | .uncorrectable => setSysErr 3 { a with pcie := { a.pcie with ue := cnt32 a.pcie.ue } }
      | .replayTimeout => setSysErr 2 { a with pcie := { a.pcie with replays := cnt32 a.pcie.replays } }
      | .retrain lanes gen => { a with
          sys := { a.sys with hostLanes := lanes, hostGen := gen },
          pcie := { a.pcie with retrains := cnt32 a.pcie.retrains, width := min 2 lanes, gen := min 3 gen } }
      | .malformed => setSysErr 3 { a with pcie := { a.pcie with malformed := cnt32 a.pcie.malformed } }) := by
  change execPcieLinkError kind dt s = _
  unfold execPcieLinkError
  dsimp only
  rw [← ha, if_neg (by simp [hp, hn])]
  cases kind with
  | retrain lanes gen =>
    unfold trainLink
    exact congrArg _ (if_pos hn)
  | correctable => rfl
  | uncorrectable => rfl
  | replayTimeout => rfl
  | malformed => rfl

/-- Settles O49: a rise boots, waits or is held by what the supply and EN allow; the other rows by their own branch. -/
theorem powerRowsRun : Obligations.PowerRowsRun := by
  unfold Obligations.PowerRowsRun
  intro dt s a ha
  refine ⟨fun hoff hj => ⟨fun hv he => ?vinBoots, fun he hv => ?enBoots, fun he hv => ⟨?enWaits, ?vinWaits⟩⟩,
    fun hdown => ⟨fun hv => ?vinHeld, fun he => ?enHeld⟩, fun b hp hb => ?fall, fun b c hb hdown hc => ?downEnd,
    fun mv hp => ⟨fun hl => ?low, fun hh => ?high, fun b hl hh hb hbh => ?lowCease,
      fun b hh hb hbl hbh hbf hbr => ?highCease⟩,
    fun ms b hp hi hr hms hb => ?ready, fun hp hr => ?softReady, fun t b ht hb => ?alive, fun lanes gen => ?perstLow,
    fun lanes gen b hn hb => ?perstHigh, fun hp hn => ?link⟩
  case vinBoots =>
    exact (exec_vinOn ha hv).trans (congrArg _ (riseActs_boots hoff (by simp [mayBoot, hj, he])))
  case enBoots =>
    exact (exec_enRise ha he).trans (congrArg _ (riseActs_boots hoff (by simp [mayBoot, hj, hv])))
  case enWaits =>
    exact (exec_enRise ha he).trans (congrArg _ (riseActs_waits hoff (by simp [mayBoot, hj, hv])))
  case vinWaits =>
    exact (exec_vinOn ha hv).trans (congrArg _ (riseActs_waits hoff (by simp [mayBoot, hj, he])))
  case vinHeld =>
    exact (exec_vinOn ha hv).trans (congrArg _ (riseActs_held hdown))
  case enHeld =>
    exact (exec_enRise ha he).trans (congrArg _ (riseActs_held hdown))
  case fall =>
    have hfall : fallActs a = b := by
      unfold fallActs
      rw [if_pos hp, hb]
    constructor
    · change execEnFall dt s = _
      unfold execEnFall
      dsimp only
      rw [← ha, hfall]
    · change execVinSupFall dt s = _
      unfold execVinSupFall
      dsimp only
      rw [← ha, hfall]
  case downEnd =>
    have hstand : inStandby (beginUp (railsOff s) s) = c := by rw [hc, hb]; rfl
    change (_ → execPowerDownEnd s = _) ∧ (_ → _ → _ → _ → execPowerDownEnd s = _)
    unfold execPowerDownEnd
    rw [if_pos hdown]
    dsimp only
    rw [hstand]
    refine ⟨fun hh => ?_, fun hh he hv hj => ?_⟩
    · rw [if_neg (by simp [hh])]
    · rw [if_pos (by simp [hh, mayBoot, he, hv, hj])]
  case low =>
    change execVinLow mv dt s = _
    unfold execVinLow
    dsimp only
    rw [← ha, if_pos (by simp only [hp, hl, Bool.not_false, Bool.and_self])]
  case high =>
    change execVinHigh mv dt s = _
    unfold execVinHigh
    dsimp only
    rw [← ha, if_pos (by simp only [hp, hh, Bool.not_false, Bool.and_self])]
  case lowCease =>
    rw [exec_vinFaultCease ha hp (by simpa using hl), crossingCeased_low, ← hb]
    dsimp only
    rw [if_pos (by simp [hbh])]
  case highCease =>
    rw [exec_vinFaultCease ha hp (by simpa using hh), crossingCeased_high, ← hb]
    dsimp only
    rw [if_neg (by simp only [hbl, hbh, hbf, hbr]; decide)]
  case ready =>
    rw [exec_bootReady ha hp hi hr hms hb]
    exact ⟨fun he => by rw [if_neg (by simp [he])], fun he => by rw [if_pos he]⟩
  case softReady =>
    change execSoftResetReady dt s = _
    unfold execSoftResetReady
    dsimp only
    rw [← ha, if_pos (Bool.and_eq_true_iff.2 ⟨hp, hr⟩)]
  case alive =>
    change execFwAliveTimeout s = _
    unfold execFwAliveTimeout
    rw [ht, hb]
    rfl
  case perstLow =>
    change execPerstNChange ⟨false, lanes, gen⟩ dt s = _
    unfold execPerstNChange
    dsimp only
    rw [← ha, if_neg (by decide)]
  case perstHigh =>
    have hexec : exec (.perstNChange ⟨true, lanes, gen⟩ dt) s = .next (if powered b then trainLink b else b) := by
      subst hb
      change execPerstNChange ⟨true, lanes, gen⟩ dt s = _
      unfold execPerstNChange
      dsimp only
      rw [← ha, if_pos rfl, if_neg (c := a.sys.perstN = true) (by simp [hn])]
    have hbp : powered b = powered a := by rw [hb]; rfl
    rw [hexec, hbp]
    refine ⟨fun hp => by rw [if_neg (by simp [hp])], fun hp => ?_⟩
    rw [if_pos hp]
    subst hb
    rfl
  case link =>
    exact ⟨exec_pcieLinkError ha hp hn, exec_pcieLinkError ha hp hn, exec_pcieLinkError ha hp hn,
      exec_pcieLinkError ha hp hn,
      fun w g => exec_pcieLinkError ha hp hn⟩

end Sys2Proof.Machine
end

section
/-! PROOFS. The rows of the update and of the configuration session. -/
set_option autoImplicit false
namespace Sys2Proof.Machine

theorem natOfBool_false : natOfBool false = 0 := rfl

theorem natOfBool_true : natOfBool true = 1 := rfl

/-! ### The end of a verification (R417) -/

theorem exec_updVerifyDone_good {dt : Nat} {s a b : State} {k : Bank} {r : Req} (ha : a = begin_ dt s)
    (hp : powered a = true) (hs : a.upd.state = .verifying) (hr : a.upd.verifyReq = some r)
    (hk : k = getBank a (staging a)) (hb : b = { a with upd := { a.upd with verifyReq := none } })
    (hsha : sha384 k.payload = hdrDigest k.hdr) (hlen : isForerunner k.hdr = true ∨ hdrCoreLen k.hdr ≤ k.payload.length) :
    exec (.updVerifyDone dt) s = .next (complete r .ok 0 [] (raise 0x0D02 0 [wordOf (hdrVersion k.hdr)] .all
      (setUpd .verified (setBank (staging a) { k with valid := true } b)))) := by
  have hgood : (decide (sha384 k.payload = hdrDigest k.hdr) &&
      (isForerunner k.hdr || decide (hdrCoreLen k.hdr ≤ k.payload.length))) = true := by
    rw [decide_eq_true hsha, Bool.true_and]
    simpa using hlen
  have hstag : staging b = staging a := by rw [hb]; rfl
  change execUpdVerifyDone dt s = _
  unfold execUpdVerifyDone
  dsimp only
  rw [← ha, if_pos (by simp [hp, hs]), ← hk, ← hb, hstag, hgood, hr]
  simp only [if_true, Bool.not_true, natOfBool_false]

theorem exec_updVerifyDone_bad {dt : Nat} {s a b : State} {k : Bank} {r : Req} (ha : a = begin_ dt s)
    (hp : powered a = true) (hs : a.upd.state = .verifying) (hr : a.upd.verifyReq = some r)
    (hk : k = getBank a (staging a)) (hb : b = { a with upd := { a.upd with verifyReq := none } })
    (hsha : sha384 k.payload ≠ hdrDigest k.hdr) :
    exec (.updVerifyDone dt) s = .next (complete r .auth 3 [] (raise 0x0D02 1 [wordOf (hdrVersion k.hdr)] .all
      (setUpd .headerOk (let c := setBank (staging a) { k with payload := [] } b
                         { c with upd := { c.upd with next := 0 } })))) := by
  have hbad : (decide (sha384 k.payload = hdrDigest k.hdr) &&
      (isForerunner k.hdr || decide (hdrCoreLen k.hdr ≤ k.payload.length))) = false := by
    rw [decide_eq_false hsha, Bool.false_and]
  have hstag : staging b = staging a := by rw [hb]; rfl
  change execUpdVerifyDone dt s = _
  unfold execUpdVerifyDone
  dsimp only
  rw [← ha, if_pos (by simp [hp, hs]), ← hk, ← hb, hstag, hbad, hr]
  simp only [Bool.false_eq_true, if_false, Bool.not_false, natOfBool_true]

/-! ### The doff (R418 to R421) -/

theorem exec_doff_activation {exported : Bool} {s : State} (hp : powered s = true) (hd : doffDue s = true)
    (hs : s.upd.state = .activating) (hw : s.upd.window = true) :
    exec (.doff exported) s = .next (if exported then doff true (beginAt s.tick.nextAt s)
      else doffFailed true (beginAt s.tick.nextAt s)) := by
  have hact : (decide (s.upd.state = .activating) && s.upd.window) = true := by simp [hs, hw]
  change execDoff exported s = _
  unfold execDoff
  dsimp only
  rw [hact, if_pos (by simp [hp, hd])]

theorem exec_doff_revert {exported : Bool} {s : State} (hp : powered s = true) (hd : doffDue s = true)
    (hs : s.upd.state = .reverting) (hh : s.upd.prevHeld = true) :
    exec (.doff exported) s = .next (if exported then doff false (beginAt s.tick.nextAt s)
      else doffFailed false (beginAt s.tick.nextAt s)) := by
  have hact : (decide (s.upd.state = .activating) && s.upd.window) = false := by simp [hs]
  change execDoff exported s = _
  unfold execDoff
  dsimp only
  rw [hact, if_pos (by simp [hp, hd, hs, hh])]

/-- A revert restarts at an input snapshot: no tick runs, or a boundary is at hand (R421). -/
theorem atSnapshot_of {s : State} (h : ticking s = false ∨ s.now = s.tick.nextAt ∨
    s.tick.started = true ∧ s.now = s.tick.boundary) : atSnapshot s = true := by
  simpa [atSnapshot, or_assoc] using h

/-- Settles O50: each row takes the branch its conditions name; a doff by which of the two it ends. -/
theorem updateRowsRun : Obligations.UpdateRowsRun := by
  unfold Obligations.UpdateRowsRun
  intro dt s a ha
  refine ⟨fun hp hst => ?idle, fun b k r hp hst hr hk hb => ⟨exec_updVerifyDone_good ha hp hst hr hk hb,
      exec_updVerifyDone_bad ha hp hst hr hk hb⟩, fun b hp hst hn hw hb => ?loaded,
    fun hp hd hst hw => ⟨(exec_doff_activation hp hd hst hw).trans (congrArg _ (if_pos rfl)),
      (exec_doff_activation hp hd hst hw).trans (congrArg _ (if_neg Bool.false_ne_true))⟩,
    fun hp hd hst hh => ⟨(exec_doff_revert hp hd hst hh).trans (congrArg _ (if_pos rfl)),
      (exec_doff_revert hp hd hst hh).trans (congrArg _ (if_neg Bool.false_ne_true))⟩, fun hp hst => ?window,
    fun hp hr hwhen => ?restart, fun hp hph => ?session⟩
  case idle =>
    change execUpdIdleTimeout s = _
    unfold execUpdIdleTimeout
    rw [if_pos (by simpa [hp] using hst)]
  case loaded =>
    change execUpdBankLoaded dt s = _
    unfold execUpdBankLoaded
    dsimp only
    rw [← ha, if_pos (by simp [hp, hst, hn, hw]), hb]
  case window =>
    change execConfirmWindowExpire s = _
    unfold execConfirmWindowExpire
    rw [if_pos (by simp [hp, hst])]
  case restart =>
    have hwhen' : (decide (a.sys.boot = .fault) || (latched a && !anySpindleActive a &&
        (decide (a.upd.state ≠ .reverting) || atSnapshot a))) = true := by
      rcases hwhen with hf | ⟨hl, hi, hrev⟩
      · simp [hf]
      · rcases hrev with hrev | hsnap
        · simp [hl, hi, hrev]
        · simp [hl, hi, atSnapshot_of hsnap]
    change execRevertRestart dt s = _
    unfold execRevertRestart
    dsimp only
    rw [← ha, if_pos (by rw [hwhen', hp, hr]; rfl)]
  case session =>
    change execCfgSessionTimeout s = _
    unfold execCfgSessionTimeout
    rw [if_pos (by simp [hp, hph])]

end Sys2Proof.Machine
end

section
/-! PROOFS. The rows of health and temperature. -/
set_option autoImplicit false
namespace Sys2Proof.Machine

theorem exec_scrub {m row dt : Nat} {corrected endPass : Bool} {s a : State} (ha : a = begin_ dt s)
    (hp : powered a = true) (hm : m ≤ 10) :
    exec (.scrub m row corrected endPass dt) s = .next (
      let b := if corrected then correctedError m row a else a
      if endPass then setMem m { getMem b m with scrubEnd := b.now / nsPerSec } b else b) := by
  change execScrub m row corrected endPass dt s = _
  unfold execScrub
  dsimp only
  rw [if_neg (by omega), ← ha, if_neg (by simp [hp])]

/-- A unit that fails is of a pool and a place that the module has (R434). -/
def unitKnown (u : UnitFail) (s : State) : Bool :=
  match u.pool with
  | 0 => decide (u.cluster < 4)
  | 1 => decide (u.unit < nChannels s.member)
  | 2 => decide (u.cluster ≤ 8)
  | _ => false

/-- What the failure of a unit leads to, by its pool (R434). -/
def unitFails (u : UnitFail) (s : State) : State :=
  match u.pool with
  | 0 => laneFails u.unit u.cluster u.spareGood s
  | 1 => channelFails u.unit u.spareGood s
  | _ => rowFails u.cluster u.unit u.place u.spareGood s

theorem exec_unitFailure {u : UnitFail} {dt : Nat} {s a : State} (ha : a = begin_ dt s) (hp : powered a = true)
    (hk : unitKnown u s = true) : exec (.unitFailure u dt) s = .next (unitFails u a) := by
  change (if !unitKnown u s then _ else
    Host.Outcome.next (if !powered (begin_ dt s) then begin_ dt s else unitFails u (begin_ dt s))) = _
  rw [if_neg (by simp [hk]), ← ha, if_neg (by simp [hp])]

theorem exec_marginReplan_hour {sC sS hour dt : Nat} {s : State} (hp : powered s = true)
    (hh : s.health.replanHour = hour) :
    exec (.marginReplan 0 sC sS hour dt) s =
      .next (replan 0 sC sS (noteHour (applySolve (beginUp (nextHourUp s) s)))) := by
  change execMarginReplan 0 sC sS hour dt s = _
  unfold execMarginReplan
  rw [if_neg (by omega), if_pos rfl, if_pos (by simp [hp, hh])]

theorem exec_marginReplan_cause {cause sC sS hour dt : Nat} {s a : State} (ha : a = begin_ dt s)
    (hp : powered a = true) (h1 : 1 ≤ cause) (h2 : cause ≤ 2) (hd : cause ∈ a.health.replanDue) :
    exec (.marginReplan cause sC sS hour dt) s = .next (replan cause sC sS (takeCause cause (applySolve a))) := by
  change execMarginReplan cause sC sS hour dt s = _
  unfold execMarginReplan
  dsimp only
  rw [if_neg (by omega), if_neg (by omega), ← ha, if_pos (by simp [hp, hd])]

/-- Settles O51: each row takes the branch its conditions name; a failed unit by its pool. -/
theorem healthRowsRun : Obligations.HealthRowsRun := by
  unfold Obligations.HealthRowsRun
  intro dt s a ha hp
  refine ⟨fun m row hm => ⟨exec_scrub ha hp hm, exec_scrub ha hp hm, exec_scrub ha hp hm⟩,
    fun m off place hm => ?ecc, fun u hu hc => ?lane, fun u hu hc => ?channel, fun u hu hc => ?row,
    fun sC sS hour b hps hh hb => ?hour, fun cause sC sS hour b h1 h2 hd hb => ?cause, fun t => ?lid,
    fun hps ht => ?throttle, ?junction⟩
  case ecc =>
    change execEccUncorrectable m off place dt s = _
    unfold execEccUncorrectable
    dsimp only
    rw [if_neg (by omega), ← ha, if_pos hp]
  case lane =>
    rw [exec_unitFailure ha hp (by rw [unitKnown, hu]; exact decide_eq_true hc)]
    simp only [unitFails, hu]
  case channel =>
    rw [exec_unitFailure ha hp (by rw [unitKnown, hu]; exact decide_eq_true hc)]
    simp only [unitFails, hu]
  case row =>
    rw [exec_unitFailure ha hp (by rw [unitKnown, hu]; exact decide_eq_true hc)]
    simp only [unitFails, hu]
  case hour =>
    rw [exec_marginReplan_hour hps hh, hb]
    rfl
  case cause =>
    rw [exec_marginReplan_cause ha hp h1 h2 hd, hb]
    rfl
  case lid =>
    change execLidTempSample t dt s = _
    unfold execLidTempSample
    dsimp only
    rw [← ha, if_pos hp]
  case throttle =>
    change execThrottleStep s = _
    unfold execThrottleStep
    rw [if_pos (by simp [hps, ht])]
  case junction =>
    change execJunctionOvertemp dt s = _
    unfold execJunctionOvertemp
    dsimp only
    rw [← ha, if_pos hp]

end Sys2Proof.Machine
end
